-- ==== Sys2Proof/Word.lean ====
section
/-! DEFINITION. The word types of the block and the shapes of its register table. A register is 48 bits wide (R7); a byte is 8
bits. Positions are 48-bit words of 1/256 count (R13) and ticks are 48-bit counts of 5 ns (R20). -/

namespace Sys2Proof

/-- A 48-bit register, position or tick (R7, R13). -/
abbrev Word := BitVec 48

/-- A byte. -/
abbrev Byte := BitVec 8

namespace Machine

/-- A sparse table: pairs of a key and a value, keys strictly rising, no value equal to what an unlisted key reads as. -/
abbrev Sparse (α : Type) := List (Nat × α)

/-- The programmable engines a host can load: firing sequencers, control engines and move channels (R16). -/
inductive Engine where
  | sq (n : Nat)
  | ce (n : Nat)
  | mv (n : Nat)
  deriving DecidableEq, Repr

/-- A field of a register: the register's BAR0 byte address, the field's lowest bit and its width (R7). -/
structure Field where
  reg : Nat
  lo : Nat
  width : Nat
  deriving DecidableEq, Repr

/-- The access types of R10 that the register tables of this part use. -/
inductive Access where
  | ro | rw | wo | w1c | rws
  deriving DecidableEq, Repr

/-- One field of one register of the table: its place, its access type, and the range a written value is taken to
(`over0`: a value above `max` is taken as 0, otherwise as `max`; a value below `min` is taken as `min`). -/
structure FieldSpec where
  lo : Nat
  width : Nat
  access : Access
  min : Nat
  max : Nat
  over0 : Bool
  deriving DecidableEq, Repr

/-- One row of the register table: `count` registers at `base + stride * n`, each repeated `count2` times `stride2` apart. -/
structure RegSpec where
  base : Nat
  stride : Nat
  count : Nat
  stride2 : Nat
  count2 : Nat
  fields : List FieldSpec
  deriving DecidableEq, Repr

/-- A row of registers whose reset value is not zero. -/
structure ResetRow where
  base : Nat
  stride : Nat
  count : Nat
  stride2 : Nat
  count2 : Nat
  value : Nat
  deriving DecidableEq, Repr

/-- A field that a reset leaves as it stands; `keptByWipe` says that a wipe leaves it too (R12). -/
structure KeptRow where
  base : Nat
  stride : Nat
  count : Nat
  lo : Nat
  width : Nat
  keptByWipe : Bool
  deriving DecidableEq, Repr

end Machine

/-! ### What the world outside gives with some commands -/

/-- The straps as a reset latches them (R445, R447, R454). -/
structure Straps where
  planSel : Nat
  railRole : Bool
  bootsel : Nat
  deriving DecidableEq, Repr, Inhabited

/-- What a start finds: the LPDDR4X size code, the banks that fail the self-test, and the soft calibration records, alignment records
and nozzle table copies that do not verify: of port h, the last copy as h and the one before it as 16 + h (R275, R284, R385, R386, R485). -/
structure Found where
  ddr : Nat
  /-- the copies of the boot header, 0 and 1, whose MAC does not verify (R413) -/
  badHeader : List Nat
  badBanks : List Nat
  badSoft : List Nat
  badAlign : List Nat
  badNoz : List Nat
  deriving DecidableEq, Repr, Inhabited

/-- Damage that a reader of memory meets, by structure; all of it but the last uncorrectable (R37, R378, R383, R386). -/
inductive Damage where
  /-- a word of the image store -/
  | image (word : Nat)
  /-- a word of an engine's own memory: its bank, and the word in the bank -/
  | engine (bank word : Nat)
  | supervisor (bank : Nat)
  | trust (bank : Nat)
  /-- a copy of the ledgers, or of the counters: 0 the first, 1 the second -/
  | ledgerCopy (copy : Nat)
  | counterCopy (copy : Nat)
  | glyph (slot : Nat)
  | petEntry (index : Nat)
  | productEntry (index : Nat)
  | nozzle (port element : Nat)
  /-- parity: 1 job, 2 binding, 3 PET tag, 4 product table tag, with its index (R430) -/
  | parity (structure_ index : Nat)
  /-- parity of the register file of a control engine or of a move channel (R378) -/
  | ceRegisters (n : Nat)
  | mvRegisters (n : Nat)
  /-- LPDDR4X at a usable offset (R386) -/
  | ddr (offset : Nat)
  /-- LPDDR4X at a usable offset, with an error that the code corrects (R382, R386) -/
  | ddrCorrected (offset : Nat)
  deriving DecidableEq, Repr, Inhabited

/-- How the boot flash takes a block: whole, not at all, or with one of its bits wrong (R419, R420). -/
inductive FlashWrite where
  | taken
  | failed
  | flawed (bit : Nat)
  deriving DecidableEq, Repr, Inhabited

/-- What a line port sees of a received frame beside its contents: a fragment of an IPv4 datagram or not, its 802.1Q tags and its length in
bytes (R362). -/
structure RxFrame where
  frag : Bool
  tags : Nat
  len : Nat
  deriving DecidableEq, Repr, Inhabited

/-- The station a frame comes from: its station address and its IPv4 address (R362). -/
structure Station where
  mac : Nat
  ip : Nat
  deriving DecidableEq, Repr, Inhabited

/-- Where a received IPv4 packet comes from and the address it is for (R362). -/
structure Route where
  sender : Station
  dst : Nat
  deriving DecidableEq, Repr, Inhabited

/-- The addresses of a received UDP datagram: where it comes from, the address it is for and its destination port (R364, R365). -/
structure UdpRoute where
  src : Nat
  dst : Nat
  port : Nat
  deriving DecidableEq, Repr, Inhabited

/-- What VDD_AON finds as it becomes good: the Rail Link units that answer, and for how many ms the device was off (R125, R445). -/
structure AonFound where
  present : List Nat
  elapsed : Nat
  deriving DecidableEq, Repr, Inhabited

/-- The kinds of PTP message that an ordinary slave clock with the end-to-end mechanism takes (R363). -/
inductive PtpKind where
  | sync (twoStep : Bool)
  | followUp
  | delayResp
  | other
  deriving DecidableEq, Repr, Inhabited

/-- A received PTP message: its transport and domain, kind and sequence number, the master's timestamp it carries, corrected, in ns, the MAC's
timestamp of its arrival, and that of the Delay_Req which the device sends after it, where it sends one, both in units of 5 ns (R363). -/
structure PtpMsg where
  ethernet : Bool
  domain : Nat
  kind : PtpKind
  seq : Nat
  time : Int
  rx : Int
  tx : Option Int
  deriving DecidableEq, Repr, Inhabited

/-- What happens on Rail Link with one command: this unit, a slave, takes a frame; or this unit, the master, has an answer after some
repeats, or none (R455, R456). -/
inductive RailLink where
  | taken (addr : Nat) (data : List Byte) (crcOk : Bool)
  | answered (addr repeats crcErrors status : Nat) (data : List Byte)
  | silent (addr crcErrors : Nat)
  deriving DecidableEq, Repr, Inhabited

end Sys2Proof
end

