-- ==== Sys2Proof/Syntax.lean ====
section
/-! DEFINITION. The commands of the block: one constructor for each row of the table of operations and events. -/

namespace Sys2Proof

open Sys2Proof.Machine (Engine)

/-- A command: an operation of a host, a peer or a program, or an event of the device. -/
inductive Instr where
  /-- BAD_ADDRESS_ACCESS (R25): A host access to a Reserved range or an unassigned offset completes normally, reads zero, has no effect, and is recorded in HST_BADADDR. Operands: whether the access is a write, its BAR0 address and its size in bytes. -/
  | badAddressAccess (write : Bool) (addr size : Nat)
  /-- IMAGE_STORE_WRITE (R171): A host write into the image store window is accepted or discarded and recorded, according to the region it falls in. Operands: the BAR0 address in the window, the size in bytes and the value. -/
  | imageStoreWrite (addr size value : Nat)
  /-- REGISTER_WRITE (R10): A host write to a register that has no row of its own takes effect according to the field's access type. Operands: the BAR0 address, the size in bytes and the value. -/
  | registerWrite (addr size value : Nat)
  /-- LINE_CTL_WRITE (R43): A write to TRK_LINEn_CTL is applied, or refused with CFG_REFUSED while the line has products in flight or when it sets SRC to 3. Operands: the line and the value written. -/
  | lineCtlWrite (line value : Nat)
  /-- LINE_PRESET (R78): A write of TRK_LINEn_PRESET sets P_RAW, P_M and the head predictions, unless it is refused under R43. Operands: the line and the value written. -/
  | linePreset (line value : Nat)
  /-- VIRT_SPEED_WRITE (R45): A write of TRK_LINEn_VIRT sets the virtual line speed from the next tick and counts as an update for the loss timeout. Operands: the line and the value written. -/
  | virtSpeedWrite (line value : Nat)
  /-- ENC_EDGE (R46): An accepted encoder transition counts up or down, updates the observer, and is tested for reversal and recovery. Operands: the encoder and its filtered A and B levels after the transition. -/
  | encEdge (m : Nat) (a b : Bool)
  /-- ENC_Z_PULSE (R50): A rising Z edge records the count and checks the counts since the previous Z pulse against CPR. Operands: the encoder and its new filtered Z level. -/
  | encZPulse (m : Nat) (level : Bool)
  /-- ENC_FLT_INPUT (R60): ENCm_FLT_L has been low for 2 ticks, so WIRE is set and, with FLT_EN, the lines using the encoder declare loss. Operands: the encoder, and whether its fault input has settled low. -/
  | encFltInput (m : Nat) (low : Bool)
  /-- STUCK (R60): A and B have held the same level for more than 4 count intervals above V_MIN, so wire loss is declared with STUCK. Operands: the encoder. -/
  | stuck (m : Nat)
  /-- FREEZE (R61): No edge has arrived for FREEZE_WIN ticks while the speed exceeds V_MIN, so the line declares a freeze. Operands: the line. -/
  | freeze (line : Nat)
  /-- OCING_STALE (R63): A broadcast-fed line has received no broadcast for 8 µs and declares loss. Operands: the line. -/
  | ocingStale (line : Nat)
  /-- VIRT_STALE (R63): A virtual line has had no speed written for VIRT_TMO and declares loss. Operands: the line. -/
  | virtStale (line : Nat)
  /-- DR_EXHAUSTED (R65): D_DR of dead-reckoned travel is used up, so the line enters POS_LOST, holds its position and closes its unstarted products. Operands: the line. -/
  | drExhausted (line : Nat)
  /-- PD_EDGE_ACCEPT (R69): The filtered level of a product-detect input changes after FILT_N stable ticks, and a leading edge latches a capture position. Operands: the product-detect input and its new filtered level. -/
  | pdEdgeAccept (p : Nat) (level : Bool)
  /-- CAPTURE_CONFIRM (R73): p_m passes FILT_C counts beyond the latch, so the product table entry, the product number and the DETECTED and IN_FLIGHT counts are created. Operands: the product-detect input. -/
  | captureConfirm (p : Nat)
  /-- PD_CFG_WRITE (R78): A change to EN or LINE of TRK_PDn_CFG waits until no capture of the input awaits confirmation, then takes effect. Operands: the product-detect input and the value written. -/
  | pdCfgWrite (p value : Nat)
  /-- PTAB_SWEEP (R76): Every 1 ms the scheduler sweeps the product table for entries that are too old. -/
  | ptabSweep
  /-- PET_INSERT (R85): SCH_INS_CMD GO inserts a host event, or refuses it with BADTYPE, BADARG, FULL or PAST. Operands: the value written to SCH_INS_CMD. -/
  | petInsert (value : Nat)
  /-- READY_BY (R97): A job's ready-by event comes due, and the job is released to its sequencer or set NOT_STARTED. Operands: the position event table entry. -/
  | readyBy (i : Nat)
  /-- START_CHK (R98): A job that is still RELEASED with no first column is withdrawn and set NOT_STARTED. Operands: the position event table entry. -/
  | startChk (i : Nat)
  /-- END_CHK (R99): A job that is still STARTED is stopped at its next column boundary and flagged COLUMN_MISSED. Operands: the position event table entry. -/
  | endChk (i : Nat)
  /-- REJ_DECIDE (R104): The product's reject decision is fixed from its closed state, or to pulse if it is still in flight. Operands: the position event table entry. -/
  | rejDecide (i : Nat)
  /-- REJ_GATE (R105): At the gate position the reject output is asserted if the decision says so, and the product table entry is released. Operands: the position event table entry. -/
  | rejGate (i : Nat)
  /-- REJ_OFF (R105): A pulse of WIDTH counts ends and the count of open pulses falls. Operands: the position event table entry. -/
  | rejOff (i : Nat)
  /-- REJ_PULSE_TIMER (R105): A pulse timed in WMODE 1 ends after WIDTH × 10 µs. Operands: the reject output. -/
  | rejPulseTimer (r : Nat)
  /-- HANDOVER (R86): A host HANDOVER event comes due and commits the named path's shadow bank, or is held until the next mark boundary. Operands: the position event table entry. -/
  | handover (i : Nat)
  /-- SIGNAL (R86): A host SIGNAL event comes due and sets the named engine's scheduler-event input. Operands: the position event table entry. -/
  | signal (i : Nat)
  /-- ACTIVATE (R86): A host ACTIVATE event comes due and releases the firmware activation holding its ticket. Operands: the position event table entry. -/
  | activate (i : Nat)
  /-- BIND_LOAD (R88): LOAD validates a binding slot against its stencil and computes D_ARM, or fails with an error code. Operands: the binding slot and the value written to its CTL. -/
  | bindLoad (b value : Nat)
  /-- BIND_UNLOAD (R520): UNLOAD clears a slot's VALID unless the slot is in use. Operands: the binding slot and the value written to its CTL. -/
  | bindUnload (b value : Nat)
  /-- BIND_REG_WRITE (R520): A write to a binding slot register is refused while the slot is in use; otherwise it changes the register and sets MODIFIED. Operands: the BAR0 address and the value written. -/
  | bindRegWrite (addr value : Nat)
  /-- SETTING_RETEST_WRITE (R89): A write of S, END_SLIP, DEC_LEAD, GATE_OFS or ALIGN_X is ignored with CFG_REFUSED if any VALID slot would fail the reject-decision test. Operands: the BAR0 address and the value written. -/
  | settingRetestWrite (addr value : Nat)
  /-- VMAX_WRITE (R93): A write of SCH_LINEn_VMAX recomputes the arming terms and D_ARM of every VALID slot of the line. Operands: the line and the value written. -/
  | vmaxWrite (line value : Nat)
  /-- SCH_LINE_CTL_WRITE (R103): A write of SCH_LINEn_CTL takes effect, except that LATE_MODE 1 is refused without REV_CMD_EN and L_BU. Operands: the line and the value written. -/
  | schLineCtlWrite (line value : Nat)
  /-- LINE_SAFE_EXIT (R108): A write of 1 to SCH_LINEn_STAT LINE_SAFE leaves LINE_SAFE, unless the fault that caused it is still set. Operands: the line. -/
  | lineSafeExit (line : Nat)
  /-- SNAP_REQ (R113): A write to SCH_LINEn_SNAP_REQ requests a ledger snapshot, and a second request before the copy joins the first. Operands: the line. -/
  | snapReq (line : Nat)
  /-- SNAPSHOT_COPY (R113): At the end of the tick after the request, the twelve counters and the tick are copied and SNAP_SEQ is incremented. Operands: the line. -/
  | snapshotCopy (line : Nat)
  /-- ARMING_RESUME (R460): The supply has held above WARN + HYST for 10 ms, so arming resumes and deferred releases run. -/
  | armingResume
  /-- STENCIL_BEGIN (R121): Mailbox message that starts a stencil load and discards any incomplete load. Operands: the request tag and payload. -/
  | stencilBegin (tag : Nat) (payload : List Byte)
  /-- STENCIL_DATA (R121): Mailbox message that supplies stencil bytes at an offset. Operands: the request tag and payload. -/
  | stencilData (tag : Nat) (payload : List Byte)
  /-- STENCIL_END (R121): Mailbox message that verifies the stencil and returns its handle and figures, or the first failure. Operands: the request tag and payload. -/
  | stencilEnd (tag : Nat) (payload : List Byte)
  /-- STENCIL_UNLOAD (R122): Mailbox message that unloads a stencil, refused with IN_USE while a VALID slot names it. Operands: the request tag and payload. -/
  | stencilUnload (tag : Nat) (payload : List Byte)
  /-- STENCIL_INFO (R122): Mailbox message that returns the figures of one or all loaded stencils. Operands: the request tag and payload. -/
  | stencilInfo (tag : Nat) (payload : List Byte)
  /-- OPEN_SET (R123): Mailbox message that supplies OPEN field values from a product number onwards. Operands: the request tag and payload. -/
  | openSet (tag : Nat) (payload : List Byte)
  /-- BATCH_ADVANCE (R134): Mailbox message that steps the batch sequence of a HOST_ADVANCE stencil and appends an audit entry. Operands: the request tag and payload. -/
  | batchAdvance (tag : Nat) (payload : List Byte)
  /-- TIME_NONCE (R126): Mailbox message that issues a fresh time nonce and invalidates the previous one. Operands: the request tag and payload. -/
  | timeNonce (tag : Nat) (payload : List Byte)
  /-- TIME_TOKEN (R126): Mailbox message that checks a signed time token and, on acceptance, sets the secure clock TRUSTED. Operands: the request tag and payload. -/
  | timeToken (tag : Nat) (payload : List Byte)
  /-- TIME_STATUS (R152): Mailbox message that returns the secure time, its trust state and TOL. Operands: the request tag and payload. -/
  | timeStatus (tag : Nat) (payload : List Byte)
  /-- SERIAL_LEDGER (R139): Mailbox message that returns a counter slot's four ledger terms and state, taken at one tick. Operands: the request tag and payload. -/
  | serialLedger (tag : Nat) (payload : List Byte)
  /-- COUNTER_REBASE (R140): Mailbox message that checks a re-base token, then voids reserved numbers and reloads the counter slot. Operands: the request tag and payload. -/
  | counterRebase (tag : Nat) (payload : List Byte)
  /-- AUDIT_READ (R145): Mailbox message that returns up to 48 audit entries from a SEQ. Operands: the request tag and payload. -/
  | auditRead (tag : Nat) (payload : List Byte)
  /-- AUDIT_ACK (R145): Mailbox message that frees audit entries up to a SEQ and returns the undrained count. Operands: the request tag and payload. -/
  | auditAck (tag : Nat) (payload : List Byte)
  /-- CKPT_READ (R144): Mailbox message that returns the first held checkpoint at or after a SEQ. Operands: the request tag and payload. -/
  | ckptRead (tag : Nat) (payload : List Byte)
  /-- IDENTITY (R152): Mailbox message that returns DEVICE_ID and the identity public key. Operands: the request tag and payload. -/
  | identity (tag : Nat) (payload : List Byte)
  /-- MAILBOX_RSP_RELEASE (R150): A write of 1 to TRU_RSP_HDR VALID releases the trust mailbox response. -/
  | mailboxRspRelease
  /-- FIELD_COMPOSE (R148): The field generator composes a product's regulated fields and passes the set to the renderer. -/
  | fieldCompose
  /-- BLOCK_WRITE_DONE (R136): The block's flash write completes, so ISSUED and RESERVED rise and the numbers become assignable. Operands: the counter slot, and whether the flash write succeeded. -/
  | blockWriteDone (k : Nat) (ok : Bool)
  /-- CKPT_TIMER (R144): 60 s after the previous checkpoint, with entries appended since, the trust core signs a checkpoint. -/
  | ckptTimer
  /-- PTP_HINT (R128): The trust core takes a PTP hint and slews the clock towards it or counts the disagreement. Operands: the PTP time in seconds, the announced UTC offset and the announced leap second. -/
  | ptpHint (hint : Nat) (utc leap : Int)
  /-- TRUST_CORE_FAULT (R147): A trust-core fault starts a 20 ms restart, while composition and the audit chain continue. -/
  | trustCoreFault
  /-- TRUST_RESTART_DONE (R147): The trust core finishes its restart, signs any checkpoint that fell due, and serves the waiting mailbox request. -/
  | trustRestartDone
  /-- RENDER_START (R168): The renderer takes the next composed product and begins its images, once granules are free. -/
  | renderStart
  /-- RENDER_COMPLETE (R168): The renderer finishes every image of a product. -/
  | renderComplete
  /-- FIRST_BUFFER_STAGE (R227): The stager begins a job's first buffer once its image is complete and its line buffer half is free. Operands: the head. -/
  | firstBufferStage (h : Nat)
  /-- JOB_RESIDENT (R168): The job's first buffer is staged and the residency report makes the job RESIDENT. Operands: the job. -/
  | jobResident (j : Nat)
  /-- COLUMN_DELIVER (R173): The stager delivers one column into a free line buffer slot and counts it granted. Operands: the head, whether the path shows a parity or protocol error, and whether what is read holds an uncorrectable error. -/
  | columnDeliver (h : Nat) (fabric ue : Bool)
  /-- TROWEL_COMPRESS (R174): The Trowel engine compresses an image block in the background and switches its block table entry. Operands: the block the encoder makes. -/
  | trowelCompress (out : List Byte)
  /-- FONT_LOAD (R162): REN_FONT_CMD LOAD starts verification of the staged font image. -/
  | fontLoad
  /-- FONT_VERIFY_DONE (R162): Font verification completes, BUSY clears and RESULT is set. -/
  | fontVerifyDone
  /-- FONT_UNLOAD (R162): REN_FONT_CMD UNLOAD removes the font named in REN_FONT_ID, unless a loaded stencil names it. -/
  | fontUnload
  /-- HIMG_COMMIT (R180): REN_HIMG_CMD COMMIT makes the written host image buffer active, or fails with BUSY or SIZE. Operands: the value written to REN_HIMG_CMD. -/
  | himgCommit (value : Nat)
  /-- HIMG_CLEAR (R180): REN_HIMG_CMD CLEAR empties a host image slot. Operands: the value written to REN_HIMG_CMD. -/
  | himgClear (value : Nat)
  /-- HIMG_BUFFER_FREE (R180): The last render using a host image slot's inactive buffer ends, and that buffer becomes writable. Operands: the host image slot. -/
  | himgBufferFree (k : Nat)
  /-- NOP (R196): Instruction that does nothing. Operands: the engine. -/
  | nop (e : Engine)
  /-- LDI (R196): Instruction that loads a sign-extended 14-bit immediate. Operands: the engine. -/
  | ldi (e : Engine)
  /-- LDI_Z (R196): Instruction that loads a zero-extended 14-bit immediate. Operands: the engine. -/
  | ldiZ (e : Engine)
  /-- LDI_SH (R196): Instruction that shifts rd left by 14 bits and adds the immediate. Operands: the engine. -/
  | ldiSh (e : Engine)
  /-- LD (R196): Instruction that loads a data memory word, with optional post-increment or post-decrement of An. Operands: the engine, and whether the memory word read holds an uncorrectable error. -/
  | ld (e : Engine) (ue : Bool)
  /-- ST (R196): Instruction that stores a register to data memory. Operands: the engine. -/
  | st (e : Engine)
  /-- ADD (R193): Instruction that adds, modular in profiles F and M and saturating in profile L. Operands: the engine. -/
  | add (e : Engine)
  /-- SUB (R193): Instruction that subtracts, modular in profiles F and M and saturating in profile L. Operands: the engine. -/
  | sub (e : Engine)
  /-- AND (R196): Instruction that computes the bitwise AND. Operands: the engine. -/
  | and (e : Engine)
  /-- OR (R196): Instruction that computes the bitwise OR, and serves as MV. Operands: the engine. -/
  | or (e : Engine)
  /-- XOR (R196): Instruction that computes the bitwise XOR. Operands: the engine. -/
  | xor (e : Engine)
  /-- SHL (R195): Instruction that shifts left and fills with zeros. Operands: the engine. -/
  | shl (e : Engine)
  /-- SHR (R195): Instruction that shifts right and fills with zeros. Operands: the engine. -/
  | shr (e : Engine)
  /-- SRA (R195): Instruction that shifts right and fills with the sign bit. Operands: the engine. -/
  | sra (e : Engine)
  /-- CMP (R194): Instruction that sets the flags from the exact difference of its operands. Operands: the engine. -/
  | cmp (e : Engine)
  /-- CMP_P (R194): Instruction that compares two positions by the signed modular rule of R41. Operands: the engine. -/
  | cmpP (e : Engine)
  /-- BR (R192): Instruction that branches unconditionally. Operands: the engine. -/
  | br (e : Engine)
  /-- BZ (R196): Instruction that branches if Z is set. Operands: the engine. -/
  | bz (e : Engine)
  /-- BNZ (R196): Instruction that branches if Z is clear. Operands: the engine. -/
  | bnz (e : Engine)
  /-- BN (R196): Instruction that branches if N is set. Operands: the engine. -/
  | bn (e : Engine)
  /-- CALL (R197): Instruction that pushes the return address and branches. Operands: the engine. -/
  | call (e : Engine)
  /-- RET (R197): Instruction that pops the return address. Operands: the engine. -/
  | ret (e : Engine)
  /-- LOOP (R196): Instruction that decrements Wc and branches while it is non-zero. Operands: the engine. -/
  | loop (e : Engine)
  /-- HALT (R201): Instruction that closes the job, ends the loop cycle or stops the move channel, depending on the profile. Operands: the engine. -/
  | halt (e : Engine)
  /-- EVT (R198): Instruction that posts a code to the engine's event queue, or counts it lost when the queue is full. Operands: the engine. -/
  | evt (e : Engine)
  /-- ILLEGAL_INSTRUCTION (R219): An illegal instruction changes no state and moves the engine to FAULTED with a cause code. Operands: the engine, and whether the memory word read holds an uncorrectable error. -/
  | illegalInstruction (e : Engine) (ue : Bool)
  /-- WAITP (R203): Instruction that sets the target T and waits until P0 reaches it. Operands: the sequencer. -/
  | waitp (n : Nat)
  /-- WAITP_REACHED (R203): P0 reaches the target T, and the waiting WAITP completes. Operands: the sequencer. -/
  | waitpReached (n : Nat)
  /-- LDCOL (R204): Instruction that moves the next buffered column into CR, or reports data late when no column is buffered. Operands: the sequencer, and whether the column read holds an uncorrectable error. -/
  | ldcol (n : Nat) (ue : Bool)
  /-- MASK (R203): Instruction that clears the elements of CR whose bit in the selected Stipple row is zero. Operands: the sequencer. -/
  | mask (n : Nat)
  /-- ENRG (R241): Instruction that computes the strobe width of a group for the column in CR. Operands: the sequencer. -/
  | enrg (n : Nat)
  /-- GRP_ADV (R203): Instruction that advances the group rotation phase. Operands: the sequencer. -/
  | grpAdv (n : Nat)
  /-- GRP_SET (R203): Instruction that sets the group rotation phase. Operands: the sequencer. -/
  | grpSet (n : Nat)
  /-- GRP_GET (R203): Instruction that reads the group rotation phase. Operands: the sequencer. -/
  | grpGet (n : Nat)
  /-- STRB (R207): Instruction that strobes the groups of a mask in rotation order, within the G_SIM limit. Operands: the sequencer. -/
  | strb (n : Nat)
  /-- STRB_GROUP_START (R207): A group becomes free under G_SIM and a waiting STRB starts its strobe. Operands: the sequencer. -/
  | strbGroupStart (n : Nat)
  /-- STROBE_END (R207): A group's strobe width elapses and the group becomes inactive. Operands: the head port and the strobe group. -/
  | strobeEnd (h g : Nat)
  /-- WFSEL_GET (R242): Instruction that returns the head's current ink band. Operands: the sequencer. -/
  | wfselGet (n : Nat)
  /-- WFSEL_SET (R242): Instruction that selects a band's waveform set for the next mark. Operands: the sequencer. -/
  | wfselSet (n : Nat)
  /-- COL (R205): Instruction that ends a column, either skipping it when it is too late or waiting to emit it. Operands: the sequencer. -/
  | col (n : Nat)
  /-- COL_EMIT (R205): The rate limiter and the head port allow it, and the waiting COL hands CR to the head port. Operands: the sequencer. -/
  | colEmit (n : Nat)
  /-- CKPT (R208): Instruction that writes a checkpoint to the hand-over shadow and switches to it in its last cycle. Operands: the sequencer, and whether the copied state fails its parity. -/
  | ckpt (n : Nat) (bad : Bool)
  /-- STRETCH_LEP (R209): STRETCH fn 0, which reads the last emission position. Operands: the sequencer. -/
  | stretchLep (n : Nat)
  /-- STRETCH_NEXT (R209): STRETCH fn 1, which places the target no closer than one pitch after the last emission. Operands: the sequencer. -/
  | stretchNext (n : Nat)
  /-- STRETCH_RATIO (R209): STRETCH fn 2, which reads the column elongation ratio. Operands: the sequencer. -/
  | stretchRatio (n : Nat)
  /-- STRETCH_STATE (R209): STRETCH fn 3, which reads the largest stretch state of the job. Operands: the sequencer. -/
  | stretchState (n : Nat)
  /-- MUL (R212): Instruction that multiplies, shifts and saturates, with optional rounding. Operands: the control engine. -/
  | mul (n : Nat)
  /-- MAC_ACC (R212): MAC op 0, which adds a product to ACC. Operands: the control engine. -/
  | macAcc (n : Nat)
  /-- MAC_SET (R212): MAC op 1, which loads ACC with a product. Operands: the control engine. -/
  | macSet (n : Nat)
  /-- MAC_SUB (R212): MAC op 2, which subtracts a product from ACC. Operands: the control engine. -/
  | macSub (n : Nat)
  /-- MAC_READ (R212): MAC op 3, which reads ACC shifted and saturated. Operands: the control engine. -/
  | macRead (n : Nat)
  /-- LIM (R212): Instruction that clamps rd between two bounds. Operands: the control engine. -/
  | lim (n : Nat)
  /-- MINS (R212): Instruction that selects the lower of two demands and sets C to show which one won. Operands: the control engine. -/
  | mins (n : Nat)
  /-- PRE (R212): Instruction that presets an integrator, optionally only when the other loop won. Operands: the control engine. -/
  | pre (n : Nat)
  /-- TBLI (R213): Instruction that interpolates a position-indexed table. Operands: the control engine. -/
  | tbli (n : Nat)
  /-- DIFF (R212): Instruction that forms a difference and stores the new value. Operands: the control engine. -/
  | diff (n : Nat)
  /-- FRESH (R214): Instruction that tests an X input for STALE or STUCK and sets its feedback-fault bit. Operands: the control engine. -/
  | fresh (n : Nat)
  /-- MOV (R215): Instruction that queues a block move. Operands: the move channel. -/
  | mov (n : Nat)
  /-- MOVB (R215): Instruction that queues a move and then waits until it and every earlier move have been written. Operands: the move channel. -/
  | movb (n : Nat)
  /-- MOVB_DONE (R395): Every move a MOVB waits on has reached its destination, and the MOVB completes. Operands: the move channel. -/
  | movbDone (n : Nat)
  /-- WAIT (R215): Instruction that waits for masked EVI bits. Operands: the move channel. -/
  | wait (n : Nat)
  /-- WAIT_WAKE (R215): A masked event arrives, so WAIT returns and clears those EVI bits. Operands: the move channel. -/
  | waitWake (n : Nat)
  /-- SIG (R215): Instruction that sets an EVI bit of a target engine. Operands: the move channel. -/
  | sig (n : Nat)
  /-- MOVE_COMPLETE (R216): A queued move completes at its destination. Operands: the move channel, and the piece at which the environment makes the move fail, if any: at the host, or (true) by an uncorrectable error in the channel buffer or the LPDDR4X memory. -/
  | moveComplete (n : Nat) (env : Option (Nat × Bool))
  /-- ENGINE_RUN (R200): RUN moves a STOPPED or FAULTED engine to IDLE, or to RUNNING in profile M. Operands: the engine and the value of ENTRY written. -/
  | engineRun (e : Engine) (entry : Nat)
  /-- ENGINE_STOP (R200): STOP moves an engine to STOPPED, or sets STOP_PEND on a sequencer with queued jobs. Operands: the engine. -/
  | engineStop (e : Engine)
  /-- ENGINE_DOORBELL (R217): The host's DOORBELL bit sets EVI[1] of the engine. Operands: the engine. -/
  | engineDoorbell (e : Engine)
  /-- PROGRAM_WINDOW_WRITE (R200): A host write to a program window takes effect only while the engine is STOPPED; otherwise it sets PROG_REFUSED. Operands: the BAR0 address and the value written. -/
  | programWindowWrite (addr value : Nat)
  /-- DATA_WINDOW_WRITE (R200): A host write to a data window is applied at the end of the engine cycle in which it arrives. Operands: the BAR0 address and the value written. -/
  | dataWindowWrite (addr value : Nat)
  /-- MARK_BOUNDARY (R221): An IDLE sequencer takes its next queued job: hand-over, waveform latch, first checkpoint and RUNNING. Operands: the sequencer. -/
  | markBoundary (n : Nat)
  /-- JOB_STOP_AT_BOUNDARY (R206): A sequencer ordered to stop halts at its next WAITP or LDCOL and discards the job's buffered columns. Operands: the sequencer. -/
  | jobStopAtBoundary (n : Nat)
  /-- SAMPLE_TRIGGER (R307): A control engine latches its X inputs and runs one cycle, with SAFE ramping and the profile generator advancing. Operands: the control engine. -/
  | sampleTrigger (n : Nat)
  /-- CYCLE_OVERRUN (R211): A cycle exceeds its budget and is aborted without committing Y, and O is set. Operands: the control engine. -/
  | cycleOverrun (n : Nat)
  /-- SHADOW_SEAL_WRITE (R237): A write of SQn_SHADOW_SEAL sets or clears the seal that defers hand-overs. Operands: the sequencer and the value written. -/
  | shadowSealWrite (n value : Nat)
  /-- MASK_WRITE (R238): A host write to a mask page is applied to the shadow page, or held while the page copy runs. Operands: the BAR0 address and the value written. -/
  | maskWrite (addr value : Nat)
  /-- MASK_PAGE_COPY_DONE (R238): The copy of the active mask page into the shadow page ends, and held writes and hand-overs proceed. Operands: the fabric path. -/
  | maskPageCopyDone (n : Nat)
  /-- SEQ_WATCHDOG (R247): A sequencer has run for WDOG × 40 ns without a wait or HALT and faults. Operands: the sequencer. -/
  | seqWatchdog (n : Nat)
  /-- TAKEOVER_RESUME (R248): The rebind completes, the Chamois resumes at the checkpoint and the head returns to READY. Operands: the head, the measured detection and rebinding times in microseconds, and whether the datapath check passed. -/
  | takeoverResume (h tDetect tRebind : Nat) (ok : Bool)
  /-- GIVEBACK (R250): GIVEBACK asks to return a head from its Chamois to the home sequencer. Operands: the sequencer. -/
  | giveback (n : Nat)
  /-- GIVEBACK_COPY (R250): With the Chamois IDLE and its queue empty, its state is copied back and the head port switches home. Operands: the head. -/
  | givebackCopy (h : Nat)
  /-- RESTORE (R252): RESTORE returns a HEAD_LOST head to READY when its home sequencer is IDLE. Operands: the head. -/
  | restore (h : Nat)
  /-- HP_CFG_WRITE (R256): A write of HPn_CFG sets the personality and element count while the home sequencer is STOPPED, and re-tests presence. Operands: the head port and the value written. -/
  | hpCfgWrite (h value : Nat)
  /-- LAT_FIRE (R259): T_port after a frame's start, the port pulses LAT and fires the column. Operands: the head port. -/
  | latFire (h : Nat)
  /-- WF_SETTING_WRITE (R261): A write of HPn_WF or HPn_LANE is ignored with WF_REFUSED if WF_RATE would exceed the lane rate / 40. Operands: the BAR0 address and the value written. -/
  | wfSettingWrite (addr value : Nat)
  /-- WF_SAMPLE_WRITE (R262): A WF_DATA access writes three samples, or is refused into a latched band. Operands: the head port, and the value written or none for a read. -/
  | wfSampleWrite (h : Nat) (write : Option Nat)
  /-- WFLEN_WRITE (R262): A write of HPn_WFLENb whose segments sum to more than 1,024 is ignored with WF_REFUSED. Operands: the head port, the band and the value written. -/
  | wflenWrite (h b value : Nat)
  /-- TEMP_POLL (R270): The port sends TEMP over the side SPI and updates T_head and T_ink, or counts a failure. Operands: the head port and the bytes the head answers. -/
  | tempPoll (h : Nat) (reply : List Byte)
  /-- ID_READ (R269): The port reads the head's identity record and tests presence against the serial and settings. Operands: the head port and the bytes the head answers. -/
  | idRead (h : Nat) (record : List Byte)
  /-- HEAD_ACCEPT (R272): ACCEPT resets the nozzle table, adopts the new head serial and makes the head READY. Operands: the head port. -/
  | headAccept (h : Nat)
  /-- ALIGN_STORE (R275): STORE begins writing the signed alignment record to flash. Operands: the head port. -/
  | alignStore (h : Nat)
  /-- ALIGN_STORE_DONE (R275): The alignment store completes with OK or FLASH_FAIL, and ALIGN_STALE clears on success. Operands: the head port, and whether the flash write succeeded. -/
  | alignStoreDone (h : Nat) (ok : Bool)
  /-- BURST_START (R277): Once every condition holds, a drop-test burst begins on its gate. Operands: the head port. -/
  | burstStart (h : Nat)
  /-- TEST_FIRING (R278): Every TEST_PER the burst fires a test column on its next element. Operands: the head port. -/
  | testFiring (h : Nat)
  /-- DROP_TEST_RESULT (R279): A test firing's window ends and the result is classified and queued. Operands: the head port, the 16 gate samples that end at LAT and the samples that follow it, 100 ns apart. -/
  | dropTestResult (h : Nat) (before after : List Nat)
  /-- TESTRES_POP (R279): POP removes the oldest drop-test result. Operands: the head port. -/
  | testresPop (h : Nat)
  /-- NZ_DATA_ACCESS (R280): An NZ_DATA access reads or writes six nozzle entries and advances ADDR by 6. Operands: the head port, and the value written or none for a read. -/
  | nzDataAccess (h : Nat) (write : Option Nat)
  /-- BD_EDGE (R290): A beam-detect edge takes the pending line into WRITING, advances the facet index and steps acquisition. Operands: the head port, the measured phase and the tap calibration error, both in taps. -/
  | bdEdge (h phase tapErr : Nat)
  /-- IDX_EDGE (R292): A polygon index edge makes the next beam-detect edge facet 0. Operands: the head port. -/
  | idxEdge (h : Nat)
  /-- BD_TIMEOUT (R299): No beam-detect edge arrives within 1.5 × T_FACET, so a loss is declared. Operands: the head port. -/
  | bdTimeout (h : Nat)
  /-- DLL_CFG_WRITE (R296): A write of HPn_DLL_CFG gates the port and restarts acquisition. Operands: the head port and the value written. -/
  | dllCfgWrite (h value : Nat)
  /-- LASER_EN_WRITE (R297): A write of LASER_EN asserts laser enable, or gates the port and deasserts enable when cleared. Operands: the head port and the value written. -/
  | laserEnWrite (h value : Nat)
  /-- CE_CONFIG_WRITE (R308): A write of CEn_TRIG or CEn_XCFGi is accepted only while the engine is STOPPED and closes no chain loop. Operands: the BAR0 address and the value written. -/
  | ceConfigWrite (addr value : Nat)
  /-- CE_K_WRITE (R311): A coefficient write is applied at the next trigger, unless KHOLD is set. Operands: the BAR0 address and the value written. -/
  | ceKWrite (addr value : Nat)
  /-- CE_MODE_WRITE (R314): A write of MODE REQ selects MANUAL or AUTO from the next trigger. Operands: the control engine and the value written. -/
  | ceModeWrite (n value : Nat)
  /-- CE_HOSTX_WRITE (R309): A host write of CEn_HOSTXi delivers a class 7 input. Operands: the control engine, the input and the value written. -/
  | ceHostxWrite (n i value : Nat)
  /-- FORCE_SAFE (R315): The engine enters SAFE at the next trigger with cause HOST. Operands: the control engine. -/
  | forceSafe (n : Nat)
  /-- CLEAR_SAFE (R316): A SAFE engine moves to MANUAL at the next trigger, unless its cause persists. Operands: the control engine. -/
  | clearSafe (n : Nat)
  /-- PG_VEL (R321): Generator command that sets the target velocity. Operands: the control engine and the value written to its target register. -/
  | pgVel (n target : Nat)
  /-- PG_POS (R321): Generator command that moves to an absolute position. Operands: the control engine and the value written to its target register. -/
  | pgPos (n target : Nat)
  /-- PG_REL (R321): Generator command that moves by a relative distance. Operands: the control engine and the value written to its target register. -/
  | pgRel (n target : Nat)
  /-- PG_STOP (R321): Generator command that sets the target velocity to zero. Operands: the control engine. -/
  | pgStop (n : Nat)
  /-- PG_SET (R321): Generator command that sets the position while the generator is at rest. Operands: the control engine and the value written to its target register. -/
  | pgSet (n target : Nat)
  /-- CURRENT_SAMPLE (R328): A current sample is converted or predicted, the current loop runs and new duties are set. Operands: the motor channel, the codes of the three phase shunts, and the two codes of a single shunt in the order of their samples. -/
  | currentSample (c : Nat) (u v w : Int) (dc : Int × Int)
  /-- MC_START (R337): START enters RUN or CATCH, or sets START_REFUSED. Operands: the motor channel. -/
  | mcStart (c : Nat)
  /-- CATCH_END (R337): CATCH_T ends, and the channel either catches the rotor and enters RUN or enters START. Operands: the motor channel, the back-EMF amplitude as a phase-voltage code, and the measured angle and speed. -/
  | catchEnd (c code angle : Nat) (speed : Int)
  /-- MC_STOP (R339): STOP sets every output low and moves the channel to OFF. Operands: the motor channel. -/
  | mcStop (c : Nat)
  /-- MC_CLEAR (R344): CLEAR moves a TRIPPED channel to OFF once the cause has gone. Operands: the motor channel. -/
  | mcClear (c : Nat)
  /-- MC_CONFIG_WRITE (R326): A write of MCn_CFG or MCn_PWM is accepted only while OFF and with the pair rule of equal PER met. Operands: the BAR0 address and the value written. -/
  | mcConfigWrite (addr value : Nat)
  /-- BUS_SAMPLE (R341): A bus monitor sample updates v_bus, the chopper and the regeneration limits. Operands: the bus, its ADC code and the level of the chopper feedback. -/
  | busSample (m code : Nat) (fb : Bool)
  /-- CHOP_FB_MISMATCH (R342): BUSm_CHOP_FB has differed from the command for more than 2 µs, so CHOP_FAULT is set. Operands: the bus. -/
  | chopFbMismatch (m : Nat)
  /-- CHOP_TEST_PULSE (R342): An idle chopper receives a 2 µs test pulse after 1 s without switching. Operands: the bus. -/
  | chopTestPulse (m : Nat)
  /-- GATE_FAULT (R344): MCn_FLT_L has been low for 2 ticks, so the channel trips with cause GATE. Operands: the motor channel, and whether its fault input has been low for two ticks or has gone high. -/
  | gateFault (c : Nat) (low : Bool)
  /-- BU_TIMEOUT (R346): TMO passes in WAIT_DATA, so the held jobs are stopped and the run-up follows. Operands: the motor channel. -/
  | buTimeout (c : Nat)
  /-- HOST_LINK_RESET (R350): Loss of link, a hot reset or a function-level reset resets the rings and the HST_ registers and masks MSI-X. -/
  | hostLinkReset
  /-- RING_DOORBELL (R354): The host writes a request-ring producer index, or the write is refused with DB_ERR. Operands: the queue pair and the producer index written. -/
  | ringDoorbell (q value : Nat)
  /-- RING_CONSUMER_WRITE (R354): The host writes a response-ring or event-ring consumer index, which returns device credits. Operands: the queue pair, or 4 for the event ring, and the consumer index written. -/
  | ringConsumerWrite (q value : Nat)
  /-- QUEUE_PAIR_RESET (R357): RESET re-initialises a queue pair after completing taken messages and discarding the others. Operands: the queue pair. -/
  | queuePairReset (q : Nat)
  /-- EVENT_RING_RESET (R357): RESET of the event ring drops its undelivered events. -/
  | eventRingReset
  /-- EVENT_DELIVER (R359): The device writes a waiting event into the event ring when it holds a credit. Operands: the engine whose event is taken, or none for an event of the device. -/
  | eventDeliver (src : Option Engine)
  /-- PING (R360): Host message that echoes its payload. Operands: the queue pair, the entry at the front of its request ring, whether its indirect address can be read, and the bytes there. -/
  | ping (q : Nat) (entry : List Byte) (readable : Bool) (payload : List Byte)
  /-- VERSION (R360): Host message that returns the firmware versions and the active slot. Operands: the queue pair, the entry at the front of its request ring, whether its indirect address can be read, and the bytes there. -/
  | version (q : Nat) (entry : List Byte) (readable : Bool) (payload : List Byte)
  /-- LEDGER_SNAPSHOT (R360): Host message that returns an atomic ledger snapshot of a line. Operands: the queue pair, the entry at the front of its request ring, whether its indirect address can be read, and the bytes there. -/
  | ledgerSnapshot (q : Nat) (entry : List Byte) (readable : Bool) (payload : List Byte)
  /-- LINE_SPEED (R360): Host message that writes a virtual line's speed. Operands: the queue pair, the entry at the front of its request ring, whether its indirect address can be read, and the bytes there. -/
  | lineSpeed (q : Nat) (entry : List Byte) (readable : Bool) (payload : List Byte)
  /-- OCL_BARRIER (R374): Host message that broadcasts an update barrier for a future epoch. Operands: the queue pair, the entry at the front of its request ring, whether its indirect address can be read, and the bytes there. -/
  | oclBarrier (q : Nat) (entry : List Byte) (readable : Bool) (payload : List Byte)
  /-- RESET_REQUEST (R360): Host message that persists the ledgers and resets the device, unless the audit ring is undrained. Operands: the queue pair, the entry at the front of its request ring, whether its indirect address can be read, and the bytes there; the levels of the straps, and what the start finds. -/
  | resetRequest (q : Nat) (entry : List Byte) (readable : Bool) (payload : List Byte) (straps : Straps) (found : Found)
  /-- SPEED (R365): Line-protocol SPEED message that writes a virtual line's speed if its port, peer, source and SEQ are valid. Operands: the line port, the addresses of the datagram, the frame, and the UDP payload. -/
  | speed (p : Nat) (route : UdpRoute) (x : RxFrame) (msg : List Byte)
  /-- LEDGER (R364): Line-protocol message that is sent every PER ms with the line's ledger. Operands: the line. -/
  | ledger (line : Nat)
  /-- ARP_REQUEST (R362): A received ARP request for the port's address is answered. Operands: the line port, the station that asks, the address asked for, and the frame. -/
  | arpRequest (p : Nat) (sender : Station) (target : Nat) (x : RxFrame)
  /-- ICMP_ECHO (R362): A received ICMP echo request is answered. Operands: the line port, the sender and the destination address, the frame, and the ICMP message. -/
  | icmpEcho (p : Nat) (route : Route) (x : RxFrame) (msg : List Byte)
  /-- PTP_MESSAGE (R363): A received PTP message updates the slave clock servo. Operands: the line port, the message, and whether the servo has converged after it. -/
  | ptpMessage (p : Nat) (m : PtpMsg) (lock : Bool)
  /-- OCING_SYMBOL_LOCK (R368): An Ocing port gains symbol lock and goes to TRAINING. Operands: the Ocing port. -/
  | ocingSymbolLock (p : Nat)
  /-- HELLO (R368): Ocing frame that identifies a unit; equal IDs isolate the ports, otherwise authentication follows. Operands: the Ocing port and the bytes of the frame, and whether its authentication succeeds. -/
  | hello (p : Nat) (body : List Byte) (auth : Bool)
  /-- ECHO (R368): Ocing frame that measures the hop delay. Operands: the Ocing port and the bytes of the frame. -/
  | echo (p : Nat) (body : List Byte)
  /-- HOP_DELAY_MEASURE (R368): Every 100 ms the hop delay is measured again. Operands: the Ocing port. -/
  | hopDelayMeasure (p : Nat)
  /-- ACK (R367): Ocing frame that acknowledges a reliable frame. Operands: the Ocing port and the bytes of the frame. -/
  | ack (p : Nat) (body : List Byte)
  /-- OCING_RETRY_TIMEOUT (R367): A reliable frame is not acknowledged within 10 µs, so it is resent or, after the third resend, the port goes DOWN. Operands: the Ocing port and the sequence number of the unacknowledged frame. -/
  | ocingRetryTimeout (p lseq : Nat)
  /-- OCING_LOCK_LOSS (R367): Loss of symbol lock for 2 µs takes the port DOWN. Operands: the Ocing port. -/
  | ocingLockLoss (p : Nat)
  /-- POS (R370): Ocing position broadcast, received and forwarded with CORR updated. Operands: the Ocing port and the bytes of the frame, and the residence time its forwarding adds. -/
  | pos (p : Nat) (body : List Byte) (resid : Nat)
  /-- POS_BROADCAST (R370): Every 1 µs the unit sends a POS frame for each enabled line. Operands: the line. -/
  | posBroadcast (line : Nat)
  /-- EPOCH (R369): Ocing epoch frame that sets the unit's epoch boundary. Operands: the Ocing port and the bytes of the frame, and the residence time its forwarding adds. -/
  | epoch (p : Nat) (body : List Byte) (resid : Nat)
  /-- EPOCH_BOUNDARY (R369): An epoch boundary is reached, ownership passes and ports become ACTIVE. -/
  | epochBoundary
  /-- HANDOFF_OFFER (R371): A product becomes due for hand-off and an OFFER is sent downstream. Operands: the product table entry. -/
  | handoffOffer (i : Nat)
  /-- OFFER (R371): Ocing frame received, to which the receiver answers ACCEPT or DECLINE within 100 µs. Operands: the Ocing port and the bytes of the frame. -/
  | offer (p : Nat) (body : List Byte)
  /-- ACCEPT (R371): Ocing frame received, after which the sender sends COMMIT. Operands: the Ocing port and the bytes of the frame. -/
  | accept (p : Nat) (body : List Byte)
  /-- DECLINE (R371): Ocing frame received, which ends the offered part as NOT_STARTED. Operands: the Ocing port and the bytes of the frame. -/
  | decline (p : Nat) (body : List Byte)
  /-- COMMIT (R371): Ocing frame that names the boundary at which ownership passes. Operands: the Ocing port and the bytes of the frame. -/
  | commit (p : Nat) (body : List Byte)
  /-- RESULT (R372): Ocing frame that closes the handed-off product at the detecting unit. Operands: the Ocing port and the bytes of the frame. -/
  | result (p : Nat) (body : List Byte)
  /-- BARRIER (R374): Ocing frame that arms an activation release at the named epoch. Operands: the Ocing port and the bytes of the frame. -/
  | barrier (p : Nat) (body : List Byte)
  /-- BARRIER_ACK (R374): Ocing frame that acknowledges a barrier. Operands: the Ocing port and the bytes of the frame. -/
  | barrierAck (p : Nat) (body : List Byte)
  /-- MERGE_DRAIN (R380): A merge buffer entry is drained by a read-modify-write. Operands: the number of the entry's word, 65,536 × its bank + its word in the bank. -/
  | mergeDrain (word : Nat)
  /-- SKIM_PASS (R384): Skim reads and corrects every valid SRAM line once per SKIM_PER. Operands: the words in which Skim found an upset bit and those in which the supervisor or the trust core did, by bank and word, the uncorrectable damage met, and how much of the pass is done, in percent. -/
  | skimPass (corrected others : List (Nat × Nat)) (damage : List Damage) (percent : Nat)
  /-- MEM_INJECT (R399): INJ ARM injects one error into the next write, accepted only in SERVICE. Operands: the value written to the register. -/
  | memInject (value : Nat)
  /-- LC_STATUS (R412): Mailbox message that returns the life-cycle state. Operands: the request tag and payload. -/
  | lcStatus (tag : Nat) (payload : List Byte)
  /-- LC_NONCE (R410): Mailbox message that issues a life-cycle nonce. Operands: the request tag and payload. -/
  | lcNonce (tag : Nat) (payload : List Byte)
  /-- LC_PROVISION (R403): Mailbox message that generates the identity key and moves BLANK to PROVISIONED. Operands: the request tag and payload. -/
  | lcProvision (tag : Nat) (payload : List Byte)
  /-- LC_DEPLOY (R403): Mailbox message that moves PROVISIONED to DEPLOYED. Operands: the request tag and payload. -/
  | lcDeploy (tag : Nat) (payload : List Byte)
  /-- LC_SERVICE_ENTER (R403): Mailbox message that enters SERVICE with a signed token. Operands: the request tag and payload. -/
  | lcServiceEnter (tag : Nat) (payload : List Byte)
  /-- LC_SERVICE_EXIT (R403): Mailbox message that returns SERVICE to DEPLOYED. Operands: the request tag and payload. -/
  | lcServiceExit (tag : Nat) (payload : List Byte)
  /-- LC_RETIRE (R403): Mailbox message that retires the device and returns the final checkpoint. Operands: the request tag and payload. -/
  | lcRetire (tag : Nat) (payload : List Byte)
  /-- KEY_STATUS (R409): Mailbox message that returns slot states, roles and public key digests. Operands: the request tag and payload. -/
  | keyStatus (tag : Nat) (payload : List Byte)
  /-- KEY_AUTH_SET (R409): Mailbox message that installs an authority key with roles. Operands: the request tag and payload. -/
  | keyAuthSet (tag : Nat) (payload : List Byte)
  /-- KEY_CHECK_SET (R411): Mailbox message that installs a wrapped check-code key. Operands: the request tag and payload. -/
  | keyCheckSet (tag : Nat) (payload : List Byte)
  /-- KEY_COSIGN_SET (R409): Mailbox message that installs the update co-signature key. Operands: the request tag and payload. -/
  | keyCosignSet (tag : Nat) (payload : List Byte)
  /-- KEY_CLEAR (R412): Mailbox message that clears a key slot. Operands: the request tag and payload. -/
  | keyClear (tag : Nat) (payload : List Byte)
  /-- SERVICE_EXPIRY (R407): The service EXPIRY passes, so JTAG closes and MEM_INJ refuses. -/
  | serviceExpiry
  /-- LC_CHANGE_DEFERRED (R407): The expired SERVICE state changes to DEPLOYED, with its wipe, once the conditions of R404 are clear. -/
  | lcChangeDeferred
  /-- UPDATE_BEGIN (R418): Host message that opens or joins update arbitration with an image header. Operands: the queue pair, the entry at the front of its request ring, whether its indirect address can be read, and the bytes there. -/
  | updateBegin (q : Nat) (entry : List Byte) (readable : Bool) (payload : List Byte)
  /-- UPDATE_ARBITRATION_END (R418): The 1 ms window ends and the winning candidate takes the session. -/
  | updateArbitrationEnd
  /-- UPDATE_DATA (R419): Host message that writes one image block after its CRC check. Operands: the queue pair, the entry at the front of its request ring, whether its indirect address can be read, and the bytes there; and how the flash takes what is written. -/
  | updateData (q : Nat) (entry : List Byte) (readable : Bool) (payload : List Byte) (flash : FlashWrite)
  /-- UPDATE_END (R419): Host message that reads back the slot and sets it STAGED or BAD. Operands: the queue pair, the entry at the front of its request ring, whether its indirect address can be read, and the bytes there. -/
  | updateEnd (q : Nat) (entry : List Byte) (readable : Bool) (payload : List Byte)
  /-- UPDATE_ACTIVATE (R422): Host message that records a pending activation of the STAGED slot. Operands: the queue pair, the entry at the front of its request ring, whether its indirect address can be read, and the bytes there. -/
  | updateActivate (q : Nat) (entry : List Byte) (readable : Bool) (payload : List Byte)
  /-- UPDATE_ABORT (R420): Host message that ends a session or cancels a pending activation. Operands: the queue pair, the entry at the front of its request ring, whether its indirect address can be read, and the bytes there. -/
  | updateAbort (q : Nat) (entry : List Byte) (readable : Bool) (payload : List Byte)
  /-- UPDATE_STATUS (R420): Host message that returns the slot descriptors and update state. Operands: the queue pair, the entry at the front of its request ring, whether its indirect address can be read, and the bytes there. -/
  | updateStatus (q : Nat) (entry : List Byte) (readable : Bool) (payload : List Byte)
  /-- UPDATE_CONFIRM (R427): Host message that confirms a trial. Operands: the queue pair, the entry at the front of its request ring, whether its indirect address can be read, and the bytes there. -/
  | updateConfirm (q : Nat) (entry : List Byte) (readable : Bool) (payload : List Byte)
  /-- UPDATE_FALLBACK (R428): Host message that falls back from a trial. Operands: the queue pair, the entry at the front of its request ring, whether its indirect address can be read, and the bytes there. -/
  | updateFallback (q : Nat) (entry : List Byte) (readable : Bool) (payload : List Byte)
  /-- UPDATE_FORWARD (R420): Host message that sends a slot's image to a peer unit as a peer session. Operands: the queue pair, the entry at the front of its request ring, whether its indirect address can be read, and the bytes there. -/
  | updateForward (q : Nat) (entry : List Byte) (readable : Bool) (payload : List Byte)
  /-- UPDATE_CFG (R420): Host message that sets CONFIRM_MIN. Operands: the queue pair, the entry at the front of its request ring, whether its indirect address can be read, and the bytes there. -/
  | updateCfg (q : Nat) (entry : List Byte) (readable : Bool) (payload : List Byte)
  /-- UPDATE_SESSION_TIMEOUT (R417): A session with no message for 10 s ends and its slot becomes EMPTY. -/
  | updateSessionTimeout
  /-- PU_BEGIN (R421): Peer update frame that begins a peer session. Operands: the Ocing port and the bytes of the frame. -/
  | puBegin (p : Nat) (body : List Byte)
  /-- PU_DATA (R421): Peer update frame that carries a 64-byte chunk of a block. Operands: the Ocing port and the bytes of the frame. -/
  | puData (p : Nat) (body : List Byte)
  /-- PU_BLOCK (R421): Peer update frame that ends a block with its CRC. Operands: the Ocing port and the bytes of the frame, and how the flash takes the block. -/
  | puBlock (p : Nat) (body : List Byte) (flash : FlashWrite)
  /-- PU_END (R421): Peer update frame that ends a peer session. Operands: the Ocing port and the bytes of the frame. -/
  | puEnd (p : Nat) (body : List Byte)
  /-- PU_RESULT (R421): Peer update frame that answers with a RESULT. Operands: the Ocing port and the bytes of the frame. -/
  | puResult (p : Nat) (body : List Byte)
  /-- PU_ABORT (R421): Peer update frame that aborts a peer session. Operands: the Ocing port and the bytes of the frame. -/
  | puAbort (p : Nat) (body : List Byte)
  /-- ACTIVATION_RELEASE (R422): A pending activation is released by time, ticket or barrier, unless it is deferred. -/
  | activationRelease
  /-- SWITCH_DONE (R424): The new supervisor attaches and clears SUP_BUSY, and held events are written. -/
  | switchDone
  /-- CONFIRM_TIMER (R427): CONFIRM_MIN minutes of fault-free operation confirm the trial. -/
  | confirmTimer
  /-- SUPERVISOR_READY_TIMEOUT (R428): A new supervisor that is not ready within 2 s makes the trial fall back. -/
  | supervisorReadyTimeout
  /-- FLT_STATUS_CLEAR (R431): A write of 1 clears a FLT_STATUS bit, but only while its source is inactive. Operands: the value written to the register. -/
  | fltStatusClear (value : Nat)
  /-- SUPERVISOR_MISCOMPARE (R437): A lockstep miscompare restarts the supervisor pair. -/
  | supervisorMiscompare
  /-- SUPERVISOR_RESTART_DONE (R437): The supervisor restart ends, SUP_BUSY clears and taken messages are answered BUSY. -/
  | supervisorRestartDone
  /-- FAULT_PIN_PULSE_END (R440): The 10 µs FAULT_L pulse ends, and the pin stays low only while HOLD is set. -/
  | faultPinPulseEnd
  /-- HOLD_WRITE (R440): A write of 0 to FLT_PIN_HOLD HOLD releases FAULT_L, except in DEVICE_SAFE. Operands: the value written to the register. -/
  | holdWrite (value : Nat)
  /-- HIST_POP (R439): POP removes the oldest fault history entry. -/
  | histPop
  /-- PLL_LOCK_LOSS (R432): A PLL loses lock and its duplicate takes over without a gap. Operands: the PLL. -/
  | pllLockLoss (pll : Nat)
  /-- REFERENCE_LOST (R434): Loss of the 25 MHz reference enters DEVICE_SAFE while the PLLs hold frequency. -/
  | referenceLost
  /-- AON_POWER_ON (R445): VDD_AON becomes good, the straps are latched and the rail plan begins. Operands: the levels of the straps, and the Rail Link units that answer with the milliseconds for which the device was off. -/
  | aonPowerOn (straps : Straps) (found : AonFound)
  /-- RAIL_STEP_STABLE (R449): Every rail of a step has been good for T_PG_STABLE plus DELAY, so the next step begins. Operands: what a start finds, where this step is the last. -/
  | railStepStable (found : Found)
  /-- RAIL_RISE_TIMEOUT (R450): A rail that is not good by T_RISE aborts the sequence. Operands: the rail. -/
  | railRiseTimeout (rail : Nat)
  /-- RAIL_CHATTER (R450): More than 8 PG transitions within 10 ms abort the sequence or fail the rail. Operands: the rail. -/
  | railChatter (rail : Nat)
  /-- RAIL_RETRY (R450): 1 s after an abort the island starts the sequence again, up to RETRY_N times. Operands: the levels of the straps. -/
  | railRetry (straps : Straps)
  /-- RAIL_SCAN (R444): The island scans its monitor inputs. Operands: the voltages at the MON pins in millivolts, the PG levels by bit, and the voltage at MON_VIN in millivolts. -/
  | railScan (mv : List Nat) (pg vin : Nat)
  /-- POWER_DOWN_STEP (R452): The rails of a step fall below their off threshold or time out, and the next lower step goes down. Operands: the voltages at the MON pins in millivolts as the wait ends, and the PG levels by bit. -/
  | powerDownStep (mv : List Nat) (pg : Nat)
  /-- SUPPLY_WARN (R459): MON_VIN falls below the warning level, which stops arming and persists the ledgers. Operands: the time the records took to persist, in microseconds. -/
  | supplyWarn (us : Nat)
  /-- RESET_LEVEL (R461): MON_VIN falls below the reset level, which puts the outputs in a safe state, takes a snapshot and powers down. Operands: whether the hold-up ended before the records were complete. -/
  | resetLevel (short : Bool)
  /-- RESET_L (R462): RESET_L low takes the rails down and up and restarts the device. Operands: the levels of the straps. -/
  | resetL (straps : Straps)
  /-- PLAN_BURN (R448): PWR_CMD BURN fuses a rail plan and reports OK or FAIL. Operands: the plan, and whether the fuses took it. -/
  | planBurn (index : Nat) (ok : Bool)
  /-- HOST_SNAPSHOT (R453): PWR_CMD SNAPSHOT takes a power snapshot with reason HOST. -/
  | hostSnapshot
  /-- SNAP_POP (R453): POP removes the oldest power snapshot. -/
  | snapPop
  /-- RLK_PING (R456): Rail Link PING command that returns a unit's plan and state. Operands: the exchange, as it is taken by this device, answered to it, or left unanswered. -/
  | rlkPing (e : RailLink)
  /-- RLK_STEP_UP (R456): Rail Link STEP_UP command that runs one rail step up. Operands: the exchange, as it is taken by this device, answered to it, or left unanswered. -/
  | rlkStepUp (e : RailLink)
  /-- RLK_STEP_DOWN (R456): Rail Link STEP_DOWN command that runs one rail step down. Operands: the exchange, as it is taken by this device, answered to it, or left unanswered. -/
  | rlkStepDown (e : RailLink)
  /-- RLK_STATUS (R456): Rail Link STATUS command that returns a unit's state and step. Operands: the exchange, as it is taken by this device, answered to it, or left unanswered. -/
  | rlkStatus (e : RailLink)
  /-- RLK_ABORT (R457): Rail Link ABORT command that powers every unit down. Operands: the exchange, as it is taken by this device, answered to it, or left unanswered. -/
  | rlkAbort (e : RailLink)
  /-- RLK_SET_VOUT (R458): Rail Link SET_VOUT command that requests a core voltage step. Operands: the exchange, as it is taken by this device, answered to it, or left unanswered. -/
  | rlkSetVout (e : RailLink)
  /-- RLK_GET_VOUT (R458): Rail Link GET_VOUT command that reads back the core voltage. Operands: the exchange, as it is taken by this device, answered to it, or left unanswered. -/
  | rlkGetVout (e : RailLink)
  /-- RLK_SLAVE_POLL (R457): Every 10 ms the master polls each slave's STATUS. Operands: the units that answer. -/
  | rlkSlavePoll (answered : List Nat)
  /-- HK_ROUND (R464): A housekeeping round completes its 32 channels. Operands: the codes and the values of the 32 channels, whether the LPDDR4X asks for faster refresh, and whether the crystal deviates by more than 500 ppm. -/
  | hkRound (raw : List Nat) (values : List Int) (mr4 oscBad : Bool)
  /-- GRACE_EXPIRY (R468): GRACE passes, and the band's throttle is applied. Operands: the band whose grace ends. -/
  | graceExpiry (band : Nat)
  /-- THERMAL_TRIP (R469): A +125 °C comparator enters DEVICE_SAFE and powers the device down. -/
  | thermalTrip
  /-- AGEING_EVALUATION (R475): Every EVAL_PER minutes the monitors are sampled and re-planning, records and forecast run. Operands: the monitors, the outcome of each voltage step that may be taken with the monitors after it, the sectors of the settings area erased since the last evaluation, and whether the flash takes the nozzle tables. -/
  | ageingEvaluation (mons : List Nat) (steps : List (Bool × List Nat)) (erased : List Nat) (flash : Bool)
  /-- DERATE_CLOCK_SWITCH (R473): Every job released before the derate publication has ended, and the clocks switch. -/
  | derateClockSwitch
  /-- REPLAN (R477): AGE_CMD REPLAN resets k_age and n at the next evaluation, only in SERVICE. -/
  | replan
  /-- AMP_REF (R478): A write of 1 to REF retakes T_REF for a head's amplitude tracking. Operands: the head port. -/
  | ampRef (h : Nat)
  /-- DRIFT_BASELINE (R480): BASELINE records the friction table baseline of a control engine. Operands: the control engine. -/
  | driftBaseline (n : Nat)
  /-- CAL_GO (R483): CAL_CMD GO starts a calibration of the selected ADCs, or refuses it. Operands: the value written to the register. -/
  | calGo (value : Nat)
  /-- CAL_COMPLETE (R485): A calibration ends and writes its record, or reports RANGE or FAIL. Operands: ADC and its codes at CAL_GND and CAL_REF, and whether the fuse, or the settings area, took the record. -/
  | calComplete (codes : List (Nat × Int × Int)) (took : Bool)
  /-- TRACKING_TICK (R52): Each 5 ns tick the observers interpolate or integrate p_raw, update p_m and publish every head's p_pred, which can bring events due. -/
  | trackingTick
  /-- DATAPATH_CHECK (R247): A residue or register-file parity error in a sequencer faults it with FSRC 3 and starts a takeover. Operands: the sequencer. -/
  | datapathCheck (n : Nat)
  /-- EN_WAIT_ELAPSED (R298): Laser enable has been asserted for EN_WAIT × 10 µs on a LOCKED channel, so the RASTER_LASER head becomes present and READY. Operands: the head port. -/
  | enWaitElapsed (h : Nat)
  /-- PATH_RESTART_DONE (R436): A MARK_FABRIC stager path restart ends within 20 µs, delivery resumes and the path's recovery window closes. Operands: the head. -/
  | pathRestartDone (h : Nat)
  /-- COPY_REBUILD_DONE (R37): The damaged ledger or counter copy has been rebuilt, and the copy-rebuild recovery window closes. -/
  | copyRebuildDone
  /-- CRYSTAL_32K_LOST (R430): The 32.768 kHz crystal stops, which raises CLOCK with DETAIL 3. -/
  | crystal32kLost
  /-- LINE_PORT_LINK_CHANGE (R362): A line port's PHY link goes down or up, which updates LNPp_STAT LINK and RATE and raises HOST_LINK on loss. Operands: the line port, whether its link is up, and its rate code. -/
  | linePortLinkChange (p : Nat) (up : Bool) (rate : Nat)
  /-- PCIE_LINK_TRAINED (R349): The PCI Express link trains, setting HST_STAT LINK_UP, SPEED and WIDTH. Operands: the speed and width codes of the link. -/
  | pcieLinkTrained (speed width : Nat)
  /-- RESET_LEVEL_RESTART (R461): After a reset-level power-down, with VDD_AON held, the island starts the device again once MON_VIN has held WARN + HYST for 10 ms. Operands: the levels of the straps. -/
  | resetLevelRestart (straps : Straps)
  /-- VBAT_LOST (R491): VBAT falls below 1.8 V while VDD_AON is below 3.0 V, so the secure clock is lost and the island reports UNSET. -/
  | vbatLost
  /-- AON_POWER_LOSS (R443): VDD_AON falls out of range, the island resets, and its fault history and snapshots are lost. -/
  | aonPowerLoss
  deriving DecidableEq, Repr

end Sys2Proof
end

