-- ==== Sys2Proof/Decode.lean ====
section
/-! DEFINITION. Decoding of table words: the table of operations and events gives no row any bits. -/

namespace Sys2Proof

/-- The command a word spells by the bits of spec/opcode_table.json. No row of that table has a field, so no word spells a
command; the commands reach the block through its queue. -/
def decodeTableWord (_nbits _w : Nat) : Option Instr := none

end Sys2Proof
end

