-- ==== Sys2Proof/Machine/Regs.lean ====
section
/-! DEFINITION. The BAR0 register map: the address of every register and the place of every field, from the register
tables of R24, R78, R116, R154, R181, R182, R254, R286, R304, R324, R348, R376, R399, R442, R471 and R486. A register
is named `r<NAME>` and a field `f<NAME>_<FIELD>`, with the manual's own names; their arguments are the indices of the name. -/

namespace Sys2Proof.Machine

def rTRK_TICK : Nat := 0x100000
def fTRK_TICK_TICK : Field := ⟨rTRK_TICK, 0, 48⟩
def rTRK_PTAB_STAT : Nat := 0x100008
def fTRK_PTAB_STAT_USED : Field := ⟨rTRK_PTAB_STAT, 0, 12⟩
def fTRK_PTAB_STAT_PEAK : Field := ⟨rTRK_PTAB_STAT, 12, 12⟩
def fTRK_PTAB_STAT_OVERFLOW : Field := ⟨rTRK_PTAB_STAT, 24, 24⟩
def rTRK_ENC_CFG (n : Nat) : Nat := 0x100100 + 0x20 * n
def fTRK_ENC_CFG_MODE (n : Nat) : Field := ⟨rTRK_ENC_CFG n, 0, 2⟩
def fTRK_ENC_CFG_ENC_FILT (n : Nat) : Field := ⟨rTRK_ENC_CFG n, 2, 4⟩
def fTRK_ENC_CFG_Z_EN (n : Nat) : Field := ⟨rTRK_ENC_CFG n, 6, 1⟩
def fTRK_ENC_CFG_FLT_EN (n : Nat) : Field := ⟨rTRK_ENC_CFG n, 7, 1⟩
def fTRK_ENC_CFG_CPR (n : Nat) : Field := ⟨rTRK_ENC_CFG n, 8, 24⟩
def rTRK_ENC_COUNT (n : Nat) : Nat := 0x100108 + 0x20 * n
def fTRK_ENC_COUNT_COUNT (n : Nat) : Field := ⟨rTRK_ENC_COUNT n, 0, 40⟩
def rTRK_ENC_STAT (n : Nat) : Nat := 0x100110 + 0x20 * n
def fTRK_ENC_STAT_A (n : Nat) : Field := ⟨rTRK_ENC_STAT n, 0, 1⟩
def fTRK_ENC_STAT_B (n : Nat) : Field := ⟨rTRK_ENC_STAT n, 1, 1⟩
def fTRK_ENC_STAT_Z (n : Nat) : Field := ⟨rTRK_ENC_STAT n, 2, 1⟩
def fTRK_ENC_STAT_FLT (n : Nat) : Field := ⟨rTRK_ENC_STAT n, 3, 1⟩
def fTRK_ENC_STAT_WIRE (n : Nat) : Field := ⟨rTRK_ENC_STAT n, 8, 1⟩
def fTRK_ENC_STAT_STUCK (n : Nat) : Field := ⟨rTRK_ENC_STAT n, 9, 1⟩
def fTRK_ENC_STAT_ILLEGAL (n : Nat) : Field := ⟨rTRK_ENC_STAT n, 10, 1⟩
def fTRK_ENC_STAT_Z_ERR (n : Nat) : Field := ⟨rTRK_ENC_STAT n, 11, 1⟩
def fTRK_ENC_STAT_ILL_CNT (n : Nat) : Field := ⟨rTRK_ENC_STAT n, 16, 16⟩
def fTRK_ENC_STAT_Z_CNT (n : Nat) : Field := ⟨rTRK_ENC_STAT n, 32, 16⟩
def rTRK_LINE_CTL (n : Nat) : Nat := 0x100400 + 0x80 * n
def fTRK_LINE_CTL_EN (n : Nat) : Field := ⟨rTRK_LINE_CTL n, 0, 1⟩
def fTRK_LINE_CTL_SRC (n : Nat) : Field := ⟨rTRK_LINE_CTL n, 1, 2⟩
def fTRK_LINE_CTL_ENC_SEL (n : Nat) : Field := ⟨rTRK_LINE_CTL n, 3, 3⟩
def fTRK_LINE_CTL_DIR_INV (n : Nat) : Field := ⟨rTRK_LINE_CTL n, 6, 1⟩
def fTRK_LINE_CTL_REV_CMD_EN (n : Nat) : Field := ⟨rTRK_LINE_CTL n, 7, 1⟩
def fTRK_LINE_CTL_H (n : Nat) : Field := ⟨rTRK_LINE_CTL n, 8, 4⟩
def fTRK_LINE_CTL_OC_UNIT (n : Nat) : Field := ⟨rTRK_LINE_CTL n, 12, 3⟩
def fTRK_LINE_CTL_OC_LINE (n : Nat) : Field := ⟨rTRK_LINE_CTL n, 15, 2⟩
def fTRK_LINE_CTL_VEL_N (n : Nat) : Field := ⟨rTRK_LINE_CTL n, 17, 6⟩
def rTRK_LINE_REVLIM (n : Nat) : Nat := 0x100408 + 0x80 * n
def fTRK_LINE_REVLIM_L_REV (n : Nat) : Field := ⟨rTRK_LINE_REVLIM n, 0, 24⟩
def fTRK_LINE_REVLIM_L_BU (n : Nat) : Field := ⟨rTRK_LINE_REVLIM n, 24, 24⟩
def rTRK_LINE_FREEZE (n : Nat) : Nat := 0x100410 + 0x80 * n
def fTRK_LINE_FREEZE_FREEZE_WIN (n : Nat) : Field := ⟨rTRK_LINE_FREEZE n, 0, 32⟩
def fTRK_LINE_FREEZE_PITCH_Q (n : Nat) : Field := ⟨rTRK_LINE_FREEZE n, 32, 8⟩
def fTRK_LINE_FREEZE_PITCH_K (n : Nat) : Field := ⟨rTRK_LINE_FREEZE n, 40, 4⟩
def rTRK_LINE_VMIN (n : Nat) : Nat := 0x100418 + 0x80 * n
def fTRK_LINE_VMIN_V_MIN (n : Nat) : Field := ⟨rTRK_LINE_VMIN n, 0, 32⟩
def rTRK_LINE_DR (n : Nat) : Nat := 0x100420 + 0x80 * n
def fTRK_LINE_DR_D_DR (n : Nat) : Field := ⟨rTRK_LINE_DR n, 0, 32⟩
def rTRK_LINE_PITCH (n : Nat) : Nat := 0x100428 + 0x80 * n
def fTRK_LINE_PITCH_PITCH_NOM (n : Nat) : Field := ⟨rTRK_LINE_PITCH n, 0, 40⟩
def rTRK_LINE_POS (n : Nat) : Nat := 0x100430 + 0x80 * n
def fTRK_LINE_POS_P_M (n : Nat) : Field := ⟨rTRK_LINE_POS n, 0, 48⟩
def rTRK_LINE_RAWPOS (n : Nat) : Nat := 0x100438 + 0x80 * n
def fTRK_LINE_RAWPOS_P_RAW (n : Nat) : Field := ⟨rTRK_LINE_RAWPOS n, 0, 48⟩
def rTRK_LINE_VEL (n : Nat) : Nat := 0x100440 + 0x80 * n
def fTRK_LINE_VEL_V (n : Nat) : Field := ⟨rTRK_LINE_VEL n, 0, 48⟩
def rTRK_LINE_ACC (n : Nat) : Nat := 0x100448 + 0x80 * n
def fTRK_LINE_ACC_A_EST (n : Nat) : Field := ⟨rTRK_LINE_ACC n, 0, 48⟩
def rTRK_LINE_STAT (n : Nat) : Nat := 0x100450 + 0x80 * n
def fTRK_LINE_STAT_STATE (n : Nat) : Field := ⟨rTRK_LINE_STAT n, 0, 3⟩
def fTRK_LINE_STAT_LINE_REVERSE (n : Nat) : Field := ⟨rTRK_LINE_STAT n, 8, 1⟩
def fTRK_LINE_STAT_REV_LIMIT (n : Nat) : Field := ⟨rTRK_LINE_STAT n, 9, 1⟩
def fTRK_LINE_STAT_WIRE_LOSS (n : Nat) : Field := ⟨rTRK_LINE_STAT n, 10, 1⟩
def fTRK_LINE_STAT_FREEZE (n : Nat) : Field := ⟨rTRK_LINE_STAT n, 11, 1⟩
def fTRK_LINE_STAT_PITCH_FREEZE (n : Nat) : Field := ⟨rTRK_LINE_STAT n, 12, 1⟩
def fTRK_LINE_STAT_DR_EXHAUSTED (n : Nat) : Field := ⟨rTRK_LINE_STAT n, 13, 1⟩
def fTRK_LINE_STAT_CFG_REFUSED (n : Nat) : Field := ⟨rTRK_LINE_STAT n, 14, 1⟩
def fTRK_LINE_STAT_EXPIRED (n : Nat) : Field := ⟨rTRK_LINE_STAT n, 15, 1⟩
def fTRK_LINE_STAT_OCING_STALE (n : Nat) : Field := ⟨rTRK_LINE_STAT n, 16, 1⟩
def fTRK_LINE_STAT_VIRT_STALE (n : Nat) : Field := ⟨rTRK_LINE_STAT n, 17, 1⟩
def fTRK_LINE_STAT_RECOVERED (n : Nat) : Field := ⟨rTRK_LINE_STAT n, 18, 1⟩
def rTRK_LINE_VIRT (n : Nat) : Nat := 0x100458 + 0x80 * n
def fTRK_LINE_VIRT_V_VIRT (n : Nat) : Field := ⟨rTRK_LINE_VIRT n, 0, 48⟩
def rTRK_LINE_VIRT_TMO (n : Nat) : Nat := 0x100460 + 0x80 * n
def fTRK_LINE_VIRT_TMO_VIRT_TMO (n : Nat) : Field := ⟨rTRK_LINE_VIRT_TMO n, 0, 16⟩
def rTRK_LINE_DROFF (n : Nat) : Nat := 0x100468 + 0x80 * n
def fTRK_LINE_DROFF_DROFF (n : Nat) : Field := ⟨rTRK_LINE_DROFF n, 0, 48⟩
def rTRK_LINE_PRESET (n : Nat) : Nat := 0x100470 + 0x80 * n
def fTRK_LINE_PRESET_PRESET (n : Nat) : Field := ⟨rTRK_LINE_PRESET n, 0, 48⟩
def rTRK_LINE_CNT (n : Nat) : Nat := 0x100478 + 0x80 * n
def fTRK_LINE_CNT_REV_CNT (n : Nat) : Field := ⟨rTRK_LINE_CNT n, 0, 16⟩
def fTRK_LINE_CNT_LOSS_CNT (n : Nat) : Field := ⟨rTRK_LINE_CNT n, 16, 16⟩
def fTRK_LINE_CNT_SUPP_CNT (n : Nat) : Field := ⟨rTRK_LINE_CNT n, 32, 16⟩
def rTRK_PD_CFG (n : Nat) : Nat := 0x100800 + 0x10 * n
def fTRK_PD_CFG_EN (n : Nat) : Field := ⟨rTRK_PD_CFG n, 0, 1⟩
def fTRK_PD_CFG_LINE (n : Nat) : Field := ⟨rTRK_PD_CFG n, 1, 2⟩
def fTRK_PD_CFG_POL (n : Nat) : Field := ⟨rTRK_PD_CFG n, 3, 1⟩
def fTRK_PD_CFG_FILT_N (n : Nat) : Field := ⟨rTRK_PD_CFG n, 4, 6⟩
def fTRK_PD_CFG_FILT_C (n : Nat) : Field := ⟨rTRK_PD_CFG n, 10, 16⟩
def fTRK_PD_CFG_BLANK (n : Nat) : Field := ⟨rTRK_PD_CFG n, 26, 16⟩
def rTRK_PD_STAT (n : Nat) : Nat := 0x100808 + 0x10 * n
def fTRK_PD_STAT_LEVEL (n : Nat) : Field := ⟨rTRK_PD_STAT n, 0, 1⟩
def fTRK_PD_STAT_OFF_CNT (n : Nat) : Field := ⟨rTRK_PD_STAT n, 8, 8⟩
def fTRK_PD_STAT_FILT_CNT (n : Nat) : Field := ⟨rTRK_PD_STAT n, 16, 16⟩
def fTRK_PD_STAT_BLANK_CNT (n : Nat) : Field := ⟨rTRK_PD_STAT n, 32, 16⟩
def rTRK_HLEAD (n : Nat) : Nat := 0x100A00 + 0x8 * n
def fTRK_HLEAD_LINE (n : Nat) : Field := ⟨rTRK_HLEAD n, 0, 2⟩
def fTRK_HLEAD_EN (n : Nat) : Field := ⟨rTRK_HLEAD n, 2, 1⟩
def fTRK_HLEAD_T_LEAD (n : Nat) : Field := ⟨rTRK_HLEAD n, 4, 16⟩
def rTRK_HPRED (n : Nat) : Nat := 0x100A80 + 0x8 * n
def fTRK_HPRED_P_PRED (n : Nat) : Field := ⟨rTRK_HPRED n, 0, 48⟩
def rSCH_STAT : Nat := 0x120000
def fSCH_STAT_PET_USED : Field := ⟨rSCH_STAT, 0, 14⟩
def fSCH_STAT_PET_PEAK : Field := ⟨rSCH_STAT, 14, 14⟩
def fSCH_STAT_JOBS_USED : Field := ⟨rSCH_STAT, 28, 10⟩
def fSCH_STAT_JOBS_PEAK : Field := ⟨rSCH_STAT, 38, 10⟩
def rSCH_LAG : Nat := 0x120008
def fSCH_LAG_MAX_LAG : Field := ⟨rSCH_LAG, 0, 16⟩
def fSCH_LAG_LATE_CNT : Field := ⟨rSCH_LAG, 16, 32⟩
def rSCH_INS_POS : Nat := 0x120020
def fSCH_INS_POS_POS : Field := ⟨rSCH_INS_POS, 0, 48⟩
def rSCH_INS_CMD : Nat := 0x120028
def fSCH_INS_CMD_TYPE : Field := ⟨rSCH_INS_CMD, 0, 4⟩
def fSCH_INS_CMD_LINE : Field := ⟨rSCH_INS_CMD, 4, 2⟩
def fSCH_INS_CMD_HEADREL : Field := ⟨rSCH_INS_CMD, 6, 1⟩
def fSCH_INS_CMD_HEAD : Field := ⟨rSCH_INS_CMD, 7, 4⟩
def fSCH_INS_CMD_ARG : Field := ⟨rSCH_INS_CMD, 11, 8⟩
def fSCH_INS_CMD_GO : Field := ⟨rSCH_INS_CMD, 19, 1⟩
def rSCH_INS_STAT : Nat := 0x120030
def fSCH_INS_STAT_RESULT : Field := ⟨rSCH_INS_STAT, 0, 3⟩
def fSCH_INS_STAT_ENTRY : Field := ⟨rSCH_INS_STAT, 16, 13⟩
def rSCH_PET_HOSTMAX : Nat := 0x120038
def fSCH_PET_HOSTMAX_HOSTMAX : Field := ⟨rSCH_PET_HOSTMAX, 0, 13⟩
def rSCH_LINE_CTL (n : Nat) : Nat := 0x120100 + 0x100 * n
def fSCH_LINE_CTL_LATE_MODE (n : Nat) : Field := ⟨rSCH_LINE_CTL n, 0, 1⟩
def fSCH_LINE_CTL_MC (n : Nat) : Field := ⟨rSCH_LINE_CTL n, 1, 3⟩
def fSCH_LINE_CTL_READY_LEAD (n : Nat) : Field := ⟨rSCH_LINE_CTL n, 4, 8⟩
def fSCH_LINE_CTL_START_SLIP (n : Nat) : Field := ⟨rSCH_LINE_CTL n, 12, 8⟩
def fSCH_LINE_CTL_END_SLIP (n : Nat) : Field := ⟨rSCH_LINE_CTL n, 20, 12⟩
def rSCH_LINE_VMAX (n : Nat) : Nat := 0x120108 + 0x100 * n
def fSCH_LINE_VMAX_V_MAX (n : Nat) : Field := ⟨rSCH_LINE_VMAX n, 0, 32⟩
def rSCH_LINE_REL (n : Nat) : Nat := 0x120110 + 0x100 * n
def fSCH_LINE_REL_REL (n : Nat) : Field := ⟨rSCH_LINE_REL n, 0, 40⟩
def rSCH_LINE_STAT (n : Nat) : Nat := 0x120118 + 0x100 * n
def fSCH_LINE_STAT_ARMING (n : Nat) : Field := ⟨rSCH_LINE_STAT n, 0, 1⟩
def fSCH_LINE_STAT_BROWNOUT (n : Nat) : Field := ⟨rSCH_LINE_STAT n, 1, 1⟩
def fSCH_LINE_STAT_LINE_SAFE (n : Nat) : Field := ⟨rSCH_LINE_STAT n, 2, 1⟩
def fSCH_LINE_STAT_BACKUP (n : Nat) : Field := ⟨rSCH_LINE_STAT n, 3, 1⟩
def fSCH_LINE_STAT_CFG_REFUSED (n : Nat) : Field := ⟨rSCH_LINE_STAT n, 4, 1⟩
def fSCH_LINE_STAT_SNAP_SEQ (n : Nat) : Field := ⟨rSCH_LINE_STAT n, 8, 8⟩
def rSCH_LINE_SNAP_REQ (n : Nat) : Nat := 0x120120 + 0x100 * n
def fSCH_LINE_SNAP_REQ_REQ (n : Nat) : Field := ⟨rSCH_LINE_SNAP_REQ n, 0, 1⟩
def rSCH_LINE_SNAP_TICK (n : Nat) : Nat := 0x120128 + 0x100 * n
def fSCH_LINE_SNAP_TICK_T_S (n : Nat) : Field := ⟨rSCH_LINE_SNAP_TICK n, 0, 48⟩
def rSCH_LINE_SNAP_DET (n : Nat) : Nat := 0x120130 + 0x100 * n
def fSCH_LINE_SNAP_DET_DETECTED (n : Nat) : Field := ⟨rSCH_LINE_SNAP_DET n, 0, 48⟩
def rSCH_LINE_SNAP_OK (n : Nat) : Nat := 0x120138 + 0x100 * n
def fSCH_LINE_SNAP_OK_MARKED_OK (n : Nat) : Field := ⟨rSCH_LINE_SNAP_OK n, 0, 48⟩
def rSCH_LINE_SNAP_FLAG (n : Nat) : Nat := 0x120140 + 0x100 * n
def fSCH_LINE_SNAP_FLAG_MARKED_FLAGGED (n : Nat) : Field := ⟨rSCH_LINE_SNAP_FLAG n, 0, 48⟩
def rSCH_LINE_SNAP_REJ (n : Nat) : Nat := 0x120148 + 0x100 * n
def fSCH_LINE_SNAP_REJ_REJECTED (n : Nat) : Field := ⟨rSCH_LINE_SNAP_REJ n, 0, 48⟩
def rSCH_LINE_SNAP_INF (n : Nat) : Nat := 0x120150 + 0x100 * n
def fSCH_LINE_SNAP_INF_IN_FLIGHT (n : Nat) : Field := ⟨rSCH_LINE_SNAP_INF n, 0, 48⟩
def rSCH_LINE_NEXT_PNUM (n : Nat) : Nat := 0x120190 + 0x100 * n
def fSCH_LINE_NEXT_PNUM_PNUM (n : Nat) : Field := ⟨rSCH_LINE_NEXT_PNUM n, 0, 48⟩
def rSCH_LINE_BACKUPS (n : Nat) : Nat := 0x120198 + 0x100 * n
def fSCH_LINE_BACKUPS_BACKUPS (n : Nat) : Field := ⟨rSCH_LINE_BACKUPS n, 0, 32⟩
def rSCH_LINE_SNAP_CAUSE (n : Nat) (i : Nat) : Nat := 0x120158 + 0x100 * n + 0x8 * i
def fSCH_LINE_SNAP_CAUSE_CAUSE (n : Nat) (i : Nat) : Field := ⟨rSCH_LINE_SNAP_CAUSE n i, 0, 48⟩
def rSCH_HEAD_CFG (n : Nat) : Nat := 0x120600 + 0x10 * n
def fSCH_HEAD_CFG_S (n : Nat) : Field := ⟨rSCH_HEAD_CFG n, 0, 7⟩
def rSCH_HEAD_STAT (n : Nat) : Nat := 0x120608 + 0x10 * n
def fSCH_HEAD_STAT_F_LIM (n : Nat) : Field := ⟨rSCH_HEAD_STAT n, 0, 17⟩
def fSCH_HEAD_STAT_STATE (n : Nat) : Field := ⟨rSCH_HEAD_STAT n, 17, 3⟩
def rSCH_REJ_CFG (n : Nat) : Nat := 0x120700 + 0x20 * n
def fSCH_REJ_CFG_EN (n : Nat) : Field := ⟨rSCH_REJ_CFG n, 0, 1⟩
def fSCH_REJ_CFG_LINE (n : Nat) : Field := ⟨rSCH_REJ_CFG n, 1, 2⟩
def fSCH_REJ_CFG_POL (n : Nat) : Field := ⟨rSCH_REJ_CFG n, 3, 1⟩
def fSCH_REJ_CFG_WMODE (n : Nat) : Field := ⟨rSCH_REJ_CFG n, 4, 1⟩
def fSCH_REJ_CFG_FLAG_REJ (n : Nat) : Field := ⟨rSCH_REJ_CFG n, 5, 1⟩
def fSCH_REJ_CFG_LOST_HOLD (n : Nat) : Field := ⟨rSCH_REJ_CFG n, 6, 1⟩
def fSCH_REJ_CFG_WIDTH (n : Nat) : Field := ⟨rSCH_REJ_CFG n, 16, 16⟩
def fSCH_REJ_CFG_DEC_LEAD (n : Nat) : Field := ⟨rSCH_REJ_CFG n, 32, 16⟩
def rSCH_REJ_GATE (n : Nat) : Nat := 0x120708 + 0x20 * n
def fSCH_REJ_GATE_GATE_OFS (n : Nat) : Field := ⟨rSCH_REJ_GATE n, 0, 40⟩
def rSCH_REJ_STAT (n : Nat) : Nat := 0x120710 + 0x20 * n
def fSCH_REJ_STAT_LEVEL (n : Nat) : Field := ⟨rSCH_REJ_STAT n, 0, 1⟩
def fSCH_REJ_STAT_LOST_ACTIVE (n : Nat) : Field := ⟨rSCH_REJ_STAT n, 1, 1⟩
def fSCH_REJ_STAT_EARLY (n : Nat) : Field := ⟨rSCH_REJ_STAT n, 8, 8⟩
def fSCH_REJ_STAT_ABSORBED (n : Nat) : Field := ⟨rSCH_REJ_STAT n, 16, 16⟩
def fSCH_REJ_STAT_PULSES (n : Nat) : Field := ⟨rSCH_REJ_STAT n, 32, 16⟩
def rSCH_PD_BIND (n : Nat) : Nat := 0x120800 + 0x20 * n
def fSCH_PD_BIND_SLOT (n : Nat) : Field := ⟨rSCH_PD_BIND n, 0, 6⟩
def fSCH_PD_BIND_EN (n : Nat) : Field := ⟨rSCH_PD_BIND n, 6, 1⟩
def rSCH_PD_NEXT (n : Nat) : Nat := 0x120808 + 0x20 * n
def fSCH_PD_NEXT_SLOT (n : Nat) : Field := ⟨rSCH_PD_NEXT n, 0, 6⟩
def fSCH_PD_NEXT_PEND (n : Nat) : Field := ⟨rSCH_PD_NEXT n, 6, 1⟩
def rSCH_PD_AT (n : Nat) : Nat := 0x120810 + 0x20 * n
def fSCH_PD_AT_PNUM_AT (n : Nat) : Field := ⟨rSCH_PD_AT n, 0, 48⟩
def rSCH_BIND_CTL (n : Nat) : Nat := 0x130000 + 0x100 * n
def fSCH_BIND_CTL_LOAD (n : Nat) : Field := ⟨rSCH_BIND_CTL n, 0, 1⟩
def fSCH_BIND_CTL_VALID (n : Nat) : Field := ⟨rSCH_BIND_CTL n, 1, 1⟩
def fSCH_BIND_CTL_STENCIL (n : Nat) : Field := ⟨rSCH_BIND_CTL n, 2, 16⟩
def fSCH_BIND_CTL_LINE (n : Nat) : Field := ⟨rSCH_BIND_CTL n, 18, 2⟩
def fSCH_BIND_CTL_REJ (n : Nat) : Field := ⟨rSCH_BIND_CTL n, 20, 3⟩
def fSCH_BIND_CTL_REJ_EN (n : Nat) : Field := ⟨rSCH_BIND_CTL n, 23, 1⟩
def fSCH_BIND_CTL_NMARK (n : Nat) : Field := ⟨rSCH_BIND_CTL n, 24, 2⟩
def fSCH_BIND_CTL_UNLOAD (n : Nat) : Field := ⟨rSCH_BIND_CTL n, 26, 1⟩
def rSCH_BIND_ARM0 (n : Nat) : Nat := 0x130008 + 0x100 * n
def fSCH_BIND_ARM0_T_COMPOSE (n : Nat) : Field := ⟨rSCH_BIND_ARM0 n, 0, 16⟩
def fSCH_BIND_ARM0_T_RENDER (n : Nat) : Field := ⟨rSCH_BIND_ARM0 n, 16, 16⟩
def fSCH_BIND_ARM0_T_STAGE (n : Nat) : Field := ⟨rSCH_BIND_ARM0 n, 32, 16⟩
def rSCH_BIND_ARM1 (n : Nat) : Nat := 0x130010 + 0x100 * n
def fSCH_BIND_ARM1_T_GUARD (n : Nat) : Field := ⟨rSCH_BIND_ARM1 n, 0, 16⟩
def fSCH_BIND_ARM1_D_ARM (n : Nat) : Field := ⟨rSCH_BIND_ARM1 n, 16, 24⟩
def rSCH_BIND_BSTAT (n : Nat) : Nat := 0x130018 + 0x100 * n
def fSCH_BIND_BSTAT_ERR (n : Nat) : Field := ⟨rSCH_BIND_BSTAT n, 0, 4⟩
def fSCH_BIND_BSTAT_REFUSED (n : Nat) : Field := ⟨rSCH_BIND_BSTAT n, 4, 1⟩
def fSCH_BIND_BSTAT_MODIFIED (n : Nat) : Field := ⟨rSCH_BIND_BSTAT n, 5, 1⟩
def rSCH_BIND_MK_CFG (n : Nat) (i : Nat) : Nat := 0x130020 + 0x100 * n + 0x20 * i
def fSCH_BIND_MK_CFG_EN (n : Nat) (i : Nat) : Field := ⟨rSCH_BIND_MK_CFG n i, 0, 1⟩
def fSCH_BIND_MK_CFG_HEAD (n : Nat) (i : Nat) : Field := ⟨rSCH_BIND_MK_CFG n i, 1, 4⟩
def fSCH_BIND_MK_CFG_ALT_EN (n : Nat) (i : Nat) : Field := ⟨rSCH_BIND_MK_CFG n i, 5, 1⟩
def fSCH_BIND_MK_CFG_ALT (n : Nat) (i : Nat) : Field := ⟨rSCH_BIND_MK_CFG n i, 6, 4⟩
def fSCH_BIND_MK_CFG_PAIR (n : Nat) (i : Nat) : Field := ⟨rSCH_BIND_MK_CFG n i, 10, 1⟩
def rSCH_BIND_MK_OFS (n : Nat) (i : Nat) : Nat := 0x130028 + 0x100 * n + 0x20 * i
def fSCH_BIND_MK_OFS_OFS (n : Nat) (i : Nat) : Field := ⟨rSCH_BIND_MK_OFS n i, 0, 40⟩
def rSCH_BIND_MK_LEN (n : Nat) (i : Nat) : Nat := 0x130030 + 0x100 * n + 0x20 * i
def fSCH_BIND_MK_LEN_LEN (n : Nat) (i : Nat) : Field := ⟨rSCH_BIND_MK_LEN n i, 0, 24⟩
def fSCH_BIND_MK_LEN_COLS (n : Nat) (i : Nat) : Field := ⟨rSCH_BIND_MK_LEN n i, 24, 16⟩
def rSCH_BIND_MK_PITCH (n : Nat) (i : Nat) : Nat := 0x130038 + 0x100 * n + 0x20 * i
def fSCH_BIND_MK_PITCH_PITCH (n : Nat) (i : Nat) : Field := ⟨rSCH_BIND_MK_PITCH n i, 0, 16⟩
def fSCH_BIND_MK_PITCH_TOL (n : Nat) (i : Nat) : Field := ⟨rSCH_BIND_MK_PITCH n i, 16, 8⟩
def rTRU_REQ_HDR : Nat := 0x500000
def fTRU_REQ_HDR_TYPE : Field := ⟨rTRU_REQ_HDR, 0, 8⟩
def fTRU_REQ_HDR_LEN : Field := ⟨rTRU_REQ_HDR, 8, 12⟩
def fTRU_REQ_HDR_TAG : Field := ⟨rTRU_REQ_HDR, 20, 16⟩
def fTRU_REQ_HDR_GO : Field := ⟨rTRU_REQ_HDR, 36, 1⟩
def rTRU_RSP_HDR : Nat := 0x500008
def fTRU_RSP_HDR_TYPE : Field := ⟨rTRU_RSP_HDR, 0, 8⟩
def fTRU_RSP_HDR_STATUS : Field := ⟨rTRU_RSP_HDR, 8, 8⟩
def fTRU_RSP_HDR_LEN : Field := ⟨rTRU_RSP_HDR, 16, 12⟩
def fTRU_RSP_HDR_TAG : Field := ⟨rTRU_RSP_HDR, 28, 16⟩
def fTRU_RSP_HDR_VALID : Field := ⟨rTRU_RSP_HDR, 44, 1⟩
def rTRU_STAT : Nat := 0x500010
def fTRU_STAT_BUSY : Field := ⟨rTRU_STAT, 0, 1⟩
def fTRU_STAT_RESTARTING : Field := ⟨rTRU_STAT, 1, 1⟩
def fTRU_STAT_REJECTED_GO : Field := ⟨rTRU_STAT, 2, 1⟩
def rTRU_TIME : Nat := 0x500018
def fTRU_TIME_TIME : Field := ⟨rTRU_TIME, 0, 48⟩
def rTRU_TSTAT : Nat := 0x500020
def fTRU_TSTAT_TRUSTED : Field := ⟨rTRU_TSTAT, 0, 1⟩
def fTRU_TSTAT_CAUSE : Field := ⟨rTRU_TSTAT, 1, 3⟩
def fTRU_TSTAT_HINT_EN : Field := ⟨rTRU_TSTAT, 4, 1⟩
def fTRU_TSTAT_HINT_D : Field := ⟨rTRU_TSTAT, 8, 24⟩
def fTRU_TSTAT_TOL : Field := ⟨rTRU_TSTAT, 32, 16⟩
def rTRU_AUDIT_STAT : Nat := 0x500028
def fTRU_AUDIT_STAT_UNDRAINED : Field := ⟨rTRU_AUDIT_STAT, 0, 19⟩
def fTRU_AUDIT_STAT_HIGH : Field := ⟨rTRU_AUDIT_STAT, 19, 1⟩
def fTRU_AUDIT_STAT_FULL : Field := ⟨rTRU_AUDIT_STAT, 20, 1⟩
def fTRU_AUDIT_STAT_DROPPED : Field := ⟨rTRU_AUDIT_STAT, 21, 16⟩
def rTRU_AUDIT_SEQ : Nat := 0x500030
def fTRU_AUDIT_SEQ_SEQ : Field := ⟨rTRU_AUDIT_SEQ, 0, 48⟩
def rTRU_REQ (n : Nat) : Nat := 0x501000 + 0x8 * n
def fTRU_REQ_DATA (n : Nat) : Field := ⟨rTRU_REQ n, 0, 48⟩
def rTRU_RSP (n : Nat) : Nat := 0x502000 + 0x8 * n
def fTRU_RSP_DATA (n : Nat) : Field := ⟨rTRU_RSP n, 0, 48⟩
def rREN_STAT : Nat := 0x3C0000
def fREN_STAT_QUEUE : Field := ⟨rREN_STAT, 0, 10⟩
def fREN_STAT_QUEUE_PEAK : Field := ⟨rREN_STAT, 10, 10⟩
def fREN_STAT_RENDERS : Field := ⟨rREN_STAT, 20, 28⟩
def rREN_ERR : Nat := 0x3C0008
def fREN_ERR_REFUSED : Field := ⟨rREN_ERR, 0, 16⟩
def fREN_ERR_LATE : Field := ⟨rREN_ERR, 16, 16⟩
def fREN_ERR_CROP : Field := ⟨rREN_ERR, 32, 16⟩
def rREN_RATE : Nat := 0x3C0010
def fREN_RATE_RATE : Field := ⟨rREN_RATE, 0, 16⟩
def fREN_RATE_DERATE : Field := ⟨rREN_RATE, 16, 4⟩
def rREN_ALLOC : Nat := 0x3C0018
def fREN_ALLOC_USED : Field := ⟨rREN_ALLOC, 0, 17⟩
def fREN_ALLOC_PEAK : Field := ⟨rREN_ALLOC, 17, 17⟩
def fREN_ALLOC_ALLOC_WAIT : Field := ⟨rREN_ALLOC, 34, 14⟩
def rREN_FONT_CMD : Nat := 0x3C0200
def fREN_FONT_CMD_LOAD : Field := ⟨rREN_FONT_CMD, 0, 1⟩
def fREN_FONT_CMD_UNLOAD : Field := ⟨rREN_FONT_CMD, 1, 1⟩
def rREN_FONT_STAT : Nat := 0x3C0208
def fREN_FONT_STAT_RESULT : Field := ⟨rREN_FONT_STAT, 0, 3⟩
def fREN_FONT_STAT_BUSY : Field := ⟨rREN_FONT_STAT, 3, 1⟩
def fREN_FONT_STAT_LOADED : Field := ⟨rREN_FONT_STAT, 4, 16⟩
def fREN_FONT_STAT_USED : Field := ⟨rREN_FONT_STAT, 20, 11⟩
def fREN_FONT_STAT_DAMAGED : Field := ⟨rREN_FONT_STAT, 31, 16⟩
def rREN_FONT_ID : Nat := 0x3C0210
def fREN_FONT_ID_FONT_ID : Field := ⟨rREN_FONT_ID, 0, 32⟩
def rREN_HIMG_CMD : Nat := 0x3C0300
def fREN_HIMG_CMD_SLOT : Field := ⟨rREN_HIMG_CMD, 0, 4⟩
def fREN_HIMG_CMD_W_M1 : Field := ⟨rREN_HIMG_CMD, 4, 12⟩
def fREN_HIMG_CMD_H_M1 : Field := ⟨rREN_HIMG_CMD, 16, 12⟩
def fREN_HIMG_CMD_COMMIT : Field := ⟨rREN_HIMG_CMD, 28, 1⟩
def fREN_HIMG_CMD_CLEAR : Field := ⟨rREN_HIMG_CMD, 29, 1⟩
def rREN_HIMG_STAT : Nat := 0x3C0308
def fREN_HIMG_STAT_RESULT : Field := ⟨rREN_HIMG_STAT, 0, 2⟩
def fREN_HIMG_STAT_VALID : Field := ⟨rREN_HIMG_STAT, 2, 16⟩
def fREN_HIMG_STAT_INUSE : Field := ⟨rREN_HIMG_STAT, 18, 16⟩
def rREN_HIMG_WBUF : Nat := 0x3C0310
def fREN_HIMG_WBUF_WBUF : Field := ⟨rREN_HIMG_WBUF, 0, 16⟩
def rTRW_CFG : Nat := 0x3C8000
def fTRW_CFG_LEVEL : Field := ⟨rTRW_CFG, 0, 3⟩
def rTRW_STAT : Nat := 0x3C8008
def fTRW_STAT_COMP : Field := ⟨rTRW_STAT, 0, 24⟩
def fTRW_STAT_DECOMP : Field := ⟨rTRW_STAT, 24, 24⟩
def rTRW_ERR : Nat := 0x3C8010
def fTRW_ERR_CRC_ERR : Field := ⟨rTRW_ERR, 0, 16⟩
def fTRW_ERR_FMT_ERR : Field := ⟨rTRW_ERR, 16, 16⟩
def fTRW_ERR_STORED : Field := ⟨rTRW_ERR, 32, 16⟩
def rREN_HEAD_CFG (n : Nat) : Nat := 0x3C0100 + 0x8 * n
def fREN_HEAD_CFG_BPE (n : Nat) : Field := ⟨rREN_HEAD_CFG n, 0, 2⟩
def fREN_HEAD_CFG_LEVEL (n : Nat) : Field := ⟨rREN_HEAD_CFG n, 2, 8⟩
def fREN_HEAD_CFG_XREP (n : Nat) : Field := ⟨rREN_HEAD_CFG n, 10, 3⟩
def fREN_HEAD_CFG_YREP (n : Nat) : Field := ⟨rREN_HEAD_CFG n, 13, 3⟩
def fREN_HEAD_CFG_MIRROR_X (n : Nat) : Field := ⟨rREN_HEAD_CFG n, 16, 1⟩
def fREN_HEAD_CFG_FLIP_Y (n : Nat) : Field := ⟨rREN_HEAD_CFG n, 17, 1⟩
def fREN_HEAD_CFG_COMPRESS (n : Nat) : Field := ⟨rREN_HEAD_CFG n, 18, 1⟩
def rSQ_CTL (n : Nat) : Nat := 0x200000 + 0x10000 * n
def fSQ_CTL_ENTRY (n : Nat) : Field := ⟨rSQ_CTL n, 0, 12⟩
def fSQ_CTL_RUN (n : Nat) : Field := ⟨rSQ_CTL n, 12, 1⟩
def fSQ_CTL_STOP (n : Nat) : Field := ⟨rSQ_CTL n, 13, 1⟩
def fSQ_CTL_DOORBELL (n : Nat) : Field := ⟨rSQ_CTL n, 14, 1⟩
def fSQ_CTL_GIVEBACK (n : Nat) : Field := ⟨rSQ_CTL n, 15, 1⟩
def fSQ_CTL_RESTORE (n : Nat) : Field := ⟨rSQ_CTL n, 16, 1⟩
def rSQ_STAT (n : Nat) : Nat := 0x200008 + 0x10000 * n
def fSQ_STAT_STATE (n : Nat) : Field := ⟨rSQ_STAT n, 0, 2⟩
def fSQ_STAT_STOP_PEND (n : Nat) : Field := ⟨rSQ_STAT n, 2, 1⟩
def fSQ_STAT_S (n : Nat) : Field := ⟨rSQ_STAT n, 3, 1⟩
def fSQ_STAT_O (n : Nat) : Field := ⟨rSQ_STAT n, 4, 1⟩
def fSQ_STAT_PROG_REFUSED (n : Nat) : Field := ⟨rSQ_STAT n, 5, 1⟩
def fSQ_STAT_SHADOW_LATE (n : Nat) : Field := ⟨rSQ_STAT n, 6, 1⟩
def fSQ_STAT_CAUSE (n : Nat) : Field := ⟨rSQ_STAT n, 8, 4⟩
def fSQ_STAT_FAULT_PC (n : Nat) : Field := ⟨rSQ_STAT n, 12, 12⟩
def fSQ_STAT_FSRC (n : Nat) : Field := ⟨rSQ_STAT n, 24, 4⟩
def rSQ_FINSN (n : Nat) : Nat := 0x200010 + 0x10000 * n
def fSQ_FINSN_INSN (n : Nat) : Field := ⟨rSQ_FINSN n, 0, 32⟩
def rSQ_BIND (n : Nat) : Nat := 0x200018 + 0x10000 * n
def fSQ_BIND_PARTNER (n : Nat) : Field := ⟨rSQ_BIND n, 0, 5⟩
def fSQ_BIND_REBINDING (n : Nat) : Field := ⟨rSQ_BIND n, 5, 1⟩
def fSQ_BIND_FREE (n : Nat) : Field := ⟨rSQ_BIND n, 6, 1⟩
def rSQ_EVT (n : Nat) : Nat := 0x200058 + 0x10000 * n
def fSQ_EVT_DEPTH (n : Nat) : Field := ⟨rSQ_EVT n, 0, 3⟩
def fSQ_EVT_LOST (n : Nat) : Field := ⟨rSQ_EVT n, 3, 16⟩
def rSQ_CFG (n : Nat) : Nat := 0x200020 + 0x10000 * n
def fSQ_CFG_CWIN (n : Nat) : Field := ⟨rSQ_CFG n, 0, 16⟩
def fSQ_CFG_P1_LINE (n : Nat) : Field := ⟨rSQ_CFG n, 16, 2⟩
def fSQ_CFG_P2_LINE (n : Nat) : Field := ⟨rSQ_CFG n, 18, 2⟩
def fSQ_CFG_P3_LINE (n : Nat) : Field := ⟨rSQ_CFG n, 20, 2⟩
def fSQ_CFG_WDOG (n : Nat) : Field := ⟨rSQ_CFG n, 22, 8⟩
def fSQ_CFG_LOW_COLS (n : Nat) : Field := ⟨rSQ_CFG n, 30, 16⟩
def rSQ_SHADOW_SEAL (n : Nat) : Nat := 0x200028 + 0x10000 * n
def fSQ_SHADOW_SEAL_SEAL (n : Nat) : Field := ⟨rSQ_SHADOW_SEAL n, 0, 1⟩
def rSQ_HOCNT (n : Nat) : Nat := 0x200030 + 0x10000 * n
def fSQ_HOCNT_HANDOVERS (n : Nat) : Field := ⟨rSQ_HOCNT n, 0, 24⟩
def fSQ_HOCNT_DEFERRED (n : Nat) : Field := ⟨rSQ_HOCNT n, 24, 24⟩
def rSQ_CRED (n : Nat) : Nat := 0x200038 + 0x10000 * n
def fSQ_CRED_GRANTED (n : Nat) : Field := ⟨rSQ_CRED n, 0, 24⟩
def fSQ_CRED_CONSUMED (n : Nat) : Field := ⟨rSQ_CRED n, 24, 24⟩
def rSQ_LB (n : Nat) : Nat := 0x200040 + 0x10000 * n
def fSQ_LB_H_LB (n : Nat) : Field := ⟨rSQ_LB n, 0, 8⟩
def fSQ_LB_BUFFERED (n : Nat) : Field := ⟨rSQ_LB n, 8, 9⟩
def fSQ_LB_HALF (n : Nat) : Field := ⟨rSQ_LB n, 17, 1⟩
def fSQ_LB_RDCOL (n : Nat) : Field := ⟨rSQ_LB n, 18, 16⟩
def fSQ_LB_LATE_CNT (n : Nat) : Field := ⟨rSQ_LB n, 34, 14⟩
def rSQ_JOB (n : Nat) : Nat := 0x200048 + 0x10000 * n
def fSQ_JOB_CUR (n : Nat) : Field := ⟨rSQ_JOB n, 0, 9⟩
def fSQ_JOB_CUR_V (n : Nat) : Field := ⟨rSQ_JOB n, 9, 1⟩
def fSQ_JOB_NEXT (n : Nat) : Field := ⟨rSQ_JOB n, 10, 9⟩
def fSQ_JOB_NEXT_V (n : Nat) : Field := ⟨rSQ_JOB n, 19, 1⟩
def rSQ_COLCNT (n : Nat) : Nat := 0x200050 + 0x10000 * n
def fSQ_COLCNT_EMITTED (n : Nat) : Field := ⟨rSQ_COLCNT n, 0, 24⟩
def fSQ_COLCNT_SKIPPED (n : Nat) : Field := ⟨rSQ_COLCNT n, 24, 24⟩
def rSQ_TKO (n : Nat) : Nat := 0x200060 + 0x10000 * n
def fSQ_TKO_COUNT (n : Nat) : Field := ⟨rSQ_TKO n, 0, 16⟩
def fSQ_TKO_T_DETECT (n : Nat) : Field := ⟨rSQ_TKO n, 16, 16⟩
def fSQ_TKO_T_REBIND (n : Nat) : Field := ⟨rSQ_TKO n, 32, 16⟩
def rSQ_CKPT (n : Nat) : Nat := 0x200068 + 0x10000 * n
def fSQ_CKPT_COL (n : Nat) : Field := ⟨rSQ_CKPT n, 0, 16⟩
def fSQ_CKPT_SLOT (n : Nat) : Field := ⟨rSQ_CKPT n, 16, 1⟩
def fSQ_CKPT_INIT (n : Nat) : Field := ⟨rSQ_CKPT n, 17, 1⟩
def rSQ_MASK_SEL (n : Nat) : Nat := 0x200070 + 0x10000 * n
def fSQ_MASK_SEL_ROW (n : Nat) : Field := ⟨rSQ_MASK_SEL n, 0, 4⟩
def fSQ_MASK_SEL_BANK (n : Nat) : Field := ⟨rSQ_MASK_SEL n, 4, 1⟩
def rSQ_MASK (n : Nat) (i : Nat) : Nat := 0x203C00 + 0x10000 * n + 0x8 * i
def fSQ_MASK_BITS (n : Nat) (i : Nat) : Field := ⟨rSQ_MASK n i, 0, 32⟩
def rHP_CFG (n : Nat) : Nat := 0x380000 + 0x1000 * n
def fHP_CFG_PERS (n : Nat) : Field := ⟨rHP_CFG n, 0, 3⟩
def fHP_CFG_E_M1 (n : Nat) : Field := ⟨rHP_CFG n, 3, 12⟩
def fHP_CFG_ID_REQ (n : Nat) : Field := ⟨rHP_CFG n, 15, 1⟩
def fHP_CFG_FMAX (n : Nat) : Field := ⟨rHP_CFG n, 16, 17⟩
def rHP_STAT (n : Nat) : Nat := 0x380008 + 0x1000 * n
def fHP_STAT_PRESENT (n : Nat) : Field := ⟨rHP_STAT n, 0, 1⟩
def fHP_STAT_NEW_HEAD (n : Nat) : Field := ⟨rHP_STAT n, 1, 1⟩
def fHP_STAT_MISMATCH (n : Nat) : Field := ⟨rHP_STAT n, 2, 1⟩
def fHP_STAT_CFG_REFUSED (n : Nat) : Field := ⟨rHP_STAT n, 3, 1⟩
def fHP_STAT_WF_REFUSED (n : Nat) : Field := ⟨rHP_STAT n, 4, 1⟩
def fHP_STAT_ALIGN_STALE (n : Nat) : Field := ⟨rHP_STAT n, 5, 1⟩
def fHP_STAT_SAFE (n : Nat) : Field := ⟨rHP_STAT n, 6, 1⟩
def fHP_STAT_VIEW_PEND (n : Nat) : Field := ⟨rHP_STAT n, 7, 1⟩
def fHP_STAT_T_PORT (n : Nat) : Field := ⟨rHP_STAT n, 8, 16⟩
def fHP_STAT_FAILS (n : Nat) : Field := ⟨rHP_STAT n, 24, 2⟩
def fHP_STAT_PLUG_CNT (n : Nat) : Field := ⟨rHP_STAT n, 26, 16⟩
def rHP_LANE (n : Nat) : Nat := 0x380010 + 0x1000 * n
def fHP_LANE_RATE (n : Nat) : Field := ⟨rHP_LANE n, 0, 2⟩
def fHP_LANE_LAT_DLY (n : Nat) : Field := ⟨rHP_LANE n, 2, 12⟩
def fHP_LANE_LAT_W (n : Nat) : Field := ⟨rHP_LANE n, 14, 10⟩
def fHP_LANE_LAT_POL (n : Nat) : Field := ⟨rHP_LANE n, 24, 1⟩
def rHP_ALIGN (n : Nat) : Nat := 0x380018 + 0x1000 * n
def fHP_ALIGN_ALIGN_X (n : Nat) : Field := ⟨rHP_ALIGN n, 0, 24⟩
def fHP_ALIGN_ALIGN_Y (n : Nat) : Field := ⟨rHP_ALIGN n, 24, 17⟩
def rHP_ALIGN_CMD (n : Nat) : Nat := 0x380020 + 0x1000 * n
def fHP_ALIGN_CMD_STORE (n : Nat) : Field := ⟨rHP_ALIGN_CMD n, 0, 1⟩
def fHP_ALIGN_CMD_ACCEPT (n : Nat) : Field := ⟨rHP_ALIGN_CMD n, 1, 1⟩
def fHP_ALIGN_CMD_RESULT (n : Nat) : Field := ⟨rHP_ALIGN_CMD n, 2, 2⟩
def fHP_ALIGN_CMD_BUSY (n : Nat) : Field := ⟨rHP_ALIGN_CMD n, 4, 1⟩
def fHP_ALIGN_CMD_RESTORED (n : Nat) : Field := ⟨rHP_ALIGN_CMD n, 5, 1⟩
def fHP_ALIGN_CMD_BAD (n : Nat) : Field := ⟨rHP_ALIGN_CMD n, 6, 1⟩
def rHP_GROUP (n : Nat) : Nat := 0x380028 + 0x1000 * n
def fHP_GROUP_G (n : Nat) : Field := ⟨rHP_GROUP n, 0, 4⟩
def fHP_GROUP_G_SIM (n : Nat) : Field := ⟨rHP_GROUP n, 4, 4⟩
def fHP_GROUP_W_MAX (n : Nat) : Field := ⟨rHP_GROUP n, 8, 20⟩
def rHP_ENRG0 (n : Nat) : Nat := 0x380030 + 0x1000 * n
def fHP_ENRG0_T_BASE (n : Nat) : Field := ⟨rHP_ENRG0 n, 0, 20⟩
def fHP_ENRG0_V_REF (n : Nat) : Field := ⟨rHP_ENRG0 n, 20, 16⟩
def fHP_ENRG0_HIST (n : Nat) : Field := ⟨rHP_ENRG0 n, 36, 8⟩
def rHP_ENRG1 (n : Nat) : Nat := 0x380038 + 0x1000 * n
def fHP_ENRG1_W_MIN (n : Nat) : Field := ⟨rHP_ENRG1 n, 0, 20⟩
def fHP_ENRG1_VSRC (n : Nat) : Field := ⟨rHP_ENRG1 n, 20, 5⟩
def fHP_ENRG1_KT0 (n : Nat) : Field := ⟨rHP_ENRG1 n, 25, 9⟩
def fHP_ENRG1_KTSTEP (n : Nat) : Field := ⟨rHP_ENRG1 n, 34, 8⟩
def rHP_WF (n : Nat) : Nat := 0x380058 + 0x1000 * n
def fHP_WF_WF_DIV (n : Nat) : Field := ⟨rHP_WF n, 0, 8⟩
def fHP_WF_WF_IDLE (n : Nat) : Field := ⟨rHP_WF n, 8, 16⟩
def fHP_WF_TSRC (n : Nat) : Field := ⟨rHP_WF n, 24, 1⟩
def fHP_WF_TH_IDX (n : Nat) : Field := ⟨rHP_WF n, 25, 2⟩
def fHP_WF_TRIM_STEP (n : Nat) : Field := ⟨rHP_WF n, 27, 16⟩
def rHP_TEMP (n : Nat) : Nat := 0x380078 + 0x1000 * n
def fHP_TEMP_T_HEAD (n : Nat) : Field := ⟨rHP_TEMP n, 0, 16⟩
def fHP_TEMP_T_INK (n : Nat) : Field := ⟨rHP_TEMP n, 16, 16⟩
def fHP_TEMP_BAND (n : Nat) : Field := ⟨rHP_TEMP n, 32, 3⟩
def fHP_TEMP_CAND (n : Nat) : Field := ⟨rHP_TEMP n, 35, 3⟩
def fHP_TEMP_DWELL (n : Nat) : Field := ⟨rHP_TEMP n, 38, 3⟩
def rHP_SPI (n : Nat) : Nat := 0x380080 + 0x1000 * n
def fHP_SPI_DIV (n : Nat) : Field := ⟨rHP_SPI n, 0, 5⟩
def fHP_SPI_TEMP_RATE (n : Nat) : Field := ⟨rHP_SPI n, 5, 10⟩
def rHP_WF_ADDR (n : Nat) : Nat := 0x380088 + 0x1000 * n
def fHP_WF_ADDR_ADDR (n : Nat) : Field := ⟨rHP_WF_ADDR n, 0, 13⟩
def rHP_WF_DATA (n : Nat) : Nat := 0x380090 + 0x1000 * n
def fHP_WF_DATA_SAMPLES (n : Nat) : Field := ⟨rHP_WF_DATA n, 0, 48⟩
def rHP_TEST (n : Nat) : Nat := 0x380098 + 0x1000 * n
def fHP_TEST_EN (n : Nat) : Field := ⟨rHP_TEST n, 0, 1⟩
def fHP_TEST_GATE (n : Nat) : Field := ⟨rHP_TEST n, 1, 2⟩
def fHP_TEST_TEST_N (n : Nat) : Field := ⟨rHP_TEST n, 3, 8⟩
def fHP_TEST_TEST_PER (n : Nat) : Field := ⟨rHP_TEST n, 11, 16⟩
def fHP_TEST_TEST_LEVEL (n : Nat) : Field := ⟨rHP_TEST n, 27, 2⟩
def fHP_TEST_TEST_W (n : Nat) : Field := ⟨rHP_TEST n, 29, 19⟩
def rHP_TESTWIN (n : Nat) : Nat := 0x3800A0 + 0x1000 * n
def fHP_TESTWIN_WIN_START (n : Nat) : Field := ⟨rHP_TESTWIN n, 0, 12⟩
def fHP_TESTWIN_WIN_END (n : Nat) : Field := ⟨rHP_TESTWIN n, 12, 12⟩
def fHP_TESTWIN_T_SLOW (n : Nat) : Field := ⟨rHP_TESTWIN n, 24, 12⟩
def rHP_TESTSTAT (n : Nat) : Nat := 0x3800A8 + 0x1000 * n
def fHP_TESTSTAT_NEXT_E (n : Nat) : Field := ⟨rHP_TESTSTAT n, 0, 12⟩
def fHP_TESTSTAT_BURSTS (n : Nat) : Field := ⟨rHP_TESTSTAT n, 12, 16⟩
def fHP_TESTSTAT_ABORTS (n : Nat) : Field := ⟨rHP_TESTSTAT n, 28, 8⟩
def fHP_TESTSTAT_NOISE (n : Nat) : Field := ⟨rHP_TESTSTAT n, 36, 8⟩
def fHP_TESTSTAT_ACTIVE (n : Nat) : Field := ⟨rHP_TESTSTAT n, 44, 1⟩
def rHP_TESTRES (n : Nat) : Nat := 0x3800B0 + 0x1000 * n
def fHP_TESTRES_ELEMENT (n : Nat) : Field := ⟨rHP_TESTRES n, 0, 12⟩
def fHP_TESTRES_RESULT (n : Nat) : Field := ⟨rHP_TESTRES n, 12, 2⟩
def fHP_TESTRES_T_A (n : Nat) : Field := ⟨rHP_TESTRES n, 14, 12⟩
def fHP_TESTRES_DEPTH (n : Nat) : Field := ⟨rHP_TESTRES n, 26, 5⟩
def fHP_TESTRES_LOST (n : Nat) : Field := ⟨rHP_TESTRES n, 31, 1⟩
def fHP_TESTRES_POP (n : Nat) : Field := ⟨rHP_TESTRES n, 32, 1⟩
def rHP_NZCFG (n : Nat) : Nat := 0x3800B8 + 0x1000 * n
def fHP_NZCFG_COVER (n : Nat) : Field := ⟨rHP_NZCFG n, 0, 2⟩
def fHP_NZCFG_PARTNER (n : Nat) : Field := ⟨rHP_NZCFG n, 2, 4⟩
def fHP_NZCFG_ABS_N (n : Nat) : Field := ⟨rHP_NZCFG n, 6, 3⟩
def fHP_NZCFG_PRES_N (n : Nat) : Field := ⟨rHP_NZCFG n, 9, 3⟩
def fHP_NZCFG_SLOW_N (n : Nat) : Field := ⟨rHP_NZCFG n, 12, 3⟩
def fHP_NZCFG_TRIM_MAX (n : Nat) : Field := ⟨rHP_NZCFG n, 15, 2⟩
def fHP_NZCFG_AUTO_TRIM (n : Nat) : Field := ⟨rHP_NZCFG n, 17, 1⟩
def rHP_NZSTAT (n : Nat) : Nat := 0x3800C0 + 0x1000 * n
def fHP_NZSTAT_ABSENT (n : Nat) : Field := ⟨rHP_NZSTAT n, 0, 13⟩
def fHP_NZSTAT_SLOW (n : Nat) : Field := ⟨rHP_NZSTAT n, 13, 13⟩
def fHP_NZSTAT_UNCOVERED (n : Nat) : Field := ⟨rHP_NZSTAT n, 26, 13⟩
def rHP_NZ_ADDR (n : Nat) : Nat := 0x3800C8 + 0x1000 * n
def fHP_NZ_ADDR_ADDR (n : Nat) : Field := ⟨rHP_NZ_ADDR n, 0, 12⟩
def rHP_NZ_DATA (n : Nat) : Nat := 0x3800D0 + 0x1000 * n
def fHP_NZ_DATA_ENTRIES (n : Nat) : Field := ⟨rHP_NZ_DATA n, 0, 48⟩
def rHP_KTAB (n : Nat) (i : Nat) : Nat := 0x380040 + 0x1000 * n + 0x8 * i
def fHP_KTAB_K0 (n : Nat) (i : Nat) : Field := ⟨rHP_KTAB n i, 0, 16⟩
def fHP_KTAB_K1 (n : Nat) (i : Nat) : Field := ⟨rHP_KTAB n i, 16, 16⟩
def fHP_KTAB_K2 (n : Nat) (i : Nat) : Field := ⟨rHP_KTAB n i, 32, 16⟩
def rHP_BANDS (n : Nat) (i : Nat) : Nat := 0x380060 + 0x1000 * n + 0x8 * i
def fHP_BANDS_B0 (n : Nat) (i : Nat) : Field := ⟨rHP_BANDS n i, 0, 16⟩
def fHP_BANDS_B1 (n : Nat) (i : Nat) : Field := ⟨rHP_BANDS n i, 16, 16⟩
def fHP_BANDS_B2 (n : Nat) (i : Nat) : Field := ⟨rHP_BANDS n i, 32, 16⟩
def rHP_WFLEN (n : Nat) (i : Nat) : Nat := 0x380100 + 0x1000 * n + 0x8 * i
def fHP_WFLEN_SEG0 (n : Nat) (i : Nat) : Field := ⟨rHP_WFLEN n i, 0, 10⟩
def fHP_WFLEN_SEG1 (n : Nat) (i : Nat) : Field := ⟨rHP_WFLEN n i, 10, 10⟩
def fHP_WFLEN_SEG2 (n : Nat) (i : Nat) : Field := ⟨rHP_WFLEN n i, 20, 10⟩
def fHP_WFLEN_SEG3 (n : Nat) (i : Nat) : Field := ⟨rHP_WFLEN n i, 30, 10⟩
def rHP_ID (n : Nat) (i : Nat) : Nat := 0x380200 + 0x1000 * n + 0x8 * i
def fHP_ID_BYTES (n : Nat) (i : Nat) : Field := ⟨rHP_ID n i, 0, 48⟩
def rDG_CFG (n : Nat) : Nat := 0x380800 + 0x1000 * n
def fDG_CFG_THRESH (n : Nat) : Field := ⟨rDG_CFG n, 0, 14⟩
def fDG_CFG_INV (n : Nat) : Field := ⟨rDG_CFG n, 14, 1⟩
def rDG_STAT (n : Nat) : Nat := 0x380808 + 0x1000 * n
def fDG_STAT_SAMPLE (n : Nat) : Field := ⟨rDG_STAT n, 0, 14⟩
def fDG_STAT_BASE (n : Nat) : Field := ⟨rDG_STAT n, 14, 14⟩
def fDG_STAT_OWNER (n : Nat) : Field := ⟨rDG_STAT n, 28, 4⟩
def fDG_STAT_BUSY (n : Nat) : Field := ⟨rDG_STAT n, 32, 1⟩
def fDG_STAT_CAL (n : Nat) : Field := ⟨rDG_STAT n, 33, 1⟩
def rHP_DLL_CFG (n : Nat) : Nat := 0x380300 + 0x1000 * n
def fHP_DLL_CFG_PIX_DIV (n : Nat) : Field := ⟨rHP_DLL_CFG n, 0, 8⟩
def fHP_DLL_CFG_BD_POL (n : Nat) : Field := ⟨rHP_DLL_CFG n, 8, 1⟩
def fHP_DLL_CFG_NFACET (n : Nat) : Field := ⟨rHP_DLL_CFG n, 9, 5⟩
def fHP_DLL_CFG_IDX_EN (n : Nat) : Field := ⟨rHP_DLL_CFG n, 14, 1⟩
def fHP_DLL_CFG_IDX_POL (n : Nat) : Field := ⟨rHP_DLL_CFG n, 15, 1⟩
def fHP_DLL_CFG_BD_TOL (n : Nat) : Field := ⟨rHP_DLL_CFG n, 16, 8⟩
def fHP_DLL_CFG_POLY_MC (n : Nat) : Field := ⟨rHP_DLL_CFG n, 24, 3⟩
def fHP_DLL_CFG_POLY_EN (n : Nat) : Field := ⟨rHP_DLL_CFG n, 27, 1⟩
def rHP_LSR_CFG (n : Nat) : Nat := 0x380308 + 0x1000 * n
def fHP_LSR_CFG_LASER_EN (n : Nat) : Field := ⟨rHP_LSR_CFG n, 0, 1⟩
def fHP_LSR_CFG_START_DLY (n : Nat) : Field := ⟨rHP_LSR_CFG n, 1, 12⟩
def fHP_LSR_CFG_PSCALE (n : Nat) : Field := ⟨rHP_LSR_CFG n, 13, 9⟩
def fHP_LSR_CFG_EN_WAIT (n : Nat) : Field := ⟨rHP_LSR_CFG n, 22, 12⟩
def rHP_LSR_STAT (n : Nat) : Nat := 0x380310 + 0x1000 * n
def fHP_LSR_STAT_STATE (n : Nat) : Field := ⟨rHP_LSR_STAT n, 0, 2⟩
def fHP_LSR_STAT_ENABLE (n : Nat) : Field := ⟨rHP_LSR_STAT n, 2, 1⟩
def fHP_LSR_STAT_GATE (n : Nat) : Field := ⟨rHP_LSR_STAT n, 3, 1⟩
def fHP_LSR_STAT_BD_LOSS (n : Nat) : Field := ⟨rHP_LSR_STAT n, 4, 1⟩
def fHP_LSR_STAT_LOCK_LOSS (n : Nat) : Field := ⟨rHP_LSR_STAT n, 5, 1⟩
def fHP_LSR_STAT_IDX_ERR (n : Nat) : Field := ⟨rHP_LSR_STAT n, 6, 1⟩
def fHP_LSR_STAT_RATE_ERR (n : Nat) : Field := ⟨rHP_LSR_STAT n, 7, 1⟩
def fHP_LSR_STAT_WINDOW (n : Nat) : Field := ⟨rHP_LSR_STAT n, 8, 1⟩
def fHP_LSR_STAT_ACQ_FAIL (n : Nat) : Field := ⟨rHP_LSR_STAT n, 9, 1⟩
def fHP_LSR_STAT_FACET (n : Nat) : Field := ⟨rHP_LSR_STAT n, 10, 5⟩
def fHP_LSR_STAT_ACQ_FACETS (n : Nat) : Field := ⟨rHP_LSR_STAT n, 15, 6⟩
def fHP_LSR_STAT_BD_PHASE (n : Nat) : Field := ⟨rHP_LSR_STAT n, 21, 6⟩
def rHP_LSR_MEAS (n : Nat) : Nat := 0x380318 + 0x1000 * n
def fHP_LSR_MEAS_T_FACET (n : Nat) : Field := ⟨rHP_LSR_MEAS n, 0, 24⟩
def rHP_LSR_CNT (n : Nat) : Nat := 0x380320 + 0x1000 * n
def fHP_LSR_CNT_DROPPED (n : Nat) : Field := ⟨rHP_LSR_CNT n, 0, 16⟩
def fHP_LSR_CNT_ACQUISITIONS (n : Nat) : Field := ⟨rHP_LSR_CNT n, 16, 16⟩
def fHP_LSR_CNT_FACETS_IDLE (n : Nat) : Field := ⟨rHP_LSR_CNT n, 32, 16⟩
def rHP_FACET (n : Nat) (i : Nat) : Nat := 0x380400 + 0x1000 * n + 0x8 * i
def fHP_FACET_START_TRIM (n : Nat) (i : Nat) : Field := ⟨rHP_FACET n i, 0, 12⟩
def fHP_FACET_LEN_TRIM (n : Nat) (i : Nat) : Field := ⟨rHP_FACET n i, 12, 12⟩
def rCE_CTL (n : Nat) : Nat := 0x400000 + 0x10000 * n
def fCE_CTL_ENTRY (n : Nat) : Field := ⟨rCE_CTL n, 0, 11⟩
def fCE_CTL_RUN (n : Nat) : Field := ⟨rCE_CTL n, 11, 1⟩
def fCE_CTL_STOP (n : Nat) : Field := ⟨rCE_CTL n, 12, 1⟩
def fCE_CTL_DOORBELL (n : Nat) : Field := ⟨rCE_CTL n, 13, 1⟩
def fCE_CTL_CLEAR_SAFE (n : Nat) : Field := ⟨rCE_CTL n, 14, 1⟩
def fCE_CTL_FORCE_SAFE (n : Nat) : Field := ⟨rCE_CTL n, 15, 1⟩
def rCE_STAT (n : Nat) : Nat := 0x400008 + 0x10000 * n
def fCE_STAT_STATE (n : Nat) : Field := ⟨rCE_STAT n, 0, 2⟩
def fCE_STAT_S (n : Nat) : Field := ⟨rCE_STAT n, 2, 1⟩
def fCE_STAT_O (n : Nat) : Field := ⟨rCE_STAT n, 3, 1⟩
def fCE_STAT_PROG_REFUSED (n : Nat) : Field := ⟨rCE_STAT n, 4, 1⟩
def fCE_STAT_CFG_REFUSED (n : Nat) : Field := ⟨rCE_STAT n, 5, 1⟩
def fCE_STAT_CAUSE (n : Nat) : Field := ⟨rCE_STAT n, 6, 4⟩
def fCE_STAT_FAULT_PC (n : Nat) : Field := ⟨rCE_STAT n, 10, 11⟩
def fCE_STAT_MODE (n : Nat) : Field := ⟨rCE_STAT n, 21, 2⟩
def fCE_STAT_SAFE_CAUSE (n : Nat) : Field := ⟨rCE_STAT n, 23, 3⟩
def rCE_FINSN (n : Nat) : Nat := 0x400010 + 0x10000 * n
def fCE_FINSN_INSN (n : Nat) : Field := ⟨rCE_FINSN n, 0, 32⟩
def rCE_TRIG (n : Nat) : Nat := 0x400018 + 0x10000 * n
def fCE_TRIG_SRC (n : Nat) : Field := ⟨rCE_TRIG n, 0, 2⟩
def fCE_TRIG_IDX (n : Nat) : Field := ⟨rCE_TRIG n, 2, 3⟩
def fCE_TRIG_DIV_M1 (n : Nat) : Field := ⟨rCE_TRIG n, 5, 8⟩
def fCE_TRIG_PER (n : Nat) : Field := ⟨rCE_TRIG n, 13, 18⟩
def fCE_TRIG_BUDGET (n : Nat) : Field := ⟨rCE_TRIG n, 31, 16⟩
def rCE_MODE (n : Nat) : Nat := 0x400020 + 0x10000 * n
def fCE_MODE_REQ (n : Nat) : Field := ⟨rCE_MODE n, 0, 1⟩
def fCE_MODE_OVR_MASK (n : Nat) : Field := ⟨rCE_MODE n, 1, 8⟩
def fCE_MODE_KHOLD (n : Nat) : Field := ⟨rCE_MODE n, 9, 1⟩
def fCE_MODE_N_OVR (n : Nat) : Field := ⟨rCE_MODE n, 10, 4⟩
def fCE_MODE_HOLD_N (n : Nat) : Field := ⟨rCE_MODE n, 14, 8⟩
def rCE_CNT (n : Nat) : Nat := 0x400028 + 0x10000 * n
def fCE_CNT_OVERRUNS (n : Nat) : Field := ⟨rCE_CNT n, 0, 16⟩
def fCE_CNT_CONSEC (n : Nat) : Field := ⟨rCE_CNT n, 16, 4⟩
def fCE_CNT_SAFE_ENTRIES (n : Nat) : Field := ⟨rCE_CNT n, 20, 12⟩
def fCE_CNT_SKIPPED (n : Nat) : Field := ⟨rCE_CNT n, 32, 8⟩
def fCE_CNT_CAUSES_IN_SAFE (n : Nat) : Field := ⟨rCE_CNT n, 40, 8⟩
def rCE_FB (n : Nat) : Nat := 0x400030 + 0x10000 * n
def fCE_FB_FAULT (n : Nat) : Field := ⟨rCE_FB n, 0, 8⟩
def fCE_FB_ACTIVE (n : Nat) : Field := ⟨rCE_FB n, 8, 8⟩
def rCE_EVT (n : Nat) : Nat := 0x400038 + 0x10000 * n
def fCE_EVT_DEPTH (n : Nat) : Field := ⟨rCE_EVT n, 0, 3⟩
def fCE_EVT_LOST (n : Nat) : Field := ⟨rCE_EVT n, 3, 16⟩
def rCE_PG_VMAX (n : Nat) : Nat := 0x400400 + 0x10000 * n
def fCE_PG_VMAX_VMAX (n : Nat) : Field := ⟨rCE_PG_VMAX n, 0, 48⟩
def rCE_PG_AMAX (n : Nat) : Nat := 0x400408 + 0x10000 * n
def fCE_PG_AMAX_AMAX (n : Nat) : Field := ⟨rCE_PG_AMAX n, 0, 48⟩
def rCE_PG_JMAX (n : Nat) : Nat := 0x400410 + 0x10000 * n
def fCE_PG_JMAX_JMAX (n : Nat) : Field := ⟨rCE_PG_JMAX n, 0, 48⟩
def rCE_PG_TGT (n : Nat) : Nat := 0x400418 + 0x10000 * n
def fCE_PG_TGT_TGT (n : Nat) : Field := ⟨rCE_PG_TGT n, 0, 48⟩
def rCE_PG_CMD (n : Nat) : Nat := 0x400420 + 0x10000 * n
def fCE_PG_CMD_CMD (n : Nat) : Field := ⟨rCE_PG_CMD n, 0, 3⟩
def fCE_PG_CMD_GO (n : Nat) : Field := ⟨rCE_PG_CMD n, 3, 1⟩
def rCE_PG_POS (n : Nat) : Nat := 0x400428 + 0x10000 * n
def fCE_PG_POS_P (n : Nat) : Field := ⟨rCE_PG_POS n, 0, 48⟩
def rCE_PG_VEL (n : Nat) : Nat := 0x400430 + 0x10000 * n
def fCE_PG_VEL_V (n : Nat) : Field := ⟨rCE_PG_VEL n, 0, 48⟩
def rCE_PG_ACC (n : Nat) : Nat := 0x400438 + 0x10000 * n
def fCE_PG_ACC_A (n : Nat) : Field := ⟨rCE_PG_ACC n, 0, 48⟩
def rCE_PG_STAT (n : Nat) : Nat := 0x400440 + 0x10000 * n
def fCE_PG_STAT_MODE (n : Nat) : Field := ⟨rCE_PG_STAT n, 0, 3⟩
def fCE_PG_STAT_STATE (n : Nat) : Field := ⟨rCE_PG_STAT n, 3, 2⟩
def fCE_PG_STAT_MC_OWNED (n : Nat) : Field := ⟨rCE_PG_STAT n, 5, 1⟩
def fCE_PG_STAT_REFUSED (n : Nat) : Field := ⟨rCE_PG_STAT n, 6, 1⟩
def rCE_XCFG (n : Nat) (i : Nat) : Nat := 0x400100 + 0x10000 * n + 0x8 * i
def fCE_XCFG_CLASS (n : Nat) (i : Nat) : Field := ⟨rCE_XCFG n i, 0, 4⟩
def fCE_XCFG_UNIT (n : Nat) (i : Nat) : Field := ⟨rCE_XCFG n i, 4, 5⟩
def fCE_XCFG_SEL (n : Nat) (i : Nat) : Field := ⟨rCE_XCFG n i, 9, 4⟩
def fCE_XCFG_FB (n : Nat) (i : Nat) : Field := ⟨rCE_XCFG n i, 13, 1⟩
def rCE_HOSTX (n : Nat) (i : Nat) : Nat := 0x400140 + 0x10000 * n + 0x8 * i
def fCE_HOSTX_VALUE (n : Nat) (i : Nat) : Field := ⟨rCE_HOSTX n i, 0, 48⟩
def rCE_K (n : Nat) (i : Nat) : Nat := 0x400180 + 0x10000 * n + 0x8 * i
def fCE_K_K (n : Nat) (i : Nat) : Field := ⟨rCE_K n i, 0, 48⟩
def rCE_Y (n : Nat) (i : Nat) : Nat := 0x400200 + 0x10000 * n + 0x8 * i
def fCE_Y_Y (n : Nat) (i : Nat) : Field := ⟨rCE_Y n i, 0, 48⟩
def rCE_SAFE (n : Nat) (i : Nat) : Nat := 0x400240 + 0x10000 * n + 0x8 * i
def fCE_SAFE_SAFE (n : Nat) (i : Nat) : Field := ⟨rCE_SAFE n i, 0, 48⟩
def rCE_RAMP (n : Nat) (i : Nat) : Nat := 0x400280 + 0x10000 * n + 0x8 * i
def fCE_RAMP_RAMP (n : Nat) (i : Nat) : Field := ⟨rCE_RAMP n i, 0, 48⟩
def rCE_MAN (n : Nat) (i : Nat) : Nat := 0x4002C0 + 0x10000 * n + 0x8 * i
def fCE_MAN_MAN (n : Nat) (i : Nat) : Field := ⟨rCE_MAN n i, 0, 48⟩
def rMC_CTL (n : Nat) : Nat := 0x480000 + 0x1000 * n
def fMC_CTL_START (n : Nat) : Field := ⟨rMC_CTL n, 0, 1⟩
def fMC_CTL_STOP (n : Nat) : Field := ⟨rMC_CTL n, 1, 1⟩
def fMC_CTL_CLEAR (n : Nat) : Field := ⟨rMC_CTL n, 2, 1⟩
def fMC_CTL_DIR (n : Nat) : Field := ⟨rMC_CTL n, 3, 1⟩
def rMC_CFG (n : Nat) : Nat := 0x480008 + 0x1000 * n
def fMC_CFG_EN (n : Nat) : Field := ⟨rMC_CFG n, 0, 1⟩
def fMC_CFG_BUS (n : Nat) : Field := ⟨rMC_CFG n, 1, 1⟩
def fMC_CFG_SHUNT (n : Nat) : Field := ⟨rMC_CFG n, 2, 1⟩
def fMC_CFG_ANG_SRC (n : Nat) : Field := ⟨rMC_CFG n, 3, 2⟩
def fMC_CFG_ENC (n : Nat) : Field := ⟨rMC_CFG n, 5, 3⟩
def fMC_CFG_PP (n : Nat) : Field := ⟨rMC_CFG n, 8, 5⟩
def fMC_CFG_REF_CE (n : Nat) : Field := ⟨rMC_CFG n, 13, 3⟩
def fMC_CFG_IQ_Y (n : Nat) : Field := ⟨rMC_CFG n, 16, 3⟩
def fMC_CFG_ID_SRC (n : Nat) : Field := ⟨rMC_CFG n, 19, 1⟩
def fMC_CFG_ID_Y (n : Nat) : Field := ⟨rMC_CFG n, 20, 3⟩
def fMC_CFG_OBS_ANG_Y (n : Nat) : Field := ⟨rMC_CFG n, 23, 3⟩
def fMC_CFG_OBS_SPD_Y (n : Nat) : Field := ⟨rMC_CFG n, 26, 3⟩
def fMC_CFG_SAMP_DIV_M1 (n : Nat) : Field := ⟨rMC_CFG n, 29, 4⟩
def rMC_PWM (n : Nat) : Nat := 0x480010 + 0x1000 * n
def fMC_PWM_PER (n : Nat) : Field := ⟨rMC_PWM n, 0, 14⟩
def fMC_PWM_DT (n : Nat) : Field := ⟨rMC_PWM n, 14, 8⟩
def fMC_PWM_T_SETTLE (n : Nat) : Field := ⟨rMC_PWM n, 22, 8⟩
def fMC_PWM_SKIP_MAX (n : Nat) : Field := ⟨rMC_PWM n, 30, 4⟩
def fMC_PWM_VLIM (n : Nat) : Field := ⟨rMC_PWM n, 34, 9⟩
def rMC_CUR (n : Nat) : Nat := 0x480018 + 0x1000 * n
def fMC_CUR_KP (n : Nat) : Field := ⟨rMC_CUR n, 0, 16⟩
def fMC_CUR_KI (n : Nat) : Field := ⟨rMC_CUR n, 16, 16⟩
def fMC_CUR_I_TRIP (n : Nat) : Field := ⟨rMC_CUR n, 32, 16⟩
def rMC_ID_REF (n : Nat) : Nat := 0x480020 + 0x1000 * n
def fMC_ID_REF_ID_REF (n : Nat) : Field := ⟨rMC_ID_REF n, 0, 48⟩
def rMC_SCALE (n : Nat) : Nat := 0x480028 + 0x1000 * n
def fMC_SCALE_I_SCALE (n : Nat) : Field := ⟨rMC_SCALE n, 0, 16⟩
def fMC_SCALE_PV_SCALE (n : Nat) : Field := ⟨rMC_SCALE n, 16, 16⟩
def rMC_ENC (n : Nat) : Nat := 0x480030 + 0x1000 * n
def fMC_ENC_CPR (n : Nat) : Field := ⟨rMC_ENC n, 0, 24⟩
def fMC_ENC_OFS (n : Nat) : Field := ⟨rMC_ENC n, 24, 24⟩
def rMC_HFI (n : Nat) : Nat := 0x480038 + 0x1000 * n
def fMC_HFI_V_HFI (n : Nat) : Field := ⟨rMC_HFI n, 0, 16⟩
def fMC_HFI_HFI_DIV (n : Nat) : Field := ⟨rMC_HFI n, 16, 2⟩
def fMC_HFI_LOCK_N (n : Nat) : Field := ⟨rMC_HFI n, 18, 10⟩
def fMC_HFI_I_POL (n : Nat) : Field := ⟨rMC_HFI n, 28, 16⟩
def fMC_HFI_POL_N (n : Nat) : Field := ⟨rMC_HFI n, 44, 4⟩
def rMC_SPD (n : Nat) : Nat := 0x480040 + 0x1000 * n
def fMC_SPD_RATED (n : Nat) : Field := ⟨rMC_SPD n, 0, 24⟩
def fMC_SPD_REV_THR (n : Nat) : Field := ⟨rMC_SPD n, 24, 8⟩
def fMC_SPD_CATCH_VMIN (n : Nat) : Field := ⟨rMC_SPD n, 32, 16⟩
def rMC_CATCH (n : Nat) : Nat := 0x480048 + 0x1000 * n
def fMC_CATCH_CATCH_T (n : Nat) : Field := ⟨rMC_CATCH n, 0, 16⟩
def fMC_CATCH_SYNC_N (n : Nat) : Field := ⟨rMC_CATCH n, 16, 8⟩
def fMC_CATCH_DECEL_I (n : Nat) : Field := ⟨rMC_CATCH n, 24, 24⟩
def rMC_ATSPD (n : Nat) : Nat := 0x480050 + 0x1000 * n
def fMC_ATSPD_SPD_TGT (n : Nat) : Field := ⟨rMC_ATSPD n, 0, 32⟩
def fMC_ATSPD_AT_TOL (n : Nat) : Field := ⟨rMC_ATSPD n, 32, 8⟩
def fMC_ATSPD_AT_DWELL (n : Nat) : Field := ⟨rMC_ATSPD n, 40, 8⟩
def rMC_REGEN (n : Nat) : Nat := 0x480058 + 0x1000 * n
def fMC_REGEN_I_REGEN_MAX (n : Nat) : Field := ⟨rMC_REGEN n, 0, 24⟩
def rMC_STAT (n : Nat) : Nat := 0x480060 + 0x1000 * n
def fMC_STAT_STATE (n : Nat) : Field := ⟨rMC_STAT n, 0, 3⟩
def fMC_STAT_REV_DEFERRED (n : Nat) : Field := ⟨rMC_STAT n, 3, 1⟩
def fMC_STAT_AT_SPEED (n : Nat) : Field := ⟨rMC_STAT n, 4, 1⟩
def fMC_STAT_CAUGHT (n : Nat) : Field := ⟨rMC_STAT n, 5, 1⟩
def fMC_STAT_REGEN_LIMITED (n : Nat) : Field := ⟨rMC_STAT n, 6, 1⟩
def fMC_STAT_PREDICTING (n : Nat) : Field := ⟨rMC_STAT n, 7, 1⟩
def fMC_STAT_TRIP_CAUSE (n : Nat) : Field := ⟨rMC_STAT n, 8, 3⟩
def fMC_STAT_OBS_LOST (n : Nat) : Field := ⟨rMC_STAT n, 11, 1⟩
def fMC_STAT_CFG_REFUSED (n : Nat) : Field := ⟨rMC_STAT n, 12, 1⟩
def fMC_STAT_START_REFUSED (n : Nat) : Field := ⟨rMC_STAT n, 13, 1⟩
def rMC_CNT (n : Nat) : Nat := 0x480068 + 0x1000 * n
def fMC_CNT_PREDICTS (n : Nat) : Field := ⟨rMC_CNT n, 0, 16⟩
def fMC_CNT_SHIFTS (n : Nat) : Field := ⟨rMC_CNT n, 16, 12⟩
def fMC_CNT_SHIFT_FAIL (n : Nat) : Field := ⟨rMC_CNT n, 28, 8⟩
def fMC_CNT_TRIPS (n : Nat) : Field := ⟨rMC_CNT n, 36, 8⟩
def rMC_BU_CFG (n : Nat) : Nat := 0x480070 + 0x1000 * n
def fMC_BU_CFG_CE (n : Nat) : Field := ⟨rMC_BU_CFG n, 0, 3⟩
def fMC_BU_CFG_MARGIN (n : Nat) : Field := ⟨rMC_BU_CFG n, 3, 16⟩
def fMC_BU_CFG_TMO (n : Nat) : Field := ⟨rMC_BU_CFG n, 19, 16⟩
def rMC_BU_STAT (n : Nat) : Nat := 0x480078 + 0x1000 * n
def fMC_BU_STAT_STATE (n : Nat) : Field := ⟨rMC_BU_STAT n, 0, 3⟩
def fMC_BU_STAT_BU_FAIL (n : Nat) : Field := ⟨rMC_BU_STAT n, 3, 1⟩
def fMC_BU_STAT_BU_CLAMP (n : Nat) : Field := ⟨rMC_BU_STAT n, 4, 1⟩
def fMC_BU_STAT_TIMEOUTS (n : Nat) : Field := ⟨rMC_BU_STAT n, 5, 16⟩
def rMC_Q (n : Nat) (i : Nat) : Nat := 0x480100 + 0x1000 * n + 0x8 * i
def fMC_Q_VALUE (n : Nat) (i : Nat) : Field := ⟨rMC_Q n i, 0, 48⟩
def rBUS_CFG (n : Nat) : Nat := 0x480800 + 0x1000 * n
def fBUS_CFG_SCALE (n : Nat) : Field := ⟨rBUS_CFG n, 0, 16⟩
def fBUS_CFG_SOFT_HYST (n : Nat) : Field := ⟨rBUS_CFG n, 16, 16⟩
def fBUS_CFG_CHOP_EN (n : Nat) : Field := ⟨rBUS_CFG n, 32, 1⟩
def fBUS_CFG_TEST_EN (n : Nat) : Field := ⟨rBUS_CFG n, 33, 1⟩
def rBUS_THR0 (n : Nat) : Nat := 0x480808 + 0x1000 * n
def fBUS_THR0_CHOP_OFF (n : Nat) : Field := ⟨rBUS_THR0 n, 0, 16⟩
def fBUS_THR0_CHOP_ON (n : Nat) : Field := ⟨rBUS_THR0 n, 16, 16⟩
def fBUS_THR0_SOFT (n : Nat) : Field := ⟨rBUS_THR0 n, 32, 16⟩
def rBUS_THR1 (n : Nat) : Nat := 0x480810 + 0x1000 * n
def fBUS_THR1_LIM_LO (n : Nat) : Field := ⟨rBUS_THR1 n, 0, 16⟩
def fBUS_THR1_LIM_HI (n : Nat) : Field := ⟨rBUS_THR1 n, 16, 16⟩
def fBUS_THR1_HARD (n : Nat) : Field := ⟨rBUS_THR1 n, 32, 16⟩
def rBUS_STAT (n : Nat) : Nat := 0x480818 + 0x1000 * n
def fBUS_STAT_V (n : Nat) : Field := ⟨rBUS_STAT n, 0, 24⟩
def fBUS_STAT_CHOP (n : Nat) : Field := ⟨rBUS_STAT n, 24, 1⟩
def fBUS_STAT_FB (n : Nat) : Field := ⟨rBUS_STAT n, 25, 1⟩
def fBUS_STAT_CHOP_FAULT (n : Nat) : Field := ⟨rBUS_STAT n, 26, 1⟩
def fBUS_STAT_SOFT_ACTIVE (n : Nat) : Field := ⟨rBUS_STAT n, 27, 1⟩
def fBUS_STAT_HARD_TRIP (n : Nat) : Field := ⟨rBUS_STAT n, 28, 1⟩
def fBUS_STAT_ORDER_ERR (n : Nat) : Field := ⟨rBUS_STAT n, 29, 1⟩
def fBUS_STAT_VALID (n : Nat) : Field := ⟨rBUS_STAT n, 30, 1⟩
def rHST_STAT : Nat := 0x60000
def fHST_STAT_SPEED : Field := ⟨rHST_STAT, 0, 2⟩
def fHST_STAT_WIDTH : Field := ⟨rHST_STAT, 2, 2⟩
def fHST_STAT_LINK_UP : Field := ⟨rHST_STAT, 4, 1⟩
def fHST_STAT_SUP_BUSY : Field := ⟨rHST_STAT, 5, 1⟩
def rHST_BADADDR : Nat := 0x60008
def fHST_BADADDR_ADDR : Field := ⟨rHST_BADADDR, 0, 26⟩
def fHST_BADADDR_WRITE : Field := ⟨rHST_BADADDR, 26, 1⟩
def fHST_BADADDR_VALID : Field := ⟨rHST_BADADDR, 27, 1⟩
def fHST_BADADDR_COUNT : Field := ⟨rHST_BADADDR, 28, 16⟩
def rHST_QP_RQ_BASE (n : Nat) : Nat := 0x60100 + 0x40 * n
def fHST_QP_RQ_BASE_BASE (n : Nat) : Field := ⟨rHST_QP_RQ_BASE n, 0, 48⟩
def rHST_QP_RS_BASE (n : Nat) : Nat := 0x60108 + 0x40 * n
def fHST_QP_RS_BASE_BASE (n : Nat) : Field := ⟨rHST_QP_RS_BASE n, 0, 48⟩
def rHST_QP_CFG (n : Nat) : Nat := 0x60110 + 0x40 * n
def fHST_QP_CFG_LOG2N (n : Nat) : Field := ⟨rHST_QP_CFG n, 0, 4⟩
def fHST_QP_CFG_EN (n : Nat) : Field := ⟨rHST_QP_CFG n, 4, 1⟩
def fHST_QP_CFG_RESET (n : Nat) : Field := ⟨rHST_QP_CFG n, 5, 1⟩
def fHST_QP_CFG_RESET_BUSY (n : Nat) : Field := ⟨rHST_QP_CFG n, 6, 1⟩
def fHST_QP_CFG_DB_ERR (n : Nat) : Field := ⟨rHST_QP_CFG n, 7, 1⟩
def rHST_QP_RQ_PI (n : Nat) : Nat := 0x60118 + 0x40 * n
def fHST_QP_RQ_PI_INDEX (n : Nat) : Field := ⟨rHST_QP_RQ_PI n, 0, 16⟩
def rHST_QP_RQ_CI (n : Nat) : Nat := 0x60120 + 0x40 * n
def fHST_QP_RQ_CI_INDEX (n : Nat) : Field := ⟨rHST_QP_RQ_CI n, 0, 16⟩
def rHST_QP_RS_PI (n : Nat) : Nat := 0x60128 + 0x40 * n
def fHST_QP_RS_PI_INDEX (n : Nat) : Field := ⟨rHST_QP_RS_PI n, 0, 16⟩
def rHST_QP_RS_CI (n : Nat) : Nat := 0x60130 + 0x40 * n
def fHST_QP_RS_CI_INDEX (n : Nat) : Field := ⟨rHST_QP_RS_CI n, 0, 16⟩
def rHST_QP_CI_ADDR (n : Nat) : Nat := 0x60138 + 0x40 * n
def fHST_QP_CI_ADDR_ADDR (n : Nat) : Field := ⟨rHST_QP_CI_ADDR n, 0, 48⟩
def rHST_EVQ_BASE : Nat := 0x60200
def fHST_EVQ_BASE_BASE : Field := ⟨rHST_EVQ_BASE, 0, 48⟩
def rHST_EVQ_CFG : Nat := 0x60208
def fHST_EVQ_CFG_LOG2N : Field := ⟨rHST_EVQ_CFG, 0, 4⟩
def fHST_EVQ_CFG_EN : Field := ⟨rHST_EVQ_CFG, 4, 1⟩
def fHST_EVQ_CFG_RESET : Field := ⟨rHST_EVQ_CFG, 5, 1⟩
def fHST_EVQ_CFG_MASK : Field := ⟨rHST_EVQ_CFG, 8, 8⟩
def rHST_EVQ_PI : Nat := 0x60210
def fHST_EVQ_PI_INDEX : Field := ⟨rHST_EVQ_PI, 0, 16⟩
def rHST_EVQ_CI : Nat := 0x60218
def fHST_EVQ_CI_INDEX : Field := ⟨rHST_EVQ_CI, 0, 16⟩
def rHST_EVQ_STAT : Nat := 0x60220
def fHST_EVQ_STAT_LOST_CLOSED : Field := ⟨rHST_EVQ_STAT, 0, 16⟩
def fHST_EVQ_STAT_LOST_OTHER : Field := ⟨rHST_EVQ_STAT, 16, 16⟩
def rLNP_CFG (n : Nat) : Nat := 0x70000 + 0x100 * n
def fLNP_CFG_EN (n : Nat) : Field := ⟨rLNP_CFG n, 0, 1⟩
def fLNP_CFG_RGMII_ID (n : Nat) : Field := ⟨rLNP_CFG n, 1, 1⟩
def fLNP_CFG_PHY_ADDR (n : Nat) : Field := ⟨rLNP_CFG n, 2, 5⟩
def fLNP_CFG_VLAN_EN (n : Nat) : Field := ⟨rLNP_CFG n, 7, 1⟩
def fLNP_CFG_VLAN_ID (n : Nat) : Field := ⟨rLNP_CFG n, 8, 12⟩
def fLNP_CFG_UDP_PORT (n : Nat) : Field := ⟨rLNP_CFG n, 20, 16⟩
def rLNP_MAC (n : Nat) : Nat := 0x70008 + 0x100 * n
def fLNP_MAC_MAC (n : Nat) : Field := ⟨rLNP_MAC n, 0, 48⟩
def rLNP_IP (n : Nat) : Nat := 0x70010 + 0x100 * n
def fLNP_IP_IP (n : Nat) : Field := ⟨rLNP_IP n, 0, 32⟩
def fLNP_IP_PREFIX (n : Nat) : Field := ⟨rLNP_IP n, 32, 6⟩
def rLNP_GW (n : Nat) : Nat := 0x70018 + 0x100 * n
def fLNP_GW_GW (n : Nat) : Field := ⟨rLNP_GW n, 0, 32⟩
def rLNP_DEST (n : Nat) : Nat := 0x70020 + 0x100 * n
def fLNP_DEST_DEST_IP (n : Nat) : Field := ⟨rLNP_DEST n, 0, 32⟩
def fLNP_DEST_DEST_PORT (n : Nat) : Field := ⟨rLNP_DEST n, 32, 16⟩
def rLNP_PEER (n : Nat) : Nat := 0x70028 + 0x100 * n
def fLNP_PEER_PEER_IP (n : Nat) : Field := ⟨rLNP_PEER n, 0, 32⟩
def rLNP_STAT (n : Nat) : Nat := 0x70030 + 0x100 * n
def fLNP_STAT_LINK (n : Nat) : Field := ⟨rLNP_STAT n, 0, 1⟩
def fLNP_STAT_RATE (n : Nat) : Field := ⟨rLNP_STAT n, 1, 2⟩
def rLNP_CNT (n : Nat) : Nat := 0x70038 + 0x100 * n
def fLNP_CNT_RX_DROP (n : Nat) : Field := ⟨rLNP_CNT n, 0, 16⟩
def fLNP_CNT_SPD_REJ (n : Nat) : Field := ⟨rLNP_CNT n, 16, 16⟩
def fLNP_CNT_TX_CNT (n : Nat) : Field := ⟨rLNP_CNT n, 32, 16⟩
def rLNP_SPD : Nat := 0x70200
def fLNP_SPD_EN : Field := ⟨rLNP_SPD, 0, 4⟩
def fLNP_SPD_PORT : Field := ⟨rLNP_SPD, 4, 4⟩
def rLNP_PTP : Nat := 0x70208
def fLNP_PTP_EN : Field := ⟨rLNP_PTP, 0, 1⟩
def fLNP_PTP_PORT : Field := ⟨rLNP_PTP, 1, 1⟩
def fLNP_PTP_TRANSPORT : Field := ⟨rLNP_PTP, 2, 1⟩
def fLNP_PTP_DOMAIN : Field := ⟨rLNP_PTP, 3, 8⟩
def fLNP_PTP_LOCK : Field := ⟨rLNP_PTP, 11, 1⟩
def fLNP_PTP_OFFSET : Field := ⟨rLNP_PTP, 16, 32⟩
def rLNP_STATPER : Nat := 0x70210
def fLNP_STATPER_PER : Field := ⟨rLNP_STATPER, 0, 16⟩
def fLNP_STATPER_CLOSED_EN : Field := ⟨rLNP_STATPER, 16, 1⟩
def fLNP_STATPER_PORT : Field := ⟨rLNP_STATPER, 17, 1⟩
def rOCL_CFG : Nat := 0x78000
def fOCL_CFG_UNIT_ID : Field := ⟨rOCL_CFG, 0, 3⟩
def fOCL_CFG_EN : Field := ⟨rOCL_CFG, 3, 1⟩
def rOCL_STAT : Nat := 0x78008
def fOCL_STAT_UP : Field := ⟨rOCL_STAT, 0, 2⟩
def fOCL_STAT_DN : Field := ⟨rOCL_STAT, 2, 2⟩
def fOCL_STAT_HEAD : Field := ⟨rOCL_STAT, 4, 1⟩
def fOCL_STAT_PRESENT : Field := ⟨rOCL_STAT, 5, 8⟩
def fOCL_STAT_HEAD_ID : Field := ⟨rOCL_STAT, 13, 3⟩
def fOCL_STAT_DUP_ID : Field := ⟨rOCL_STAT, 16, 1⟩
def fOCL_STAT_EPOCH_MISS : Field := ⟨rOCL_STAT, 17, 1⟩
def fOCL_STAT_BCAST_REFUSED : Field := ⟨rOCL_STAT, 18, 1⟩
def fOCL_STAT_BCAST_CNT : Field := ⟨rOCL_STAT, 19, 3⟩
def rOCL_EPOCH : Nat := 0x78010
def fOCL_EPOCH_EPOCH : Field := ⟨rOCL_EPOCH, 0, 32⟩
def rOCL_LAT : Nat := 0x78018
def fOCL_LAT_UP_LAT : Field := ⟨rOCL_LAT, 0, 16⟩
def fOCL_LAT_DN_LAT : Field := ⟨rOCL_LAT, 16, 16⟩
def rOCL_BCAST : Nat := 0x78020
def fOCL_BCAST_EN : Field := ⟨rOCL_BCAST, 0, 4⟩
def rOCL_BARRIER_STAT : Nat := 0x78028
def fOCL_BARRIER_STAT_TICKET : Field := ⟨rOCL_BARRIER_STAT, 0, 8⟩
def fOCL_BARRIER_STAT_ACKS : Field := ⟨rOCL_BARRIER_STAT, 8, 8⟩
def fOCL_BARRIER_STAT_EPOCH : Field := ⟨rOCL_BARRIER_STAT, 16, 32⟩
def rOCL_CNT0 : Nat := 0x78080
def fOCL_CNT0_OFFERED : Field := ⟨rOCL_CNT0, 0, 16⟩
def fOCL_CNT0_COMMITTED : Field := ⟨rOCL_CNT0, 16, 16⟩
def fOCL_CNT0_DECLINED : Field := ⟨rOCL_CNT0, 32, 16⟩
def rOCL_CNT1 : Nat := 0x78088
def fOCL_CNT1_RETURNED : Field := ⟨rOCL_CNT1, 0, 16⟩
def fOCL_CNT1_HOSTED : Field := ⟨rOCL_CNT1, 16, 16⟩
def fOCL_CNT1_LATE_RESULT : Field := ⟨rOCL_CNT1, 32, 16⟩
def rOCL_ERR : Nat := 0x78090
def fOCL_ERR_CRC_ERR : Field := ⟨rOCL_ERR, 0, 16⟩
def fOCL_ERR_RETRIES : Field := ⟨rOCL_ERR, 16, 16⟩
def fOCL_ERR_LINK_DROPS : Field := ⟨rOCL_ERR, 32, 16⟩
def rOCL_HOFF (n : Nat) : Nat := 0x78040 + 0x10 * n
def fOCL_HOFF_EN (n : Nat) : Field := ⟨rOCL_HOFF n, 0, 1⟩
def fOCL_HOFF_MODE (n : Nat) : Field := ⟨rOCL_HOFF n, 1, 1⟩
def fOCL_HOFF_DST (n : Nat) : Field := ⟨rOCL_HOFF n, 2, 3⟩
def fOCL_HOFF_RX_EN (n : Nat) : Field := ⟨rOCL_HOFF n, 5, 1⟩
def fOCL_HOFF_RX_SLOT (n : Nat) : Field := ⟨rOCL_HOFF n, 6, 6⟩
def rOCL_HOFF_OFS (n : Nat) : Nat := 0x78048 + 0x10 * n
def fOCL_HOFF_OFS_OFS (n : Nat) : Field := ⟨rOCL_HOFF_OFS n, 0, 40⟩
def rMEM_STAT : Nat := 0x30000
def fMEM_STAT_SELFTEST_DONE : Field := ⟨rMEM_STAT, 0, 1⟩
def fMEM_STAT_SELFTEST_FAIL : Field := ⟨rMEM_STAT, 1, 1⟩
def fMEM_STAT_WIPE_BUSY : Field := ⟨rMEM_STAT, 2, 1⟩
def fMEM_STAT_DDR_OVERWRITE : Field := ⟨rMEM_STAT, 3, 1⟩
def fMEM_STAT_DDR_FAIL : Field := ⟨rMEM_STAT, 4, 1⟩
def rMEM_SKIM_CFG : Nat := 0x30008
def fMEM_SKIM_CFG_SKIM_PER : Field := ⟨rMEM_SKIM_CFG, 0, 17⟩
def fMEM_SKIM_CFG_EN : Field := ⟨rMEM_SKIM_CFG, 17, 1⟩
def rMEM_SKIM_STAT : Nat := 0x30010
def fMEM_SKIM_STAT_PASSES : Field := ⟨rMEM_SKIM_STAT, 0, 24⟩
def fMEM_SKIM_STAT_PROGRESS : Field := ⟨rMEM_SKIM_STAT, 24, 7⟩
def fMEM_SKIM_STAT_PAUSED : Field := ⟨rMEM_SKIM_STAT, 31, 1⟩
def fMEM_SKIM_STAT_LATE : Field := ⟨rMEM_SKIM_STAT, 32, 16⟩
def rMEM_ERRCNT : Nat := 0x30018
def fMEM_ERRCNT_CE : Field := ⟨rMEM_ERRCNT, 0, 16⟩
def fMEM_ERRCNT_UE : Field := ⟨rMEM_ERRCNT, 16, 16⟩
def fMEM_ERRCNT_STUCK : Field := ⟨rMEM_ERRCNT, 32, 16⟩
def rMEM_ERRLOG : Nat := 0x30020
def fMEM_ERRLOG_BANK : Field := ⟨rMEM_ERRLOG, 0, 7⟩
def fMEM_ERRLOG_WORD : Field := ⟨rMEM_ERRLOG, 7, 16⟩
def fMEM_ERRLOG_UE : Field := ⟨rMEM_ERRLOG, 23, 1⟩
def fMEM_ERRLOG_AGENT : Field := ⟨rMEM_ERRLOG, 24, 3⟩
def fMEM_ERRLOG_SYNDROME : Field := ⟨rMEM_ERRLOG, 27, 8⟩
def fMEM_ERRLOG_VALID : Field := ⟨rMEM_ERRLOG, 35, 1⟩
def fMEM_ERRLOG_OVERFLOW : Field := ⟨rMEM_ERRLOG, 36, 1⟩
def rMEM_DDR_STAT : Nat := 0x30040
def fMEM_DDR_STAT_SIZE : Field := ⟨rMEM_DDR_STAT, 0, 3⟩
def fMEM_DDR_STAT_REFRESH : Field := ⟨rMEM_DDR_STAT, 3, 2⟩
def fMEM_DDR_STAT_CE : Field := ⟨rMEM_DDR_STAT, 5, 16⟩
def fMEM_DDR_STAT_UE : Field := ⟨rMEM_DDR_STAT, 21, 16⟩
def rMEM_INJ : Nat := 0x30048
def fMEM_INJ_BANK : Field := ⟨rMEM_INJ, 0, 7⟩
def fMEM_INJ_BIT : Field := ⟨rMEM_INJ, 7, 7⟩
def fMEM_INJ_DOUBLE : Field := ⟨rMEM_INJ, 14, 1⟩
def fMEM_INJ_ARM : Field := ⟨rMEM_INJ, 15, 1⟩
def rMEM_BANKFAIL (n : Nat) : Nat := 0x30028 + 0x8 * n
def fMEM_BANKFAIL_FAIL (n : Nat) : Field := ⟨rMEM_BANKFAIL n, 0, 48⟩
def rMV_CTL (n : Nat) : Nat := 0x40000 + 0x4000 * n
def fMV_CTL_ENTRY (n : Nat) : Field := ⟨rMV_CTL n, 0, 10⟩
def fMV_CTL_RUN (n : Nat) : Field := ⟨rMV_CTL n, 10, 1⟩
def fMV_CTL_STOP (n : Nat) : Field := ⟨rMV_CTL n, 11, 1⟩
def fMV_CTL_DOORBELL (n : Nat) : Field := ⟨rMV_CTL n, 12, 1⟩
def rMV_STAT (n : Nat) : Nat := 0x40008 + 0x4000 * n
def fMV_STAT_STATE (n : Nat) : Field := ⟨rMV_STAT n, 0, 2⟩
def fMV_STAT_PROG_REFUSED (n : Nat) : Field := ⟨rMV_STAT n, 2, 1⟩
def fMV_STAT_CAUSE (n : Nat) : Field := ⟨rMV_STAT n, 3, 4⟩
def fMV_STAT_FAULT_PC (n : Nat) : Field := ⟨rMV_STAT n, 7, 10⟩
def fMV_STAT_QUEUED (n : Nat) : Field := ⟨rMV_STAT n, 17, 3⟩
def fMV_STAT_WHY (n : Nat) : Field := ⟨rMV_STAT n, 20, 3⟩
def rMV_FINSN (n : Nat) : Nat := 0x40010 + 0x4000 * n
def fMV_FINSN_INSN (n : Nat) : Field := ⟨rMV_FINSN n, 0, 32⟩
def rMV_CFG (n : Nat) : Nat := 0x40018 + 0x4000 * n
def fMV_CFG_HOST_HI (n : Nat) : Field := ⟨rMV_CFG n, 0, 2⟩
def fMV_CFG_BG (n : Nat) : Field := ⟨rMV_CFG n, 2, 1⟩
def rMV_FADDR (n : Nat) : Nat := 0x40020 + 0x4000 * n
def fMV_FADDR_ADDR (n : Nat) : Field := ⟨rMV_FADDR n, 0, 48⟩
def rMV_CNT (n : Nat) : Nat := 0x40028 + 0x4000 * n
def fMV_CNT_BYTES (n : Nat) : Field := ⟨rMV_CNT n, 0, 32⟩
def fMV_CNT_MOVES (n : Nat) : Field := ⟨rMV_CNT n, 32, 16⟩
def rMV_EVT (n : Nat) : Nat := 0x40030 + 0x4000 * n
def fMV_EVT_DEPTH (n : Nat) : Field := ⟨rMV_EVT n, 0, 3⟩
def fMV_EVT_LOST (n : Nat) : Field := ⟨rMV_EVT n, 3, 16⟩
def rFLT_STATUS : Nat := 0x80000
def fFLT_STATUS_STATUS : Field := ⟨rFLT_STATUS, 0, 48⟩
def rFLT_ACTIVE : Nat := 0x80008
def fFLT_ACTIVE_ACTIVE : Field := ⟨rFLT_ACTIVE, 0, 48⟩
def rFLT_PIN_MASK : Nat := 0x80010
def fFLT_PIN_MASK_MASK : Field := ⟨rFLT_PIN_MASK, 0, 48⟩
def rFLT_PIN_HOLD : Nat := 0x80018
def fFLT_PIN_HOLD_HOLD : Field := ⟨rFLT_PIN_HOLD, 0, 1⟩
def fFLT_PIN_HOLD_HOLD_CLASS : Field := ⟨rFLT_PIN_HOLD, 1, 3⟩
def fFLT_PIN_HOLD_LEVEL : Field := ⟨rFLT_PIN_HOLD, 4, 1⟩
def rFLT_HIST_STAT : Nat := 0x80020
def fFLT_HIST_STAT_DEPTH : Field := ⟨rFLT_HIST_STAT, 0, 6⟩
def fFLT_HIST_STAT_LOST : Field := ⟨rFLT_HIST_STAT, 6, 16⟩
def fFLT_HIST_STAT_POP : Field := ⟨rFLT_HIST_STAT, 22, 1⟩
def rFLT_HIST0 : Nat := 0x80028
def fFLT_HIST0_SOURCE : Field := ⟨rFLT_HIST0, 0, 6⟩
def fFLT_HIST0_CLASS : Field := ⟨rFLT_HIST0, 6, 3⟩
def fFLT_HIST0_ESCALATED : Field := ⟨rFLT_HIST0, 9, 1⟩
def fFLT_HIST0_DETAIL : Field := ⟨rFLT_HIST0, 10, 8⟩
def fFLT_HIST0_SEQ : Field := ⟨rFLT_HIST0, 32, 16⟩
def rFLT_HIST1 : Nat := 0x80030
def fFLT_HIST1_TIME : Field := ⟨rFLT_HIST1, 0, 48⟩
def rFLT_HIST2 : Nat := 0x80038
def fFLT_HIST2_POS : Field := ⟨rFLT_HIST2, 0, 48⟩
def rFLT_HIST3 : Nat := 0x80040
def fFLT_HIST3_TICK : Field := ⟨rFLT_HIST3, 0, 48⟩
def rFLT_REC : Nat := 0x80048
def fFLT_REC_TAKEOVERS : Field := ⟨rFLT_REC, 0, 16⟩
def fFLT_REC_PATHS : Field := ⟨rFLT_REC, 16, 16⟩
def fFLT_REC_SUP : Field := ⟨rFLT_REC, 32, 1⟩
def fFLT_REC_TRUST : Field := ⟨rFLT_REC, 33, 1⟩
def fFLT_REC_REBUILD : Field := ⟨rFLT_REC, 34, 1⟩
def fFLT_REC_LINES_SAFE : Field := ⟨rFLT_REC, 35, 4⟩
def fFLT_REC_DEVICE_SAFE : Field := ⟨rFLT_REC, 39, 1⟩
def rFLT_RESTART : Nat := 0x80050
def fFLT_RESTART_SUP_TOTAL : Field := ⟨rFLT_RESTART, 0, 16⟩
def fFLT_RESTART_TRUST_TOTAL : Field := ⟨rFLT_RESTART, 16, 16⟩
def fFLT_RESTART_SUP_10MIN : Field := ⟨rFLT_RESTART, 32, 8⟩
def fFLT_RESTART_TRUST_10MIN : Field := ⟨rFLT_RESTART, 40, 8⟩
def rPWR_STAT : Nat := 0x10000
def fPWR_STAT_STATE : Field := ⟨rPWR_STAT, 0, 3⟩
def fPWR_STAT_READY : Field := ⟨rPWR_STAT, 3, 1⟩
def fPWR_STAT_PLAN : Field := ⟨rPWR_STAT, 4, 2⟩
def fPWR_STAT_BUILTIN : Field := ⟨rPWR_STAT, 6, 1⟩
def fPWR_STAT_HOLDUP_SHORT : Field := ⟨rPWR_STAT, 7, 1⟩
def fPWR_STAT_CAUSE : Field := ⟨rPWR_STAT, 8, 3⟩
def fPWR_STAT_BURN_RESULT : Field := ⟨rPWR_STAT, 11, 2⟩
def rPWR_CMD : Nat := 0x10008
def fPWR_CMD_INDEX : Field := ⟨rPWR_CMD, 0, 2⟩
def fPWR_CMD_BURN : Field := ⟨rPWR_CMD, 2, 1⟩
def fPWR_CMD_SNAPSHOT : Field := ⟨rPWR_CMD, 3, 1⟩
def rPWR_STRAP : Nat := 0x10010
def fPWR_STRAP_BOOTSEL : Field := ⟨rPWR_STRAP, 0, 2⟩
def fPWR_STRAP_RAIL_ROLE : Field := ⟨rPWR_STRAP, 2, 1⟩
def fPWR_STRAP_PLAN_SEL : Field := ⟨rPWR_STRAP, 3, 2⟩
def rPWR_VIN : Nat := 0x10018
def fPWR_VIN_WARN : Field := ⟨rPWR_VIN, 0, 16⟩
def fPWR_VIN_RST_LVL : Field := ⟨rPWR_VIN, 16, 16⟩
def fPWR_VIN_HYST : Field := ⟨rPWR_VIN, 32, 12⟩
def rPWR_VIN_STAT : Nat := 0x10020
def fPWR_VIN_STAT_VIN : Field := ⟨rPWR_VIN_STAT, 0, 16⟩
def fPWR_VIN_STAT_DIPS : Field := ⟨rPWR_VIN_STAT, 16, 16⟩
def fPWR_VIN_STAT_PERSIST : Field := ⟨rPWR_VIN_STAT, 32, 16⟩
def rPWR_CORE : Nat := 0x10028
def fPWR_CORE_REQ : Field := ⟨rPWR_CORE, 0, 5⟩
def fPWR_CORE_ACT : Field := ⟨rPWR_CORE, 5, 5⟩
def fPWR_CORE_BUSY : Field := ⟨rPWR_CORE, 10, 1⟩
def fPWR_CORE_FIXED : Field := ⟨rPWR_CORE, 11, 1⟩
def rPWR_RLK : Nat := 0x10030
def fPWR_RLK_ADDR : Field := ⟨rPWR_RLK, 0, 3⟩
def fPWR_RLK_PRESENT : Field := ⟨rPWR_RLK, 3, 8⟩
def fPWR_RLK_ABSENT : Field := ⟨rPWR_RLK, 11, 8⟩
def fPWR_RLK_CRC_ERR : Field := ⟨rPWR_RLK, 19, 16⟩
def fPWR_RLK_RETRIES : Field := ⟨rPWR_RLK, 35, 13⟩
def rPWR_SNAP_STAT : Nat := 0x10038
def fPWR_SNAP_STAT_DEPTH : Field := ⟨rPWR_SNAP_STAT, 0, 3⟩
def fPWR_SNAP_STAT_POP : Field := ⟨rPWR_SNAP_STAT, 3, 1⟩
def fPWR_SNAP_STAT_LOST : Field := ⟨rPWR_SNAP_STAT, 4, 16⟩
def rPWR_PLANBUF (n : Nat) : Nat := 0x10040 + 0x8 * n
def fPWR_PLANBUF_WORD (n : Nat) : Field := ⟨rPWR_PLANBUF n, 0, 48⟩
def rPWR_RAIL (n : Nat) : Nat := 0x10100 + 0x8 * n
def fPWR_RAIL_V (n : Nat) : Field := ⟨rPWR_RAIL n, 0, 16⟩
def fPWR_RAIL_STATE (n : Nat) : Field := ⟨rPWR_RAIL n, 16, 3⟩
def fPWR_RAIL_EN (n : Nat) : Field := ⟨rPWR_RAIL n, 19, 1⟩
def fPWR_RAIL_PG (n : Nat) : Field := ⟨rPWR_RAIL n, 20, 1⟩
def fPWR_RAIL_DIS (n : Nat) : Field := ⟨rPWR_RAIL n, 21, 1⟩
def fPWR_RAIL_TRANS (n : Nat) : Field := ⟨rPWR_RAIL n, 22, 8⟩
def rPWR_HK (n : Nat) : Nat := 0x10200 + 0x8 * n
def fPWR_HK_RAW (n : Nat) : Field := ⟨rPWR_HK n, 0, 16⟩
def fPWR_HK_VALUE (n : Nat) : Field := ⟨rPWR_HK n, 16, 24⟩
def fPWR_HK_ROUND (n : Nat) : Field := ⟨rPWR_HK n, 40, 8⟩
def rPWR_SNAP (n : Nat) : Nat := 0x10300 + 0x8 * n
def fPWR_SNAP_WORD (n : Nat) : Field := ⟨rPWR_SNAP n, 0, 48⟩
def rTHM_STAT : Nat := 0x18000
def fTHM_STAT_TJ : Field := ⟨rTHM_STAT, 0, 16⟩
def fTHM_STAT_HOT : Field := ⟨rTHM_STAT, 16, 4⟩
def fTHM_STAT_BAND : Field := ⟨rTHM_STAT, 20, 3⟩
def fTHM_STAT_CAND : Field := ⟨rTHM_STAT, 23, 3⟩
def fTHM_STAT_DWELL : Field := ⟨rTHM_STAT, 26, 2⟩
def fTHM_STAT_THROTTLE : Field := ⟨rTHM_STAT, 28, 2⟩
def fTHM_STAT_LARGE : Field := ⟨rTHM_STAT, 30, 1⟩
def fTHM_STAT_GRACE_RUN : Field := ⟨rTHM_STAT, 31, 1⟩
def fTHM_STAT_GRACE_LEFT : Field := ⟨rTHM_STAT, 32, 16⟩
def rTHM_CFG : Nat := 0x18008
def fTHM_CFG_GRACE : Field := ⟨rTHM_CFG, 0, 7⟩
def rTHM_TH (n : Nat) : Nat := 0x18010 + 0x8 * n
def fTHM_TH_Z_NOM (n : Nat) : Field := ⟨rTHM_TH n, 0, 24⟩
def fTHM_TH_BETA (n : Nat) : Field := ⟨rTHM_TH n, 24, 16⟩
def fTHM_TH_EN (n : Nat) : Field := ⟨rTHM_TH n, 40, 1⟩
def rCLK_ID : Nat := 0x0
def fCLK_ID_PART : Field := ⟨rCLK_ID, 0, 16⟩
def fCLK_ID_STEP : Field := ⟨rCLK_ID, 16, 8⟩
def rCLK_STAT : Nat := 0x8
def fCLK_STAT_LOCK : Field := ⟨rCLK_STAT, 0, 6⟩
def fCLK_STAT_DUP : Field := ⟨rCLK_STAT, 6, 6⟩
def rCLK_DERATE : Nat := 0x10
def fCLK_DERATE_K_AGE : Field := ⟨rCLK_DERATE, 0, 3⟩
def fCLK_DERATE_K_THERM : Field := ⟨rCLK_DERATE, 3, 2⟩
def fCLK_DERATE_K : Field := ⟨rCLK_DERATE, 5, 4⟩
def rAGE_STAT : Nat := 0x20000
def fAGE_STAT_EXHAUSTED : Field := ⟨rAGE_STAT, 0, 1⟩
def fAGE_STAT_MOTOR : Field := ⟨rAGE_STAT, 1, 1⟩
def fAGE_STAT_BAD_TABLE : Field := ⟨rAGE_STAT, 2, 1⟩
def fAGE_STAT_WORST : Field := ⟨rAGE_STAT, 3, 5⟩
def fAGE_STAT_M : Field := ⟨rAGE_STAT, 8, 16⟩
def fAGE_STAT_EVALS : Field := ⟨rAGE_STAT, 24, 24⟩
def rAGE_CFG : Nat := 0x20008
def fAGE_CFG_EVAL_PER : Field := ⟨rAGE_CFG, 0, 8⟩
def fAGE_CFG_M_LIM : Field := ⟨rAGE_CFG, 8, 10⟩
def fAGE_CFG_M_HYST : Field := ⟨rAGE_CFG, 18, 8⟩
def fAGE_CFG_N_MIN : Field := ⟨rAGE_CFG, 26, 5⟩
def rAGE_CMD : Nat := 0x20010
def fAGE_CMD_REPLAN : Field := ⟨rAGE_CMD, 0, 1⟩
def rAGE_FORECAST : Nat := 0x20018
def fAGE_FORECAST_DAYS_SILICON : Field := ⟨rAGE_FORECAST, 0, 16⟩
def fAGE_FORECAST_DAYS_FLASH : Field := ⟨rAGE_FORECAST, 16, 16⟩
def rAGE_FLASH : Nat := 0x20020
def fAGE_FLASH_MAX_ERASE : Field := ⟨rAGE_FLASH, 0, 24⟩
def fAGE_FLASH_ENDURANCE : Field := ⟨rAGE_FLASH, 24, 24⟩
def rAGE_SEL : Nat := 0x20280
def fAGE_SEL_PORT : Field := ⟨rAGE_SEL, 0, 4⟩
def rAGE_MON (n : Nat) : Nat := 0x20040 + 0x8 * n
def fAGE_MON_VALUE (n : Nat) : Field := ⟨rAGE_MON n, 0, 16⟩
def fAGE_MON_MIN (n : Nat) : Field := ⟨rAGE_MON n, 16, 16⟩
def fAGE_MON_BASE (n : Nat) : Field := ⟨rAGE_MON n, 32, 16⟩
def rAGE_HP (n : Nat) : Nat := 0x20200 + 0x8 * n
def fAGE_HP_AMP (n : Nat) : Field := ⟨rAGE_HP n, 0, 11⟩
def fAGE_HP_AUTO_AMP (n : Nat) : Field := ⟨rAGE_HP n, 11, 1⟩
def fAGE_HP_T_REF (n : Nat) : Field := ⟨rAGE_HP n, 12, 12⟩
def fAGE_HP_T_MEAN (n : Nat) : Field := ⟨rAGE_HP n, 24, 12⟩
def fAGE_HP_AMP_LIMIT (n : Nat) : Field := ⟨rAGE_HP n, 36, 1⟩
def fAGE_HP_REF (n : Nat) : Field := ⟨rAGE_HP n, 37, 1⟩
def rAGE_FIRE (n : Nat) : Nat := 0x20288 + 0x8 * n
def fAGE_FIRE_FIRES (n : Nat) : Field := ⟨rAGE_FIRE n, 0, 48⟩
def rAGE_CE (n : Nat) : Nat := 0x20300 + 0x8 * n
def fAGE_CE_TABLE (n : Nat) : Field := ⟨rAGE_CE n, 0, 12⟩
def fAGE_CE_DRIFT (n : Nat) : Field := ⟨rAGE_CE n, 12, 8⟩
def fAGE_CE_LIMIT (n : Nat) : Field := ⟨rAGE_CE n, 20, 8⟩
def fAGE_CE_BASELINE (n : Nat) : Field := ⟨rAGE_CE n, 28, 1⟩
def fAGE_CE_EN (n : Nat) : Field := ⟨rAGE_CE n, 29, 1⟩
def rCAL_CMD : Nat := 0x28000
def fCAL_CMD_MASK : Field := ⟨rCAL_CMD, 0, 8⟩
def fCAL_CMD_GO : Field := ⟨rCAL_CMD, 8, 1⟩
def rCAL_STAT : Nat := 0x28008
def fCAL_STAT_RESULT : Field := ⟨rCAL_STAT, 0, 3⟩
def fCAL_STAT_BUSY : Field := ⟨rCAL_STAT, 3, 1⟩
def fCAL_STAT_SOFT : Field := ⟨rCAL_STAT, 4, 1⟩
def fCAL_STAT_FUSES_USED : Field := ⟨rCAL_STAT, 5, 6⟩
def fCAL_STAT_CAL_COUNT : Field := ⟨rCAL_STAT, 11, 16⟩
def fCAL_STAT_TRUSTED : Field := ⟨rCAL_STAT, 27, 1⟩
def rCAL_TIME : Nat := 0x28010
def fCAL_TIME_CAL_TIME : Field := ⟨rCAL_TIME, 0, 48⟩
def rCAL_G (n : Nat) : Nat := 0x28040 + 0x8 * n
def fCAL_G_GAIN (n : Nat) : Field := ⟨rCAL_G n, 0, 16⟩
def fCAL_G_OFFSET (n : Nat) : Field := ⟨rCAL_G n, 16, 16⟩

/-- The registers of one BAR0 range with their fields (R10, R12). -/
def regTableTrk0 : List RegSpec := [
  ⟨0x100000, 0x0, 1, 0x0, 1, [⟨0, 48, .ro, 0, 281474976710655, false⟩]⟩,
  ⟨0x100008, 0x0, 1, 0x0, 1, [⟨0, 12, .ro, 0, 4095, false⟩, ⟨12, 12, .ro, 0, 4095, false⟩, ⟨24, 24, .ro, 0, 16777215, false⟩]⟩,
  ⟨0x100100, 0x20, 8, 0x0, 1, [⟨0, 2, .rw, 0, 3, false⟩, ⟨2, 4, .rw, 0, 15, false⟩, ⟨6, 1, .rw, 0, 1, false⟩, ⟨7, 1, .rw, 0, 1, false⟩, ⟨8, 24, .rw, 0, 16777215, false⟩]⟩,
  ⟨0x100108, 0x20, 8, 0x0, 1, [⟨0, 40, .ro, 0, 1099511627775, false⟩]⟩,
  ⟨0x100110, 0x20, 8, 0x0, 1, [⟨0, 1, .ro, 0, 1, false⟩, ⟨1, 1, .ro, 0, 1, false⟩, ⟨2, 1, .ro, 0, 1, false⟩, ⟨3, 1, .ro, 0, 1, false⟩, ⟨8, 1, .w1c, 0, 1, false⟩, ⟨9, 1, .w1c, 0, 1, false⟩, ⟨10, 1, .w1c, 0, 1, false⟩, ⟨11, 1, .w1c, 0, 1, false⟩, ⟨16, 16, .ro, 0, 65535, false⟩, ⟨32, 16, .ro, 0, 65535, false⟩]⟩,
  ⟨0x100400, 0x80, 4, 0x0, 1, [⟨0, 1, .rw, 0, 1, false⟩, ⟨1, 2, .rw, 0, 3, false⟩, ⟨3, 3, .rw, 0, 7, false⟩, ⟨6, 1, .rw, 0, 1, false⟩, ⟨7, 1, .rw, 0, 1, false⟩, ⟨8, 4, .rw, 1, 15, false⟩, ⟨12, 3, .rw, 0, 7, false⟩, ⟨15, 2, .rw, 0, 3, false⟩, ⟨17, 6, .rw, 1, 63, false⟩]⟩,
  ⟨0x100408, 0x80, 4, 0x0, 1, [⟨0, 24, .rw, 0, 16777215, false⟩, ⟨24, 24, .rw, 0, 16777215, false⟩]⟩,
  ⟨0x100410, 0x80, 4, 0x0, 1, [⟨0, 32, .rw, 0, 4294967295, false⟩, ⟨32, 8, .rw, 0, 255, false⟩, ⟨40, 4, .rw, 1, 15, false⟩]⟩,
  ⟨0x100418, 0x80, 4, 0x0, 1, [⟨0, 32, .rw, 0, 4294967295, false⟩]⟩,
  ⟨0x100420, 0x80, 4, 0x0, 1, [⟨0, 32, .rw, 0, 4294967295, false⟩]⟩,
  ⟨0x100428, 0x80, 4, 0x0, 1, [⟨0, 40, .rw, 0, 1099511627775, false⟩]⟩,
  ⟨0x100430, 0x80, 4, 0x0, 1, [⟨0, 48, .ro, 0, 281474976710655, false⟩]⟩,
  ⟨0x100438, 0x80, 4, 0x0, 1, [⟨0, 48, .ro, 0, 281474976710655, false⟩]⟩,
  ⟨0x100440, 0x80, 4, 0x0, 1, [⟨0, 48, .ro, 0, 281474976710655, false⟩]⟩,
  ⟨0x100448, 0x80, 4, 0x0, 1, [⟨0, 48, .ro, 0, 281474976710655, false⟩]⟩,
  ⟨0x100450, 0x80, 4, 0x0, 1, [⟨0, 3, .ro, 0, 7, false⟩, ⟨8, 1, .w1c, 0, 1, false⟩, ⟨9, 1, .w1c, 0, 1, false⟩, ⟨10, 1, .w1c, 0, 1, false⟩, ⟨11, 1, .w1c, 0, 1, false⟩, ⟨12, 1, .w1c, 0, 1, false⟩, ⟨13, 1, .w1c, 0, 1, false⟩, ⟨14, 1, .w1c, 0, 1, false⟩, ⟨15, 1, .w1c, 0, 1, false⟩, ⟨16, 1, .w1c, 0, 1, false⟩, ⟨17, 1, .w1c, 0, 1, false⟩, ⟨18, 1, .w1c, 0, 1, false⟩]⟩,
  ⟨0x100458, 0x80, 4, 0x0, 1, [⟨0, 48, .rw, 0, 281474976710655, false⟩]⟩,
  ⟨0x100460, 0x80, 4, 0x0, 1, [⟨0, 16, .rw, 1, 65535, false⟩]⟩,
  ⟨0x100468, 0x80, 4, 0x0, 1, [⟨0, 48, .ro, 0, 281474976710655, false⟩]⟩,
  ⟨0x100470, 0x80, 4, 0x0, 1, [⟨0, 48, .wo, 0, 281474976710655, false⟩]⟩,
  ⟨0x100478, 0x80, 4, 0x0, 1, [⟨0, 16, .ro, 0, 65535, false⟩, ⟨16, 16, .ro, 0, 65535, false⟩, ⟨32, 16, .ro, 0, 65535, false⟩]⟩,
  ⟨0x100800, 0x10, 16, 0x0, 1, [⟨0, 1, .rw, 0, 1, false⟩, ⟨1, 2, .rw, 0, 3, false⟩, ⟨3, 1, .rw, 0, 1, false⟩, ⟨4, 6, .rw, 0, 63, false⟩, ⟨10, 16, .rw, 0, 65535, false⟩, ⟨26, 16, .rw, 0, 65535, false⟩]⟩,
  ⟨0x100808, 0x10, 16, 0x0, 1, [⟨0, 1, .ro, 0, 1, false⟩, ⟨8, 8, .ro, 0, 255, false⟩, ⟨16, 16, .ro, 0, 65535, false⟩, ⟨32, 16, .ro, 0, 65535, false⟩]⟩,
  ⟨0x100A00, 0x8, 16, 0x0, 1, [⟨0, 2, .rws, 0, 3, false⟩, ⟨2, 1, .rws, 0, 1, false⟩, ⟨4, 16, .rws, 0, 65535, false⟩]⟩]

/-- The registers of one BAR0 range with their fields (R10, R12). -/
def regTableTrk1 : List RegSpec := [
  ⟨0x100A80, 0x8, 16, 0x0, 1, [⟨0, 48, .ro, 0, 281474976710655, false⟩]⟩]

/-- The registers of one BAR0 range with their fields (R10, R12). -/
def regTableSch0 : List RegSpec := [
  ⟨0x120000, 0x0, 1, 0x0, 1, [⟨0, 14, .ro, 0, 16383, false⟩, ⟨14, 14, .ro, 0, 16383, false⟩, ⟨28, 10, .ro, 0, 1023, false⟩, ⟨38, 10, .ro, 0, 1023, false⟩]⟩,
  ⟨0x120008, 0x0, 1, 0x0, 1, [⟨0, 16, .ro, 0, 65535, false⟩, ⟨16, 32, .ro, 0, 4294967295, false⟩]⟩,
  ⟨0x120020, 0x0, 1, 0x0, 1, [⟨0, 48, .rw, 0, 281474976710655, false⟩]⟩,
  ⟨0x120028, 0x0, 1, 0x0, 1, [⟨0, 4, .wo, 0, 15, false⟩, ⟨4, 2, .wo, 0, 3, false⟩, ⟨6, 1, .wo, 0, 1, false⟩, ⟨7, 4, .wo, 0, 15, false⟩, ⟨11, 8, .wo, 0, 255, false⟩, ⟨19, 1, .wo, 0, 1, false⟩]⟩,
  ⟨0x120030, 0x0, 1, 0x0, 1, [⟨0, 3, .ro, 0, 7, false⟩, ⟨16, 13, .ro, 0, 8191, false⟩]⟩,
  ⟨0x120038, 0x0, 1, 0x0, 1, [⟨0, 13, .rw, 0, 4096, false⟩]⟩,
  ⟨0x120100, 0x100, 4, 0x0, 1, [⟨0, 1, .rw, 0, 1, false⟩, ⟨1, 3, .rw, 0, 7, false⟩, ⟨4, 8, .rw, 0, 255, false⟩, ⟨12, 8, .rw, 0, 255, false⟩, ⟨20, 12, .rw, 0, 4095, false⟩]⟩,
  ⟨0x120108, 0x100, 4, 0x0, 1, [⟨0, 32, .rw, 0, 4294967295, false⟩]⟩,
  ⟨0x120110, 0x100, 4, 0x0, 1, [⟨0, 40, .rw, 0, 1099511627775, false⟩]⟩,
  ⟨0x120118, 0x100, 4, 0x0, 1, [⟨0, 1, .ro, 0, 1, false⟩, ⟨1, 1, .ro, 0, 1, false⟩, ⟨2, 1, .w1c, 0, 1, false⟩, ⟨3, 1, .ro, 0, 1, false⟩, ⟨4, 1, .w1c, 0, 1, false⟩, ⟨8, 8, .ro, 0, 255, false⟩]⟩,
  ⟨0x120120, 0x100, 4, 0x0, 1, [⟨0, 1, .wo, 0, 1, false⟩]⟩,
  ⟨0x120128, 0x100, 4, 0x0, 1, [⟨0, 48, .ro, 0, 281474976710655, false⟩]⟩,
  ⟨0x120130, 0x100, 4, 0x0, 1, [⟨0, 48, .ro, 0, 281474976710655, false⟩]⟩,
  ⟨0x120138, 0x100, 4, 0x0, 1, [⟨0, 48, .ro, 0, 281474976710655, false⟩]⟩,
  ⟨0x120140, 0x100, 4, 0x0, 1, [⟨0, 48, .ro, 0, 281474976710655, false⟩]⟩,
  ⟨0x120148, 0x100, 4, 0x0, 1, [⟨0, 48, .ro, 0, 281474976710655, false⟩]⟩,
  ⟨0x120150, 0x100, 4, 0x0, 1, [⟨0, 48, .ro, 0, 281474976710655, false⟩]⟩,
  ⟨0x120190, 0x100, 4, 0x0, 1, [⟨0, 48, .ro, 0, 281474976710655, false⟩]⟩,
  ⟨0x120198, 0x100, 4, 0x0, 1, [⟨0, 32, .ro, 0, 4294967295, false⟩]⟩,
  ⟨0x120158, 0x100, 4, 0x8, 7, [⟨0, 48, .ro, 0, 281474976710655, false⟩]⟩,
  ⟨0x120600, 0x10, 16, 0x0, 1, [⟨0, 7, .rw, 0, 64, false⟩]⟩,
  ⟨0x120608, 0x10, 16, 0x0, 1, [⟨0, 17, .ro, 0, 131071, false⟩, ⟨17, 3, .ro, 0, 7, false⟩]⟩,
  ⟨0x120700, 0x20, 8, 0x0, 1, [⟨0, 1, .rw, 0, 1, false⟩, ⟨1, 2, .rw, 0, 3, false⟩, ⟨3, 1, .rw, 0, 1, false⟩, ⟨4, 1, .rw, 0, 1, false⟩, ⟨5, 1, .rw, 0, 1, false⟩, ⟨6, 1, .rw, 0, 1, false⟩, ⟨16, 16, .rw, 0, 65535, false⟩, ⟨32, 16, .rw, 0, 65535, false⟩]⟩,
  ⟨0x120708, 0x20, 8, 0x0, 1, [⟨0, 40, .rw, 0, 1099511627775, false⟩]⟩]

/-- The registers of one BAR0 range with their fields (R10, R12). -/
def regTableSch1 : List RegSpec := [
  ⟨0x120710, 0x20, 8, 0x0, 1, [⟨0, 1, .ro, 0, 1, false⟩, ⟨1, 1, .ro, 0, 1, false⟩, ⟨8, 8, .ro, 0, 255, false⟩, ⟨16, 16, .ro, 0, 65535, false⟩, ⟨32, 16, .ro, 0, 65535, false⟩]⟩,
  ⟨0x120800, 0x20, 16, 0x0, 1, [⟨0, 6, .rw, 0, 63, false⟩, ⟨6, 1, .rw, 0, 1, false⟩]⟩,
  ⟨0x120808, 0x20, 16, 0x0, 1, [⟨0, 6, .rw, 0, 63, false⟩, ⟨6, 1, .rw, 0, 1, false⟩]⟩,
  ⟨0x120810, 0x20, 16, 0x0, 1, [⟨0, 48, .rw, 0, 281474976710655, false⟩]⟩]

/-- The registers of one BAR0 range with their fields (R10, R12). -/
def regTableBind0 : List RegSpec := [
  ⟨0x130000, 0x100, 64, 0x0, 1, [⟨0, 1, .wo, 0, 1, false⟩, ⟨1, 1, .ro, 0, 1, false⟩, ⟨2, 16, .rw, 0, 65535, false⟩, ⟨18, 2, .rw, 0, 3, false⟩, ⟨20, 3, .rw, 0, 7, false⟩, ⟨23, 1, .rw, 0, 1, false⟩, ⟨24, 2, .rw, 0, 3, false⟩, ⟨26, 1, .wo, 0, 1, false⟩]⟩,
  ⟨0x130008, 0x100, 64, 0x0, 1, [⟨0, 16, .ro, 0, 65535, false⟩, ⟨16, 16, .ro, 0, 65535, false⟩, ⟨32, 16, .ro, 0, 65535, false⟩]⟩,
  ⟨0x130010, 0x100, 64, 0x0, 1, [⟨0, 16, .rw, 5000, 65535, false⟩, ⟨16, 24, .ro, 0, 16777215, false⟩]⟩,
  ⟨0x130018, 0x100, 64, 0x0, 1, [⟨0, 4, .ro, 0, 15, false⟩, ⟨4, 1, .w1c, 0, 1, false⟩, ⟨5, 1, .ro, 0, 1, false⟩]⟩,
  ⟨0x130020, 0x100, 64, 0x20, 4, [⟨0, 1, .rw, 0, 1, false⟩, ⟨1, 4, .rw, 0, 15, false⟩, ⟨5, 1, .rw, 0, 1, false⟩, ⟨6, 4, .rw, 0, 15, false⟩, ⟨10, 1, .rw, 0, 1, false⟩]⟩,
  ⟨0x130028, 0x100, 64, 0x20, 4, [⟨0, 40, .rw, 0, 1099511627775, false⟩]⟩,
  ⟨0x130030, 0x100, 64, 0x20, 4, [⟨0, 24, .rw, 0, 16777215, false⟩, ⟨24, 16, .rw, 0, 65535, false⟩]⟩,
  ⟨0x130038, 0x100, 64, 0x20, 4, [⟨0, 16, .rw, 0, 65535, false⟩, ⟨16, 8, .ro, 0, 255, false⟩]⟩]

/-- The registers of one BAR0 range with their fields (R10, R12). -/
def regTableTru0 : List RegSpec := [
  ⟨0x500000, 0x0, 1, 0x0, 1, [⟨0, 8, .rw, 0, 255, false⟩, ⟨8, 12, .rw, 0, 4095, false⟩, ⟨20, 16, .rw, 0, 65535, false⟩, ⟨36, 1, .wo, 0, 1, false⟩]⟩,
  ⟨0x500008, 0x0, 1, 0x0, 1, [⟨0, 8, .ro, 0, 255, false⟩, ⟨8, 8, .ro, 0, 255, false⟩, ⟨16, 12, .ro, 0, 4095, false⟩, ⟨28, 16, .ro, 0, 65535, false⟩, ⟨44, 1, .w1c, 0, 1, false⟩]⟩,
  ⟨0x500010, 0x0, 1, 0x0, 1, [⟨0, 1, .ro, 0, 1, false⟩, ⟨1, 1, .ro, 0, 1, false⟩, ⟨2, 1, .w1c, 0, 1, false⟩]⟩,
  ⟨0x500018, 0x0, 1, 0x0, 1, [⟨0, 48, .ro, 0, 281474976710655, false⟩]⟩,
  ⟨0x500020, 0x0, 1, 0x0, 1, [⟨0, 1, .ro, 0, 1, false⟩, ⟨1, 3, .ro, 0, 7, false⟩, ⟨4, 1, .rw, 0, 1, false⟩, ⟨8, 24, .ro, 0, 16777215, false⟩, ⟨32, 16, .ro, 0, 65535, false⟩]⟩,
  ⟨0x500028, 0x0, 1, 0x0, 1, [⟨0, 19, .ro, 0, 524287, false⟩, ⟨19, 1, .ro, 0, 1, false⟩, ⟨20, 1, .ro, 0, 1, false⟩, ⟨21, 16, .ro, 0, 65535, false⟩]⟩,
  ⟨0x500030, 0x0, 1, 0x0, 1, [⟨0, 48, .ro, 0, 281474976710655, false⟩]⟩,
  ⟨0x501000, 0x8, 512, 0x0, 1, [⟨0, 48, .rw, 0, 281474976710655, false⟩]⟩,
  ⟨0x502000, 0x8, 512, 0x0, 1, [⟨0, 48, .ro, 0, 281474976710655, false⟩]⟩]

/-- The registers of one BAR0 range with their fields (R10, R12). -/
def regTableRen0 : List RegSpec := [
  ⟨0x3C0000, 0x0, 1, 0x0, 1, [⟨0, 10, .ro, 0, 1023, false⟩, ⟨10, 10, .ro, 0, 1023, false⟩, ⟨20, 28, .ro, 0, 268435455, false⟩]⟩,
  ⟨0x3C0008, 0x0, 1, 0x0, 1, [⟨0, 16, .ro, 0, 65535, false⟩, ⟨16, 16, .ro, 0, 65535, false⟩, ⟨32, 16, .ro, 0, 65535, false⟩]⟩,
  ⟨0x3C0010, 0x0, 1, 0x0, 1, [⟨0, 16, .ro, 0, 65535, false⟩, ⟨16, 4, .ro, 0, 15, false⟩]⟩,
  ⟨0x3C0018, 0x0, 1, 0x0, 1, [⟨0, 17, .ro, 0, 131071, false⟩, ⟨17, 17, .ro, 0, 131071, false⟩, ⟨34, 14, .ro, 0, 16383, false⟩]⟩,
  ⟨0x3C0200, 0x0, 1, 0x0, 1, [⟨0, 1, .wo, 0, 1, false⟩, ⟨1, 1, .wo, 0, 1, false⟩]⟩,
  ⟨0x3C0208, 0x0, 1, 0x0, 1, [⟨0, 3, .ro, 0, 7, false⟩, ⟨3, 1, .ro, 0, 1, false⟩, ⟨4, 16, .ro, 0, 65535, false⟩, ⟨20, 11, .ro, 0, 2047, false⟩, ⟨31, 16, .ro, 0, 65535, false⟩]⟩,
  ⟨0x3C0210, 0x0, 1, 0x0, 1, [⟨0, 32, .rw, 0, 4294967295, false⟩]⟩,
  ⟨0x3C0300, 0x0, 1, 0x0, 1, [⟨0, 4, .rw, 0, 15, false⟩, ⟨4, 12, .rw, 0, 4095, false⟩, ⟨16, 12, .rw, 0, 4095, false⟩, ⟨28, 1, .wo, 0, 1, false⟩, ⟨29, 1, .wo, 0, 1, false⟩]⟩,
  ⟨0x3C0308, 0x0, 1, 0x0, 1, [⟨0, 2, .ro, 0, 3, false⟩, ⟨2, 16, .ro, 0, 65535, false⟩, ⟨18, 16, .ro, 0, 65535, false⟩]⟩,
  ⟨0x3C0310, 0x0, 1, 0x0, 1, [⟨0, 16, .ro, 0, 65535, false⟩]⟩,
  ⟨0x3C8000, 0x0, 1, 0x0, 1, [⟨0, 3, .rw, 0, 7, false⟩]⟩,
  ⟨0x3C8008, 0x0, 1, 0x0, 1, [⟨0, 24, .ro, 0, 16777215, false⟩, ⟨24, 24, .ro, 0, 16777215, false⟩]⟩,
  ⟨0x3C8010, 0x0, 1, 0x0, 1, [⟨0, 16, .ro, 0, 65535, false⟩, ⟨16, 16, .ro, 0, 65535, false⟩, ⟨32, 16, .ro, 0, 65535, false⟩]⟩,
  ⟨0x3C0100, 0x8, 16, 0x0, 1, [⟨0, 2, .rw, 0, 3, false⟩, ⟨2, 8, .rw, 0, 255, false⟩, ⟨10, 3, .rw, 0, 7, false⟩, ⟨13, 3, .rw, 0, 7, false⟩, ⟨16, 1, .rw, 0, 1, false⟩, ⟨17, 1, .rw, 0, 1, false⟩, ⟨18, 1, .rw, 0, 1, false⟩]⟩]

/-- The registers of one BAR0 range with their fields (R10, R12). -/
def regTableSq0 : List RegSpec := [
  ⟨0x200000, 0x10000, 20, 0x0, 1, [⟨0, 12, .rw, 0, 4095, false⟩, ⟨12, 1, .wo, 0, 1, false⟩, ⟨13, 1, .wo, 0, 1, false⟩, ⟨14, 1, .wo, 0, 1, false⟩, ⟨15, 1, .wo, 0, 1, false⟩, ⟨16, 1, .wo, 0, 1, false⟩]⟩,
  ⟨0x200008, 0x10000, 20, 0x0, 1, [⟨0, 2, .ro, 0, 3, false⟩, ⟨2, 1, .ro, 0, 1, false⟩, ⟨3, 1, .w1c, 0, 1, false⟩, ⟨4, 1, .w1c, 0, 1, false⟩, ⟨5, 1, .w1c, 0, 1, false⟩, ⟨6, 1, .w1c, 0, 1, false⟩, ⟨8, 4, .ro, 0, 15, false⟩, ⟨12, 12, .ro, 0, 4095, false⟩, ⟨24, 4, .ro, 0, 15, false⟩]⟩,
  ⟨0x200010, 0x10000, 20, 0x0, 1, [⟨0, 32, .ro, 0, 4294967295, false⟩]⟩,
  ⟨0x200018, 0x10000, 20, 0x0, 1, [⟨0, 5, .ro, 0, 31, false⟩, ⟨5, 1, .ro, 0, 1, false⟩, ⟨6, 1, .ro, 0, 1, false⟩]⟩,
  ⟨0x200058, 0x10000, 20, 0x0, 1, [⟨0, 3, .ro, 0, 7, false⟩, ⟨3, 16, .ro, 0, 65535, false⟩]⟩,
  ⟨0x200020, 0x10000, 16, 0x0, 1, [⟨0, 16, .rws, 0, 65535, false⟩, ⟨16, 2, .rws, 0, 3, false⟩, ⟨18, 2, .rws, 0, 3, false⟩, ⟨20, 2, .rws, 0, 3, false⟩, ⟨22, 8, .rws, 1, 250, false⟩, ⟨30, 16, .rws, 0, 65535, false⟩]⟩,
  ⟨0x200028, 0x10000, 16, 0x0, 1, [⟨0, 1, .rw, 0, 1, false⟩]⟩,
  ⟨0x200030, 0x10000, 16, 0x0, 1, [⟨0, 24, .ro, 0, 16777215, false⟩, ⟨24, 24, .ro, 0, 16777215, false⟩]⟩,
  ⟨0x200038, 0x10000, 16, 0x0, 1, [⟨0, 24, .ro, 0, 16777215, false⟩, ⟨24, 24, .ro, 0, 16777215, false⟩]⟩,
  ⟨0x200040, 0x10000, 16, 0x0, 1, [⟨0, 8, .ro, 0, 255, false⟩, ⟨8, 9, .ro, 0, 511, false⟩, ⟨17, 1, .ro, 0, 1, false⟩, ⟨18, 16, .ro, 0, 65535, false⟩, ⟨34, 14, .ro, 0, 16383, false⟩]⟩,
  ⟨0x200048, 0x10000, 16, 0x0, 1, [⟨0, 9, .ro, 0, 511, false⟩, ⟨9, 1, .ro, 0, 1, false⟩, ⟨10, 9, .ro, 0, 511, false⟩, ⟨19, 1, .ro, 0, 1, false⟩]⟩,
  ⟨0x200050, 0x10000, 16, 0x0, 1, [⟨0, 24, .ro, 0, 16777215, false⟩, ⟨24, 24, .ro, 0, 16777215, false⟩]⟩,
  ⟨0x200060, 0x10000, 16, 0x0, 1, [⟨0, 16, .ro, 0, 65535, false⟩, ⟨16, 16, .ro, 0, 65535, false⟩, ⟨32, 16, .ro, 0, 65535, false⟩]⟩,
  ⟨0x200068, 0x10000, 16, 0x0, 1, [⟨0, 16, .ro, 0, 65535, false⟩, ⟨16, 1, .ro, 0, 1, false⟩, ⟨17, 1, .ro, 0, 1, false⟩]⟩,
  ⟨0x200070, 0x10000, 16, 0x0, 1, [⟨0, 4, .rw, 0, 15, false⟩, ⟨4, 1, .rw, 0, 1, false⟩]⟩,
  ⟨0x203C00, 0x10000, 16, 0x8, 128, [⟨0, 32, .rws, 0, 4294967295, false⟩]⟩]

/-- The registers of one BAR0 range with their fields (R10, R12). -/
def regTableHp0 : List RegSpec := [
  ⟨0x380000, 0x1000, 16, 0x0, 1, [⟨0, 3, .rw, 0, 7, false⟩, ⟨3, 12, .rw, 0, 4095, false⟩, ⟨15, 1, .rw, 0, 1, false⟩, ⟨16, 17, .rw, 0, 131071, false⟩]⟩,
  ⟨0x380008, 0x1000, 16, 0x0, 1, [⟨0, 1, .ro, 0, 1, false⟩, ⟨1, 1, .ro, 0, 1, false⟩, ⟨2, 1, .ro, 0, 1, false⟩, ⟨3, 1, .w1c, 0, 1, false⟩, ⟨4, 1, .w1c, 0, 1, false⟩, ⟨5, 1, .ro, 0, 1, false⟩, ⟨6, 1, .ro, 0, 1, false⟩, ⟨7, 1, .ro, 0, 1, false⟩, ⟨8, 16, .ro, 0, 65535, false⟩, ⟨24, 2, .ro, 0, 3, false⟩, ⟨26, 16, .ro, 0, 65535, false⟩]⟩,
  ⟨0x380010, 0x1000, 16, 0x0, 1, [⟨0, 2, .rws, 0, 2, true⟩, ⟨2, 12, .rws, 0, 4095, false⟩, ⟨14, 10, .rws, 1, 1023, false⟩, ⟨24, 1, .rws, 0, 1, false⟩]⟩,
  ⟨0x380018, 0x1000, 16, 0x0, 1, [⟨0, 24, .rws, 0, 16777215, false⟩, ⟨24, 17, .rws, 0, 131071, false⟩]⟩,
  ⟨0x380020, 0x1000, 16, 0x0, 1, [⟨0, 1, .wo, 0, 1, false⟩, ⟨1, 1, .wo, 0, 1, false⟩, ⟨2, 2, .ro, 0, 3, false⟩, ⟨4, 1, .ro, 0, 1, false⟩, ⟨5, 1, .ro, 0, 1, false⟩, ⟨6, 1, .ro, 0, 1, false⟩]⟩,
  ⟨0x380028, 0x1000, 16, 0x0, 1, [⟨0, 4, .rws, 1, 8, false⟩, ⟨4, 4, .rws, 1, 8, false⟩, ⟨8, 20, .rws, 0, 1048575, false⟩]⟩,
  ⟨0x380030, 0x1000, 16, 0x0, 1, [⟨0, 20, .rws, 0, 1048575, false⟩, ⟨20, 16, .rws, 0, 65535, false⟩, ⟨36, 8, .rws, 0, 128, false⟩]⟩,
  ⟨0x380038, 0x1000, 16, 0x0, 1, [⟨0, 20, .rws, 0, 1048575, false⟩, ⟨20, 5, .rws, 0, 31, false⟩, ⟨25, 9, .rws, 0, 511, false⟩, ⟨34, 8, .rws, 1, 255, false⟩]⟩,
  ⟨0x380058, 0x1000, 16, 0x0, 1, [⟨0, 8, .rws, 10, 255, false⟩, ⟨8, 16, .rws, 0, 65535, false⟩, ⟨24, 1, .rws, 0, 1, false⟩, ⟨25, 2, .rws, 0, 3, false⟩, ⟨27, 16, .rws, 0, 65535, false⟩]⟩,
  ⟨0x380078, 0x1000, 16, 0x0, 1, [⟨0, 16, .ro, 0, 65535, false⟩, ⟨16, 16, .ro, 0, 65535, false⟩, ⟨32, 3, .ro, 0, 7, false⟩, ⟨35, 3, .ro, 0, 7, false⟩, ⟨38, 3, .ro, 0, 7, false⟩]⟩,
  ⟨0x380080, 0x1000, 16, 0x0, 1, [⟨0, 5, .rw, 9, 31, false⟩, ⟨5, 10, .rw, 1, 1000, false⟩]⟩,
  ⟨0x380088, 0x1000, 16, 0x0, 1, [⟨0, 13, .rw, 0, 8191, false⟩]⟩,
  ⟨0x380090, 0x1000, 16, 0x0, 1, [⟨0, 48, .rw, 0, 281474976710655, false⟩]⟩,
  ⟨0x380098, 0x1000, 16, 0x0, 1, [⟨0, 1, .rw, 0, 1, false⟩, ⟨1, 2, .rw, 0, 3, false⟩, ⟨3, 8, .rw, 1, 255, false⟩, ⟨11, 16, .rw, 0, 65535, false⟩, ⟨27, 2, .rw, 1, 3, false⟩, ⟨29, 19, .rw, 0, 524287, false⟩]⟩,
  ⟨0x3800A0, 0x1000, 16, 0x0, 1, [⟨0, 12, .rw, 0, 4095, false⟩, ⟨12, 12, .rw, 0, 4095, false⟩, ⟨24, 12, .rw, 0, 4095, false⟩]⟩,
  ⟨0x3800A8, 0x1000, 16, 0x0, 1, [⟨0, 12, .ro, 0, 4095, false⟩, ⟨12, 16, .ro, 0, 65535, false⟩, ⟨28, 8, .ro, 0, 255, false⟩, ⟨36, 8, .ro, 0, 255, false⟩, ⟨44, 1, .ro, 0, 1, false⟩]⟩,
  ⟨0x3800B0, 0x1000, 16, 0x0, 1, [⟨0, 12, .ro, 0, 4095, false⟩, ⟨12, 2, .ro, 0, 3, false⟩, ⟨14, 12, .ro, 0, 4095, false⟩, ⟨26, 5, .ro, 0, 31, false⟩, ⟨31, 1, .w1c, 0, 1, false⟩, ⟨32, 1, .wo, 0, 1, false⟩]⟩,
  ⟨0x3800B8, 0x1000, 16, 0x0, 1, [⟨0, 2, .rw, 0, 2, true⟩, ⟨2, 4, .rw, 0, 15, false⟩, ⟨6, 3, .rw, 1, 7, false⟩, ⟨9, 3, .rw, 1, 7, false⟩, ⟨12, 3, .rw, 1, 7, false⟩, ⟨15, 2, .rw, 0, 3, false⟩, ⟨17, 1, .rw, 0, 1, false⟩]⟩,
  ⟨0x3800C0, 0x1000, 16, 0x0, 1, [⟨0, 13, .ro, 0, 8191, false⟩, ⟨13, 13, .ro, 0, 8191, false⟩, ⟨26, 13, .ro, 0, 8191, false⟩]⟩,
  ⟨0x3800C8, 0x1000, 16, 0x0, 1, [⟨0, 12, .rw, 0, 4095, false⟩]⟩,
  ⟨0x3800D0, 0x1000, 16, 0x0, 1, [⟨0, 48, .rw, 0, 281474976710655, false⟩]⟩,
  ⟨0x380040, 0x1000, 16, 0x8, 2, [⟨0, 16, .rws, 0, 65535, false⟩, ⟨16, 16, .rws, 0, 65535, false⟩, ⟨32, 16, .rws, 0, 65535, false⟩]⟩,
  ⟨0x380050, 0x1000, 16, 0x8, 1, [⟨0, 16, .rws, 0, 65535, false⟩, ⟨16, 16, .rws, 0, 65535, false⟩]⟩,
  ⟨0x380060, 0x1000, 16, 0x8, 2, [⟨0, 16, .rws, 0, 65535, false⟩, ⟨16, 16, .rws, 0, 65535, false⟩, ⟨32, 16, .rws, 0, 65535, false⟩]⟩,
  ⟨0x380070, 0x1000, 16, 0x8, 1, [⟨0, 16, .rws, 0, 65535, false⟩]⟩,
  ⟨0x380100, 0x1000, 16, 0x8, 8, [⟨0, 10, .rws, 0, 1023, false⟩, ⟨10, 10, .rws, 0, 1023, false⟩, ⟨20, 10, .rws, 0, 1023, false⟩, ⟨30, 10, .rws, 0, 1023, false⟩]⟩]

/-- The registers of one BAR0 range with their fields (R10, R12). -/
def regTableHp1 : List RegSpec := [
  ⟨0x380200, 0x1000, 16, 0x8, 11, [⟨0, 48, .ro, 0, 281474976710655, false⟩]⟩,
  ⟨0x380800, 0x1000, 4, 0x0, 1, [⟨0, 14, .rw, 0, 16383, false⟩, ⟨14, 1, .rw, 0, 1, false⟩]⟩,
  ⟨0x380808, 0x1000, 4, 0x0, 1, [⟨0, 14, .ro, 0, 16383, false⟩, ⟨14, 14, .ro, 0, 16383, false⟩, ⟨28, 4, .ro, 0, 15, false⟩, ⟨32, 1, .ro, 0, 1, false⟩, ⟨33, 1, .ro, 0, 1, false⟩]⟩,
  ⟨0x38C300, 0x1000, 4, 0x0, 1, [⟨0, 8, .rw, 4, 255, false⟩, ⟨8, 1, .rw, 0, 1, false⟩, ⟨9, 5, .rw, 1, 24, false⟩, ⟨14, 1, .rw, 0, 1, false⟩, ⟨15, 1, .rw, 0, 1, false⟩, ⟨16, 8, .rw, 1, 255, false⟩, ⟨24, 3, .rw, 0, 7, false⟩, ⟨27, 1, .rw, 0, 1, false⟩]⟩,
  ⟨0x38C308, 0x1000, 4, 0x0, 1, [⟨0, 1, .rw, 0, 1, false⟩, ⟨1, 12, .rws, 16, 4095, false⟩, ⟨13, 9, .rws, 0, 256, false⟩, ⟨22, 12, .rws, 0, 4095, false⟩]⟩,
  ⟨0x38C310, 0x1000, 4, 0x0, 1, [⟨0, 2, .ro, 0, 3, false⟩, ⟨2, 1, .ro, 0, 1, false⟩, ⟨3, 1, .ro, 0, 1, false⟩, ⟨4, 1, .w1c, 0, 1, false⟩, ⟨5, 1, .w1c, 0, 1, false⟩, ⟨6, 1, .w1c, 0, 1, false⟩, ⟨7, 1, .w1c, 0, 1, false⟩, ⟨8, 1, .w1c, 0, 1, false⟩, ⟨9, 1, .w1c, 0, 1, false⟩, ⟨10, 5, .ro, 0, 31, false⟩, ⟨15, 6, .ro, 0, 63, false⟩, ⟨21, 6, .ro, 0, 63, false⟩]⟩,
  ⟨0x38C318, 0x1000, 4, 0x0, 1, [⟨0, 24, .ro, 0, 16777215, false⟩]⟩,
  ⟨0x38C320, 0x1000, 4, 0x0, 1, [⟨0, 16, .ro, 0, 65535, false⟩, ⟨16, 16, .ro, 0, 65535, false⟩, ⟨32, 16, .ro, 0, 65535, false⟩]⟩,
  ⟨0x38C400, 0x1000, 4, 0x8, 24, [⟨0, 12, .rws, 0, 4095, false⟩, ⟨12, 12, .rws, 0, 4095, false⟩]⟩]

/-- The registers of one BAR0 range with their fields (R10, R12). -/
def regTableCe0 : List RegSpec := [
  ⟨0x400000, 0x10000, 8, 0x0, 1, [⟨0, 11, .rw, 0, 2047, false⟩, ⟨11, 1, .wo, 0, 1, false⟩, ⟨12, 1, .wo, 0, 1, false⟩, ⟨13, 1, .wo, 0, 1, false⟩, ⟨14, 1, .wo, 0, 1, false⟩, ⟨15, 1, .wo, 0, 1, false⟩]⟩,
  ⟨0x400008, 0x10000, 8, 0x0, 1, [⟨0, 2, .ro, 0, 3, false⟩, ⟨2, 1, .w1c, 0, 1, false⟩, ⟨3, 1, .w1c, 0, 1, false⟩, ⟨4, 1, .w1c, 0, 1, false⟩, ⟨5, 1, .w1c, 0, 1, false⟩, ⟨6, 4, .ro, 0, 15, false⟩, ⟨10, 11, .ro, 0, 2047, false⟩, ⟨21, 2, .ro, 0, 3, false⟩, ⟨23, 3, .ro, 0, 7, false⟩]⟩,
  ⟨0x400010, 0x10000, 8, 0x0, 1, [⟨0, 32, .ro, 0, 4294967295, false⟩]⟩,
  ⟨0x400018, 0x10000, 8, 0x0, 1, [⟨0, 2, .rw, 0, 3, false⟩, ⟨2, 3, .rw, 0, 7, false⟩, ⟨5, 8, .rw, 0, 255, false⟩, ⟨13, 18, .rw, 2000, 262143, false⟩, ⟨31, 16, .rw, 16, 65535, false⟩]⟩,
  ⟨0x400020, 0x10000, 8, 0x0, 1, [⟨0, 1, .rw, 0, 1, false⟩, ⟨1, 8, .rw, 0, 255, false⟩, ⟨9, 1, .rw, 0, 1, false⟩, ⟨10, 4, .rw, 1, 15, false⟩, ⟨14, 8, .rw, 0, 255, false⟩]⟩,
  ⟨0x400028, 0x10000, 8, 0x0, 1, [⟨0, 16, .ro, 0, 65535, false⟩, ⟨16, 4, .ro, 0, 15, false⟩, ⟨20, 12, .ro, 0, 4095, false⟩, ⟨32, 8, .ro, 0, 255, false⟩, ⟨40, 8, .ro, 0, 255, false⟩]⟩,
  ⟨0x400030, 0x10000, 8, 0x0, 1, [⟨0, 8, .w1c, 0, 255, false⟩, ⟨8, 8, .ro, 0, 255, false⟩]⟩,
  ⟨0x400038, 0x10000, 8, 0x0, 1, [⟨0, 3, .ro, 0, 7, false⟩, ⟨3, 16, .ro, 0, 65535, false⟩]⟩,
  ⟨0x400400, 0x10000, 8, 0x0, 1, [⟨0, 48, .rw, 0, 281474976710655, false⟩]⟩,
  ⟨0x400408, 0x10000, 8, 0x0, 1, [⟨0, 48, .rw, 0, 281474976710655, false⟩]⟩,
  ⟨0x400410, 0x10000, 8, 0x0, 1, [⟨0, 48, .rw, 0, 281474976710655, false⟩]⟩,
  ⟨0x400418, 0x10000, 8, 0x0, 1, [⟨0, 48, .rw, 0, 281474976710655, false⟩]⟩,
  ⟨0x400420, 0x10000, 8, 0x0, 1, [⟨0, 3, .wo, 0, 7, false⟩, ⟨3, 1, .wo, 0, 1, false⟩]⟩,
  ⟨0x400428, 0x10000, 8, 0x0, 1, [⟨0, 48, .ro, 0, 281474976710655, false⟩]⟩,
  ⟨0x400430, 0x10000, 8, 0x0, 1, [⟨0, 48, .ro, 0, 281474976710655, false⟩]⟩,
  ⟨0x400438, 0x10000, 8, 0x0, 1, [⟨0, 48, .ro, 0, 281474976710655, false⟩]⟩,
  ⟨0x400440, 0x10000, 8, 0x0, 1, [⟨0, 3, .ro, 0, 7, false⟩, ⟨3, 2, .ro, 0, 3, false⟩, ⟨5, 1, .ro, 0, 1, false⟩, ⟨6, 1, .w1c, 0, 1, false⟩]⟩,
  ⟨0x400100, 0x10000, 8, 0x8, 8, [⟨0, 4, .rw, 0, 15, false⟩, ⟨4, 5, .rw, 0, 31, false⟩, ⟨9, 4, .rw, 0, 15, false⟩, ⟨13, 1, .rw, 0, 1, false⟩]⟩,
  ⟨0x400140, 0x10000, 8, 0x8, 8, [⟨0, 48, .rw, 0, 281474976710655, false⟩]⟩,
  ⟨0x400180, 0x10000, 8, 0x8, 16, [⟨0, 48, .rw, 0, 281474976710655, false⟩]⟩,
  ⟨0x400200, 0x10000, 8, 0x8, 8, [⟨0, 48, .ro, 0, 281474976710655, false⟩]⟩,
  ⟨0x400240, 0x10000, 8, 0x8, 8, [⟨0, 48, .rw, 0, 281474976710655, false⟩]⟩,
  ⟨0x400280, 0x10000, 8, 0x8, 8, [⟨0, 48, .rw, 0, 281474976710655, false⟩]⟩,
  ⟨0x4002C0, 0x10000, 8, 0x8, 8, [⟨0, 48, .rw, 0, 281474976710655, false⟩]⟩]

/-- The registers of one BAR0 range with their fields (R10, R12). -/
def regTableMc0 : List RegSpec := [
  ⟨0x480000, 0x1000, 6, 0x0, 1, [⟨0, 1, .wo, 0, 1, false⟩, ⟨1, 1, .wo, 0, 1, false⟩, ⟨2, 1, .wo, 0, 1, false⟩, ⟨3, 1, .rw, 0, 1, false⟩]⟩,
  ⟨0x480008, 0x1000, 6, 0x0, 1, [⟨0, 1, .rw, 0, 1, false⟩, ⟨1, 1, .rw, 0, 1, false⟩, ⟨2, 1, .rw, 0, 1, false⟩, ⟨3, 2, .rw, 0, 3, false⟩, ⟨5, 3, .rw, 0, 7, false⟩, ⟨8, 5, .rw, 1, 31, false⟩, ⟨13, 3, .rw, 0, 7, false⟩, ⟨16, 3, .rw, 0, 7, false⟩, ⟨19, 1, .rw, 0, 1, false⟩, ⟨20, 3, .rw, 0, 7, false⟩, ⟨23, 3, .rw, 0, 7, false⟩, ⟨26, 3, .rw, 0, 7, false⟩, ⟨29, 4, .rw, 0, 15, false⟩]⟩,
  ⟨0x480010, 0x1000, 6, 0x0, 1, [⟨0, 14, .rw, 2000, 12500, false⟩, ⟨14, 8, .rw, 0, 255, false⟩, ⟨22, 8, .rw, 0, 255, false⟩, ⟨30, 4, .rw, 0, 15, false⟩, ⟨34, 9, .rw, 0, 256, false⟩]⟩,
  ⟨0x480018, 0x1000, 6, 0x0, 1, [⟨0, 16, .rw, 0, 65535, false⟩, ⟨16, 16, .rw, 0, 65535, false⟩, ⟨32, 16, .rw, 1, 65535, false⟩]⟩,
  ⟨0x480020, 0x1000, 6, 0x0, 1, [⟨0, 48, .rw, 0, 281474976710655, false⟩]⟩,
  ⟨0x480028, 0x1000, 6, 0x0, 1, [⟨0, 16, .rw, 0, 65535, false⟩, ⟨16, 16, .rw, 0, 65535, false⟩]⟩,
  ⟨0x480030, 0x1000, 6, 0x0, 1, [⟨0, 24, .rw, 0, 16777215, false⟩, ⟨24, 24, .rw, 0, 16777215, false⟩]⟩,
  ⟨0x480038, 0x1000, 6, 0x0, 1, [⟨0, 16, .rw, 0, 65535, false⟩, ⟨16, 2, .rw, 0, 2, false⟩, ⟨18, 10, .rw, 1, 1023, false⟩, ⟨28, 16, .rw, 0, 65535, false⟩, ⟨44, 4, .rw, 1, 15, false⟩]⟩,
  ⟨0x480040, 0x1000, 6, 0x0, 1, [⟨0, 24, .rw, 0, 16777215, false⟩, ⟨24, 8, .rw, 0, 255, false⟩, ⟨32, 16, .rw, 0, 65535, false⟩]⟩,
  ⟨0x480048, 0x1000, 6, 0x0, 1, [⟨0, 16, .rw, 1, 65535, false⟩, ⟨16, 8, .rw, 0, 255, false⟩, ⟨24, 24, .rw, 0, 16777215, false⟩]⟩,
  ⟨0x480050, 0x1000, 6, 0x0, 1, [⟨0, 32, .rw, 0, 4294967295, false⟩, ⟨32, 8, .rw, 0, 255, false⟩, ⟨40, 8, .rw, 1, 255, false⟩]⟩,
  ⟨0x480058, 0x1000, 6, 0x0, 1, [⟨0, 24, .rw, 0, 16777215, false⟩]⟩,
  ⟨0x480060, 0x1000, 6, 0x0, 1, [⟨0, 3, .ro, 0, 7, false⟩, ⟨3, 1, .ro, 0, 1, false⟩, ⟨4, 1, .ro, 0, 1, false⟩, ⟨5, 1, .ro, 0, 1, false⟩, ⟨6, 1, .ro, 0, 1, false⟩, ⟨7, 1, .ro, 0, 1, false⟩, ⟨8, 3, .ro, 0, 7, false⟩, ⟨11, 1, .ro, 0, 1, false⟩, ⟨12, 1, .w1c, 0, 1, false⟩, ⟨13, 1, .w1c, 0, 1, false⟩]⟩,
  ⟨0x480068, 0x1000, 6, 0x0, 1, [⟨0, 16, .ro, 0, 65535, false⟩, ⟨16, 12, .ro, 0, 4095, false⟩, ⟨28, 8, .ro, 0, 255, false⟩, ⟨36, 8, .ro, 0, 255, false⟩]⟩,
  ⟨0x480070, 0x1000, 6, 0x0, 1, [⟨0, 3, .rw, 0, 7, false⟩, ⟨3, 16, .rw, 0, 65535, false⟩, ⟨19, 16, .rw, 1, 65535, false⟩]⟩,
  ⟨0x480078, 0x1000, 6, 0x0, 1, [⟨0, 3, .ro, 0, 7, false⟩, ⟨3, 1, .w1c, 0, 1, false⟩, ⟨4, 1, .w1c, 0, 1, false⟩, ⟨5, 16, .ro, 0, 65535, false⟩]⟩,
  ⟨0x480100, 0x1000, 6, 0x8, 16, [⟨0, 48, .ro, 0, 281474976710655, false⟩]⟩,
  ⟨0x480800, 0x1000, 2, 0x0, 1, [⟨0, 16, .rw, 0, 65535, false⟩, ⟨16, 16, .rw, 0, 65535, false⟩, ⟨32, 1, .rw, 0, 1, false⟩, ⟨33, 1, .rw, 0, 1, false⟩]⟩,
  ⟨0x480808, 0x1000, 2, 0x0, 1, [⟨0, 16, .rw, 0, 65535, false⟩, ⟨16, 16, .rw, 0, 65535, false⟩, ⟨32, 16, .rw, 0, 65535, false⟩]⟩,
  ⟨0x480810, 0x1000, 2, 0x0, 1, [⟨0, 16, .rw, 0, 65535, false⟩, ⟨16, 16, .rw, 0, 65535, false⟩, ⟨32, 16, .rw, 0, 65535, false⟩]⟩,
  ⟨0x480818, 0x1000, 2, 0x0, 1, [⟨0, 24, .ro, 0, 16777215, false⟩, ⟨24, 1, .ro, 0, 1, false⟩, ⟨25, 1, .ro, 0, 1, false⟩, ⟨26, 1, .w1c, 0, 1, false⟩, ⟨27, 1, .ro, 0, 1, false⟩, ⟨28, 1, .w1c, 0, 1, false⟩, ⟨29, 1, .ro, 0, 1, false⟩, ⟨30, 1, .ro, 0, 1, false⟩]⟩]

/-- The registers of one BAR0 range with their fields (R10, R12). -/
def regTableSys0 : List RegSpec := [
  ⟨0x60000, 0x0, 1, 0x0, 1, [⟨0, 2, .ro, 0, 3, false⟩, ⟨2, 2, .ro, 0, 3, false⟩, ⟨4, 1, .ro, 0, 1, false⟩, ⟨5, 1, .ro, 0, 1, false⟩]⟩,
  ⟨0x60008, 0x0, 1, 0x0, 1, [⟨0, 26, .ro, 0, 67108863, false⟩, ⟨26, 1, .ro, 0, 1, false⟩, ⟨27, 1, .w1c, 0, 1, false⟩, ⟨28, 16, .ro, 0, 65535, false⟩]⟩,
  ⟨0x60100, 0x40, 4, 0x0, 1, [⟨0, 48, .rw, 0, 281474976710655, false⟩]⟩,
  ⟨0x60108, 0x40, 4, 0x0, 1, [⟨0, 48, .rw, 0, 281474976710655, false⟩]⟩,
  ⟨0x60110, 0x40, 4, 0x0, 1, [⟨0, 4, .rw, 4, 12, false⟩, ⟨4, 1, .rw, 0, 1, false⟩, ⟨5, 1, .wo, 0, 1, false⟩, ⟨6, 1, .ro, 0, 1, false⟩, ⟨7, 1, .w1c, 0, 1, false⟩]⟩,
  ⟨0x60118, 0x40, 4, 0x0, 1, [⟨0, 16, .rw, 0, 65535, false⟩]⟩,
  ⟨0x60120, 0x40, 4, 0x0, 1, [⟨0, 16, .ro, 0, 65535, false⟩]⟩,
  ⟨0x60128, 0x40, 4, 0x0, 1, [⟨0, 16, .ro, 0, 65535, false⟩]⟩,
  ⟨0x60130, 0x40, 4, 0x0, 1, [⟨0, 16, .rw, 0, 65535, false⟩]⟩,
  ⟨0x60138, 0x40, 4, 0x0, 1, [⟨0, 48, .rw, 0, 281474976710655, false⟩]⟩,
  ⟨0x60200, 0x0, 1, 0x0, 1, [⟨0, 48, .rw, 0, 281474976710655, false⟩]⟩,
  ⟨0x60208, 0x0, 1, 0x0, 1, [⟨0, 4, .rw, 4, 12, false⟩, ⟨4, 1, .rw, 0, 1, false⟩, ⟨5, 1, .wo, 0, 1, false⟩, ⟨8, 8, .rw, 0, 255, false⟩]⟩,
  ⟨0x60210, 0x0, 1, 0x0, 1, [⟨0, 16, .ro, 0, 65535, false⟩]⟩,
  ⟨0x60218, 0x0, 1, 0x0, 1, [⟨0, 16, .rw, 0, 65535, false⟩]⟩,
  ⟨0x60220, 0x0, 1, 0x0, 1, [⟨0, 16, .ro, 0, 65535, false⟩, ⟨16, 16, .ro, 0, 65535, false⟩]⟩,
  ⟨0x70000, 0x100, 2, 0x0, 1, [⟨0, 1, .rw, 0, 1, false⟩, ⟨1, 1, .rw, 0, 1, false⟩, ⟨2, 5, .rw, 0, 31, false⟩, ⟨7, 1, .rw, 0, 1, false⟩, ⟨8, 12, .rw, 0, 4095, false⟩, ⟨20, 16, .rw, 0, 65535, false⟩]⟩,
  ⟨0x70008, 0x100, 2, 0x0, 1, [⟨0, 48, .rw, 0, 281474976710655, false⟩]⟩,
  ⟨0x70010, 0x100, 2, 0x0, 1, [⟨0, 32, .rw, 0, 4294967295, false⟩, ⟨32, 6, .rw, 0, 63, false⟩]⟩,
  ⟨0x70018, 0x100, 2, 0x0, 1, [⟨0, 32, .rw, 0, 4294967295, false⟩]⟩,
  ⟨0x70020, 0x100, 2, 0x0, 1, [⟨0, 32, .rw, 0, 4294967295, false⟩, ⟨32, 16, .rw, 0, 65535, false⟩]⟩,
  ⟨0x70028, 0x100, 2, 0x0, 1, [⟨0, 32, .rw, 0, 4294967295, false⟩]⟩,
  ⟨0x70030, 0x100, 2, 0x0, 1, [⟨0, 1, .ro, 0, 1, false⟩, ⟨1, 2, .ro, 0, 3, false⟩]⟩,
  ⟨0x70038, 0x100, 2, 0x0, 1, [⟨0, 16, .ro, 0, 65535, false⟩, ⟨16, 16, .ro, 0, 65535, false⟩, ⟨32, 16, .ro, 0, 65535, false⟩]⟩,
  ⟨0x70200, 0x0, 1, 0x0, 1, [⟨0, 4, .rw, 0, 15, false⟩, ⟨4, 4, .rw, 0, 15, false⟩]⟩]

/-- The registers of one BAR0 range with their fields (R10, R12). -/
def regTableSys1 : List RegSpec := [
  ⟨0x70208, 0x0, 1, 0x0, 1, [⟨0, 1, .rw, 0, 1, false⟩, ⟨1, 1, .rw, 0, 1, false⟩, ⟨2, 1, .rw, 0, 1, false⟩, ⟨3, 8, .rw, 0, 255, false⟩, ⟨11, 1, .ro, 0, 1, false⟩, ⟨16, 32, .ro, 0, 4294967295, false⟩]⟩,
  ⟨0x70210, 0x0, 1, 0x0, 1, [⟨0, 16, .rw, 0, 65535, false⟩, ⟨16, 1, .rw, 0, 1, false⟩, ⟨17, 1, .rw, 0, 1, false⟩]⟩,
  ⟨0x78000, 0x0, 1, 0x0, 1, [⟨0, 3, .rw, 0, 7, false⟩, ⟨3, 1, .rw, 0, 1, false⟩]⟩,
  ⟨0x78008, 0x0, 1, 0x0, 1, [⟨0, 2, .ro, 0, 3, false⟩, ⟨2, 2, .ro, 0, 3, false⟩, ⟨4, 1, .ro, 0, 1, false⟩, ⟨5, 8, .ro, 0, 255, false⟩, ⟨13, 3, .ro, 0, 7, false⟩, ⟨16, 1, .w1c, 0, 1, false⟩, ⟨17, 1, .w1c, 0, 1, false⟩, ⟨18, 1, .w1c, 0, 1, false⟩, ⟨19, 3, .ro, 0, 7, false⟩]⟩,
  ⟨0x78010, 0x0, 1, 0x0, 1, [⟨0, 32, .ro, 0, 4294967295, false⟩]⟩,
  ⟨0x78018, 0x0, 1, 0x0, 1, [⟨0, 16, .ro, 0, 65535, false⟩, ⟨16, 16, .ro, 0, 65535, false⟩]⟩,
  ⟨0x78020, 0x0, 1, 0x0, 1, [⟨0, 4, .rw, 0, 15, false⟩]⟩,
  ⟨0x78028, 0x0, 1, 0x0, 1, [⟨0, 8, .ro, 0, 255, false⟩, ⟨8, 8, .ro, 0, 255, false⟩, ⟨16, 32, .ro, 0, 4294967295, false⟩]⟩,
  ⟨0x78080, 0x0, 1, 0x0, 1, [⟨0, 16, .ro, 0, 65535, false⟩, ⟨16, 16, .ro, 0, 65535, false⟩, ⟨32, 16, .ro, 0, 65535, false⟩]⟩,
  ⟨0x78088, 0x0, 1, 0x0, 1, [⟨0, 16, .ro, 0, 65535, false⟩, ⟨16, 16, .ro, 0, 65535, false⟩, ⟨32, 16, .ro, 0, 65535, false⟩]⟩,
  ⟨0x78090, 0x0, 1, 0x0, 1, [⟨0, 16, .ro, 0, 65535, false⟩, ⟨16, 16, .ro, 0, 65535, false⟩, ⟨32, 16, .ro, 0, 65535, false⟩]⟩,
  ⟨0x78040, 0x10, 4, 0x0, 1, [⟨0, 1, .rw, 0, 1, false⟩, ⟨1, 1, .rw, 0, 1, false⟩, ⟨2, 3, .rw, 0, 7, false⟩, ⟨5, 1, .rw, 0, 1, false⟩, ⟨6, 6, .rw, 0, 63, false⟩]⟩,
  ⟨0x78048, 0x10, 4, 0x0, 1, [⟨0, 40, .rw, 0, 1099511627775, false⟩]⟩,
  ⟨0x30000, 0x0, 1, 0x0, 1, [⟨0, 1, .ro, 0, 1, false⟩, ⟨1, 1, .ro, 0, 1, false⟩, ⟨2, 1, .ro, 0, 1, false⟩, ⟨3, 1, .ro, 0, 1, false⟩, ⟨4, 1, .ro, 0, 1, false⟩]⟩,
  ⟨0x30008, 0x0, 1, 0x0, 1, [⟨0, 17, .rw, 10, 86400, false⟩, ⟨17, 1, .rw, 0, 1, false⟩]⟩,
  ⟨0x30010, 0x0, 1, 0x0, 1, [⟨0, 24, .ro, 0, 16777215, false⟩, ⟨24, 7, .ro, 0, 127, false⟩, ⟨31, 1, .ro, 0, 1, false⟩, ⟨32, 16, .ro, 0, 65535, false⟩]⟩,
  ⟨0x30018, 0x0, 1, 0x0, 1, [⟨0, 16, .ro, 0, 65535, false⟩, ⟨16, 16, .ro, 0, 65535, false⟩, ⟨32, 16, .ro, 0, 65535, false⟩]⟩,
  ⟨0x30020, 0x0, 1, 0x0, 1, [⟨0, 7, .ro, 0, 127, false⟩, ⟨7, 16, .ro, 0, 65535, false⟩, ⟨23, 1, .ro, 0, 1, false⟩, ⟨24, 3, .ro, 0, 7, false⟩, ⟨27, 8, .ro, 0, 255, false⟩, ⟨35, 1, .w1c, 0, 1, false⟩, ⟨36, 1, .w1c, 0, 1, false⟩]⟩,
  ⟨0x30040, 0x0, 1, 0x0, 1, [⟨0, 3, .ro, 0, 7, false⟩, ⟨3, 2, .ro, 0, 3, false⟩, ⟨5, 16, .ro, 0, 65535, false⟩, ⟨21, 16, .ro, 0, 65535, false⟩]⟩,
  ⟨0x30048, 0x0, 1, 0x0, 1, [⟨0, 7, .rw, 0, 127, false⟩, ⟨7, 7, .rw, 0, 127, false⟩, ⟨14, 1, .rw, 0, 1, false⟩, ⟨15, 1, .wo, 0, 1, false⟩]⟩,
  ⟨0x30028, 0x8, 3, 0x0, 1, [⟨0, 48, .ro, 0, 281474976710655, false⟩]⟩,
  ⟨0x40000, 0x4000, 8, 0x0, 1, [⟨0, 10, .rw, 0, 1023, false⟩, ⟨10, 1, .wo, 0, 1, false⟩, ⟨11, 1, .wo, 0, 1, false⟩, ⟨12, 1, .wo, 0, 1, false⟩]⟩,
  ⟨0x40008, 0x4000, 8, 0x0, 1, [⟨0, 2, .ro, 0, 3, false⟩, ⟨2, 1, .w1c, 0, 1, false⟩, ⟨3, 4, .ro, 0, 15, false⟩, ⟨7, 10, .ro, 0, 1023, false⟩, ⟨17, 3, .ro, 0, 7, false⟩, ⟨20, 3, .ro, 0, 7, false⟩]⟩,
  ⟨0x40010, 0x4000, 8, 0x0, 1, [⟨0, 32, .ro, 0, 4294967295, false⟩]⟩]

/-- The registers of one BAR0 range with their fields (R10, R12). -/
def regTableSys2 : List RegSpec := [
  ⟨0x40018, 0x4000, 8, 0x0, 1, [⟨0, 2, .rw, 0, 3, false⟩, ⟨2, 1, .rw, 0, 1, false⟩]⟩,
  ⟨0x40020, 0x4000, 8, 0x0, 1, [⟨0, 48, .ro, 0, 281474976710655, false⟩]⟩,
  ⟨0x40028, 0x4000, 8, 0x0, 1, [⟨0, 32, .ro, 0, 4294967295, false⟩, ⟨32, 16, .ro, 0, 65535, false⟩]⟩,
  ⟨0x40030, 0x4000, 8, 0x0, 1, [⟨0, 3, .ro, 0, 7, false⟩, ⟨3, 16, .ro, 0, 65535, false⟩]⟩,
  ⟨0x80000, 0x0, 1, 0x0, 1, [⟨0, 48, .w1c, 0, 281474976710655, false⟩]⟩,
  ⟨0x80008, 0x0, 1, 0x0, 1, [⟨0, 48, .ro, 0, 281474976710655, false⟩]⟩,
  ⟨0x80010, 0x0, 1, 0x0, 1, [⟨0, 48, .rw, 0, 281474976710655, false⟩]⟩,
  ⟨0x80018, 0x0, 1, 0x0, 1, [⟨0, 1, .rw, 0, 1, false⟩, ⟨1, 3, .rw, 0, 7, false⟩, ⟨4, 1, .ro, 0, 1, false⟩]⟩,
  ⟨0x80020, 0x0, 1, 0x0, 1, [⟨0, 6, .ro, 0, 63, false⟩, ⟨6, 16, .ro, 0, 65535, false⟩, ⟨22, 1, .wo, 0, 1, false⟩]⟩,
  ⟨0x80028, 0x0, 1, 0x0, 1, [⟨0, 6, .ro, 0, 63, false⟩, ⟨6, 3, .ro, 0, 7, false⟩, ⟨9, 1, .ro, 0, 1, false⟩, ⟨10, 8, .ro, 0, 255, false⟩, ⟨32, 16, .ro, 0, 65535, false⟩]⟩,
  ⟨0x80030, 0x0, 1, 0x0, 1, [⟨0, 48, .ro, 0, 281474976710655, false⟩]⟩,
  ⟨0x80038, 0x0, 1, 0x0, 1, [⟨0, 48, .ro, 0, 281474976710655, false⟩]⟩,
  ⟨0x80040, 0x0, 1, 0x0, 1, [⟨0, 48, .ro, 0, 281474976710655, false⟩]⟩,
  ⟨0x80048, 0x0, 1, 0x0, 1, [⟨0, 16, .ro, 0, 65535, false⟩, ⟨16, 16, .ro, 0, 65535, false⟩, ⟨32, 1, .ro, 0, 1, false⟩, ⟨33, 1, .ro, 0, 1, false⟩, ⟨34, 1, .ro, 0, 1, false⟩, ⟨35, 4, .ro, 0, 15, false⟩, ⟨39, 1, .ro, 0, 1, false⟩]⟩,
  ⟨0x80050, 0x0, 1, 0x0, 1, [⟨0, 16, .ro, 0, 65535, false⟩, ⟨16, 16, .ro, 0, 65535, false⟩, ⟨32, 8, .ro, 0, 255, false⟩, ⟨40, 8, .ro, 0, 255, false⟩]⟩,
  ⟨0x10000, 0x0, 1, 0x0, 1, [⟨0, 3, .ro, 0, 7, false⟩, ⟨3, 1, .ro, 0, 1, false⟩, ⟨4, 2, .ro, 0, 3, false⟩, ⟨6, 1, .ro, 0, 1, false⟩, ⟨7, 1, .w1c, 0, 1, false⟩, ⟨8, 3, .ro, 0, 7, false⟩, ⟨11, 2, .ro, 0, 3, false⟩]⟩,
  ⟨0x10008, 0x0, 1, 0x0, 1, [⟨0, 2, .rw, 0, 3, false⟩, ⟨2, 1, .wo, 0, 1, false⟩, ⟨3, 1, .wo, 0, 1, false⟩]⟩,
  ⟨0x10010, 0x0, 1, 0x0, 1, [⟨0, 2, .ro, 0, 3, false⟩, ⟨2, 1, .ro, 0, 1, false⟩, ⟨3, 2, .ro, 0, 3, false⟩]⟩,
  ⟨0x10018, 0x0, 1, 0x0, 1, [⟨0, 16, .rw, 0, 65535, false⟩, ⟨16, 16, .rw, 0, 65535, false⟩, ⟨32, 12, .rw, 0, 4095, false⟩]⟩,
  ⟨0x10020, 0x0, 1, 0x0, 1, [⟨0, 16, .ro, 0, 65535, false⟩, ⟨16, 16, .ro, 0, 65535, false⟩, ⟨32, 16, .ro, 0, 65535, false⟩]⟩,
  ⟨0x10028, 0x0, 1, 0x0, 1, [⟨0, 5, .ro, 0, 31, false⟩, ⟨5, 5, .ro, 0, 31, false⟩, ⟨10, 1, .ro, 0, 1, false⟩, ⟨11, 1, .ro, 0, 1, false⟩]⟩,
  ⟨0x10030, 0x0, 1, 0x0, 1, [⟨0, 3, .ro, 0, 7, false⟩, ⟨3, 8, .ro, 0, 255, false⟩, ⟨11, 8, .ro, 0, 255, false⟩, ⟨19, 16, .ro, 0, 65535, false⟩, ⟨35, 13, .ro, 0, 8191, false⟩]⟩,
  ⟨0x10038, 0x0, 1, 0x0, 1, [⟨0, 3, .ro, 0, 7, false⟩, ⟨3, 1, .wo, 0, 1, false⟩, ⟨4, 16, .ro, 0, 65535, false⟩]⟩,
  ⟨0x10040, 0x8, 13, 0x0, 1, [⟨0, 48, .rw, 0, 281474976710655, false⟩]⟩]

/-- The registers of one BAR0 range with their fields (R10, R12). -/
def regTableSys3 : List RegSpec := [
  ⟨0x10100, 0x8, 12, 0x0, 1, [⟨0, 16, .ro, 0, 65535, false⟩, ⟨16, 3, .ro, 0, 7, false⟩, ⟨19, 1, .ro, 0, 1, false⟩, ⟨20, 1, .ro, 0, 1, false⟩, ⟨21, 1, .ro, 0, 1, false⟩, ⟨22, 8, .ro, 0, 255, false⟩]⟩,
  ⟨0x10200, 0x8, 32, 0x0, 1, [⟨0, 16, .ro, 0, 65535, false⟩, ⟨16, 24, .ro, 0, 16777215, false⟩, ⟨40, 8, .ro, 0, 255, false⟩]⟩,
  ⟨0x10300, 0x8, 32, 0x0, 1, [⟨0, 48, .ro, 0, 281474976710655, false⟩]⟩,
  ⟨0x18000, 0x0, 1, 0x0, 1, [⟨0, 16, .ro, 0, 65535, false⟩, ⟨16, 4, .ro, 0, 15, false⟩, ⟨20, 3, .ro, 0, 7, false⟩, ⟨23, 3, .ro, 0, 7, false⟩, ⟨26, 2, .ro, 0, 3, false⟩, ⟨28, 2, .ro, 0, 3, false⟩, ⟨30, 1, .ro, 0, 1, false⟩, ⟨31, 1, .ro, 0, 1, false⟩, ⟨32, 16, .ro, 0, 65535, false⟩]⟩,
  ⟨0x18008, 0x0, 1, 0x0, 1, [⟨0, 7, .rw, 1, 100, false⟩]⟩,
  ⟨0x18010, 0x8, 4, 0x0, 1, [⟨0, 24, .rw, 0, 16777215, false⟩, ⟨24, 16, .rw, 0, 65535, false⟩, ⟨40, 1, .rw, 0, 1, false⟩]⟩,
  ⟨0x0, 0x0, 1, 0x0, 1, [⟨0, 16, .ro, 0, 65535, false⟩, ⟨16, 8, .ro, 0, 255, false⟩]⟩,
  ⟨0x8, 0x0, 1, 0x0, 1, [⟨0, 6, .ro, 0, 63, false⟩, ⟨6, 6, .ro, 0, 63, false⟩]⟩,
  ⟨0x10, 0x0, 1, 0x0, 1, [⟨0, 3, .ro, 0, 7, false⟩, ⟨3, 2, .ro, 0, 3, false⟩, ⟨5, 4, .ro, 0, 15, false⟩]⟩,
  ⟨0x20000, 0x0, 1, 0x0, 1, [⟨0, 1, .ro, 0, 1, false⟩, ⟨1, 1, .ro, 0, 1, false⟩, ⟨2, 1, .w1c, 0, 1, false⟩, ⟨3, 5, .ro, 0, 31, false⟩, ⟨8, 16, .ro, 0, 65535, false⟩, ⟨24, 24, .ro, 0, 16777215, false⟩]⟩,
  ⟨0x20008, 0x0, 1, 0x0, 1, [⟨0, 8, .rw, 1, 255, false⟩, ⟨8, 10, .rw, 0, 1023, false⟩, ⟨18, 8, .rw, 0, 255, false⟩, ⟨26, 5, .rw, 0, 31, false⟩]⟩,
  ⟨0x20010, 0x0, 1, 0x0, 1, [⟨0, 1, .wo, 0, 1, false⟩]⟩,
  ⟨0x20018, 0x0, 1, 0x0, 1, [⟨0, 16, .ro, 0, 65535, false⟩, ⟨16, 16, .ro, 0, 65535, false⟩]⟩,
  ⟨0x20020, 0x0, 1, 0x0, 1, [⟨0, 24, .ro, 0, 16777215, false⟩, ⟨24, 24, .rw, 0, 16777215, false⟩]⟩,
  ⟨0x20280, 0x0, 1, 0x0, 1, [⟨0, 4, .rw, 0, 15, false⟩]⟩,
  ⟨0x20040, 0x8, 24, 0x0, 1, [⟨0, 16, .ro, 0, 65535, false⟩, ⟨16, 16, .ro, 0, 65535, false⟩, ⟨32, 16, .ro, 0, 65535, false⟩]⟩,
  ⟨0x20200, 0x8, 16, 0x0, 1, [⟨0, 11, .rws, 0, 2047, false⟩, ⟨11, 1, .rw, 0, 1, false⟩, ⟨12, 12, .ro, 0, 4095, false⟩, ⟨24, 12, .ro, 0, 4095, false⟩, ⟨36, 1, .ro, 0, 1, false⟩, ⟨37, 1, .wo, 0, 1, false⟩]⟩,
  ⟨0x20288, 0x8, 8, 0x0, 1, [⟨0, 48, .ro, 0, 281474976710655, false⟩]⟩,
  ⟨0x20300, 0x8, 8, 0x0, 1, [⟨0, 12, .rw, 0, 4095, false⟩, ⟨12, 8, .ro, 0, 255, false⟩, ⟨20, 8, .rw, 0, 255, false⟩, ⟨28, 1, .wo, 0, 1, false⟩, ⟨29, 1, .rw, 0, 1, false⟩]⟩,
  ⟨0x28000, 0x0, 1, 0x0, 1, [⟨0, 8, .rw, 0, 255, false⟩, ⟨8, 1, .wo, 0, 1, false⟩]⟩,
  ⟨0x28008, 0x0, 1, 0x0, 1, [⟨0, 3, .ro, 0, 7, false⟩, ⟨3, 1, .ro, 0, 1, false⟩, ⟨4, 1, .ro, 0, 1, false⟩, ⟨5, 6, .ro, 0, 63, false⟩, ⟨11, 16, .ro, 0, 65535, false⟩, ⟨27, 1, .ro, 0, 1, false⟩]⟩,
  ⟨0x28010, 0x0, 1, 0x0, 1, [⟨0, 48, .ro, 0, 281474976710655, false⟩]⟩,
  ⟨0x28040, 0x8, 8, 0x0, 1, [⟨0, 16, .ro, 0, 65535, false⟩, ⟨16, 16, .ro, 0, 65535, false⟩]⟩]

/-- The part of the register table in which an address lies (R24). -/
def regTableAt (a : Nat) : List RegSpec :=
  if a < 0x100000 then regTableSys0 ++ regTableSys1 ++ regTableSys2 ++ regTableSys3 else
  if a < 0x120000 then regTableTrk0 ++ regTableTrk1 else
  if a < 0x130000 then regTableSch0 ++ regTableSch1 else
  if a < 0x140000 then regTableBind0 else
  if a < 0x380000 then regTableSq0 else
  if a < 0x3C0000 then regTableHp0 ++ regTableHp1 else
  if a < 0x400000 then regTableRen0 else
  if a < 0x480000 then regTableCe0 else
  if a < 0x500000 then regTableMc0 else
  regTableTru0

/-- Registers whose reset value is not zero (the Reset columns). -/
def regResets0 : List ResetRow := [
  ⟨0x100100, 0x20, 8, 0x0, 1, 0x88⟩,
  ⟨0x100110, 0x20, 8, 0x0, 1, 0x8⟩,
  ⟨0x100400, 0x80, 4, 0x0, 1, 0x200200⟩,
  ⟨0x100408, 0x80, 4, 0x0, 1, 0xC8⟩,
  ⟨0x100410, 0x80, 4, 0x0, 1, 0x48000030D40⟩,
  ⟨0x100418, 0x80, 4, 0x0, 1, 0x7D0⟩,
  ⟨0x100420, 0x80, 4, 0x0, 1, 0x7D0⟩,
  ⟨0x100460, 0x80, 4, 0x0, 1, 0x64⟩,
  ⟨0x100800, 0x10, 16, 0x0, 1, 0x40⟩,
  ⟨0x120038, 0x0, 1, 0x0, 1, 0x400⟩,
  ⟨0x120100, 0x100, 4, 0x0, 1, 0x4004050⟩,
  ⟨0x120700, 0x20, 8, 0x0, 1, 0x10000000040⟩,
  ⟨0x130010, 0x100, 64, 0x0, 1, 0x1388⟩,
  ⟨0x500010, 0x0, 1, 0x0, 1, 0x2⟩,
  ⟨0x500020, 0x0, 1, 0x0, 1, 0x7D000000012⟩,
  ⟨0x3C0010, 0x0, 1, 0x0, 1, 0x960⟩,
  ⟨0x3C8000, 0x0, 1, 0x0, 1, 0x2⟩,
  ⟨0x3C0100, 0x8, 16, 0x0, 1, 0x3FC⟩,
  ⟨0x200020, 0x10000, 16, 0x0, 1, 0x3E800100⟩,
  ⟨0x380000, 0x1000, 16, 0x0, 1, 0x186A08000⟩]

/-- Registers whose reset value is not zero (the Reset columns). -/
def regResets1 : List ResetRow := [
  ⟨0x380008, 0x1000, 16, 0x0, 1, 0x40⟩,
  ⟨0x380010, 0x1000, 16, 0x0, 1, 0x28190⟩,
  ⟨0x380028, 0x1000, 16, 0x0, 1, 0x9C4018⟩,
  ⟨0x380030, 0x1000, 16, 0x0, 1, 0x5DC000000⟩,
  ⟨0x380038, 0x1000, 16, 0x0, 1, 0x2800000000⟩,
  ⟨0x380058, 0x1000, 16, 0x0, 1, 0xA⟩,
  ⟨0x380078, 0x1000, 16, 0x0, 1, 0x80008000⟩,
  ⟨0x380080, 0x1000, 16, 0x0, 1, 0x7D13⟩,
  ⟨0x380098, 0x1000, 16, 0x0, 1, 0xA710040⟩,
  ⟨0x3800A0, 0x1000, 16, 0x0, 1, 0x4B0640190⟩,
  ⟨0x3800B8, 0x1000, 16, 0x0, 1, 0x3B4C0⟩,
  ⟨0x380040, 0x1000, 16, 0x8, 2, 0x3E803E803E8⟩,
  ⟨0x380050, 0x1000, 16, 0x8, 1, 0x3E803E8⟩,
  ⟨0x380800, 0x1000, 4, 0x0, 1, 0x400⟩,
  ⟨0x38C300, 0x1000, 4, 0x0, 1, 0x80204⟩,
  ⟨0x38C308, 0x1000, 4, 0x0, 1, 0x200020⟩,
  ⟨0x38C310, 0x1000, 4, 0x0, 1, 0x8⟩,
  ⟨0x400018, 0x10000, 8, 0x0, 1, 0x7D000FA0000⟩,
  ⟨0x400020, 0x10000, 8, 0x0, 1, 0xDFE⟩,
  ⟨0x480008, 0x1000, 6, 0x0, 1, 0x100⟩,
  ⟨0x480010, 0x1000, 6, 0x0, 1, 0x3C10F0A186A⟩]

/-- Registers whose reset value is not zero (the Reset columns). -/
def regResets2 : List ResetRow := [
  ⟨0x480018, 0x1000, 6, 0x0, 1, 0x100000000⟩,
  ⟨0x480038, 0x1000, 6, 0x0, 1, 0x400004010000⟩,
  ⟨0x480040, 0x1000, 6, 0x0, 1, 0x1F40D000000⟩,
  ⟨0x480048, 0x1000, 6, 0x0, 1, 0x4007D0⟩,
  ⟨0x480050, 0x1000, 6, 0x0, 1, 0x400200000000⟩,
  ⟨0x480070, 0x1000, 6, 0x0, 1, 0x138800000⟩,
  ⟨0x480800, 0x1000, 2, 0x0, 1, 0x2000A0000⟩,
  ⟨0x60000, 0x0, 1, 0x0, 1, 0x20⟩,
  ⟨0x60110, 0x40, 4, 0x0, 1, 0x4⟩,
  ⟨0x60208, 0x0, 1, 0x0, 1, 0xFF04⟩,
  ⟨0x70000, 0x100, 2, 0x0, 1, 0xCA8000000⟩,
  ⟨0x70010, 0x100, 2, 0x0, 1, 0x1800000000⟩,
  ⟨0x70020, 0x100, 2, 0x0, 1, 0xCA8000000000⟩,
  ⟨0x30000, 0x0, 1, 0x0, 1, 0x4⟩,
  ⟨0x30008, 0x0, 1, 0x0, 1, 0x35180⟩,
  ⟨0x40018, 0x4000, 8, 0x0, 1, 0x4⟩,
  ⟨0x80018, 0x0, 1, 0x0, 1, 0x8⟩,
  ⟨0x10000, 0x0, 1, 0x0, 1, 0x42⟩,
  ⟨0x10018, 0x0, 1, 0x0, 1, 0x3E841A04B00⟩,
  ⟨0x10028, 0x0, 1, 0x0, 1, 0x14A⟩]

/-- Registers whose reset value is not zero (the Reset columns). -/
def regResets3 : List ResetRow := [
  ⟨0x10100, 0x8, 12, 0x0, 1, 0x200000⟩,
  ⟨0x18008, 0x0, 1, 0x0, 1, 0x14⟩,
  ⟨0x18010, 0x8, 4, 0x0, 1, 0xD6B002710⟩,
  ⟨0x0, 0x0, 1, 0x0, 1, 0xC16480⟩,
  ⟨0x20008, 0x0, 1, 0x0, 1, 0x2878500A⟩,
  ⟨0x20018, 0x0, 1, 0x0, 1, 0xFFFFFFFF⟩,
  ⟨0x20020, 0x0, 1, 0x0, 1, 0x186A0000000⟩,
  ⟨0x20200, 0x8, 16, 0x0, 1, 0x400⟩,
  ⟨0x20300, 0x8, 8, 0x0, 1, 0x4000000⟩,
  ⟨0x28040, 0x8, 8, 0x0, 1, 0x8000⟩]

/-- Whether `a` is one of the addresses `base + stride * n + stride2 * i` with `n < count` and `i < count2`. -/
def inArray (base stride count stride2 count2 a : Nat) : Bool :=
  let d := a - base
  decide (base ≤ a) &&
  (if count ≤ 1 then
     (if count2 ≤ 1 then d == 0 else decide (d % stride2 = 0) && decide (d / stride2 < count2))
   else
     let n := d / stride
     let e := d % stride
     decide (n < count) &&
     (if count2 ≤ 1 then e == 0 else decide (e % stride2 = 0) && decide (e / stride2 < count2)))

/-- The value of the first reset row that holds an address, zero where none does. -/
def resetLookup : List ResetRow → Nat → Nat
  | [], _ => 0
  | r :: t, a => if inArray r.base r.stride r.count r.stride2 r.count2 a then r.value else resetLookup t a

/-- The first register row that holds an address. -/
def specLookup : List RegSpec → Nat → Option RegSpec
  | [], _ => none
  | r :: t, a => if inArray r.base r.stride r.count r.stride2 r.count2 a then some r else specLookup t a

/-- The reset value of the register at an address (the Reset columns; R12). Two registers reset to a value that depends
on their index: TRK_LINEn_CTL ENC_SEL to n (R78), SQn_BIND PARTNER to n or 0x1F with FREE set in a Chamois block (R254). -/
def regReset (a : Nat) : BitVec 48 :=
  if a % 0x80 = 0 ∧ 0x100400 ≤ a ∧ a < 0x100600 then BitVec.ofNat 48 (0x200200 + 8 * ((a - 0x100400) / 0x80)) else
  if a % 0x10000 = 0x18 ∧ 0x200000 ≤ a ∧ a < 0x340000 then
    (if (a - 0x200018) / 0x10000 < 16 then BitVec.ofNat 48 ((a - 0x200018) / 0x10000) else 0x5F#48) else
  BitVec.ofNat 48 (resetLookup (regResets0 ++ regResets1 ++ regResets2 ++ regResets3) a)

/-- Fields a reset leaves as they stand (Reset column Kept, Island value, Persisted, Fused, Latched, Plan or Detected); the last
component says that a wipe leaves them as well. -/
def keptFields : List KeptRow := [
  ⟨0x500018, 0x0, 1, 0, 48, true⟩,
  ⟨0x500020, 0x0, 1, 0, 1, true⟩,
  ⟨0x500020, 0x0, 1, 1, 3, true⟩,
  ⟨0x500020, 0x0, 1, 32, 16, true⟩,
  ⟨0x500030, 0x0, 1, 0, 48, true⟩,
  ⟨0x30040, 0x0, 1, 0, 3, true⟩,
  ⟨0x80020, 0x0, 1, 0, 6, false⟩,
  ⟨0x80020, 0x0, 1, 6, 16, false⟩,
  ⟨0x80028, 0x0, 1, 0, 6, false⟩,
  ⟨0x80028, 0x0, 1, 6, 3, false⟩,
  ⟨0x80028, 0x0, 1, 9, 1, false⟩,
  ⟨0x80028, 0x0, 1, 10, 8, false⟩,
  ⟨0x80028, 0x0, 1, 32, 16, false⟩,
  ⟨0x80030, 0x0, 1, 0, 48, false⟩,
  ⟨0x80038, 0x0, 1, 0, 48, false⟩,
  ⟨0x80040, 0x0, 1, 0, 48, false⟩,
  ⟨0x80050, 0x0, 1, 0, 16, false⟩,
  ⟨0x80050, 0x0, 1, 16, 16, false⟩,
  ⟨0x10000, 0x0, 1, 4, 2, true⟩,
  ⟨0x10000, 0x0, 1, 6, 1, true⟩,
  ⟨0x10000, 0x0, 1, 7, 1, false⟩,
  ⟨0x10000, 0x0, 1, 8, 3, true⟩,
  ⟨0x10010, 0x0, 1, 0, 2, true⟩,
  ⟨0x10010, 0x0, 1, 2, 1, true⟩] ++ [
  ⟨0x10010, 0x0, 1, 3, 2, true⟩,
  ⟨0x10018, 0x0, 1, 0, 16, true⟩,
  ⟨0x10018, 0x0, 1, 16, 16, true⟩,
  ⟨0x10018, 0x0, 1, 32, 12, true⟩,
  ⟨0x10020, 0x0, 1, 16, 16, false⟩,
  ⟨0x10030, 0x0, 1, 0, 3, true⟩,
  ⟨0x10038, 0x0, 1, 0, 3, false⟩,
  ⟨0x10038, 0x0, 1, 4, 16, false⟩,
  ⟨0x10300, 0x8, 32, 0, 48, false⟩,
  ⟨0x10, 0x0, 1, 0, 3, true⟩,
  ⟨0x10, 0x0, 1, 5, 4, true⟩,
  ⟨0x20000, 0x0, 1, 0, 1, true⟩,
  ⟨0x20000, 0x0, 1, 24, 24, true⟩,
  ⟨0x20020, 0x0, 1, 0, 24, true⟩,
  ⟨0x20040, 0x8, 24, 32, 16, true⟩,
  ⟨0x20200, 0x8, 16, 0, 11, false⟩,
  ⟨0x20200, 0x8, 16, 12, 12, false⟩,
  ⟨0x20288, 0x8, 8, 0, 48, false⟩,
  ⟨0x28008, 0x0, 1, 4, 1, true⟩,
  ⟨0x28008, 0x0, 1, 5, 6, true⟩,
  ⟨0x28008, 0x0, 1, 11, 16, true⟩,
  ⟨0x28008, 0x0, 1, 27, 1, true⟩,
  ⟨0x28010, 0x0, 1, 0, 48, true⟩,
  ⟨0x28040, 0x8, 8, 0, 16, true⟩,
  ⟨0x28040, 0x8, 8, 16, 16, true⟩]

/-- The register at an address, where R24 assigns the address to one. -/
def regSpecAt (a : Nat) : Option RegSpec := specLookup (regTableAt a) a

end Sys2Proof.Machine
end

