-- ==== Sys2Proof/Machine/State.lean ====
section
/-! DEFINITION. The state of the block: its registers and the state behind them, as plain data, and its value after reset. -/

namespace Sys2Proof.Machine

/-- Faults: no command of this block stops the machine with a fault, because every condition the spec names has an effect. -/
inductive Fault where
  /-- Raised by nothing: a place for a stop the spec might demand. Safe. -/
  | none_
  deriving DecidableEq, Repr

/-- Refusals. -/
inductive Refusal where
  /-- The command has no meaning yet; raised by the dispatch only. Safe: no claim follows from it. -/
  | notModelled (mnemonic : String)
  deriving DecidableEq, Repr

/-! ### Tracking (R40 to R79) -/

/-- State of a line observer behind its TRK_LINEn registers. -/
structure Line where
  /-- position that the source's last count gives, in the line's direction (R51, R66) -/
  ck : Word := 0
  /-- tick of the last accepted edge or update -/
  tk : Word := 0
  /-- accepted edges, newest first: position, tick and the velocity estimate that stood there (R51) -/
  edges : List (Word × Word × Int) := []
  /-- remainder of the integration, in sub-counts / 200,000,000 (R45, R64) -/
  frac : Int := 0
  /-- dead-reckoned travel since the loss, in sub-counts / 200,000,000 (R64) -/
  drTravel : Nat := 0
  /-- velocity that dead reckoning integrates (R64) -/
  drV : Int := 0
  /-- run of consistent edges or on-time updates (R66) -/
  run : Nat := 0
  /-- interval before the last one of the run, in ticks (R66) -/
  runIvl : Option Nat := none
  /-- an illegal transition since the last edge (R66) -/
  illSince : Bool := false
  /-- the last 256 transitions, newest first, true where illegal (R60) -/
  illWin : List Bool := []
  /-- position of the last confirmed capture (R61) -/
  pitchLast : Option Word := none
  /-- captures in a row below the pitch (R61) -/
  pitchRun : Nat := 0
  /-- offset added to every later broadcast after a recovery (R66) -/
  bOff : Word := 0
  /-- speed of the last broadcast (R44) -/
  bSpeed : Int := 0
  /-- a fresh start on SRC 1 takes the first broadcast as a preset (R519) -/
  bWait : Bool := false
  /-- p_raw lies beyond the reversal limit (R57) -/
  revOver : Bool := false
  /-- how far p_raw lay below p_m at the last fresh start, less what it has come back since: this much is no reversal (R519) -/
  revBase : Int := 0
  deriving DecidableEq, Repr, Inhabited

/-- State of an encoder input behind TRK_ENCm (R46, R50). -/
structure Enc where
  /-- B level before its last change, and the tick of that change (pulse and direction, R46) -/
  bPrev : Bool := false
  bTick : Word := 0
  /-- ticks at which the levels of A, B and Z were last accepted (R47) -/
  accA : Option Word := none
  accB : Option Word := none
  accZ : Option Word := none
  /-- tick at which the present levels of A and B were first seen (R60) -/
  held : Word := 0
  /-- direction of the last count -/
  lastUp : Option Bool := none
  /-- count recorded at the last Z pulse of the running pair (R50) -/
  zLast : Option Nat := none
  /-- the counting direction changed since the last Z pulse (R50) -/
  zTurned : Bool := false
  deriving DecidableEq, Repr, Inhabited

/-- A capture latched and awaiting confirmation (R69, R70, R72). -/
structure Capture where
  pos : Word
  /-- ticks until the position is latched: it is p_m three ticks after the acceptance (R69) -/
  latchIn : Nat
  tick : Word
  date : Word
  trusted : Bool
  dr : Bool
  deriving DecidableEq, Repr, Inhabited

/-- State of a product-detect input behind TRK_PDn. -/
structure Pd where
  /-- captures that await confirmation, oldest first (R70) -/
  pending : List Capture := []
  /-- tick from which the filtered level has stood, and whether the filter started then (R68, R69) -/
  since : Option Word := none
  started : Bool := false
  /-- latched position of the last confirmed capture (R71) -/
  lastPos : Option Word := none
  /-- a write of EN or LINE that waits (R78): the CFG value -/
  waitCfg : Option Nat := none
  deriving DecidableEq, Repr, Inhabited

/-- The internal prediction of a head and the line it follows (R54); TRK_HPREDn shows it less ALIGN_X. -/
structure Pred where
  pos : Word := 0
  line : Option Nat := none
  deriving DecidableEq, Repr, Inhabited

/-! ### Products, jobs and events (R75, R81, R96) -/

/-- Ledger state of a product (R14, R75). -/
inductive PState where
  | inFlight | markedOk | markedFlagged | rejected
  deriving DecidableEq, Repr, Inhabited

/-- Reject causes with their codes in the product table (R75). -/
inductive Cause where
  | none | notArmed | overspeed | timeUntrusted | headLost | lineSafe | brownout | feedbackLost
  deriving DecidableEq, Repr, Inhabited

/-- Where a composed product's serial number stands (R138). -/
inductive SerialState where
  | reserved | printed | voided
  deriving DecidableEq, Repr, Inhabited

/-- The serial number a product holds: counter slot, value and where it stands. -/
structure Serial where
  slot : Nat
  value : Nat
  state : SerialState
  deriving DecidableEq, Repr, Inhabited

/-- A composed field set: the text of every field by index, and the serial (R141, R148). -/
structure FieldSet where
  texts : List (Nat × List Byte)
  serial : Option Serial
  deriving DecidableEq, Repr, Inhabited

/-- The reject settings a product was armed with (R105, R116). -/
structure RejPlan where
  rej : Nat
  width : Nat
  wmode : Bool
  flagRej : Bool
  deriving DecidableEq, Repr, Inhabited

/-- The composition of a product: asked for at a tick, delivered, or refused (R95, R137, R149). -/
inductive Compose where
  | none
  | asked (tick : Word)
  | done (f : FieldSet)
  deriving DecidableEq, Repr, Inhabited

/-- Job states (R96). -/
inductive JState where
  | armed | resident | released | started | closedOk | closedFlagged | notStarted
  deriving DecidableEq, Repr, Inhabited

/-- Where the part of a product that another unit marks stands (R371, R372): due for an offer, offered, accepted with the epoch
named in COMMIT, owned by the other unit, or ended with its outcome. -/
inductive Remote where
  | none | due | offered
  | accepted (epoch : Nat)
  | away
  | ended (outcome : JState) (cause : Cause)
  deriving DecidableEq, Repr, Inhabited

/-- A product table entry (R75), with the scheduler's own notes on the product. -/
structure Product where
  pnum : Word
  dpos : Word
  date : Word
  line : Nat
  pd : Nat
  state : PState
  cause : Cause
  flags : Nat
  jobs : Nat
  dr : Bool
  expired : Bool
  dateTrusted : Bool
  slot : Nat
  stencil : Nat
  ctick : Word
  cpos : Nat
  /-- the product's reject output and its settings at confirmation -/
  plan : Option RejPlan
  /-- the decision fixed at REJ_DECIDE (R104) -/
  decision : Option Bool
  compose : Compose
  /-- the product's own number in the order of confirmation on this unit -/
  seq : Nat
  closeTick : Word
  /-- the part that another unit marks (R371) -/
  remote : Remote
  /-- the product belongs to another unit's ledger: detecting unit, its line and its product number (R29, R372) -/
  hosted : Option (Nat × Nat × Nat)
  /-- the unit to which the product is offered or has been handed (R371) -/
  handed : Option Nat := none
  /-- the line's ledger has not restarted since the product was detected (R39) -/
  counted : Bool := true
  deriving DecidableEq, Repr, Inhabited

/-- A job table entry (R96), with the mark settings it was created from and its state at its sequencer. -/
structure Job where
  state : JState
  head : Nat
  sq : Nat
  ptab : Nat
  slot : Nat
  mark : Nat
  line : Nat
  alt : Bool
  full : Bool
  start : Word
  endchk : Word
  image : Nat
  cols : Nat
  colsRes : Nat
  colsDone : Nat
  stretchMax : Nat
  flags : Nat
  cause : Cause
  firstTick : Word
  closeTick : Word
  /-- offset from DPOS, counts, and column pitch, sub-counts, of the mark entry (R87) -/
  ofs : Nat
  len : Nat
  pitch : Nat
  /-- half of the path's line buffer the job owns (R225) -/
  half : Option Nat
  /-- its product's own number -/
  prod : Nat
  /-- path order (R227) -/
  seq : Nat
  /-- closed or withdrawn, its sequencer has not yet stopped it (R138, R206) -/
  stopping : Bool
  /-- ended at its sequencer, first column reported, first emission reported -/
  ended : Bool
  firstCol : Bool
  firstEmit : Bool
  /-- the early data-late report may be made (R230) -/
  lateArmed : Bool
  /-- value of REN_HEADn_CFG its image was rendered with (R110) -/
  renCfg : Word
  /-- received FULL after it had started (R244) -/
  fullMid : Bool
  /-- the panel of the layout it marks (R165) -/
  panel : Nat
  deriving DecidableEq, Repr, Inhabited

/-- PET event types (R81). -/
inductive EvType where
  | readyBy | startChk | endChk | rejDecide | rejGate | rejOff | handover | signal | activate
  deriving DecidableEq, Repr, Inhabited

/-- A position event table entry (R81), with its insertion order and the tick it came due in (R83). -/
structure Event where
  pos : Word
  type : EvType
  line : Nat
  headrel : Bool
  head : Nat
  job : Nat
  ptab : Nat
  noent : Bool
  rej : Nat
  host : Bool
  arg : Nat
  /-- width and mode of the pulse, for the gate of the product (R105) -/
  width : Nat
  wmode : Bool
  hasRej : Bool
  /-- decision carried by the gate of a product without an entry (R74, R105) -/
  pulse : Bool
  seq : Nat
  due : Option Word
  deriving DecidableEq, Repr, Inhabited

/-- One line's live counters (R112): causes in code order CAUSE1 to CAUSE7. -/
structure Ledger where
  det : Word := 0
  ok : Word := 0
  flag : Word := 0
  rej : Word := 0
  inf : Word := 0
  c1 : Word := 0
  c2 : Word := 0
  c3 : Word := 0
  c4 : Word := 0
  c5 : Word := 0
  c6 : Word := 0
  c7 : Word := 0
  nextPnum : Word := 0
  deriving DecidableEq, Repr, Inhabited

/-- One enabled mark entry of a validated slot (R87). -/
structure MarkSet where
  idx : Nat
  head : Nat
  alt : Option Nat
  pair : Bool
  ofs : Nat
  len : Nat
  cols : Nat
  pitch : Nat
  deriving DecidableEq, Repr, Inhabited

/-- The figures published for a stencil (R122), and whether it is date-dependent (R129). -/
structure Figures where
  fields : Nat := 0
  checks : Nat := 0
  glyphs : Nat := 0
  dms : Nat := 0
  modules : Nat := 0
  tol : Nat := 0
  dateDep : Bool := false
  deriving DecidableEq, Repr, Inhabited

/-- A binding slot's settings as copied at its last successful LOAD (R520), with the stencil figures of R88. -/
structure Binding where
  stencil : Nat
  line : Nat
  rej : Option Nat
  marks : List MarkSet
  tGuard : Nat
  figs : Figures
  dArm : Nat
  deriving DecidableEq, Repr, Inhabited

/-- State of a reject output (R105, R106). -/
structure Rej where
  /-- open pulses counted in counts -/
  open_ : Nat := 0
  /-- open pulses timed in ticks (WMODE 1): the tick each started in and its length in ticks -/
  timed : List (Word × Nat) := []
  /-- held until this position after the line has left POS_LOST or LINE_SAFE -/
  holdUntil : Option Word := none
  /-- the line was in POS_LOST or LINE_SAFE -/
  lost : Bool := false
  deriving DecidableEq, Repr, Inhabited

/-- State of the scheduler behind its registers. -/
structure Sched where
  ptab : Sparse Product := []
  pet : Sparse Event := []
  jobs : Sparse Job := []
  /-- validated binding slots by slot number -/
  binds : Sparse Binding := []
  ledgers : List Ledger := List.replicate 4 {}
  /-- the second copy of the ledgers, in another SRAM bank (R37) -/
  mirror : List Ledger := List.replicate 4 {}
  /-- the copy lost to an uncorrectable error, until it is rebuilt (R37) -/
  copyLost : Option Nat := none
  /-- the ledgers as last persisted (R114) -/
  saved : Option (List Ledger) := none
  rejs : List Rej := List.replicate 8 {}
  /-- insertion order of PET entries, products and jobs -/
  seq : Nat := 0
  /-- lines whose snapshot is requested, with the tick of the request (R113) -/
  snapPend : List (Nat × Word) := []
  /-- the sources whose escalation put the line in LINE_SAFE (R108) -/
  safeSrc : List (List Nat) := List.replicate 4 []
  /-- events dispatched in the present tick (R83) -/
  dispatched : Nat := 0
  /-- serials of products whose entry is released while a sequencer may still emit for them (R138), by product -/
  unsettled : List (Nat × Serial) := []
  deriving DecidableEq, Repr, Inhabited

/-! ### Trust (R117 to R154, R400 to R412) -/

/-- A loaded stencil: its storage slot's image. The image holds the header, fields, pool, layout and signature (R118). -/
structure StencilSlot where
  gen : Nat := 0
  image : Option (List Byte) := none
  figs : Figures := {}
  /-- counter slot of its SERIAL field (R135) -/
  counter : Option Nat := none
  deriving DecidableEq, Repr, Inhabited

/-- States of a counter slot (R135). -/
inductive CState where
  | normal | dry | exhausted | broken
  deriving DecidableEq, Repr, Inhabited

/-- A serial counter slot (R135, R136). Reserved unassigned numbers are those from `assign` up to `next`. -/
structure Counter where
  id : Nat
  start : Nat
  stop : Nat
  /-- next unissued value -/
  next : Nat
  /-- lowest reserved number not yet assigned -/
  assign : Nat
  issued : Nat
  printed : Nat
  voided : Nat
  reserved : Nat
  state : CState
  /-- size of the block whose flash write runs (R136) -/
  writing : Option Nat
  /-- reserved numbers that were pre-issued to a stencil no longer loaded (R137) -/
  orphans : List Nat
  deriving DecidableEq, Repr, Inhabited

/-- An OPEN_SET waiting for its product, and its records (R123). -/
structure OpenSet where
  handle : Nat
  line : Nat
  pnumAt : Word
  records : List (Nat × List Byte)
  deriving DecidableEq, Repr, Inhabited

/-- The batch sequence of a stencil on a line (R133). -/
structure Batch where
  handle : Nat
  line : Nat
  seq : Nat
  lastDay : Option Int
  lastShift : Option Nat
  deriving DecidableEq, Repr, Inhabited

/-- A batch advance waiting for its product (R134). -/
structure Advance where
  handle : Nat
  line : Nat
  pnumAt : Word
  deriving DecidableEq, Repr, Inhabited

/-- A mailbox request (R150). -/
structure Request where
  type : Nat
  tag : Nat
  payload : List Byte
  deriving DecidableEq, Repr, Inhabited

/-- Causes of an untrusted secure clock (R127). -/
inductive TrustCause where
  | unset | hint | osc
  deriving DecidableEq, Repr, Inhabited

/-- The persistence journal in the boot flash: 1,024 sectors of 4 KiB in pages of 256 bytes (R390, R391). -/
structure Journal where
  /-- the page that is programmed next -/
  page : Nat := 0
  /-- erased pages from there on -/
  erased : Nat := 16384
  /-- erases of the sectors, by sector, and those of the sectors of the settings area (R481) -/
  erases : Sparse Nat := []
  setErases : Sparse Nat := []
  /-- records written -/
  records : Nat := 0
  deriving DecidableEq, Repr, Inhabited

/-- State of the trust domain behind its registers. -/
structure Trust where
  /-- parts of a cycle of the 32.768 kHz crystal, in 1/200,000,000, and of a millisecond of the secure clock, in 1/32,768 (R20, R125) -/
  oscPart : Nat := 0
  msPart : Nat := 0
  /-- milliseconds of the tick counter since the device started, whatever the clock is set to (R126, R410) -/
  upMs : Nat := 0
  /-- the crystal has stopped (R430) -/
  oscStopped : Bool := false
  /-- milliseconds since the last step of a slew (R128) -/
  slewWait : Nat := 0
  /-- the last disagreement of a hint, ms (R128, R152) -/
  hintD : Int := 0
  /-- the persistence journal in flash -/
  journal : Journal := {}
  stencils : List StencilSlot := List.replicate 32 {}
  /-- the load in progress: TOTAL_LEN and the bytes supplied (R121) -/
  load : Option (Nat × List Byte) := none
  /-- rollback floors: stencil identity and revision, held in flash (R121) -/
  floors : List (Nat × Nat) := []
  counters : Sparse Counter := []
  /-- the second copy of the counters, in another SRAM bank, and the copy lost until it is rebuilt (R37) -/
  mirror : Sparse Counter := []
  copyLost : Option Nat := none
  /-- formatted numbers ahead of need, by stencil storage slot (R137) -/
  preissue : Sparse (List Nat) := []
  /-- causes of an untrusted clock that hold (R127) -/
  causes : List TrustCause := [.unset]
  /-- leap second announced by the previous hint: 1 inserted, −1 deleted (R128) -/
  leapLast : Int := 0
  /-- tick of the previous checkpoint (R144) -/
  ckptTick : Word := 0
  openPend : List OpenSet := []
  /-- values of OPEN fields in force, by handle and line -/
  openVals : List OpenSet := []
  batches : List Batch := []
  advances : List Advance := []
  /-- last accepted TSEQ and RSEQ, in flash (R126, R140) -/
  tseq : Nat := 0
  rseq : Nat := 0
  /-- nonce last issued and the millisecond count `upMs` at its issue (R126) -/
  nonce : Option (List Byte × Nat) := none
  /-- value an accepted token sets at the next millisecond of the clock (R130) -/
  timeDue : Option Nat := none
  /-- hints in a row that disagree, and the secure second of the last hint (R128) -/
  hintRun : Nat := 0
  hintLast : Option Nat := none
  /-- disagreement still to be slewed, and the leap allowance, ms (R128) -/
  slew : Int := 0
  leap : Int := 0
  /-- UTC offset of the previous hint, s -/
  utcLast : Option Int := none
  /-- rounds in a row outside and inside 500 ppm (R127) -/
  oscBad : Nat := 0
  oscGood : Nat := 0
  /-- hash h of the last entry, its ring entries oldest first, first SEQ held (R142 to R145) -/
  chain : List Byte := []
  /-- SEQ the next entry takes -/
  auditNext : Nat := 0
  ring : List (Nat × List Byte) := []
  /-- SEQ up to which entries are acknowledged (exclusive) -/
  ackNext : Nat := 0
  /-- first and last SEQ hashed but not held since the last gap was marked (R145) -/
  dropped : Option (Nat × Nat) := none
  /-- signed checkpoints, newest first, with their SEQ (R144) -/
  ckpts : List (Nat × List Byte) := []
  /-- checkpoints that fell due during a restart, in order: SEQ and h_SEQ (R144, R147) -/
  ckptDue : List (Nat × List Byte) := []
  /-- entries appended since the last checkpoint -/
  ckptNew : Bool := false
  /-- counter records and audit head as persisted: next SEQ, hash and first SEQ not acknowledged (R36, R135, R146) -/
  savedCounters : Sparse Counter := []
  savedHead : Option (Nat × List Byte × Nat) := none
  /-- newest checkpoint as persisted with it (R144) -/
  savedCkpt : Option (Nat × List Byte) := none
  /-- a request that waits for the restart of the trust core (R150) -/
  waiting : Option Request := none
  /-- a block reservation that waits for the restart (R147), by counter slot -/
  reserveWait : List Nat := []
  /-- free-value counter of the random generator -/
  rand : Nat := 0
  deriving DecidableEq, Repr, Inhabited

/-! ### Faults and messages (R355, R359, R439) -/

/-- A fault history entry (R439). -/
structure Hist where
  source : Nat
  cls : Nat
  escalated : Bool
  detail : Nat
  seq : Nat
  time : Word
  pos : Word
  tick : Word
  deriving DecidableEq, Repr, Inhabited

/-- State of the fault collector behind FLT_ (R430 to R440). -/
structure Flt where
  hist : List Hist := []
  seq : Nat := 0
  /-- the FAULT_L pulse runs (R440) -/
  pulse : Bool := false
  /-- FAULT_L is held by a start that has stopped, or by the island after its last retry (R385, R386, R450) -/
  held : Bool := false
  deriving DecidableEq, Repr, Inhabited

/-- An event entry that waits for the event ring: its type and payload (R359, R360). -/
structure HostEvent where
  type : Nat
  payload : List Byte
  deriving DecidableEq, Repr, Inhabited

/-- A LEDGER_SNAPSHOT message taken and not yet answered, and the tick it was taken in (R113, R360). -/
structure SnapWait where
  q : Fin 4
  tag : Nat
  noResp : Bool
  line : Nat
  tick : Word
  deriving DecidableEq, Repr, Inhabited

/-- State of the host port behind HST_. -/
structure HostPort where
  /-- host memory, as cells in canonical form (rings and indirect payloads lie there) -/
  mem : List Host.Cell := []
  /-- events that wait, oldest first -/
  events : List HostEvent := []
  /-- event sequence (R355) -/
  evSeq : Nat := 0
  /-- a loss has not been reported since (R359) -/
  lossDue : Bool := false
  /-- last TAG taken of each queue pair (R357) -/
  lastTag : List Nat := List.replicate 4 0
  /-- the MSI-X table's addresses and data, and the vectors' pending and mask bits (R349, R351) -/
  msixTable : List (Nat × Nat) := List.replicate 64 (0, 0)
  msixPend : Nat := 0
  msixMask : Nat := 2 ^ 64 - 1
  /-- MSI-X messages written, oldest first, by vector, address and data (an observation of the model, not state of the spec) -/
  msi : List (Nat × Nat × Nat) := []
  /-- PHASE of the pass that runs on the response ring of each pair, and on the event ring (R355) -/
  phase : List Bool := List.replicate 5 true
  /-- the queue pair whose turn it is (R356) -/
  turn : Nat := 0
  /-- LEDGER_SNAPSHOT messages that wait for the end of the tick after their own (R113, R360) -/
  snapWaits : List SnapWait := []
  deriving DecidableEq, Repr, Inhabited

/-! ### The Ocing link (R366 to R374) -/

/-- A reliable frame sent and not yet acknowledged: its body without the CRC, and how often it has been sent again (R367). -/
structure Unacked where
  lseq : Nat
  body : List Byte
  tries : Nat
  deriving DecidableEq, Repr, Inhabited

/-- State of an Ocing port, 0 upstream and 1 downstream. Its state, DOWN to ACTIVE, stands in OCL_STAT (R368, R376). -/
structure OclPort where
  /-- LSEQ of the next reliable frame -/
  lseq : Nat := 0
  /-- reliable frames not yet acknowledged, oldest first -/
  unacked : List Unacked := []
  /-- what the peer's HELLO said: UNIT_ID, DEVICE_ID and firmware version -/
  peer : Option (Nat × List Byte × Nat) := none
  /-- the trust domains have authenticated each other, and which agreement of a link key this is -/
  auth : Bool := false
  link : Nat := 0
  /-- ECHO round trips of the measurement in progress, in ticks -/
  echoes : List Nat := []
  /-- the port becomes ACTIVE at the next epoch boundary -/
  ready : Bool := false
  /-- LSEQ of the reliable frames taken last, newest first -/
  seen : List Nat := []
  /-- units whose frames have come in since the port became ACTIVE, and the lines they broadcast, by unit and line -/
  heard : List Nat := []
  lines : List (Nat × Nat) := []
  /-- of those units and lines, the ones from which a frame has come in since the last epoch boundary (R369, R370) -/
  heardNow : List Nat := []
  linesNow : List (Nat × Nat) := []
  deriving DecidableEq, Repr, Inhabited

/-- An offer accepted on the receiver: what OFFER carried, and the epoch of its COMMIT (R371, R372). -/
structure Offer where
  unit : Nat
  line : Nat
  pnum : Word
  dpos : Word
  date : Word
  trusted : Bool
  epoch : Option Nat
  deriving DecidableEq, Repr, Inhabited

/-- An OCL_BARRIER message that waits for its answer (R360, R374). -/
structure BarrierWait where
  q : Nat
  tag : Nat
  noResp : Bool
  ticket : Nat
  epoch : Nat
  deriving DecidableEq, Repr, Inhabited

/-- State of the Ocing link behind OCL_. -/
structure Ocl where
  ports : List OclPort := [{}, {}]
  /-- tick of the last epoch boundary -/
  boundary : Word := 0
  /-- present mask and sender of the last EPOCH received -/
  mask : Nat := 0
  head : Nat := 0
  offers : List Offer := []
  /-- a barrier that has not been reached: ticket and epoch -/
  barrier : Option (Nat × Nat) := none
  waits : List BarrierWait := []
  /-- ports that have gone DOWN since the last boundary -/
  downs : List Nat := []
  /-- SEQ of the next POS of each line -/
  posSeq : List Nat := List.replicate 4 0
  /-- head and PRESENT as last reported by OCING_CHAIN -/
  chain : Nat × Nat := (0, 0)
  deriving DecidableEq, Repr, Inhabited

/-- A symbol of the 8b/10b code of IEEE 802.3 clause 36: a data byte, or a control character by its byte (R257). -/
structure Symbol where
  k : Bool
  code : Byte
  deriving DecidableEq, Repr, Inhabited

/-- A pixel of a scan line: the start of its slot after the beam-detect edge in 1/64 pixel (R292), and what each lane carries on the rising
and on the falling edge of the pixel clock (R288). -/
structure ScanPixel where
  start : Int
  lanes : List (Bool × Bool)
  deriving DecidableEq, Repr, Inhabited

/-- What the pins of a head port carry while no frame is sent (R257, R259, R261, R267, R288, R492). -/
structure PortPins where
  /-- VDD_LANE is good; until then the lanes and HPn_CK are high-impedance, and `lanes` and `ck` are empty -/
  laneUp : Bool
  /-- VDDIO_33 is good; until then STB and LAT are high-impedance, and their levels here say nothing -/
  ioUp : Bool
  /-- the symbols that D0 to D3 repeat, in their code groups by the running disparity; none on a lane that sends zero -/
  lanes : List (List Symbol)
  /-- period of HPn_CK in 1/3 ns -/
  ck : Nat
  /-- period of the sample clock on STB0 in ns, and the tick of the fire instant that set its phase -/
  sample : Option (Nat × Option Word)
  /-- levels of STB0 to STB7; a pin that carries a clock or is an input shows low -/
  stb : List Bool
  /-- level of LAT -/
  lat : Bool
  deriving DecidableEq, Repr, Inhabited

/-- What the device has sent: line-port frames, Ocing frames, Rail Link frames (R364, R366, R456). -/
inductive Output where
  /-- an Ethernet frame of a line port, with its check sequence (R362, R364) -/
  | lineFrame (port : Nat) (bytes : List Byte)
  /-- a PTP Delay_Req with its sequence number and domain (R363) -/
  | delayReq (port seq domain : Nat)
  /-- the body of an Ocing frame with its CRC -/
  | ocing (port : Nat) (body : List Byte)
  | railLink (bytes : List Byte)
  /-- a frame on a head port's lanes, lane by lane: its ten-bit groups in 8b/10b code, bit a first (R257, R258) -/
  | column (port : Nat) (lanes : List (List (BitVec 10)))
  /-- the fire instant of a head port: the leading edge of LAT, its width in units of 10 ns, and whether it is active high (R259) -/
  | fire (port width : Nat) (high : Bool)
  /-- the pins of a head port as it enters its safe state (R267) -/
  | pins (port : Nat) (levels : PortPins)
  /-- a command on a port's side SPI (R268) -/
  | spi (port : Nat) (bytes : List Byte)
  /-- a strobe of a group, in engine cycles (R207, R265) -/
  | strobe (port group width : Nat)
  /-- a scan line written on a facet, with PIX_DIV; SCAN is high from the start of its first pixel to the end of its last (R288, R292) -/
  | scan (port facet pixDiv : Nat) (pixels : List ScanPixel)
  /-- the line being written is cut at a pixel (R299) -/
  | scanCut (port pixel : Nat)
  /-- the playback at a fire instant: the sample period in ns, and the data symbols of each segment on D3 (R261) -/
  | playback (port period : Nat) (segments : List (List Byte))
  /-- a chopper or gate test pulse on a bus (R342) -/
  | pulse (bus : Nat)
  /-- the value a register access with side effects returns (R262, R280) -/
  | readback (addr : Nat) (value : Word)
  deriving DecidableEq, Repr

/-- Life-cycle states (R400). -/
inductive LcState where
  | blank | provisioned | deployed | service | retired
  deriving DecidableEq, Repr, Inhabited

/-- A firmware slot's descriptor (R413): STATE 0 EMPTY, 1 WRITING, 2 STAGED, 3 ACTIVE, 4 TRIAL, 5 PREVIOUS, 6 BAD. -/
structure FwSlot where
  state : Nat := 0
  version : Nat := 0
  arb : Nat := 0
  setFmt : Nat := 0
  digest : List Byte := List.replicate 32 0
  /-- the image in flash, by block of 4,096 bytes (R414), and the CRC-32C each block was sent with (R419) -/
  blocks : Sparse (List Byte) := []
  crcs : Sparse Nat := []
  deriving DecidableEq, Repr, Inhabited

/-- What a copy of the boot header holds beside its GEN and its MAC: the fields of R413 at offsets 8 to 119, a slot's descriptor without its
image, and the keys of the wrapped key store. -/
structure HeaderFields where
  arbFloor : Nat := 0
  active : Nat := 0
  trialBoots : Nat := 0
  confirmMin : Nat := 10
  slots : List FwSlot := [{ state := 3 }, {}]
  pend : Option (Nat × Nat × Nat) := none
  auth : List (Option (List Byte × Nat)) := List.replicate 8 none
  check : List (Option (List Byte)) := List.replicate 16 none
  cosign : Option (List Byte) := none
  deriving DecidableEq, Repr, Inhabited

/-- A copy of the boot header in flash (R390, R413). -/
structure HeaderCopy where
  gen : Nat
  fields : HeaderFields
  mac : BitVec 256
  deriving DecidableEq, Repr, Inhabited

/-- Whose update session Primer serves before it boots (R415). -/
inductive Push where
  | none
  | host
  | peer
  deriving DecidableEq, Repr, Inhabited

/-- The sender of an update session: the host, or a peer unit with its session number on a port (R417). -/
inductive Sender where
  | host
  | peer (unit session : Nat)
  deriving DecidableEq, Repr, Inhabited

/-- An update session, or a candidate in the arbitration window (R417, R418). -/
structure Session where
  sender : Sender
  id : Nat
  header : List Byte
  /-- tick of its last message -/
  last : Word
  /-- the host's UPDATE_BEGIN that waits for the window's end: queue pair, tag and no-response flag -/
  reply : Option (Nat × Nat × Bool) := none
  deriving DecidableEq, Repr, Inhabited

/-- A peer session as it arrives: chunks by block and number, chunk k of block b as 64 b + k, until PU_BLOCK ends the block (R421). -/
structure PeerIn where
  unit : Nat
  session : Nat
  len : Nat
  chunks : Sparse (List Byte)
  deriving DecidableEq, Repr, Inhabited

/-- A forward to a peer in progress: host message, slot, unit, next block, and whether PU_END is out (R420). -/
structure Forward where
  q : Nat
  tag : Nat
  noResp : Bool
  unit : Nat
  slot : Nat
  next : Nat
  ended : Bool
  /-- session number of the peer frames -/
  session : Nat
  deriving DecidableEq, Repr, Inhabited

/-- Steps of a supervisor switch or restart that are under way (R424, R437). -/
inductive Switch where
  | none
  /-- a supervisor restart after a miscompare -/
  | restart
  /-- a switch to the TRIAL slot, or back to the ACTIVE slot -/
  | toTrial
  | toActive
  deriving DecidableEq, Repr, Inhabited

/-- State of Primer: the boot header and the session (R413 to R429). -/
structure Primer where
  /-- the two copies of the boot header; none where nothing has been written (R390, R413) -/
  copies : List (Option HeaderCopy) := [none, none]
  active : Nat := 0
  trialBoots : Nat := 0
  confirmMin : Nat := 10
  arbFloor : Nat := 0
  slots : List FwSlot := [{ state := 3 }, {}]
  /-- pending activation: MODE, TICKET and TIME (R422) -/
  pend : Option (Nat × Nat × Nat) := none
  /-- a release that waits for the end of its deferral (R423) -/
  deferred : Bool := false
  session : Option Session := none
  nextSession : Nat := 0
  /-- candidates of the arbitration window, and the tick at which it opened (R418) -/
  window : Option (Word × List Session) := none
  peerIn : List PeerIn := []
  forward : Option Forward := none
  switch : Switch := .none
  /-- tick from which fault-free operation counts, and supervisor restarts in the trial (R427, R428) -/
  trialFrom : Word := 0
  trialRestarts : Nat := 0
  trialWrites : Nat := 0
  bootFail : Bool := false
  settingsDefault : Bool := false
  /-- the settings sets in the settings area: the contents by SET_FMT (R429) -/
  settings : Sparse Nat := []
  /-- the push that Primer serves after BOOT_FAIL, or under BOOTSEL 1 or 2 (R415, R416) -/
  push : Push := .none
  /-- ticks of the supervisor and trust-core restarts of the last ten minutes (R434, R442) -/
  supRestarts : List Word := []
  trustRestarts : List Word := []
  deriving DecidableEq, Repr, Inhabited

/-- Life-cycle state and keys (R400 to R412). -/
structure Lifecycle where
  state : LcState := .blank
  /-- which generation of the identity key the device holds -/
  identity : Nat := 0
  /-- authority keys X and Y with their roles (R409) -/
  auth : List (Option (List Byte × Nat)) := List.replicate 8 none
  /-- check-code keys (R409, R411) -/
  check : List (Option (List Byte)) := List.replicate 16 none
  /-- update co-signature key (R409) -/
  cosign : Option (List Byte) := none
  /-- life-cycle nonce last issued, and the secure time of its issue (R410) -/
  nonce : Option (List Byte × Nat) := none
  /-- EXPIRY of the service record, and EXPIRED as LC_STATUS shows it (R407) -/
  expiry : Option Nat := none
  expired : Bool := false
  /-- life-cycle fuses burnt (R412) -/
  fuses : Nat := 0
  /-- the device resets after the answer (R404) -/
  resetDue : Bool := false
  deriving DecidableEq, Repr, Inhabited

/-- A column in a line buffer: its job, its index and its bytes (R225, R228). -/
structure BufCol where
  job : Nat
  idx : Nat
  data : List Byte
  deriving DecidableEq, Repr, Inhabited

/-! ### Adeger engines (R183 to R219) -/

/-- The flags Z, N, C, V, S and O (R187). -/
structure Flags where
  z : Bool := false
  n : Bool := false
  c : Bool := false
  v : Bool := false
  s : Bool := false
  o : Bool := false
  deriving DecidableEq, Repr, Inhabited

/-- What the instruction in progress waits for. -/
inductive Wait where
  | none
  /-- WAITP: P0 reaches the target (R203) -/
  | waitp
  /-- COL: the rate limiter and the head port (R205) -/
  | col
  /-- STRB: the groups still to start, in rotation order, and their width (R207) -/
  | strb (left : List Nat) (width : Nat)
  /-- MOV or MOVB: a fifth move waits for a place (R216) -/
  | place (dst src len : Word) (block : Bool)
  /-- MOVB: every move up to this number has been written (R215) -/
  | moves (upTo : Nat)
  /-- WAIT: a masked event (R215) -/
  | event (rd mask : Nat)
  deriving DecidableEq, Repr, Inhabited

/-- State that every Adeger engine has (R183); its STATE stands in its status register. -/
structure Core where
  pc : Nat := 0
  w : List Word := List.replicate 16 0
  a : List (BitVec 16) := List.replicate 4 0
  fl : Flags := {}
  /-- return stack, top first (R197) -/
  stack : List Nat := []
  prog : Sparse (BitVec 32) := []
  data : Sparse Word := []
  /-- event inputs EVI (R217) -/
  evi : Nat := 0
  /-- event queue, oldest first: code and tick (R198) -/
  evq : List (Nat × Word) := []
  /-- tick of the most recent P read, or of the X latch (R186) -/
  stk : Word := 0
  wait : Wait := .none
  /-- STOP waits for the end of the instruction in progress (R200) -/
  stopReq : Bool := false
  /-- engine cycles since the last start, or since the start of the loop cycle, in eighths (R186) -/
  cyc : Nat := 0
  /-- the count that CYC last showed, and whether the instruction in progress has read it (R186) -/
  cycSeen : Nat := 0
  cycHeld : Bool := false
  deriving DecidableEq, Repr, Inhabited

/-- A firing sequencer (R183, R201 to R209). -/
structure Seq where
  core : Core := {}
  /-- target and last emission position -/
  t : Word := 0
  lep : Word := 0
  /-- column register, and the column of the job it holds -/
  cr : List Byte := []
  crIdx : Option Nat := none
  /-- index of the column in CR, emitted or not, for the history (R241) -/
  crCol : Option Nat := none
  /-- the column that CR stands for was damaged and is skipped (R383) -/
  crBad : Bool := false
  /-- head temperature and supply at the column's LDCOL (R241) -/
  tHead : Nat := 0x8000
  vHead : Nat := 0
  /-- tick of the last wait or start, for the watchdog (R247) -/
  ranFrom : Word := 0
  deriving DecidableEq, Repr, Inhabited

/-- A control engine (R183, R210 to R214, R305 to R322). -/
structure Ctl where
  core : Core := {}
  x : List Word := List.replicate 8 0
  acc : BitVec 96 := 0
  /-- coefficients in force (R311) -/
  k : List Word := List.replicate 16 0
  /-- Y values written in the running cycle (R210) -/
  yPend : Sparse Word := []
  /-- samples since delivery, and equal latched values in a row (R214) -/
  age : List Nat := List.replicate 8 0
  same : List Nat := List.replicate 8 0
  /-- inputs delivered since the previous trigger (R309) -/
  fresh : List Bool := List.replicate 8 false
  /-- source events since RUN, for DIV (R305) -/
  events : Nat := 0
  /-- tick of the last trigger taken -/
  trigAt : Option Word := none
  /-- tick of the previous trigger, for T_s (R305) -/
  period : Nat := 0
  /-- FIRST of the loop status word is still to come (R310) -/
  first : Bool := true
  /-- MODE at the previous trigger (R310) -/
  lastMode : Nat := 0
  /-- the previous cycle overran (R310) -/
  overran : Bool := false
  /-- cause that sends the engine to SAFE at the next trigger (R315) -/
  safeDue : Nat := 0
  /-- CLEAR_SAFE waits for the next trigger (R316) -/
  clearDue : Bool := false
  /-- triggers held in SAFE so far (R315) -/
  held : Nat := 0
  /-- generator command that waits for the next trigger: CMD and TGT (R321) -/
  pgCmd : Option (Nat × Word) := none
  /-- CMD in force at the generator, its target velocity and its target position (R321) -/
  pgMode : Nat := 0
  pgVt : Int := 0
  pgTgt : Word := 0
  /-- source events not yet taken, and the tick from which the timer runs (R305) -/
  srcDue : Nat := 0
  timerAt : Word := 0
  /-- MODE REQ as last written, until the next trigger (R314) -/
  modeReq : Option Nat := none
  /-- a FRESH result of this cycle discards its masked writes (R315) -/
  fbCut : Bool := false
  /-- encoders that have shown an illegal transition since the previous trigger (R309) -/
  ill : List Bool := List.replicate 8 false
  deriving DecidableEq, Repr, Inhabited

/-- A queued move (R215, R394). -/
structure Move where
  id : Nat
  dst : Word
  src : Word
  len : Nat
  deriving DecidableEq, Repr, Inhabited

/-- A move channel (R215, R216). -/
structure Mover where
  core : Core := {}
  queue : List Move := []
  /-- image store words its moves wrote narrowly since its last MOVB (R395) -/
  touched : List Nat := []
  /-- the oldest move is in progress: it was not held by a throttle when it came to the front (R396) -/
  begun : Bool := false
  /-- number of the next move, and of the moves completed -/
  nextId : Nat := 1
  doneId : Nat := 0
  deriving DecidableEq, Repr, Inhabited

/-! ### Head paths (R220 to R252) -/

/-- A checkpoint (R208, R231, R232). -/
structure Ckpt where
  col : Word := 0
  w : List Word := List.replicate 16 0
  a : List (BitVec 16) := List.replicate 4 0
  fl : Flags := {}
  t : Word := 0
  lep : Word := 0
  phase : Nat := 0
  stack : List Nat := []
  resume : Nat := 0
  granted : Nat := 0
  consumed : Nat := 0
  deriving DecidableEq, Repr, Inhabited

/-- A port's part of a view: its nozzle entries, where its hidden elements are covered, and what places them: Y_int, the elements of a grid row and E
(R274, R280, R282). -/
structure NozTable where
  noz : Sparse Byte := []
  cover : Nat := 0
  partner : Nat := 0
  y : Int := 0
  rep : Nat := 1
  elems : Nat := 0
  deriving DecidableEq, Repr, Inhabited

/-- A view: the nozzle tables of a port and of its pair, which give the remaps and trims that a mark uses (R283). -/
structure View where
  tables : List (Nat × NozTable) := []
  deriving DecidableEq, Repr, Inhabited

/-- State of a head path behind SQn (R221 to R252). -/
structure Path where
  /-- delivered columns not yet consumed, oldest first (R228) -/
  buf : List BufCol := []
  /-- consumed columns that a restore may read again (R208) -/
  spent : List BufCol := []
  /-- jobs that own the two halves of the line buffer, and the half the next job takes (R225) -/
  halves : List (Option Nat) := [none, none]
  nextHalf : Nat := 0
  /-- data late reported since a column last arrived (R204) -/
  lateSent : Bool := false
  /-- the running job and the release queue behind it (R221) -/
  cur : Option Nat := none
  queue : List Nat := []
  /-- column the next LDCOL returns (R233) -/
  rdcol : Nat := 0
  /-- a RASTER_LASER head has held laser enable for EN_WAIT on a LOCKED channel (R298) -/
  laserUp : Bool := false
  /-- the two checkpoint slots of the hand-over store (R231) -/
  ckpts : List Ckpt := [{}, {}]
  /-- group rotation phase (R239) -/
  phase : Nat := 0
  /-- tick and position of the job's last emission, and the distance of its last two (R205, R209) -/
  emitTick : Option Word := none
  emitPos : Option Word := none
  emitDist : Option Int := none
  /-- columns of the running job emitted -/
  emitted : Nat := 0
  /-- largest stretch state of the job (R209) -/
  stretch : Nat := 0
  /-- the two columns emitted last, newest first, with their indices (R241) -/
  hist : List (Option Nat × List Byte) := []
  /-- mask pages, by (bank × 16 + row) × 128 + word, where a word is not all ones (R238, R243) -/
  maskA : Sparse (BitVec 32) := []
  maskS : Sparse (BitVec 32) := []
  /-- the page copy after a hand-over runs; host writes held for its end (R238) -/
  copying : Bool := false
  maskHeld : List (Nat × BitVec 32) := []
  /-- a HANDOVER event held for the next mark boundary, and a hand-over that waits for the page copy (R235, R238) -/
  hoHeld : Bool := false
  hoWait : Bool := false
  /-- tick of the path's last hand-over (R236) -/
  hoTick : Option Word := none
  /-- tick of the last HANDOVER event that hands over at once (R235) -/
  evTick : Option Word := none
  /-- band whose waveform set the running mark uses, and the band WFSEL SET named for the next (R242) -/
  band : Nat := 0
  wfNext : Option Nat := none
  /-- the Chamois of a takeover in progress, and the tick of its detection (R248) -/
  takeover : Option (Nat × Word) := none
  /-- state of the head before the takeover, where it was HEAD_LOST or UNPLUGGED (R251) -/
  headWas : Option Nat := none
  /-- a give-back has been asked for (R250) -/
  giveback : Bool := false
  /-- the give-back has begun: released jobs wait for it (R250) -/
  giving : Bool := false
  /-- the stager path restarts (R436) -/
  restart : Bool := false
  deriving DecidableEq, Repr, Inhabited

/-- A render the renderer owes: a product, or one job of it again (R110, R168, R175). -/
structure RenderReq where
  prod : Nat
  /-- the field set of the product is composed; until then its render only queues (R95, R168) -/
  composed : Bool := true
  only : Option Nat
  /-- counted in LATE already (R169) -/
  late : Bool
  /-- the damaged image that it replaces, 0 where there is none (R175) -/
  image : Nat := 0
  /-- counted in ALLOC_WAIT already (R172) -/
  waited : Bool := false
  deriving DecidableEq, Repr, Inhabited

/-- A committed host image: its buffer, width and height (R180). -/
structure HostImage where
  buf : Nat
  w : Nat
  h : Nat
  deriving DecidableEq, Repr, Inhabited

/-- An image of the render in progress: what it was made for, and its header's granule (R165, R172). -/
structure Made where
  panel : Nat
  pers : Nat
  elems : Nat
  cfg : Word
  cols : Nat
  header : Nat
  /-- the jobs it is made for, with the head of each as the render began -/
  jobs : List (Nat × Nat) := []
  deriving DecidableEq, Repr, Inhabited

/-- State of the renderer behind REN_ (R168). -/
structure Render where
  queue : List RenderReq := []
  current : Option RenderReq := none
  /-- loaded fonts by font slot (R161) -/
  fonts : List (Option (List Byte)) := List.replicate 16 none
  /-- host image slots, and the images that the render in progress uses, by slot (R180) -/
  himg : List (Option HostImage) := List.replicate 16 none
  uses : List (Nat × HostImage) := []
  /-- the images of the render in progress -/
  made : List Made := []
  /-- granules in use, by granule: the granule of the image header they belong to (R172) -/
  granules : Sparse Nat := []
  /-- block table entries to be compressed, as header granule and block (R174) -/
  toCompress : List (Nat × Nat) := []
  /-- images whose blocks have been listed for compression, by header granule -/
  listed : List Nat := []
  /-- images found damaged, by header granule (R175) -/
  damaged : List Nat := []
  deriving DecidableEq, Repr, Inhabited

/-- The PTP slave's exchange (R363): the Sync that waits for its Follow_Up with its arrival, the last Sync's departure and arrival, the
Delay_Req sent with its departure, and the path delay; all times in ns. -/
structure PtpClock where
  waiting : Option (Nat × Int) := none
  sync : Option (Int × Int) := none
  request : Option (Nat × Int) := none
  delay : Option Int := none
  reqSeq : Nat := 0
  deriving DecidableEq, Repr, Inhabited

/-- State of the line ports behind LNP_ (R364, R365). -/
structure LinePorts where
  /-- station addresses held in the calibration fuses, by port (R376; log entry 207) -/
  fusedMac : List Word := [0, 0]
  /-- SEQ of the next outgoing message, by type -/
  txSeq : List Nat := List.replicate 4 0
  /-- last SEQ applied, by line (R365) -/
  rxSeq : List (Option Nat) := List.replicate 4 none
  ptp : PtpClock := {}
  deriving DecidableEq, Repr, Inhabited

/-! ### Head ports (R255 to R304) -/

/-- A frame accepted and not yet fired: the tick of its acceptance, and whether it is a test column (R258, R259, R278). -/
structure Frame where
  tick : Word
  test : Bool
  deriving DecidableEq, Repr, Inhabited

/-- A scan line in a slot of a laser port, with the settings in force when it was accepted (R290). -/
structure ScanLine where
  job : Option Nat
  pixels : List Byte
  startDly : Nat
  pscale : Nat
  facets : List Word
  /-- the tick of the beam-detect edge that took the line, and its facet (R290) -/
  taken : Option (Word × Nat) := none
  deriving DecidableEq, Repr, Inhabited

/-- State of a laser channel (R290 to R299). -/
structure Laser where
  pend : Option ScanLine := none
  writing : Option ScanLine := none
  /-- tick of the last beam-detect edge, and the edges of the acquisition -/
  lastBd : Option Word := none
  edges : Nat := 0
  /-- sum and number of the intervals in the running mean -/
  sum : Nat := 0
  cnt : Nat := 0
  /-- every interval of the acquisition lay within tolerance -/
  steady : Bool := true
  /-- consecutive facets with the tap calibration within one tap -/
  taps : Nat := 0
  idxSeen : Bool := false
  /-- an IDX edge has come since the last beam-detect edge -/
  idxNow : Bool := false
  /-- the line did not fit in its facet: acquisition waits for a write of HPn_DLL_CFG or a hand-over that meets R293 -/
  winFail : Bool := false
  /-- tick since which laser enable is asserted (R298) -/
  enSince : Option Word := none
  /-- tick of the write that last started an acquisition (R296) -/
  cfgTick : Option Word := none
  deriving DecidableEq, Repr, Inhabited

/-- An alignment record (R275). -/
structure AlignRec where
  serial : List Byte
  x : Nat
  y : Nat
  /-- signature with the device identity key -/
  sig : BitVec 512 := 0
  deriving DecidableEq, Repr, Inhabited

/-- A drop-test burst in progress (R277, R278): firings left, and the element whose window runs. -/
structure Burst where
  gate : Nat
  left : Nat
  elem : Option Nat
  deriving DecidableEq, Repr, Inhabited

/-- State of a head port behind its HPn registers. -/
structure Port where
  /-- modular column count SEQ (R258) -/
  seq : Nat := 0
  frames : List Frame := []
  /-- tick of the last acceptance of a frame, and its frame time in ns (R259) -/
  lastFrame : Option (Word × Nat) := none
  /-- groups that strobe now (R207) -/
  active : List Nat := []
  /-- waveform samples (R262) -/
  wave : Sparse (BitVec 16) := []
  /-- the record last read was valid (R269) -/
  idValid : Bool := false
  /-- HEAD_SERIAL (R272) -/
  serial : Option (List Byte) := none
  /-- the alignment store in progress, and the record held in flash (R275) -/
  storing : Option AlignRec := none
  stored : Option AlignRec := none
  /-- nozzle entries that are not 0x00, and the copies in flash: the last and the one before it (R280, R284) -/
  noz : Sparse Byte := []
  nozSaved : Sparse Byte := []
  nozOlder : Sparse Byte := []
  /-- the view in use, and the pending view with its switch number (R283) -/
  view : View := {}
  pendView : Option (Word × View) := none
  /-- changes wait for the release of the previous view (R283) -/
  viewWait : Bool := false
  /-- switch number of the view that a mark boundary has taken while the previous view is not released (R283) -/
  viewSw : Option Word := none
  /-- highest product number among the jobs that have reached a mark boundary (R283) -/
  topPnum : Option Word := none
  /-- end of the running PIEZO playback: its start and its length in ns (R260) -/
  play : Option (Word × Nat) := none
  /-- tick of the last fire instant (R259, R261) -/
  lastFire : Option Word := none
  /-- drop-test results, oldest first: element, result, t_a (R279) -/
  testQ : List (Nat × Nat × Nat) := []
  /-- amplitude in force, taken at the mark boundary (R478) -/
  amp : Nat := 1024
  burst : Option Burst := none
  /-- sum and number of PRESENT and SLOW times since the last evaluation, results since ACCEPT or REF, and T_REF is to be taken (R478) -/
  dropSum : Nat := 0
  dropCnt : Nat := 0
  refCnt : Nat := 0
  refDue : Bool := false
  /-- strobes or firings by group, modular (R479) -/
  fires : List Word := List.replicate 8 0
  laser : Laser := {}
  deriving DecidableEq, Repr, Inhabited

/-- A back-up in progress on a motor channel (R345, R346). -/
structure Backup where
  line : Nat
  /-- jobs held for data late -/
  held : List Nat
  pBegin : Word
  vBegin : Int
  pRest : Word
  /-- tick at which WAIT_DATA began -/
  since : Word
  deriving DecidableEq, Repr, Inhabited

/-! ### Motor channels (R325 to R348) -/

/-- The gate commands of a phase over a carrier period: the ticks from which to which the high side is on, and those of the low side. The
phase holds its last switch into the next period (R325, R327). -/
structure PhaseGate where
  high : Option (Nat × Nat)
  low : List (Nat × Nat)
  deriving DecidableEq, Repr, Inhabited

/-- State of a motor channel behind its MCn registers. -/
structure Motor where
  /-- on-times of the high sides of U, V and W in ticks of a carrier period; none while every output is low (R328) -/
  gate : Option (List Nat) := none
  /-- gate commands of U, V and W in the sampled period those on-times make, empty while every output is low (R327, R332) -/
  gates : List PhaseGate := []
  /-- what the next carrier period takes in place of them: new duties, or every output low (R328, R339) -/
  waiting : Option (Option (List Nat) × List PhaseGate) := none
  /-- first tick of the present carrier period, while the carrier runs (R326) -/
  carrier : Option Word := none
  /-- what the settings that a carrier period latches stood at when it began (R348) -/
  inForce : List (Nat × Word) := []
  /-- angle and speed that the injection tracks, the sign of the injection in the last sample, 0 without one, and the q current it gave
  (R335) -/
  hAng : Nat := 0
  hSpd : Int := 0
  hSign : Int := 0
  hQ : Int := 0
  /-- largest d current of the two polarity steps (R337) -/
  polPos : Nat := 0
  polNeg : Nat := 0
  /-- integrators of the d and q axes, in mV / 200,000,000 (R328) -/
  intD : Int := 0
  intQ : Int := 0
  /-- d and q currents of the last complete measurement, and samples predicted since (R332) -/
  lastD : Int := 0
  lastQ : Int := 0
  skips : Nat := 0
  /-- encoder counts at the last samples, newest first (R334) -/
  counts : List Int := []
  /-- blended speed of the previous sample (R336) -/
  omega : Int := 0
  /-- tick of the last sample -/
  sampAt : Option Word := none
  /-- tick at which CATCH began, or at which the rotor was caught (R337) -/
  since : Word := 0
  /-- samples taken in START, or since the entry to RUN (R335, R337) -/
  phase : Nat := 0
  /-- samples left for which the catch angle holds (R337) -/
  sync : Nat := 0
  /-- consecutive samples within the at-speed band (R340) -/
  dwell : Nat := 0
  /-- MCn_FLT_L is low (R325) -/
  fltLow : Bool := false
  deriving DecidableEq, Repr, Inhabited

/-- The thresholds of a bus, in 100 mV (R341). -/
structure Thresholds where
  chopOff : Nat
  chopOn : Nat
  soft : Nat
  limLo : Nat
  limHi : Nat
  hard : Nat
  deriving DecidableEq, Repr, Inhabited

/-- State of a bus monitor behind its BUSm registers. -/
structure Bus where
  /-- the last ascending set used (R341) -/
  thr : Option Thresholds := none
  /-- samples in a row above HARD (R343) -/
  high : Nat := 0
  /-- tick of the chopper's last switching or test pulse (R342) -/
  idleFrom : Word := 0
  deriving DecidableEq, Repr, Inhabited

/-! ### Memory (R171, R377 to R388) -/

/-- How the 72 bits that a bank stores for a word differ from the encoding of its data (R379): the bits that an injection has flipped, an upset of
one bit or of two whose places are not known, or POISON. -/
inductive FlawKind where
  | flips (bits : List Nat)
  | upset (double : Bool)
  | poison
  deriving DecidableEq, Repr, Inhabited

/-- An SRAM word whose stored bits are no encoding, by number: 65,536 × its bank + its word in the bank (R377). `counted` says that Skim has
counted its uncorrectable error, which its next reader does not count again. -/
structure Flaw where
  word : Nat
  kind : FlawKind
  counted : Bool := false
  deriving DecidableEq, Repr, Inhabited

/-- A merge buffer entry of a bank: the number of its word and the bytes written to it (R380). -/
structure Merge where
  word : Nat
  bytes : List (Option Byte)
  deriving DecidableEq, Repr, Inhabited

/-- The SRAM banks with their checkers, and the LPDDR4X memory. What banks 64 to 108 hold stands in the structures that own it; the image store
stands here. -/
structure Mem where
  /-- image store, by store offset; a byte not written since the last wipe reads zero (R381) -/
  image : List Host.Cell := []
  /-- valid bits: the 64-byte lines written since the last wipe, by word number / 8, ascending (R381) -/
  valid : Sparse Unit := []
  /-- merge buffer entries of all banks, oldest first (R380) -/
  merges : List Merge := []
  /-- the words whose check bits do not fit (R379, R382) -/
  flaws : List Flaw := []
  /-- an injection armed for the next write of a bank: bank, and the bits that it flips (R399) -/
  inject : Option (Nat × List Nat) := none
  /-- correctable errors in the present pass of Skim, by word number (R382) -/
  hits : Sparse Nat := []
  /-- tick at which the present pass of Skim began (R384) -/
  skimFrom : Word := 0
  /-- LPDDR4X by usable offset, as written under the present key (R386, R388) -/
  ddr : Sparse (Option Byte) := []
  /-- number of the present scrambling key (R388) -/
  ddrKey : Nat := 0
  /-- ticks left of the overwrite of the whole LPDDR4X (R388) -/
  overwrite : Nat := 0
  deriving DecidableEq, Repr, Inhabited

/-! ### The power supervisor island (R443 to R463) -/

/-- Where the rails stand: off, coming up, up, or going down. -/
inductive Rails where
  | off | rising | up | falling
  deriving DecidableEq, Repr, Inhabited

/-- A power snapshot: its 32 words, and HOLDUP_SHORT as it records it (R453, R461). -/
structure Snap where
  words : List Word
  holdupShort : Bool
  deriving DecidableEq, Repr, Inhabited

/-- State of the island behind PWR_. -/
structure Island where
  /-- fused plans: a header word and twelve entry words each (R446, R448) -/
  fused : List (List Word) := List.replicate 4 (List.replicate 13 0)
  /-- the plan in use (R445) -/
  plan : List Word := []
  rails : Rails := .off
  /-- VDD_AON is within its range (R443) -/
  aon : Bool := true
  /-- the trust core and the supervisor have still to restore their records, and whether the stop had persisted them (R463) -/
  restore : Option Bool := none
  /-- a reset that the host has requested falls due (R360) -/
  resetDue : Bool := false
  /-- step in progress, and highest step begun (R449, R452) -/
  step : Nat := 0
  top : Nat := 0
  /-- the own step is stable, and the slaves that have reported it complete (R457) -/
  stepDone : Bool := false
  slavesDone : List Nat := []
  /-- cause of the next start (R462), and whether the rails come up again as soon as they are down -/
  cause : Nat := 0
  again : Bool := false
  /-- start retries after an abort (R450) -/
  retries : Nat := 0
  /-- snapshots, oldest first -/
  snaps : List Snap := []
  /-- rails whose early collapse has been recorded in the present power-down (R452) -/
  early : List Nat := []
  /-- scans in a row outside the window, by rail (R451) -/
  outside : List Nat := List.replicate 12 0
  /-- ticks of the PG transitions of the last 10 ms, by rail (R451, R471) -/
  pgTimes : List (List Word) := List.replicate 12 []
  /-- the supply is below the level at which arming may run (R459, R460) -/
  low : Bool := false
  /-- polls in a row that each slave has missed (R457) -/
  missed : List Nat := List.replicate 8 0
  /-- bands whose grace runs (R468) -/
  graces : List Nat := []
  /-- EN, PG, DIS, STATE, V and TRANS of the rails as the island holds them, in the layout of PWR_RAILi: what those registers show from the next
  scan on after a reset (R443, R471) -/
  rail : List Word := List.replicate 12 0x200000
  /-- the Rail Link units found, and the supply of the last scan in mV (R444, R457) -/
  present : Nat := 0
  vin : Nat := 0
  /-- the core regulator has answered (R458) -/
  regulator : Bool := false
  /-- what the last start-up found -/
  straps : Straps := { planSel := 0, railRole := false, bootsel := 0 }
  found : Found := { ddr := 4, badHeader := [], badBanks := [], badSoft := [], badAlign := [], badNoz := [] }
  deriving DecidableEq, Repr, Inhabited

/-! ### Ageing and calibration (R472 to R486) -/

/-- State of the ageing work behind AGE_. -/
structure Ageing where
  /-- core voltage step as persisted, towards which requests run (R476) -/
  n : Nat := 10
  /-- a REPLAN waits for the next evaluation (R477) -/
  replan : Bool := false
  /-- the monitors have been sampled since the reset (R486) -/
  sampled : Bool := false
  /-- k_age of the engine clock in force (R472, R473) -/
  kAge : Nat := 0
  /-- an evaluation that waits, with what it samples (R475, R484) -/
  held : Option (List Nat × List (Bool × List Nat) × List Nat × Bool) := none
  /-- margin at which a derate step, or a step of the voltage down, was taken, until its gain is recorded (R476) -/
  stepFrom : Option Int := none
  /-- evaluations in a row above the band (R476) -/
  above : Nat := 0
  /-- slack gained by each step taken, newest first (R476) -/
  gains : List Int := []
  /-- margin less the gains of the steps taken, and highest erase count, of the last 1,008 evaluations, newest first (R482) -/
  trend : List (Int × Nat) := []
  /-- baseline of each control engine's friction table (R480) -/
  base : List (Option (List Int)) := List.replicate 8 none
  /-- the clocks wait to switch: jobs released before the publication, by path order (R473) -/
  switch : Option (List Nat) := none
  deriving DecidableEq, Repr, Inhabited

/-- A calibration record (R485). -/
structure CalRecord where
  time : Nat
  trusted : Bool
  soft : Bool
  /-- ADC, gain and offset -/
  entries : List (Nat × Nat × Int)
  crc : Nat := 0
  /-- signature with the identity key, of a soft record -/
  sig : BitVec 512 := 0
  deriving DecidableEq, Repr, Inhabited

/-- State of the calibration behind CAL_. -/
structure Calib where
  /-- mask of the calibration in progress (R483) -/
  running : Option Nat := none
  /-- records, newest first (R485) -/
  records : List CalRecord := []
  deriving DecidableEq, Repr, Inhabited


/-- The machine's state. -/
structure State where
  /-- every register that is not at its reset value, by BAR0 byte address -/
  regs : Sparse Word
  /-- bits that events have set in this tick, by register address and place: a host write does not clear them (R11) -/
  raised : List (Nat × Nat)
  /-- the shadow bank of the RWS registers, likewise (R10, R234) -/
  shadow : Sparse Word
  lines : List Line
  encs : List Enc
  pds : List Pd
  preds : List Pred
  sch : Sched
  trust : Trust
  flt : Flt
  host : HostPort
  /-- counter that picks the next free value of what the spec leaves open (the model's own) -/
  free : Nat
  lc : Lifecycle
  primer : Primer
  /-- frames and messages sent, oldest first (an observation, not state of the spec) -/
  sent : List Output
  sqs : List Seq
  ces : List Ctl
  mvs : List Mover
  paths : List Path
  ren : Render
  lnp : LinePorts
  ocl : Ocl
  /-- LINE_ALERT_L is held asserted by the reset level (R461) -/
  alertHeld : Bool
  ports : List Port
  backups : List (Option Backup)
  motors : List Motor
  buses : List Bus
  mem : Mem
  pwr : Island
  age : Ageing
  cal : Calib
  /-- commands that wait, first in, first out -/
  pending : List Instr
  deriving DecidableEq, Repr

/-- The machine right after reset: the values the spec gives; where it gives none, those of log entries 2 and 3 (DESIGN CHOICE, unsafe).
The count `free` starts at 0 (log entry 4), and no statement rests on it. -/
def State.reset : State :=
  { regs := [], raised := [], shadow := [], lines := List.replicate 4 {}, encs := List.replicate 8 {}, pds := List.replicate 16 {},
    preds := List.replicate 16 {}, sch := {}, trust := {}, flt := {}, host := {}, free := 0,
    lc := {}, primer := {}, sent := [],
    sqs := List.replicate 20 {}, ces := List.replicate 8 {}, mvs := List.replicate 8 {},
    paths := List.replicate 16 {}, ren := {}, lnp := {}, ocl := {}, alertHeld := false,
    ports := List.replicate 16 {}, backups := List.replicate 6 none,
    motors := List.replicate 6 {}, buses := List.replicate 2 {},
    mem := {}, pwr := {}, age := {}, cal := {},
    pending := [] }

end Sys2Proof.Machine
end

