-- ==== Sys2Proof/Machine/Ops.lean ====
section
/-! DEFINITION. The named operations on registers, tables, positions and bytes. -/

namespace Sys2Proof.Machine

/-! ### Conditional and repeated updates -/

/-- Apply an update where a condition holds. -/
def doIf {α : Type} (c : Bool) (f : α → α) (s : α) : α := if c then f s else s

/-- Apply an update for each element of a list, in order. -/
def forAll {α β : Type} (l : List β) (f : β → α → α) (s : α) : α := l.foldl (fun a b => f b a) s

/-! ### Sparse tables -/

/-- The value at a key, where one is listed. -/
def spFind {α : Type} : Sparse α → Nat → Option α
  | [], _ => none
  | (k, v) :: t, a => if k = a then some v else spFind t a

/-- The value at a key, `d` giving what an unlisted key reads as. -/
def spGet {α : Type} (d : Nat → α) (m : Sparse α) (a : Nat) : α := (spFind m a).getD (d a)

/-- List a value at a key, in place of any value listed there. -/
def spInsert {α : Type} : Sparse α → Nat → α → Sparse α
  | [], a, x => [(a, x)]
  | (k, v) :: t, a, x =>
    if a < k then (a, x) :: (k, v) :: t else if a = k then (a, x) :: t else (k, v) :: spInsert t a x

/-- Remove the entry of a key. -/
def spErase {α : Type} : Sparse α → Nat → Sparse α
  | [], _ => []
  | (k, v) :: t, a => if k = a then t else (k, v) :: spErase t a

/-- Write a value so that the table stays canonical: a value that an unlisted key reads as is not listed. -/
def spPut {α : Type} [DecidableEq α] (d : Nat → α) (m : Sparse α) (a : Nat) (x : α) : Sparse α :=
  if x = d a then spErase m a else spInsert m a x

/-- Replace a listed value by its image; an unlisted key stays unlisted. -/
def spMod {α : Type} (m : Sparse α) (a : Nat) (f : α → α) : Sparse α := m.map fun p => if p.1 = a then (p.1, f p.2) else p

/-- Keys strictly rising, all above `lo`. -/
def spRising {α : Type} : Option Nat → Sparse α → Bool
  | _, [] => true
  | none, (k, _) :: t => spRising (some k) t
  | some j, (k, _) :: t => decide (j < k) && spRising (some k) t

/-- The canonical form of a table: keys strictly rising, no value equal to what an unlisted key reads as. -/
def spWf {α : Type} [DecidableEq α] (d : Nat → α) (m : Sparse α) : Bool :=
  spRising none m && m.all fun p => decide (p.2 ≠ d p.1)

/-- The lowest key below `n` that is not listed. -/
def spFree {α : Type} (m : Sparse α) : Nat → Nat → Option Nat
  | 0, _ => none
  | fuel + 1, k => if (spFind m k).isNone then some k else spFree m fuel (k + 1)

/-! ### Bits of a 48-bit word -/

/-- The field of `width` bits at `lo`. -/
def wordGet (w : Word) (lo width : Nat) : Nat := (w >>> lo).toNat % 2 ^ width

/-- The word with its field of `width` bits at `lo` set to `x`, taken modulo the field's range. -/
def wordPut (w : Word) (lo width x : Nat) : Word :=
  let mask : Word := BitVec.ofNat 48 (2 ^ width - 1)
  (w &&& ~~~(mask <<< lo)) ||| ((BitVec.ofNat 48 x &&& mask) <<< lo)

/-- A two's-complement field value. -/
def signedOf (width x : Nat) : Int := if 2 * x < 2 ^ width then (x : Int) else (x : Int) - (2 ^ width : Nat)

/-- The two's-complement code of an integer in `width` bits. -/
def codeOf (width : Nat) (x : Int) : Nat := (x % (2 ^ width : Nat)).toNat

/-! ### Registers -/

/-- A register's value. -/
def State.reg (s : State) (a : Nat) : Word := spGet regReset s.regs a

/-- A register written. -/
def State.setReg (s : State) (a : Nat) (w : Word) : State := { s with regs := spPut regReset s.regs a w }

/-- A shadow register's value (R10). -/
def State.shadowReg (s : State) (a : Nat) : Word := spGet regReset s.shadow a

/-- A shadow register written. -/
def State.setShadow (s : State) (a : Nat) (w : Word) : State := { s with shadow := spPut regReset s.shadow a w }

/-- A field's value. -/
def getF (f : Field) (s : State) : Nat := wordGet (s.reg f.reg) f.lo f.width

/-- A field set. -/
def setF (f : Field) (x : Nat) (s : State) : State := s.setReg f.reg (wordPut (s.reg f.reg) f.lo f.width x)

/-- A field of the shadow bank. -/
def getShadowF (f : Field) (s : State) : Nat := wordGet (s.shadowReg f.reg) f.lo f.width

/-- A one-bit field read as a flag. -/
def getB (f : Field) (s : State) : Bool := getF f s == 1

/-- A one-bit field set from a flag. A flag raised is noted for the rest of the tick (R11). -/
def setB (f : Field) (b : Bool) (s : State) : State :=
  { setF f (if b then 1 else 0) s with raised := if b then (f.reg, f.lo) :: s.raised else s.raised }

/-- An event of this tick has set bit `k` of a field (R11). -/
def noteRaised (f : Field) (k : Nat) (s : State) : State := { s with raised := (f.reg, f.lo + k) :: s.raised }

/-- A start that the self-test or the search for the LPDDR4X has stopped: FAULT_L is held with the rails up, until the device is reset (R385, R386). -/
def startStopped (s : State) : Bool := s.flt.held && decide (s.pwr.rails = .up)

/-- A host write: what it sets itself stands in the registers before the host's next write, which comes in a later tick, and does not keep
that write from clearing it (R11; log entry 150). A device whose start has stopped answers register reads and nothing else (R385). -/
def hostAccess (f : State → State) (s : State) : State := if startStopped s then s else { f s with raised := s.raised }

/-- The bits of `x` but for those that an event of this tick has set in the field (R11). -/
def clearable (g : Field) (s : State) (x : Nat) : Nat :=
  forAll (s.raised.filter fun p => decide (p.1 = g.reg) && decide (g.lo ≤ p.2) && decide (p.2 < g.lo + g.width))
    (fun p y => y &&& (2 ^ g.width - 1 - 2 ^ (p.2 - g.lo))) x

/-- A signed field's value. -/
def getI (f : Field) (s : State) : Int := signedOf f.width (getF f s)

/-- A signed field set. -/
def setI (f : Field) (x : Int) (s : State) : State := setF f (codeOf f.width x) s

/-- A counter raised by `k`, held at its largest value (counters saturate unless marked modular). -/
def addSat (f : Field) (k : Nat) (s : State) : State := setF f (min (getF f s + k) (2 ^ f.width - 1)) s

/-- A counter raised by one, saturating. -/
def incSat (f : Field) (s : State) : State := addSat f 1 s

/-- A modular counter raised by `k`. -/
def addMod (f : Field) (k : Nat) (s : State) : State := setF f (getF f s + k) s

/-- A field raised to a value it lies below (a highest-seen field). -/
def maxF (f : Field) (x : Nat) (s : State) : State := if getF f s < x then setF f x s else s

/-- A value held to the range of a field. -/
def satTo (width x : Nat) : Nat := min x (2 ^ width - 1)

/-! ### Plain register writes (R7 to R10) -/

/-- The value a written field takes (the "taken as" notes of the register tables). -/
def clampField (f : FieldSpec) (x : Nat) : Nat :=
  if f.max < x then (if f.over0 then 0 else f.max) else if x < f.min then f.min else x

/-- A host write of one field by its access type (R10): RW takes effect at once, RWS goes to the shadow bank, W1C clears the bits
written as one but for those that an event of the same tick has set (R11), RO and WO keep nothing. -/
def writeField (a v : Nat) (f : FieldSpec) (s : State) : State :=
  let x := v / 2 ^ f.lo % 2 ^ f.width
  let g : Field := ⟨a, f.lo, f.width⟩
  match f.access with
  | .rw => setF g (clampField f x) s
  | .w1c => setF g (getF g s &&& (2 ^ f.width - 1 - clearable g s x)) s
  | .rws => s.setShadow a (wordPut (s.shadowReg a) f.lo f.width (clampField f x))
  | .ro | .wo => s

/-- A host write of a register by the access types of its fields; an unassigned address and reserved bits take nothing (R9, R10). -/
def plainWrite (a v : Nat) (s : State) : State :=
  match regSpecAt a with
  | some r => forAll r.fields (writeField a v) s
  | none => s

/-- The bits of a written value at a field's place. -/
def fieldOf (f : Field) (v : Nat) : Nat := v / 2 ^ f.lo % 2 ^ f.width

/-- A written value with one field replaced. -/
def withField (f : Field) (x v : Nat) : Nat := (wordPut (BitVec.ofNat 48 v) f.lo f.width x).toNat

/-! ### Banks of State -/

def State.line (s : State) (n : Nat) : Line := s.lines.getD n {}
def State.setLine (s : State) (n : Nat) (x : Line) : State := { s with lines := s.lines.set n x }
def State.enc (s : State) (n : Nat) : Enc := s.encs.getD n {}
def State.setEnc (s : State) (n : Nat) (x : Enc) : State := { s with encs := s.encs.set n x }
def State.pd (s : State) (n : Nat) : Pd := s.pds.getD n {}
def State.setPd (s : State) (n : Nat) (x : Pd) : State := { s with pds := s.pds.set n x }
def State.pred (s : State) (n : Nat) : Pred := s.preds.getD n {}
def State.setPred (s : State) (n : Nat) (x : Pred) : State := { s with preds := s.preds.set n x }
def State.rej (s : State) (n : Nat) : Rej := s.sch.rejs.getD n {}
def State.setRej (s : State) (n : Nat) (x : Rej) : State := { s with sch.rejs := s.sch.rejs.set n x }

/-- The present tracking tick (R20, R78). -/
def now (s : State) : Word := s.reg rTRK_TICK

/-! ### Positions and ticks (R40, R41) -/

/-- The signed modular difference of two positions (R41). -/
def posDiff (a b : Word) : Int := (a - b).toInt

/-- A position is at or beyond another (R41). -/
def atOrBeyond (a b : Word) : Bool := decide (0 ≤ posDiff a b)

/-- The later of two positions by the rule of R41. -/
def posMax (a b : Word) : Word := if atOrBeyond a b then a else b

/-- A number of counts as a position distance (Q40.8, R40). -/
def counts (n : Nat) : Word := BitVec.ofNat 48 (256 * n)

/-- A signed number of sub-counts as a position distance. -/
def subs (n : Int) : Word := BitVec.ofInt 48 n

/-- Ticks per second of the tracking clock (R20). -/
def ticksPerSecond : Nat := 200000000

/-! ### Bytes -/

/-- `k` bytes of a number, least significant first (little-endian, R355). -/
def leBytes : Nat → Nat → List Byte
  | 0, _ => []
  | k + 1, x => BitVec.ofNat 8 x :: leBytes k (x / 256)

/-- The number that bytes spell, least significant first. -/
def leNat : List Byte → Nat
  | [] => 0
  | b :: t => b.toNat + 256 * leNat t

/-- The number that bytes spell, most significant first. -/
def beNat (l : List Byte) : Nat := l.foldl (fun a b => 256 * a + b.toNat) 0

/-- `k` bytes of a number, most significant first. -/
def beBytes (k x : Nat) : List Byte := (leBytes k x).reverse

/-- `k` bytes of a list from an offset. -/
def slice (l : List Byte) (ofs k : Nat) : List Byte := (l.drop ofs).take k

/-- The little-endian number of `k` bytes at an offset. -/
def leAt (l : List Byte) (ofs k : Nat) : Nat := leNat (slice l ofs k)

/-- A list of exactly `k` bytes: cut, or filled with zeros. -/
def padTo (k : Nat) (l : List Byte) : List Byte := (l ++ List.replicate k 0).take k

/-- Bytes written over a list from an offset. -/
def overlay (l : List Byte) (ofs : Nat) (x : List Byte) : List Byte := l.take ofs ++ x ++ l.drop (ofs + x.length)

/-- A quotient rounded up. -/
def ceilDiv (a b : Nat) : Nat := (a + b - 1) / b

/-- A value held between two bounds. -/
def clampInt (lo hi x : Int) : Int := max lo (min hi x)

/-! ### The rail plan and the supplies of the pins (R446, R447, R492, R493) -/

/-- A field of the header, and of the entry of a rail, of the plan in use. -/
def planHeader (lo width : Nat) (s : State) : Nat := wordGet (s.pwr.plan.getD 0 0) lo width
def planEntry (i lo width : Nat) (s : State) : Nat := wordGet (s.pwr.plan.getD (i + 1) 0) lo width

/-- A field of a rail's register as the island holds it. -/
def railGet (f : Nat → Field) (i : Nat) (s : State) : Nat := wordGet (s.pwr.rail.getD i 0) (f i).lo (f i).width

/-- The island sets a field of a rail's register. -/
def railSet (f : Nat → Field) (i x : Nat) (s : State) : State :=
  setF (f i) x { s with pwr.rail := s.pwr.rail.set i (wordPut (s.pwr.rail.getD i 0) (f i).lo (f i).width x) }

/-- The rail of a plan entry is good. One that the plan leaves out is taken as good while the rails are up (log entry 197). -/
def railGood (i : Nat) (s : State) : Bool :=
  if planEntry i 0 4 s = 0 then decide (s.pwr.rails = .up)
  else railGet fPWR_RAIL_STATE i s == 2 || railGet fPWR_RAIL_STATE i s == 3

/-- VDD_LANE, which drives the head ports' lanes, and VDDIO_33, which drives the pins of group IO33, are good (R447, R493). -/
def laneGood (s : State) : Bool := railGood 2 s
def io33Good (s : State) : Bool := railGood 7 s

/-! ### Words of the SRAM banks (R377 to R383) -/

/-- The number of a word of a bank, and the bank and the place in it of a numbered word. -/
def wordNo (bank word : Nat) : Nat := 65536 * bank + word
def wordBank (w : Nat) : Nat := w / 65536
def wordPlace (w : Nat) : Nat := w % 65536

/-- The words of the image store, banks 0 to 63. -/
def imageWords : Nat := 4194304

/-- The code detects two errors and corrects one; POISON always decodes as uncorrectable (R379). -/
def FlawKind.isUe : FlawKind → Bool
  | .flips l => decide (1 < l.length)
  | .upset double => double
  | .poison => true

/-- What is wrong with a word. -/
def flawAt (w : Nat) (s : State) : Option Flaw := s.mem.flaws.find? fun f => decide (f.word = w)

/-- A word holds an uncorrectable error. -/
def wordBad (w : Nat) (s : State) : Bool := (flawAt w s).any (·.kind.isUe)

/-- The line of a word has been written since the last wipe (R381). -/
def lineValid (w : Nat) (s : State) : Bool := (spFind s.mem.valid (w / 8)).isSome

def clearFlaw (w : Nat) (s : State) : State := { s with mem.flaws := s.mem.flaws.filter fun f => decide (f.word ≠ w) }

def setFlaw (f : Flaw) (s : State) : State :=
  { s with mem.flaws := f :: s.mem.flaws.filter fun g => decide (g.word ≠ f.word) }

/-- An armed injection strikes the word that its bank writes next (R399). -/
def strike (w : Nat) (s : State) : State := match s.mem.inject with
  | some (bank, bits) =>
    if bank = wordBank w then setFlaw { word := w, kind := .flips bits } { s with mem.inject := none } else s
  | none => s

/-- A bank writes a word: its check bits are formed anew, and its line is valid (R379, R381). -/
def bankWrite (w : Nat) (s : State) : State :=
  strike w (clearFlaw w { s with mem.valid := spInsert s.mem.valid (w / 8) () })

/-- The words of a part of a bank, by byte offset and length. -/
def wordsOf (a n : Nat) : List Nat := if n = 0 then [] else (List.range ((a + n - 1) / 8 + 1 - a / 8)).map (· + a / 8)

/-! ### Byte memory in canonical form (host memory) -/

/-- A byte of a cell list; what is not listed reads zero. -/
def cellGet (m : List Host.Cell) (a : Nat) : Byte := spGet (fun _ => 0) m a

/-- A byte written to a cell list. -/
def cellPut (m : List Host.Cell) (a : Nat) (b : Byte) : List Host.Cell := spPut (fun _ => (0 : Byte)) m a b

/-- Consecutive bytes written from an address. -/
def cellWrite : List Host.Cell → Nat → List Byte → List Host.Cell
  | m, _, [] => m
  | m, a, b :: t => cellWrite (cellPut m a b) (a + 1) t

/-- `k` consecutive bytes from an address. -/
def cellRead (m : List Host.Cell) : Nat → Nat → List Byte
  | _, 0 => []
  | a, k + 1 => cellGet m a :: cellRead m (a + 1) k

/-- The canonical form of a byte memory. -/
abbrev Memory.wf (m : List Host.Cell) : Bool := spWf (fun _ => (0 : Byte)) m

end Sys2Proof.Machine
end

