-- ==== Sys2Proof/Machine/Codec.lean ====
section
/-! DEFINITION. Checksums of records, replies and frames (R176, R268, R362). -/

namespace Sys2Proof.Machine

/-- Apply a step `k` times. -/
def times {α : Type} : Nat → (α → α) → α → α
  | 0, _, x => x
  | k + 1, f, x => times k f (f x)

/-- One bit of CRC-32C, reflected polynomial 0x82F63B78 (R176). -/
def crc32cBit (c : Nat) : Nat := if c % 2 = 1 then (c / 2) ^^^ 0x82F63B78 else c / 2

/-- CRC-32C, initial value and final XOR 0xFFFFFFFF (R176). -/
def crc32c (l : List Byte) : Nat :=
  (l.foldl (fun c b => times 8 crc32cBit (c ^^^ b.toNat)) 0xFFFFFFFF) ^^^ 0xFFFFFFFF

/-- One bit of the check sequence of IEEE 802.3, reflected polynomial 0xEDB88320. -/
def fcsBit (c : Nat) : Nat := if c % 2 = 1 then (c / 2) ^^^ 0xEDB88320 else c / 2

/-- The frame check sequence of IEEE 802.3 (R362). -/
def ethernetFcs (l : List Byte) : Nat := (l.foldl (fun c b => times 8 fcsBit (c ^^^ b.toNat)) 0xFFFFFFFF) ^^^ 0xFFFFFFFF

/-- One bit of CRC-8 with polynomial 0x07 (R268). -/
def crc8Bit (c : Nat) : Nat := if 0x80 ≤ c then ((c * 2) ^^^ 0x07) % 256 else c * 2

/-- CRC-8, polynomial 0x07, initial value 0 (R268). -/
def crc8 (l : List Byte) : Nat := l.foldl (fun c b => times 8 crc8Bit (c ^^^ b.toNat)) 0

/-! ### The 8b/10b code of IEEE 802.3 clause 36 (R257) -/

/-- Bits a to i of the six-bit sub-block of a data character's low five bits at negative running disparity. -/
def sixOf : List (BitVec 6) :=
  [0b100111, 0b011101, 0b101101, 0b110001, 0b110101, 0b101001, 0b011001, 0b111000, 0b111001, 0b100101, 0b010101, 0b110100, 0b001101, 0b101100,
   0b011100, 0b010111] ++
  [0b011011, 0b100011, 0b010011, 0b110010, 0b001011, 0b101010, 0b011010, 0b111010, 0b110011, 0b100110, 0b010110, 0b110110, 0b001110, 0b101110,
   0b011110, 0b101011]

/-- Bits f to j of the four-bit sub-block of a character's high three bits at negative running disparity: of a data character, and of a control
character. -/
def fourOf : List (BitVec 4) := [0b1011, 0b1001, 0b0101, 0b1100, 0b1101, 0b1010, 0b0110, 0b1110]
def fourOfControl : List (BitVec 4) := [0b1011, 0b0110, 0b1010, 0b1100, 0b1101, 0b0101, 0b1001, 0b0111]

/-- The ones of a sub-block of `n` bits. -/
def onesIn (n x : Nat) : Nat := ((List.range n).filter fun k => x.testBit k).length

/-- A six-bit sub-block at a running disparity: one that is not balanced is inverted at positive disparity, and so is D.7. -/
def sixAt (pos : Bool) (x : BitVec 6) : BitVec 6 := if pos ∧ (onesIn 6 x.toNat ≠ 3 ∨ x = 0b111000) then ~~~x else x

/-- The code group of a symbol at a running disparity (true is positive), and the disparity after it. -/
def codeGroup (pos : Bool) (x : Symbol) : BitVec 10 × Bool :=
  let lo := x.code.toNat % 32
  let hi := x.code.toNat / 32
  let six := sixAt pos (if x.k ∧ lo = 28 then 0b001111 else sixOf.getD lo 0)
  let mid := if onesIn 6 six.toNat = 3 then pos else !pos
  let alt := !x.k && decide (hi = 7) && (if mid then [11, 13, 14].contains lo else [17, 18, 20].contains lo)
  let base : BitVec 4 := if x.k then fourOfControl.getD hi 0 else if alt then 0b0111 else fourOf.getD hi 0
  let flips := mid && (x.k || decide (onesIn 4 base.toNat ≠ 2) || decide (hi = 3))
  let four := if flips then ~~~base else base
  (six ++ four, if onesIn 4 four.toNat = 2 then mid else !mid)

/-- Symbols in their code groups from a running disparity on. -/
def codeGroups : Bool → List Symbol → List (BitVec 10)
  | _, [] => []
  | pos, x :: t => (codeGroup pos x).1 :: codeGroups (codeGroup pos x).2 t

end Sys2Proof.Machine
end

