-- ==== Sys2Proof/Config.lean ====
section
/-! DEFINITION. What the spec names without computing it here (standard algorithms, keys, random numbers) and what it leaves
open: constants without a body, of which nothing can be proved but their type. -/

namespace Sys2Proof

/-- SHA-256 (R117, R142): the digest as a big-endian byte string of 32 bytes. -/
opaque Config.sha256 : List Byte → BitVec 256

/-- ECDSA P-256 verification over SHA-256 (R117): public key X then Y, message, signature r then s. -/
opaque Config.ecdsaVerify : List Byte → List Byte → List Byte → Bool

/-- ECDSA P-256 signature with the device identity key (R144): r then s, as a number of 64 bytes. -/
opaque Config.identitySign : Nat → List Byte → BitVec 512

/-- Public identity key that the n-th generation yields: X then Y (R403). -/
opaque Config.identityKey : Nat → BitVec 512

/-- AES-CMAC under AES-256 (R141): key and message. -/
opaque Config.aesCmac : List Byte → List Byte → BitVec 128

/-- Random number of the n-th draw (nonces, R126, R410). -/
opaque Config.random : Nat → BitVec 128

/-- The update root key X then Y, installed at manufacture (R409). -/
opaque Config.updateRoot : List Byte

/-- Primer's version, fixed in its ROM (R360). -/
opaque Config.primerVersion : Nat

/-- The link key that two units agree over P-256 (R368): from this device's identity, the peer's DEVICE_ID and the number of the
agreement. -/
opaque Config.linkKey : Nat → List Byte → Nat → List Byte

/-- The ECDH shared secret x, 32 bytes, of the n-th identity key and a public key X then Y (R411). -/
opaque Config.ecdhX : Nat → List Byte → BitVec 256

/-- AES key unwrap of RFC 3394 under a key, none where the integrity check fails (R411). -/
opaque Config.aesUnwrap : List Byte → List Byte → Option (List Byte)

/-- The code difference of CAL_REF and CAL_GND at which the gain of ADC a is nominal; the spec gives it for the housekeeping ADC only (R483, R494). -/
opaque Config.calNominal : Nat → Nat

/-- The station address of a next hop on a line port's network, by port and IPv4 address (R362: the spec gives no way it is learnt). -/
opaque Config.stationOf : Nat → Nat → Nat

/-- Type of service, identification, don't-fragment bit and time to live of an IPv4 packet, from its payload, which the spec leaves open
(R362). -/
opaque Config.ipOpen : List Byte → Nat

/-- Whether the device forms UDP checksums, which IPv4 leaves optional (R362). -/
opaque Config.udpChecksum : Bool

/-- The syndrome of the check code of R379 for the bits of a code word that have flipped, and for POISON: the spec gives the code's strength and
not its matrix. -/
opaque Config.syndrome : List Nat → Nat
opaque Config.poisonSyndrome : Nat

/-- What LPDDR4X that nothing has written under the n-th scrambling key reads as: noise, by usable offset (R388). -/
opaque Config.ddrNoise : Nat → Nat → BitVec 8

/-- HMAC-SHA-256 of the boot header under the key that is derived from the fuse root (R413). -/
opaque Config.headerMac : List Byte → BitVec 256

/-- The wrapped key store of the boot header, 4,096 bytes, from the authority keys with their roles, the check-code keys and the co-signature key
(R409, R413). -/
opaque Config.wrapStore : List (Option (List Byte × Nat)) → List (Option (List Byte)) → Option (List Byte) → List Byte

/-- What a firmware's conversion makes of the contents of an older settings set, from one format to another (R429). -/
opaque Config.convertSettings : Nat → Nat → Nat → Nat

/-- A value the spec leaves open, the n-th one drawn. -/
opaque Config.freeValue : Nat → Nat

/-- Whether an inexact quotient n/d is rounded up, where the spec states no rounding. -/
opaque Config.roundsUp : Int → Nat → Bool

/-- Where a stencil's pool alphabet 8 to 15 lies in its string pool: the pool's bytes and the alphabet's number give the offset. The spec
does not say (R119). -/
opaque Config.poolAlphabet : List Byte → Nat → Nat

/-- The shift letter of a stencil whose shift table is empty, which the spec leaves open (R133). -/
opaque Config.noShiftLetter : Byte

/-- A number that gives the length of the n-th record of the persistence journal, which the spec does not state (R391). -/
opaque Config.recordPages : Nat → Nat

/-- The tracking loop of R335 takes its angle and speed, the q-axis ripple demodulated in the last sample, the injection amplitude and the
sample period in ticks to its next angle and speed. The spec gives its bandwidth, 1 / (32 × T_cs), and no arithmetic. -/
opaque Config.hfiTrack : Nat → Int → Int → Nat → Nat → Nat × Int

/-- Whether the tracking loop counts as converged, from its angle, its speed and the last ripple; the spec states no test (R337). -/
opaque Config.hfiConverged : Nat → Int → Int → Bool

/-- The park transform of R328: three phase currents and an electrical angle in 2^-32 turn give the d and q currents. -/
opaque Config.park : Int → Int → Int → Nat → Int × Int

/-- The inverse park transform of R328: d and q values and an electrical angle in 2^-32 turn give the three phase values. -/
opaque Config.inversePark : Int → Int → Nat → Int × Int × Int

end Sys2Proof
end

