-- ==== Sys2Proof/Machine/LineFrames.lean ====
section
/-! DEFINITION. The frames that a line port sends: Ethernet with its tag, ARP, IPv4, ICMP and UDP (R362, R364). The layouts are those of
IEEE 802.3, IEEE 802.1Q and the Internet protocols, which the spec names (PRESUMED, log entry 175). -/

namespace Sys2Proof.Machine

/-- The Internet checksum's sum over bytes taken in pairs, the first the high one. -/
def inetSum : List Byte → Nat
  | a :: b :: t => 256 * a.toNat + b.toNat + inetSum t
  | [a] => 256 * a.toNat
  | [] => 0

def inetFold (n : Nat) : Nat := let m := n % 65536 + n / 65536; m % 65536 + m / 65536

/-- The Internet checksum of bytes whose checksum field is zero. -/
def inetChecksum (l : List Byte) : Nat := 65535 - inetFold (inetSum l)

/-- The 802.1Q tag of transmitted frames, where VLAN_EN is set (R362, R376). -/
def vlanTag (p : Nat) (s : State) : List Byte :=
  if getB (fLNP_CFG_VLAN_EN p) s then [0x81#8, 0x00#8] ++ beBytes 2 (getF (fLNP_CFG_VLAN_ID p) s) else []

/-- An Ethernet frame to a station, its payload filled up to 46 bytes, with its check sequence (R362). -/
def ethernetFrame (p dst type : Nat) (body : List Byte) (s : State) : List Byte :=
  let l := beBytes 6 dst ++ beBytes 6 (getF (fLNP_MAC_MAC p) s) ++ vlanTag p s ++ beBytes 2 type ++ padTo (max 46 body.length) body
  l ++ leBytes 4 (ethernetFcs l)

/-- An IPv4 packet from the port's address; what the spec leaves open in its header is free. -/
def ipv4Packet (p proto dst : Nat) (body : List Byte) (s : State) : List Byte :=
  let x := Config.ipOpen body
  let head (sum : Nat) : List Byte :=
    [0x45#8] ++ beBytes 1 x ++ beBytes 2 (20 + body.length) ++ beBytes 2 (x / 2 ^ 8) ++ beBytes 2 (x / 2 ^ 24 % 2 * 0x4000) ++
      beBytes 1 (x / 2 ^ 25) ++ beBytes 1 proto ++ beBytes 2 sum ++ beBytes 4 (getF (fLNP_IP_IP p) s) ++ beBytes 4 dst
  head (inetChecksum (head 0)) ++ body

/-- The next hop to an address: the address itself within PREFIX, otherwise the gateway (R362, R376). -/
def nextHop (p dst : Nat) (s : State) : Nat :=
  let k := 2 ^ (32 - min 32 (getF (fLNP_IP_PREFIX p) s))
  if dst / k = getF (fLNP_IP_IP p) s / k then dst else getF (fLNP_GW_GW p) s

/-- A UDP datagram from UDP_PORT, its checksum formed over the pseudo-header where the device forms one. -/
def udpDatagram (p dst dstPort : Nat) (body : List Byte) (s : State) : List Byte :=
  let head (sum : Nat) : List Byte := beBytes 2 (getF (fLNP_CFG_UDP_PORT p) s) ++ beBytes 2 dstPort ++ beBytes 2 (8 + body.length) ++ beBytes 2 sum
  let pseudo := beBytes 4 (getF (fLNP_IP_IP p) s) ++ beBytes 4 dst ++ [0x00#8, 0x11#8] ++ beBytes 2 (8 + body.length)
  let c := inetChecksum (pseudo ++ head 0 ++ body)
  head (if Config.udpChecksum then (if c = 0 then 65535 else c) else 0) ++ body

/-- The frame that carries an outgoing message to LNPp_DEST (R364). -/
def messageFrame (p : Nat) (body : List Byte) (s : State) : List Byte :=
  let dst := getF (fLNP_DEST_DEST_IP p) s
  ethernetFrame p (Config.stationOf p (nextHop p dst s)) 0x0800
    (ipv4Packet p 17 dst (udpDatagram p dst (getF (fLNP_DEST_DEST_PORT p) s) body s) s) s

end Sys2Proof.Machine
end

