-- ==== Sys2Proof/Machine/Report.lean ====
section
/-! DEFINITION. How the device reports: host events, interrupts, frames sent, the audit chain, and the fault collector's record
of an event (its escalation stands in Faults.lean). -/

namespace Sys2Proof.Machine

/-! ### Events and interrupts (R351, R359, R360) -/

/-- The entries of a ring (R353). -/
def ringSize (log2n : Nat) : Nat := 2 ^ (min (max log2n 4) 12)

/-- Device credits of a ring the device fills, from its indices (R354): the indices run modulo 2^16. -/
def producerCredits (n pi ci : Nat) : Nat := n - (pi + 65536 - ci) % 65536

/-- The device credits of the event ring (R354). -/
def eventCredits (s : State) : Nat :=
  producerCredits (ringSize (getF fHST_EVQ_CFG_LOG2N s)) (getF fHST_EVQ_PI_INDEX s) (getF fHST_EVQ_CI_INDEX s)

/-- An MSI-X vector is signalled: its message is written, or its pending bit is set where the vector is masked (R351). -/
def signalVector (v : Nat) (s : State) : State :=
  if s.host.msixMask.testBit v then { s with host.msixPend := s.host.msixPend ||| 2 ^ v }
  else { s with host.msi := s.host.msi ++ [(v, s.host.msixTable.getD v (0, 0))] }

/-- The type is enabled in HST_EVQ_CFG MASK (R359, R376). -/
def eventEnabled (type : Nat) (s : State) : Bool := (getF fHST_EVQ_CFG_MASK s).testBit (type - 0x80)

/-- The events in line that the device would write now (R359). -/
def eventsEnabled (s : State) : List HostEvent := s.host.events.filter fun e => eventEnabled e.type s

/-- The device may put one more event in line: the ring is enabled and holds a device credit for it. -/
def eventRoom (s : State) : Bool := getB fHST_EVQ_CFG_EN s && decide ((eventsEnabled s).length < eventCredits s)

/-- An event is lost and counted, PRODUCT_CLOSED apart from the rest (R359). -/
def loseEvent (type : Nat) (s : State) : State :=
  { incSat (if type = 0x80 then fHST_EVQ_STAT_LOST_CLOSED else fHST_EVQ_STAT_LOST_OTHER) s with host.lossDue := true }

/-- An event joins the line. -/
def queueEvent (type : Nat) (payload : List Byte) (s : State) : State :=
  { s with host.events := s.host.events ++ [{ type, payload }] }

/-- Once credit has returned after a loss, one EVENTS_LOST with both counts comes before any other event (R359). -/
def reportLoss (s : State) : State :=
  if s.host.lossDue ∧ !getB fHST_STAT_SUP_BUSY s ∧ eventRoom s then
    queueEvent 0x87 (leBytes 2 (getF fHST_EVQ_STAT_LOST_CLOSED s) ++ leBytes 2 (getF fHST_EVQ_STAT_LOST_OTHER s))
      { s with host.lossDue := false }
  else s

/-- An event is put in line for the event ring, or dropped where the ring has no device credit for it; an event of an enabled type is then
counted. MASK decides when the event is written (R359). While the supervisor is down, events are held, up to 1,024 of a type (R425, R437). -/
def postEvent (type : Nat) (payload : List Byte) (s : State) : State :=
  if getB fHST_STAT_SUP_BUSY s then
    if (s.host.events.filter fun e => decide (e.type = type)).length < 1024 then queueEvent type payload s else loseEvent type s
  else
    let s1 := reportLoss s
    if eventRoom s1 then queueEvent type payload s1 else doIf (eventEnabled type s1) (loseEvent type) s1

/-- The held events of enabled types are written in order once the supervisor runs again: those beyond the ring's credit are lost (R359,
R425). -/
def releaseHeld (s : State) : State :=
  let n := if getB fHST_EVQ_CFG_EN s then eventCredits s else 0
  forAll ((eventsEnabled s).drop n) (fun e => loseEvent e.type) { s with host.events := (eventsEnabled s).take n }

/-- Put a frame, message or output word among the outputs sent (an observation of the model, not state of the spec). -/
def send (o : Output) (s : State) : State := { s with sent := s.sent ++ [o] }

/-- The header of a line-protocol message (R364). -/
def lineHeader (type line seq len : Nat) : List Byte :=
  [0x53#8, 0x56#8, 0x4C#8, 0x4E#8] ++ leBytes 1 1 ++ leBytes 1 type ++ leBytes 1 line ++ leBytes 1 0 ++ leBytes 4 seq ++
  leBytes 2 len ++ leBytes 2 0

/-- A line-protocol message leaves on the port for outgoing messages, where that port is enabled: SEQ counts one per type and
TX_CNT counts it (R364). -/
def sendLineMessage (type line : Nat) (payload : List Byte) (s : State) : State :=
  let p := getF fLNP_STATPER_PORT s
  if getB (fLNP_CFG_EN p) s then
    let seq := s.lnp.txSeq.getD (type - 1) 0
    let s1 := addMod (fLNP_CNT_TX_CNT p) 1 { s with lnp.txSeq := s.lnp.txSeq.set (type - 1) ((seq + 1) % 2 ^ 32) }
    send (.lineFrame p (messageFrame p (lineHeader type line seq payload.length ++ payload) s)) s1
  else s

/-- LINE_ALERT_L is asserted while a line is in DEAD_RECKONING or POS_LOST (R64, R65), or held by the reset level (R461). -/
def lineAlert (s : State) : Bool :=
  s.alertHeld || (List.range 4).any fun n => decide (3 ≤ getF (fTRK_LINE_STAT_STATE n) s)

/-- The state of a line as LINE_STATE and ALERT report it: 5 marks LINE_SAFE (R360). -/
def reportedState (n : Nat) (s : State) : Nat :=
  if getB (fSCH_LINE_STAT_LINE_SAFE n) s then 5 else getF (fTRK_LINE_STAT_STATE n) s

/-- A line's reported state has changed from `old`: the LINE_STATE event and the ALERT message (R360, R364). -/
def lineStateChanged (n old : Nat) (s : State) : State :=
  if reportedState n s = old then s else
  let s1 := postEvent 0x83 (leBytes 1 n ++ leBytes 1 old ++ leBytes 1 (reportedState n s) ++ leBytes 6 (now s).toNat) s
  sendLineMessage 2 n ((List.range 4).flatMap (fun k => leBytes 1 (reportedState k s1)) ++ leBytes 1 (if lineAlert s1 then 0 else 1)) s1

/-! ### The audit chain (R142 to R146) -/

/-- The secure time in ms (R125). -/
def secureTime (s : State) : Nat := getF fTRU_TIME_TIME s

/-- What an audit entry says (R142), beside its SEQ and TIME. -/
structure AuditEntry where
  type : Nat
  line : Nat := 0xFF
  state : Nat := 0
  cause : Nat := 0
  pnum : Nat := 0
  revision : Nat := 0
  stencilId : Nat := 0
  slot : Nat := 0xFF
  serial : Nat := 0
  aux : Nat := 0
  flags : Nat := 0
  digest : List Byte := []

/-- The 64 bytes of an audit entry (R142). -/
def auditBytes (seq time : Nat) (e : AuditEntry) : List Byte :=
  leBytes 6 seq ++ leBytes 1 e.type ++ leBytes 1 e.line ++ leBytes 6 time ++ leBytes 1 e.state ++ leBytes 1 e.cause ++
  leBytes 6 e.pnum ++ leBytes 2 e.revision ++ leBytes 4 e.stencilId ++ leBytes 1 e.slot ++ leBytes 3 0 ++
  leBytes 6 e.serial ++ leBytes 6 e.aux ++ leBytes 4 e.flags ++ padTo 16 e.digest

/-- SHA-256 as a byte string. -/
def sha256 (m : List Byte) : List Byte := beBytes 32 (Config.sha256 m).toNat

/-- The chain ring's size (R145). -/
def auditRing : Nat := 262144

/-- A number of bytes read as a byte string, most significant first. -/
def identityPublic (s : State) : List Byte := beBytes 64 (Config.identityKey s.lc.identity).toNat

/-- DEVICE_ID: the first 16 bytes of the digest of the identity public key (R126). -/
def deviceId (s : State) : List Byte := (sha256 (identityPublic s)).take 16

/-- Sign a checkpoint of SEQ and h_SEQ and hold it among the last 256 (R144). -/
def signCheckpoint (seq : Nat) (h : List Byte) (s : State) : State :=
  let body := [0x53#8, 0x56#8, 0x43#8, 0x50#8] ++ deviceId s ++ leBytes 6 seq ++ leBytes 6 (secureTime s) ++ padTo 32 h
  let sig := beBytes 64 (Config.identitySign s.lc.identity body).toNat
  { s with trust.ckpts := ((seq, body ++ sig) :: s.trust.ckpts).take 256, trust.ckptNew := false, trust.ckptTick := now s }

/-- A checkpoint falls due: it is signed, or waits for the trust core's restart to end with the SEQ that was due and its h (R144, R147). -/
def checkpointDue (seq : Nat) (s : State) : State :=
  if getB fTRU_STAT_RESTARTING s then
    { s with trust.ckptDue := s.trust.ckptDue ++ [(seq, s.trust.chain)], trust.ckptNew := false, trust.ckptTick := now s }
  else signCheckpoint seq s.trust.chain s

/-- UNDRAINED, HIGH and FULL follow from the entries held (R145). FULL is set when fewer than 8,192 entries are free and clears
when 16,384 are; HIGH is set at 196,608 undrained entries, and clears as soon as fewer are held (DESIGN CHOICE, log entry 165). -/
def auditLevels (s : State) : State :=
  let used := s.trust.ring.length
  let free := auditRing - used
  let full := if free < 8192 then true else if 16384 ≤ free then false else getB fTRU_AUDIT_STAT_FULL s
  setB fTRU_AUDIT_STAT_FULL full (setB fTRU_AUDIT_STAT_HIGH (decide (196608 ≤ used)) (setF fTRU_AUDIT_STAT_UNDRAINED used s))

/-- Append an entry: it is hashed into the chain (R143) and held in the ring, or counted as dropped where the ring has no free
entry (R145). Where its SEQ is a multiple of 4,096 minus one, a checkpoint falls due (R144). -/
def auditAppendRaw (e : AuditEntry) (s : State) : State :=
  let seq := s.trust.auditNext
  let bytes := auditBytes seq (secureTime s) e
  let h := sha256 (padTo 32 s.trust.chain ++ bytes)
  let s1 := setF fTRU_AUDIT_SEQ_SEQ seq { s with trust.chain := h, trust.auditNext := seq + 1, trust.ckptNew := true }
  let s2 :=
    if s1.trust.ring.length < auditRing then { s1 with trust.ring := s1.trust.ring ++ [(seq, bytes)] }
    else incSat fTRU_AUDIT_STAT_DROPPED { s1 with trust.dropped := some ((s1.trust.dropped.map (·.1)).getD seq, seq) }
  let s3 := auditLevels s2
  if seq % 4096 = 4095 then checkpointDue seq s3 else s3

/-! ### The persistence journal (R390, R391) -/

/-- The areas of the boot flash; what lies beyond them is reserved and not written (R390). -/
inductive FlashArea where
  | header
  | slotA
  | slotB
  | settings
  | journal
  deriving DecidableEq, Repr

/-- Where an area begins, and its size, in bytes (R390). -/
def flashOffset : FlashArea → Nat
  | .header => 0
  | .slotA => 0x10000
  | .slotB => 0xC10000
  | .settings => 0x1810000
  | .journal => 0x1A10000

def flashSize : FlashArea → Nat
  | .header => 0x10000
  | .slotA => 0xC00000
  | .slotB => 0xC00000
  | .settings => 0x200000
  | .journal => 0x400000

/-- The sectors of 4 KiB of an area. -/
def flashSectors (a : FlashArea) : Nat := flashSize a / 4096

/-- Sectors are erased ahead, round-robin, so that a record of sixteen pages still leaves 64 KiB erased. -/
def eraseAhead : Nat → Journal → Journal
  | 0, j => j
  | fuel + 1, j =>
    if 272 ≤ j.erased then j
    else
      let k := (j.page + j.erased) / 16 % flashSectors .journal
      eraseAhead fuel { j with erased := j.erased + 16, erases := spInsert j.erases k ((spFind j.erases k).getD 0 + 1) }

/-- The pages of a record: one to sixteen, which is 4 KiB; the spec states no length (R391; log entry 160). -/
def recordPages (n : Nat) : Nat := 1 + Config.recordPages n % 16

/-- A record is programmed into the next pages of the journal (R391). -/
def journalWrite (s : State) : State :=
  let j := s.trust.journal
  let n := recordPages j.records
  { s with trust.journal := eraseAhead 16 { j with page := (j.page + n) % (16 * flashSectors .journal), erased := j.erased - n, records := j.records + 1 } }

/-- The highest erase count of the journal's sectors (R481). -/
def journalWear (s : State) : Nat := s.trust.journal.erases.foldl (fun a x => max a x.2) 0

/-! ### The fault collector's record of one event (R430, R438 to R440) -/

/-- Source numbers of R430 beyond the indexed ones. -/
def srcChamoisIdle : Nat := 16
def srcLineFeedback (line : Nat) : Nat := 17 + line
def srcPtabFull : Nat := 21
def srcProductExpired : Nat := 22
def srcLedgerBreak : Nat := 23
def srcScheduler : Nat := 24
def srcImageData : Nat := 25
def srcMarkFabric : Nat := 26
def srcHeadPort : Nat := 27
def srcMemCe : Nat := 28
def srcMemUe : Nat := 29
def srcDdrUe : Nat := 30
def srcSupervisor : Nat := 31
def srcTrust : Nat := 32
def srcCeSafe : Nat := 33
def srcMcTrip : Nat := 34
def srcBusChop : Nat := 35
def srcMove : Nat := 36
def srcSupplyWarn : Nat := 37
def srcRail : Nat := 38
def srcThermal : Nat := 39
def srcClock : Nat := 40
def srcTime : Nat := 41
def srcAudit : Nat := 42
def srcFlash : Nat := 43
def srcOcing : Nat := 44
def srcHostLink : Nat := 45
def srcAgeing : Nat := 46
def srcCal : Nat := 47

/-- Reaction classes in their order (R433). -/
def clsNote : Nat := 0
def clsFlag : Nat := 1
def clsTakeover : Nat := 2
def clsHeadLost : Nat := 3
def clsLineSafe : Nat := 4
def clsDeviceSafe : Nat := 5

/-- The FLT_HIST registers show the oldest entry, and zero where there is none (R439, R442). -/
def showHist (s : State) : State :=
  let s1 := setF fFLT_HIST_STAT_DEPTH s.flt.hist.length s
  match s.flt.hist with
  | [] => s1.setReg (rFLT_HIST0) 0 |>.setReg (rFLT_HIST1) 0 |>.setReg (rFLT_HIST2) 0 |>.setReg (rFLT_HIST3) 0
  | h :: _ =>
    let s2 := setF fFLT_HIST0_SOURCE h.source (setF fFLT_HIST0_CLASS h.cls (setF fFLT_HIST0_ESCALATED (if h.escalated then 1 else 0)
      (setF fFLT_HIST0_DETAIL h.detail (setF fFLT_HIST0_SEQ h.seq s1))))
    s2.setReg (rFLT_HIST1) h.time |>.setReg (rFLT_HIST2) h.pos |>.setReg (rFLT_HIST3) h.tick

/-- One entry is appended to the fault history; a full history loses its oldest entry (R439). -/
def recordFault (src cls : Nat) (escalated : Bool) (detail : Nat) (s : State) : State :=
  let h : Hist := { source := src, cls, escalated, detail, seq := s.flt.seq % 65536, time := s.reg rTRU_TIME,
                    pos := s.reg (rTRK_LINE_POS 0), tick := now s }
  let s1 := if s.flt.hist.length < 32 then { s with flt.hist := s.flt.hist ++ [h] }
            else incSat fFLT_HIST_STAT_LOST { s with flt.hist := s.flt.hist.drop 1 ++ [h] }
  showHist { s1 with flt.seq := s.flt.seq + 1 }

/-- FAULT_L is low while its pulse runs, HOLD is set, or a stopped start holds it (R385, R440, R450). -/
def showPin (s : State) : State := setB fFLT_PIN_HOLD_LEVEL (s.flt.pulse || s.flt.held || getB fFLT_PIN_HOLD_HOLD s) s

/-- The collector takes an event: it latches the source, records it, drives FAULT_L unless masked, sets HOLD for a class at or
above HOLD_CLASS and posts the FAULT event (R430, R439, R440). The class is the one applied; LINE_SAFE and above start the
confirmation time of a trial again (R427). -/
def raiseSimple (src cls : Nat) (escalated : Bool) (detail : Nat) (s : State) : State :=
  let was := (getF fFLT_STATUS_STATUS s).testBit src
  let masked := (getF fFLT_PIN_MASK_MASK s).testBit src
  let s1 := noteRaised fFLT_ACTIVE_ACTIVE src <| noteRaised fFLT_STATUS_STATUS src (setF fFLT_STATUS_STATUS (getF fFLT_STATUS_STATUS s ||| 2 ^ src) s)
  let s2 := recordFault src cls escalated detail s1
  let s3 := doIf (decide (getF fFLT_PIN_HOLD_HOLD_CLASS s2 ≤ cls)) (setB fFLT_PIN_HOLD_HOLD true) s2
  let s4 := if masked then s3 else { s3 with flt.pulse := true }
  let s5 := doIf (decide (clsLineSafe ≤ cls)) (fun t => { t with primer.trialFrom := now t })
    (doIf (!masked && !was) (signalVector 6) (showPin s4))
  postEvent 0x82 (leBytes 1 src ++ leBytes 1 cls ++ leBytes 6 (now s5).toNat) s5

/-- Append an entry to the audit chain and raise the AUDIT source where HIGH or FULL rises (R142, R145). A TAIL_LOST entry that a
drop has made due comes first when the ring has a free entry again. -/
def auditAppend (e : AuditEntry) (s : State) : State :=
  let high := getB fTRU_AUDIT_STAT_HIGH s
  let full := getB fTRU_AUDIT_STAT_FULL s
  let s1 := auditAppendRaw e s
  let s2 := doIf (!high && getB fTRU_AUDIT_STAT_HIGH s1) (raiseSimple srcAudit clsNote false 1) s1
  doIf (!full && getB fTRU_AUDIT_STAT_FULL s2) (raiseSimple srcAudit clsFlag false 2) s2

/-! ### Trust in the secure clock (R127) -/

/-- Code of a cause (R127). -/
def trustCode : TrustCause → Nat
  | .unset => 1
  | .hint => 2
  | .osc => 3

/-- The causes that hold decide TRUSTED and CAUSE, which shows the lowest code of those that hold (DESIGN CHOICE, log entry 158); a change of trust state is appended to the chain, and a loss of trust is raised as TIME
(R127, R430). -/
def setCauses (l : List TrustCause) (s : State) : State :=
  let was := getB fTRU_TSTAT_TRUSTED s
  let code := ([TrustCause.unset, .hint, .osc].find? fun c => l.contains c).map trustCode |>.getD 0
  let s1 := setF fTRU_TSTAT_CAUSE code (setB fTRU_TSTAT_TRUSTED l.isEmpty { s with trust.causes := l })
  let s2 := if was = l.isEmpty then s1 else auditAppend { type := 7 } s1
  if was ∧ !l.isEmpty then raiseSimple srcTime clsNote false code s2 else s2

end Sys2Proof.Machine
end

