-- ==== Sys2Proof/Machine/Product.lean ====
section
/-! DEFINITION. Products, mark jobs, position events and ledgers: the shared operations of the scheduler (R80 to R115), and what
a closure does in the trust domain (R138, R142). -/

namespace Sys2Proof.Machine

/-! ### Roundings -/

/-- A quotient where the spec states no rounding: exact where it divides, otherwise one of the two neighbouring integers, chosen by a
free value. -/
def roundOpen (n : Int) (d : Nat) : Int :=
  let q := n / (d : Int)
  if n % (d : Int) = 0 then q else if Config.roundsUp n d then q + 1 else q

/-! ### Codes -/

/-- The product state's code (R75). -/
def pstateCode : PState → Nat
  | .inFlight => 1 | .markedOk => 2 | .markedFlagged => 3 | .rejected => 4

/-- The cause's code (R75). -/
def causeCode : Cause → Nat
  | .none => 0 | .notArmed => 1 | .overspeed => 2 | .timeUntrusted => 3 | .headLost => 4 | .lineSafe => 5 | .brownout => 6
  | .feedbackLost => 7

/-- The cause a code names. -/
def causeOfCode : Nat → Cause
  | 1 => .notArmed | 2 => .overspeed | 3 => .timeUntrusted | 4 => .headLost | 5 => .lineSafe | 6 => .brownout
  | 7 => .feedbackLost | _ => .none

/-- Place of a cause in the order of R15, first first. -/
def causeRank : Cause → Nat
  | .lineSafe => 0 | .brownout => 1 | .feedbackLost => 2 | .timeUntrusted => 3 | .headLost => 4 | .overspeed => 5 | .notArmed => 6
  | .none => 7

/-- The first applicable cause of two in the order of R15. -/
def firstCause (a b : Cause) : Cause := if causeRank b < causeRank a then b else a

/-- Flags of a product or job (R75, R96): bit numbers of STRETCH_OVER, COLUMN_MISSED, DEAD_RECKONED, HEAD_LOST_MID, REVERSAL_LIMIT. -/
def flagStretchOver : Nat := 1
def flagColumnMissed : Nat := 2
def flagDeadReckoned : Nat := 4
def flagHeadLostMid : Nat := 8
def flagReversalLimit : Nat := 16

/-- The states ARMED, RESIDENT, RELEASED and STARTED are a job's open states (R100). -/
def jobOpen : JState → Bool
  | .armed | .resident | .released | .started => true
  | _ => false

/-! ### The ledgers (R27, R37, R112) -/

/-- A line's live counters, read from the copy that stands (R37). -/
def ledger (n : Nat) (s : State) : Ledger :=
  if s.sch.copyLost = some 0 then s.sch.mirror.getD n {} else s.sch.ledgers.getD n {}

/-- The two copies of a line's counters differ (R37). -/
def ledgersDiffer (n : Nat) (s : State) : Bool := s.sch.copyLost.isNone && decide (s.sch.ledgers.getD n {} ≠ s.sch.mirror.getD n {})

/-- Both copies of a line's counters take the same update; a lost copy waits for its rebuild (R37). -/
def modLedger (n : Nat) (f : Ledger → Ledger) (s : State) : State :=
  let x := f (ledger n s)
  { s with
    sch.ledgers := if s.sch.copyLost = some 0 then s.sch.ledgers else s.sch.ledgers.set n x
    sch.mirror := if s.sch.copyLost = some 1 then s.sch.mirror else s.sch.mirror.set n x }

/-- A confirmed capture counts DETECTED and IN_FLIGHT (R73). -/
def countDetected (l : Ledger) : Ledger := { l with det := l.det + 1, inf := l.inf + 1 }

/-- A closure moves one product from IN_FLIGHT to its closed state and its cause counter (R14, R112). -/
def countClosed (st : PState) (c : Cause) (l : Ledger) : Ledger :=
  let l1 := { l with inf := l.inf - 1 }
  match st with
  | .inFlight => l
  | .markedOk => { l1 with ok := l1.ok + 1 }
  | .markedFlagged => { l1 with flag := l1.flag + 1 }
  | .rejected =>
    let l2 := { l1 with rej := l1.rej + 1 }
    match c with
    | .notArmed | .none => { l2 with c1 := l2.c1 + 1 }
    | .overspeed => { l2 with c2 := l2.c2 + 1 }
    | .timeUntrusted => { l2 with c3 := l2.c3 + 1 }
    | .headLost => { l2 with c4 := l2.c4 + 1 }
    | .lineSafe => { l2 with c5 := l2.c5 + 1 }
    | .brownout => { l2 with c6 := l2.c6 + 1 }
    | .feedbackLost => { l2 with c7 := l2.c7 + 1 }

/-- The line's next product number, kept beside its counters and shown in SCH_LINEn_NEXT_PNUM (R79). -/
def setNextPnum (n : Nat) (p : Word) (s : State) : State :=
  setF (fSCH_LINE_NEXT_PNUM_PNUM n) p.toNat (modLedger n (fun l => { l with nextPnum := p }) s)

/-- A line's ledger can no longer be shown to hold: a BREAK entry, and the ledger restarts from zero (R39). A product that is in flight then
is counted in the new ledger neither as detected nor when it closes (DESIGN CHOICE, log entry 189). -/
def ledgerBreak (n : Nat) (s : State) : State :=
  let s1 := setNextPnum n 0 (modLedger n (fun _ => {}) (auditAppend { type := 5, line := n } s))
  raiseSimple srcLedgerBreak clsFlag false n { s1 with
    sch.ptab := s1.sch.ptab.map fun x => if x.2.line = n ∧ x.2.hosted.isNone then (x.1, { x.2 with counted := false }) else x }

/-- The two copies of a line's counters are compared at an update; where they differ its ledger breaks before the update (R37, R39). -/
def compareLedger (n : Nat) (s : State) : State := if ledgersDiffer n s then ledgerBreak n s else s

/-! ### Tables (R75, R80, R96) -/

/-- A product table entry. -/
def product (i : Nat) (s : State) : Option Product := spFind s.sch.ptab i

/-- The entries of the product table (R75). A product whose entry was released while it was still IN_FLIGHT (R105) keeps its data until
it closes, under a key outside the table. -/
def ptabSize : Nat := 2048

/-- The entries of the product table in use. -/
def ptabUsed (s : State) : Nat := (s.sch.ptab.filter fun x => decide (x.1 < ptabSize)).length

/-- TRK_PTAB_STAT follows the product table. -/
def showPtab (s : State) : State :=
  maxF fTRK_PTAB_STAT_PEAK (ptabUsed s) (setF fTRK_PTAB_STAT_USED (ptabUsed s) s)

def putProduct (i : Nat) (p : Product) (s : State) : State := showPtab { s with sch.ptab := spInsert s.sch.ptab i p }

def modProduct (i : Nat) (f : Product → Product) (s : State) : State := { s with sch.ptab := spMod s.sch.ptab i f }

/-- A job table entry. -/
def job (j : Nat) (s : State) : Option Job := spFind s.sch.jobs j

/-- SCH_STAT follows the job table. -/
def showJobs (s : State) : State :=
  maxF fSCH_STAT_JOBS_PEAK s.sch.jobs.length (setF fSCH_STAT_JOBS_USED s.sch.jobs.length s)

def putJob (j : Nat) (x : Job) (s : State) : State := showJobs { s with sch.jobs := spInsert s.sch.jobs j x }

def modJob (j : Nat) (f : Job → Job) (s : State) : State := { s with sch.jobs := spMod s.sch.jobs j f }

/-- SCH_STAT follows the position event table. -/
def showPet (s : State) : State :=
  maxF fSCH_STAT_PET_PEAK s.sch.pet.length (setF fSCH_STAT_PET_USED s.sch.pet.length s)

/-- The entries of the position event table (R80) and of the job table (R96). -/
def petSize : Nat := 8192
def jobSize : Nat := 512

/-- Free entries of a table. -/
def petFree (s : State) : Nat := petSize - s.sch.pet.length

/-- Place an event in the lowest free entry of the position event table, in insertion order (R80, R84). Where the table is full the event is
lost: a product closed for want of entries (R92) then has no REJ_GATE, and its table entry is released by expiry (DESIGN CHOICE, log entry
167). -/
def petInsert (e : Event) (s : State) : State :=
  match spFree s.sch.pet petSize 0 with
  | none => s
  | some i => showPet { s with sch.pet := spInsert s.sch.pet i { e with seq := s.sch.seq }, sch.seq := s.sch.seq + 1 }

/-- Free an entry of the position event table. -/
def petErase (i : Nat) (s : State) : State := showPet { s with sch.pet := spErase s.sch.pet i }

/-- Free every entry of the position event table that meets a test. -/
def petDrop (p : Event → Bool) (s : State) : State := showPet { s with sch.pet := s.sch.pet.filter fun e => !p e.2 }

/-- READY_BY, START_CHK and END_CHK name a job. -/
def isJobEvent (e : Event) : Bool := e.type == .readyBy || e.type == .startChk || e.type == .endChk

/-- The jobs of a product that are not FREE. -/
def jobsOf (p : Product) (s : State) : List (Nat × Job) := s.sch.jobs.filter fun x => decide (x.2.prod = p.seq)

/-! ### Serial numbers (R30, R138) -/

/-- A counter slot, read from the copy that stands (R37). -/
def counter (k : Nat) (s : State) : Option Counter :=
  spFind (if s.trust.copyLost = some 0 then s.trust.mirror else s.trust.counters) k

/-- The two copies of a counter slot are compared (R37, R39). -/
def countersDiffer (k : Nat) (s : State) : Bool := s.trust.copyLost.isNone && decide (spFind s.trust.counters k ≠ spFind s.trust.mirror k)

/-- Both copies of a counter slot take the same value; a lost copy waits for its rebuild (R37). -/
def putCounter (k : Nat) (c : Counter) (s : State) : State :=
  { s with
    trust.counters := if s.trust.copyLost = some 0 then s.trust.counters else spInsert s.trust.counters k c
    trust.mirror := if s.trust.copyLost = some 1 then s.trust.mirror else spInsert s.trust.mirror k c }

/-- A counter's ledger can no longer be shown to hold: a BREAK entry, and no number is issued until a re-base (R39). -/
def counterBreak (k : Nat) (s : State) : State :=
  let s1 := auditAppend { type := 5, slot := k } s
  raiseSimple srcLedgerBreak clsFlag false (0x10 + k) (match counter k s1 with
    | some c => putCounter k { c with state := .broken } s1
    | none => s1)

/-- The two copies of a counter slot are compared at an update; where they differ its ledger breaks before the update (R37, R39). -/
def compareCounter (k : Nat) (s : State) : State := if countersDiffer k s then counterBreak k s else s

def modCounter (k : Nat) (f : Counter → Counter) (s : State) : State :=
  let s1 := compareCounter k s
  match counter k s1 with
  | some c => putCounter k (f c) s1
  | none => s1

/-- One number moves from RESERVED to PRINTED. -/
def countPrinted (c : Counter) : Counter :=
  if c.reserved = 0 then c else { c with reserved := c.reserved - 1, printed := c.printed + 1 }

/-- One number moves from RESERVED to VOIDED. -/
def countVoided (c : Counter) : Counter :=
  if c.reserved = 0 then c else { c with reserved := c.reserved - 1, voided := c.voided + 1 }

/-- The serial of a composition. -/
def composeSerial : Compose → Option Serial
  | .done f => f.serial
  | _ => none

/-- The composition with its serial where it now stands. -/
def withSerial (x : Serial) : Compose → Compose
  | .done f => .done { f with serial := some x }
  | c => c

/-- A product's first first-emission report moves its serial to PRINTED (R138); the product may already have released its table
entry. A number once PRINTED or VOIDED stays so. -/
def printSerial (prod : Nat) (s : State) : State :=
  match s.sch.ptab.find? fun x => decide (x.2.seq = prod) with
  | some (i, p) =>
    match composeSerial p.compose with
    | some x =>
      if x.state = .reserved then
        modProduct i (fun q => { q with compose := withSerial { x with state := .printed } q.compose }) (modCounter x.slot countPrinted s)
      else s
    | none => s
  | none =>
    match s.sch.unsettled.find? fun x => decide (x.1 = prod) with
    | some (_, x) =>
      modCounter x.slot countPrinted { s with sch.unsettled := s.sch.unsettled.filter fun y => decide (y.1 ≠ prod) }
    | none => s

/-- A job that may still emit a column for its product: its sequencer has not yet stopped it (R138). -/
def mayEmit (prod : Nat) (s : State) : Bool := s.sch.jobs.any fun x => decide (x.2.prod = prod) && x.2.stopping

/-- The serial of a closed product moves to VOIDED once no sequencer may still emit for it (R138). -/
def settleSerial (i : Nat) (s : State) : State :=
  match product i s with
  | some p =>
    match composeSerial p.compose with
    | some x =>
      if x.state = .reserved ∧ p.state ≠ .inFlight ∧ mayEmit p.seq s = false then
        modProduct i (fun q => { q with compose := withSerial { x with state := .voided } q.compose }) (modCounter x.slot countVoided s)
      else s
    | none => s
  | none => s

/-- The serials of products whose table entry is gone settle in the same way (R138). -/
def settleGone (s : State) : State :=
  let go := s.sch.unsettled.filter fun x => !mayEmit x.1 s
  forAll go (fun x => modCounter x.2.slot countVoided)
    { s with sch.unsettled := s.sch.unsettled.filter fun x => mayEmit x.1 s }

/-! ### Freeing jobs and releasing entries (R96, R105) -/

/-- A job becomes FREE once its product has closed, its last event has been dispatched and its sequencer has stopped (R76, R96). -/
def jobDone (s : State) (x : Nat × Job) : Bool :=
  !jobOpen x.2.state && !x.2.stopping &&
  !(s.sch.ptab.any fun y => decide (y.2.seq = x.2.prod) && decide (y.2.state = .inFlight)) &&
  !(s.sch.pet.any fun e => isJobEvent e.2 && decide (e.2.job = x.1))

/-- Free every job that is done, and settle the serials that wait only for a sequencer (R96, R138). -/
def tidy (s : State) : State :=
  let s1 := settleGone (forAll (s.sch.ptab.map (·.1)) settleSerial s)
  showJobs { s1 with sch.jobs := s1.sch.jobs.filter fun x => !jobDone s1 x }

/-- The key of a product whose entry `i` was released before it closed. -/
def departedKey (i : Nat) (p : Product) : Nat := i % ptabSize + ptabSize * (p.seq + 1)

/-- Release a product table entry (R19, R105). A serial that may still be printed is kept in sight. The entry of a product still
IN_FLIGHT is free at once, and the product's own data, its jobs and their events go on under a key outside the table. -/
def releaseEntry (i : Nat) (s : State) : State :=
  match product i s with
  | none => s
  | some p =>
    if p.state = .inFlight then
      let k := departedKey i p
      showPtab { s with
        sch.ptab := spInsert (spErase s.sch.ptab i) k p
        sch.jobs := s.sch.jobs.map fun x => if x.2.prod = p.seq then (x.1, { x.2 with ptab := k }) else x
        sch.pet := s.sch.pet.map fun x => if x.2.ptab = i ∧ x.2.host = false ∧ x.2.noent = false ∧ x.2.type ≠ .rejOff then
          (x.1, { x.2 with ptab := k }) else x }
    else
    let s1 := settleSerial i s
    let keep := match (product i s1).bind fun q => composeSerial q.compose with
      | some x => if x.state = .reserved then [(p.seq, x)] else []
      | none => []
    showPtab { s1 with sch.ptab := spErase s1.sch.ptab i, sch.unsettled := s1.sch.unsettled ++ keep }

/-! ### Closing a product (R14, R100) -/

/-- The image of the stencil a handle names, where the handle is not stale (R117). -/
def stencilOf (handle : Nat) (s : State) : Option (List Byte) :=
  let slot := s.trust.stencils.getD (handle % 32) {}
  if handle / 32 = slot.gen then slot.image else none

/-- Fields encoded as in M of R141 without the prefix: index, length, characters. -/
def encodeFields (l : List (Nat × List Byte)) : List Byte :=
  l.flatMap fun x => leBytes 1 x.1 ++ leBytes 1 x.2.length ++ x.2

/-- The CLOSE entry of a product (R142). -/
def closeEntry (p : Product) (s : State) : AuditEntry :=
  let img := (stencilOf p.stencil s).getD []
  let fs := match p.compose with
    | .done f => some f
    | _ => none
  { type := 2, line := p.line, state := pstateCode p.state, cause := causeCode p.cause, pnum := p.pnum.toNat,
    revision := leAt img 16 2, stencilId := leAt img 12 4,
    slot := ((fs.bind (·.serial)).map (·.slot)).getD 0xFF,
    serial := ((fs.bind (·.serial)).map (·.value)).getD 0,
    aux := p.date.toNat, flags := p.flags,
    digest := match fs with
      | some f => (sha256 (encodeFields f.texts)).take 16
      | none => [] }

/-- The payload of PRODUCT_CLOSED and CLOSED (R360, R364). -/
def closedPayload (p : Product) (tick : Word) : List Byte :=
  leBytes 1 p.line ++ leBytes 1 (pstateCode p.state) ++ leBytes 1 (causeCode p.cause) ++ leBytes 1 p.flags ++
  leBytes 6 p.pnum.toNat ++ leBytes 6 p.dpos.toNat ++ leBytes 6 tick.toNat

/-- State of an Ocing port, 0 upstream and 1 downstream: 0 DOWN, 1 TRAINING, 2 ISOLATED, 3 ACTIVE (R368, R376). -/
def oclStateField (p : Nat) : Field := if p = 0 then fOCL_STAT_UP else fOCL_STAT_DN
def oclState (p : Nat) (s : State) : Nat := getF (oclStateField p) s

def oclPort (p : Nat) (s : State) : OclPort := s.ocl.ports.getD p {}
def modOclPort (p : Nat) (f : OclPort → OclPort) (s : State) : State := { s with ocl.ports := s.ocl.ports.set p (f (oclPort p s)) }

/-- ACK, ECHO, POS and EPOCH are not reliable (R367). -/
def oclReliable (type : Nat) : Bool := !([0x01, 0x03, 0x10, 0x11].contains type)

/-- A frame's body leaves on a port, with the CRC-32C of R366. -/
def sendBody (p : Nat) (body : List Byte) (s : State) : State := send (.ocing p (body ++ leBytes 4 (crc32c body))) s

/-- A frame leaves on a port: HELLO, ECHO and ACK in TRAINING too, every other frame on an ACTIVE port only. A reliable frame takes the
port's next LSEQ and is kept until it is acknowledged (R366 to R368). -/
def sendFrom (p type src dst : Nat) (payload : List Byte) (s : State) : State :=
  if oclState p s = 3 ∨ (oclState p s = 1 ∧ type ≤ 3) then
    let n := (oclPort p s).lseq
    let body := leBytes 1 type ++ leBytes 1 src ++ leBytes 1 dst ++ leBytes 1 (if oclReliable type then n else 0) ++ payload
    let s1 := if oclReliable type then
        modOclPort p (fun x => { x with lseq := (n + 1) % 256, unacked := x.unacked ++ [{ lseq := n, body := body, tries := 0 }] }) s
      else s
    sendBody p body s1
  else s

/-- A frame of this unit. -/
def sendOcing (p type dst : Nat) (payload : List Byte) (s : State) : State := sendFrom p type (getF fOCL_CFG_UNIT_ID s) dst payload s

/-- What follows a closure outside the ledger: the CLOSE entry, the event and message, or RESULT to the detecting unit for a
product of another unit's ledger (R100, R142, R360, R364, R372). -/
def closureReports (p : Product) (s : State) : State :=
  let s1 := auditAppend (closeEntry p s) s
  match p.hosted with
  | some (unit, line, pnum) =>
    sendOcing 0 0x24 unit (leBytes 1 unit ++ leBytes 1 line ++ leBytes 6 pnum ++ leBytes 1 (pstateCode p.state) ++
      leBytes 1 (causeCode p.cause) ++ leBytes 1 p.flags) s1
  | none =>
    let s2 := postEvent 0x80 (closedPayload p (now s)) s1
    doIf (getB fLNP_STATPER_CLOSED_EN s2) (sendLineMessage 4 p.line (closedPayload p (now s))) s2

/-- Before a closure the copies of its line's counters are compared (R37). -/
def compareFor (i : Nat) (s : State) : State :=
  match product i s with
  | some p => if p.state = .inFlight ∧ p.hosted.isNone then compareLedger p.line s else s
  | none => s

/-- The product closes: exactly once, from IN_FLIGHT, in its table entry and in the ledger in the same tick (R14, R100). -/
def closeProduct (i : Nat) (st : PState) (c : Cause) (s0 : State) : State :=
  let s := compareFor i s0
  match product i s with
  | none => s
  | some p =>
    if p.state ≠ .inFlight then s else
    let flags := (jobsOf p s).foldl (fun a x => a ||| x.2.flags) p.flags
    let q := { p with state := st, cause := c, flags := flags, closeTick := now s }
    let s1 := modProduct i (fun _ => q) s
    let s2 := if p.hosted.isNone ∧ p.counted then modLedger p.line (countClosed st c) s1 else s1
    tidy (doIf (decide (ptabSize ≤ i)) (releaseEntry i) (closureReports q s2))

/-- The cause a product closes with: the first of its jobs' causes in the order of R15, with the remote part's (R100, R372). -/
def closingCause (p : Product) (js : List (Nat × Job)) : Cause :=
  let own := js.foldl (fun a x => if x.2.state = .notStarted then firstCause a x.2.cause else a) .none
  match p.remote with
  | .ended .notStarted c => firstCause own c
  | _ => own

/-- The remote part of a product is still open (R372). -/
def remoteOpen : Remote → Bool
  | .due | .offered | .accepted _ | .away => true
  | _ => false

/-- The product closes in the tick in which none of its jobs is open any more (R100). -/
def closeIfDone (i : Nat) (s : State) : State :=
  match product i s with
  | none => s
  | some p =>
    let js := jobsOf p s
    if p.state ≠ .inFlight ∨ js.any (fun x => jobOpen x.2.state) ∨ remoteOpen p.remote then s else
    let remoteOut := match p.remote with
      | .ended o _ => some o
      | _ => none
    if js.any (fun x => decide (x.2.state = .notStarted)) ∨ remoteOut = some .notStarted then
      closeProduct i .rejected (closingCause p js) s
    else if js.any (fun x => decide (x.2.state = .closedFlagged)) ∨ remoteOut = some .closedFlagged then
      closeProduct i .markedFlagged .none s
    else closeProduct i .markedOk .none s

/-! ### Head paths as the scheduler sees them (R221, R225) -/

def path (h : Nat) (s : State) : Path := s.paths.getD h {}
def setPath (h : Nat) (p : Path) (s : State) : State := { s with paths := s.paths.set h p }
def modPath (h : Nat) (f : Path → Path) (s : State) : State := setPath h (f (path h s)) s

/-- The sequencer that drives a head (R220, R254). -/
def driver (h : Nat) (s : State) : Nat := getF (fSQ_BIND_PARTNER h) s

/-- STATE of a sequencer in its status register: 0 STOPPED, 1 IDLE, 2 RUNNING, 3 FAULTED (R199). -/
def sqState (n : Nat) (s : State) : Nat := getF (fSQ_STAT_STATE n) s

/-- What falls due when a path has no job left: a home sequencer takes the STOP that was pending (R223), and a give-back that was asked for
begins (R250). -/
def pathEmptied (h : Nat) (s : State) : State :=
  let p := path h s
  if p.cur.isSome ∨ !p.queue.isEmpty then s
  else
    let s1 := if getB (fSQ_STAT_STOP_PEND h) s then setB (fSQ_STAT_STOP_PEND h) false (setF (fSQ_STAT_STATE h) 0 s) else s
    if p.giveback ∧ p.takeover.isNone ∧ driver h s ≠ h ∧ sqState h s1 = 1 then setPath h { path h s1 with giving := true } s1 else s1

/-- SQn_JOB and SQn_LB show the path's jobs and its buffered columns (R254). -/
def showPath (h : Nat) (s : State) : State :=
  let p := path h s
  let s1 := setF (fSQ_JOB_CUR h) (p.cur.getD 0) (setB (fSQ_JOB_CUR_V h) p.cur.isSome s)
  let s2 := setF (fSQ_JOB_NEXT h) (p.queue.headD 0) (setB (fSQ_JOB_NEXT_V h) (!p.queue.isEmpty) s1)
  let half := match p.cur with
    | some j => if p.halves.getD 1 none = some j then 1 else 0
    | none => 0
  pathEmptied h (setF (fSQ_LB_HALF h) half (setF (fSQ_LB_BUFFERED h) p.buf.length s2))

/-- The job's columns still in the line buffer are consumed and skipped, and its half becomes free (R224, R229). -/
def discardColumns (h j : Nat) (s : State) : State :=
  let p := path h s
  let n := (p.buf.filter fun c => decide (c.job = j)).length
  let p1 := { p with buf := p.buf.filter fun c => decide (c.job ≠ j),
                     halves := p.halves.map fun o => if o = some j then none else o }
  showPath h (addSat (fSQ_COLCNT_SKIPPED h) n (addMod (fSQ_CRED_CONSUMED h) n (setPath h p1 s)))

/-- Take a job that no longer runs off its path: a queued or not yet released job leaves at once; the running job is stopped by its
sequencer at its next column boundary (R206). -/
def leavePath (j : Nat) (s : State) : State :=
  match job j s with
  | none => s
  | some x =>
    if (path x.head s).cur = some j then modJob j (fun y => { y with stopping := true }) s
    else
      let s1 := modPath x.head (fun p => { p with queue := p.queue.filter fun k => decide (k ≠ j) }) s
      modJob j (fun y => { y with half := none, ended := true }) (discardColumns x.head j s1)

/-- Take an unstarted job of a lost head off its path at once: its half and its columns there are released in the tick, and a sequencer
that had begun on it goes to IDLE (R111, R229; log entry 169). -/
def quitPath (j : Nat) (s : State) : State :=
  match job j s with
  | none => s
  | some x =>
    if (path x.head s).cur = some j then
      let s1 := discardColumns x.head j s
      let n := driver x.head s1
      let q := s1.sqs.getD n {}
      let s2 := { s1 with sqs := s1.sqs.set n { q with core := { q.core with wait := .none }, crIdx := none } }
      let s3 := if sqState n s2 = 2 then setF (fSQ_STAT_STATE n) 1 s2 else s2
      modJob j (fun y => { y with half := none, ended := true })
        (showPath x.head (setPath x.head { path x.head s3 with cur := none, spent := [] } s3))
    else leavePath j s

/-- REN_ALLOC follows the granules in use. -/
def showAlloc (s : State) : State :=
  maxF fREN_ALLOC_PEAK s.ren.granules.length (setF fREN_ALLOC_USED s.ren.granules.length s)

/-- BAR0 address of an image header, from its granule (R96, R171). -/
def imageAddr (g : Nat) : Nat := 0x1000000 + 256 * g

/-- An image is freed when the last job sharing it closes or becomes NOT_STARTED (R172); jobs that still name it then have no image (R96). -/
def freeImages (s : State) : State :=
  let used := (s.sch.jobs.filterMap fun x => if jobOpen x.2.state ∧ x.2.image ≠ 0 then some ((x.2.image - 0x1000000) / 256) else none) ++
    s.ren.made.map (·.header)
  let gone (x : Job) : Bool := decide (x.image ≠ 0) && !used.contains ((x.image - 0x1000000) / 256)
  showAlloc { s with
    sch.jobs := s.sch.jobs.map fun x => if gone x.2 then (x.1, { x.2 with image := 0 }) else x
    ren.granules := s.ren.granules.filter fun g => used.contains g.2
    ren.toCompress := s.ren.toCompress.filter fun b => used.contains b.1
    ren.listed := s.ren.listed.filter fun g => used.contains g
    ren.damaged := s.ren.damaged.filter fun g => used.contains g }

/-- A render serves an open job of its product: one that has no image yet, or where an image is rendered again, its job and every job that
shares the damaged image (R165, R169, R175). -/
def rendersFor (r : RenderReq) (x : Nat × Job) : Bool :=
  jobOpen x.2.state && decide (x.2.prod = r.prod) && match r.only with
  | none => decide (x.2.image = 0)
  | some j => decide (j = x.1) || (decide (r.image ≠ 0) && decide (x.2.image = r.image))

/-- REN_STAT QUEUE and its peak follow the products that await render. -/
def showRenders (s : State) : State :=
  maxF fREN_STAT_QUEUE_PEAK s.ren.queue.length (setF fREN_STAT_QUEUE s.ren.queue.length s)

/-- Renders whose jobs have all become NOT_STARTED or closed leave the queue (R169), and images that no open job shares are freed. -/
def dropRenders (s : State) : State :=
  freeImages (showRenders { s with ren.queue := s.ren.queue.filter fun r => s.sch.jobs.any (rendersFor r) })

/-- An open job becomes NOT_STARTED with a cause (R97, R98, R109); its product may close. -/
def notStarted (j : Nat) (c : Cause) (s : State) : State :=
  match job j s with
  | none => s
  | some x =>
    if jobOpen x.state = false ∨ x.state = .started then s else
    dropRenders (leavePath j (modJob j (fun y => { y with state := .notStarted, cause := c, closeTick := now s }) s))

/-- A STARTED job is stopped at its next column boundary and set CLOSED_FLAGGED with a flag (R76, R99, R108, R109). -/
def stopFlagged (j flag : Nat) (s : State) : State :=
  match job j s with
  | none => s
  | some x =>
    if x.state ≠ .started then s else
    dropRenders (leavePath j (modJob j (fun y => { y with state := .closedFlagged, flags := y.flags ||| flag, closeTick := now s }) s))

/-- A part of a product is offered to another unit in place of HEAD_LOST on a line in mode ON_HEAD_LOST (R371). -/
def offersLost (line : Nat) (s : State) : Bool := getB (fOCL_HOFF_EN line) s && getB (fOCL_HOFF_MODE line) s

/-- A job becomes FREE without passing through NOT_STARTED: its events and its share of its path are released (R111). -/
def dropJob (j : Nat) (s : State) : State :=
  let s1 := petDrop (fun e => isJobEvent e && decide (e.job = j)) (quitPath j s)
  match job j s1 with
  | none => s1
  | some x =>
    let s2 := modProduct x.ptab (fun p => if p.seq = x.prod then { p with jobs := p.jobs &&& (0xFFFF ^^^ 2 ^ x.head) } else p) s1
    dropRenders (showJobs { s2 with sch.jobs := spErase s2.sch.jobs j })

/-- The part of a product that another unit was to mark has no outcome: the product closes REJECTED with cause HEAD_LOST at once (R372, R373).
Its own jobs that have not started become NOT_STARTED; a started one runs on to its end (DESIGN CHOICE, log entry 190). -/
def closeUnmarked (i : Nat) (s : State) : State :=
  match product i s with
  | none => s
  | some p =>
    let s1 := modProduct i (fun q => { q with remote := .ended .notStarted .headLost }) s
    closeProduct i .rejected .headLost (forAll (jobsOf p s1) (fun x => notStarted x.1 .headLost) s1)

/-- A product whose unstarted jobs may still be left to another unit: no part of it is offered yet, or the offered part is still open. -/
def mayOffer (p : Product) : Bool := p.hosted.isNone && (decide (p.remote = .none) || remoteOpen p.remote)

/-- An unstarted job that its head's loss leaves without a head: NOT_STARTED with cause HEAD_LOST, or its product is offered
downstream in mode ON_HEAD_LOST (R109, R371). -/
def headLostJob (j : Nat) (s : State) : State :=
  match job j s with
  | none => s
  | some x =>
    if offersLost x.line s ∧ ((product x.ptab s).any fun p => decide (p.seq = x.prod) && mayOffer p) then
      modProduct x.ptab (fun p => if p.remote = .none then { p with remote := .due } else p) (dropJob j s)
    else notStarted j .headLost s

/-! ### Reject outputs (R105, R106) -/

/-- The level and hold bits of a reject output follow its pulses, its line and its settings (R105, R106, R116). -/
def showRej (r : Nat) (s : State) : State :=
  let x := s.rej r
  let lostHeld := (x.lost || x.holdUntil.isSome) && getB (fSCH_REJ_CFG_LOST_HOLD r) s
  let active := getB (fSCH_REJ_CFG_EN r) s && (lostHeld || (!x.lost && decide (0 < x.open_ + x.timed.length)))
  setB (fSCH_REJ_STAT_LEVEL r) active (setB (fSCH_REJ_STAT_LOST_ACTIVE r) lostHeld s)

/-- A reject output follows its line into and out of POS_LOST and LINE_SAFE; on leaving, an output with LOST_HOLD stays held for
GATE_OFS counts of travel (R106). -/
def trackRej (r : Nat) (s : State) : State :=
  let n := getF (fSCH_REJ_CFG_LINE r) s
  let x := s.rej r
  let lost := getF (fTRK_LINE_STAT_STATE n) s == 4 || getB (fSCH_LINE_STAT_LINE_SAFE n) s
  let pm := s.reg (rTRK_LINE_POS n)
  let x1 :=
    if lost then { x with lost := true, holdUntil := none }
    else if x.lost then
      { x with lost := false,
               holdUntil := if getB (fSCH_REJ_CFG_LOST_HOLD r) s then some (pm + counts (getF (fSCH_REJ_GATE_GATE_OFS r) s)) else none }
    else match x.holdUntil with
      | some h => if atOrBeyond pm h then { x with holdUntil := none } else x
      | none => x
  showRej r (s.setRej r x1)

/-- Every reject output follows its line. -/
def trackRejs (s : State) : State := forAll (List.range 8) trackRej s

end Sys2Proof.Machine
end

