-- ==== Sys2Proof/Machine/Lines.lean ====
section
/-! DEFINITION. Line state, positions and the events they bring due: the shared operations of tracking (R40 to R67, R82, R83). -/

namespace Sys2Proof.Machine

/-! ### States of a line -/

/-- The state of a line: 0 OFF, 1 NORMAL, 2 HOLDING, 3 DEAD_RECKONING, 4 POS_LOST (R78). -/
def lineState (n : Nat) (s : State) : Nat := getF (fTRK_LINE_STAT_STATE n) s

def pM (n : Nat) (s : State) : Word := s.reg (rTRK_LINE_POS n)
def pRaw (n : Nat) (s : State) : Word := s.reg (rTRK_LINE_RAWPOS n)

/-- The velocity estimate in 1/256 count per second (R51, R78). -/
def velocity (n : Nat) (s : State) : Int := getI (fTRK_LINE_VEL_V n) s

/-- A line enters a state; a change is reported and the reject outputs follow it (R67, R106, R360). -/
def setLineState (n st : Nat) (s : State) : State :=
  let old := reportedState n s
  trackRejs (lineStateChanged n old (setF (fTRK_LINE_STAT_STATE n) st s))

/-- The jobs of a line. -/
def lineJobs (n : Nat) (s : State) : List (Nat × Job) := s.sch.jobs.filter fun x => decide (x.2.line = n)

/-- The products of a line that are IN_FLIGHT. -/
def lineProducts (n : Nat) (s : State) : List (Nat × Product) :=
  s.sch.ptab.filter fun x => decide (x.2.line = n) && decide (x.2.state = .inFlight)

/-- A line has a product IN_FLIGHT (R43). -/
def lineBusy (n : Nat) (s : State) : Bool := !(lineProducts n s).isEmpty || decide ((ledger n s).inf ≠ 0)

/-- Every product of a list of entries closes if none of its jobs is open any more. -/
def closeAllDone (l : List Nat) (s : State) : State := forAll l closeIfDone s

/-- Flag the STARTED jobs of a line. -/
def flagStarted (n flag : Nat) (s : State) : State :=
  forAll (lineJobs n s) (fun x => modJob x.1 fun y => if y.state = .started then { y with flags := y.flags ||| flag } else y) s

/-- Every job of a line that has not started becomes NOT_STARTED with a cause. -/
def endUnstarted (n : Nat) (c : Cause) (s : State) : State :=
  forAll (lineJobs n s) (fun x => doIf (jobOpen x.2.state && decide (x.2.state ≠ .started)) (notStarted x.1 c)) s

/-- The cause that a loss of the line's position gives: FEEDBACK_LOST, unless an earlier cause in the order of R15 is in force (R64). -/
def lossCause (n : Nat) (s : State) : Cause :=
  if getB (fSCH_LINE_STAT_LINE_SAFE n) s then .lineSafe else if getB (fSCH_LINE_STAT_BROWNOUT n) s then .brownout else .feedbackLost

/-- A line with a loss or freeze enters DEAD_RECKONING: it integrates at the last valid velocity, started marks are flagged, and no
mark starts (R64). A further loss in DEAD_RECKONING or POS_LOST ends the run of consistent edges (R66). -/
def lineLoss (n detail : Nat) (s : State) : State :=
  let st := lineState n s
  let x := s.line n
  if st = 1 ∨ st = 2 then
    let s1 := s.setLine n { x with drV := velocity n s, drTravel := 0, frac := 0, run := 0, runIvl := none }
    let s2 := setLineState n 3 (incSat (fTRK_LINE_CNT_LOSS_CNT n) s1)
    let s3 := raiseSimple (srcLineFeedback n) clsFlag false detail s2
    let s4 := endUnstarted n (lossCause n s3) (flagStarted n flagDeadReckoned s3)
    closeAllDone ((lineProducts n s4).map (·.1)) s4
  else s.setLine n { x with run := 0, runIvl := none }

/-- A loss with its status bit. -/
def declareLoss (n : Nat) (bit : Field) (detail : Nat) (s : State) : State :=
  if lineState n s = 0 then s else lineLoss n detail (setB bit true s)

/-- D_DR is used up: POS_LOST. Started marks end at the column reached, the others become NOT_STARTED (R65). -/
def posLost (n : Nat) (s : State) : State :=
  let s1 := setLineState n 4 (setB (fTRK_LINE_STAT_DR_EXHAUSTED n) true s)
  let s2 := raiseSimple (srcLineFeedback n) clsFlag false 6 s1
  let s3 := forAll (lineJobs n s2) (fun x => doIf (decide (x.2.state = .started)) fun t =>
    modJob x.1 (fun y => { y with flags := y.flags ||| flagDeadReckoned, stopping := true }) t) s2
  let s4 := endUnstarted n (lossCause n s3) s3
  closeAllDone ((lineProducts n s4).map (·.1)) s4

/-! ### Predictions (R54, R273) -/

/-- TRK_HPREDn shows the prediction less ALIGN_X of the head port (R273). -/
def showPred (h : Nat) (s : State) : State :=
  s.setReg (rTRK_HPRED h) ((s.pred h).pos - subs (getI (fHP_ALIGN_ALIGN_X h) s))

/-- The prediction of a head from its line: p_m + max(v, 0) × T_lead (R54). -/
def leadPosition (h n : Nat) (s : State) : Word :=
  pM n s + subs (roundOpen (max (velocity n s) 0 * (getF (fTRK_HLEAD_T_LEAD h) s : Int)) ticksPerSecond)

/-- The prediction follows its line: it never decreases (R54), and it stands still while the line is HOLDING (R206; log entry 151). -/
def predTick (h : Nat) (s : State) : State :=
  let n := getF (fTRK_HLEAD_LINE h) s
  if getB (fTRK_HLEAD_EN h) s ∧ lineState n s ≠ 2 then
    showPred h (s.setPred h { s.pred h with pos := posMax (s.pred h).pos (leadPosition h n s) })
  else s

/-- Restart a prediction without the max (R54): at the hand-over that sets EN or names another line, and at a fresh start. -/
def predRestart (h : Nat) (s : State) : State :=
  let n := getF (fTRK_HLEAD_LINE h) s
  showPred h (s.setPred h { pos := leadPosition h n s, line := some n })

/-- The heads that follow a line. -/
def headsOf (n : Nat) (s : State) : List Nat :=
  (List.range 16).filter fun h => getB (fTRK_HLEAD_EN h) s && decide (getF (fTRK_HLEAD_LINE h) s = n)

/-! ### Due events (R82, R83, R84) -/

/-- The reference position an event is matched against (R82). -/
def reference (e : Event) (s : State) : Word := if e.headrel then s.reg (rTRK_HPRED e.head) else pM e.line s

/-- A back-up holds the job for its data (R103). -/
def jobHeld (j : Nat) (s : State) : Bool := s.backups.any fun o => o.any fun b => b.held.contains j

/-- A START_CHK of a job that a back-up holds RELEASED: it waits for the end of the back-up (R103; log entry 170). -/
def heldCheck (e : Event) (s : State) : Bool := e.type == .startChk && jobHeld e.job s

/-- Events whose reference position has reached them come due in this tick; none on a HOLDING line (R82). -/
def bringDue (s : State) : State :=
  { s with sch.pet := s.sch.pet.map fun x =>
      if x.2.due.isNone ∧ lineState x.2.line s ≠ 2 ∧ heldCheck x.2 s = false ∧ atOrBeyond (reference x.2 s) x.2.pos then (x.1, { x.2 with due := some (now s) })
      else x }

/-- Order of the types within one tick (R84). -/
def typeRank : EvType → Nat
  | .endChk => 0 | .startChk => 1 | .readyBy => 2 | .rejDecide => 3 | .rejOff => 4 | .rejGate => 5 | .handover => 6 | .signal => 7
  | .activate => 8

/-- Ticks an event has waited. -/
def waited (s : State) (e : Event) : Nat :=
  match e.due with
  | some d => (now s - d).toNat
  | none => 0

/-- A due event comes before another: the longer wait first, then the order of R84. -/
def eventBefore (s : State) (a b : Event) : Bool :=
  let ka := [typeRank a.type, a.line, a.seq]
  let kb := [typeRank b.type, b.line, b.seq]
  decide (waited s b < waited s a) || (decide (waited s a = waited s b) && decide (ka < kb))

/-- The due event that is dispatched next (R83). -/
def nextDue (s : State) : Option (Nat × Event) :=
  (s.sch.pet.filter fun x => x.2.due.isSome).foldl
    (fun best x => match best with
      | none => some x
      | some y => if eventBefore s x.2 y.2 then some x else some y) none

/-- An event is dispatched: one of at most four in the tick; a late one counts in SCH_LAG (R83). -/
def countDispatch (e : Event) (s : State) : State :=
  let w := waited s e
  let s1 := { s with sch.dispatched := s.sch.dispatched + 1 }
  if w = 0 then s1 else incSat fSCH_LAG_LATE_CNT (maxF fSCH_LAG_MAX_LAG (satTo 16 w) s1)

/-- Dispatch the entry `i` where it is the next due event of type `t` and the tick has not yet dispatched four (R83); otherwise
nothing happens. -/
def dispatch (i : Nat) (t : EvType) (act : Event → State → State) (s : State) : State :=
  match nextDue s with
  | some (k, e) => if k = i ∧ e.type = t ∧ s.sch.dispatched < 4 then act e (countDispatch e s) else s
  | none => s

/-! ### Motion of a line (R51 to R57) -/

/-- A commanded back-up runs on the line, with the exemption of R59. -/
def backupExempt (n : Nat) (s : State) : Bool :=
  getB (fSCH_LINE_STAT_BACKUP n) s && getB (fTRK_LINE_CTL_REV_CMD_EN n) s && decide (getF (fTRK_LINE_REVLIM_L_BU n) s ≠ 0)

/-- The reversal limit that applies, in counts (R57, R59). -/
def reversalLimit (n : Nat) (s : State) : Nat :=
  if backupExempt n s then getF (fTRK_LINE_REVLIM_L_BU n) s else getF (fTRK_LINE_REVLIM_L_REV n) s

/-- The marking position follows the raw position up (R53), and the reversal tests of R56 and R57 act on the distance between them. A distance
that stood at a fresh start is no reversal: what is left of it is taken off (R519; log entry 152). -/
def followRaw (n : Nat) (s : State) : State :=
  let s0 := s.setReg (rTRK_LINE_POS n) (posMax (pM n s) (pRaw n s))
  let dist := posDiff (pM n s0) (pRaw n s0)
  let base := min (s0.line n).revBase dist
  let back := dist - base
  let st := lineState n s0
  let s1 :=
    if st = 1 ∧ (256 * getF (fTRK_LINE_CTL_H n) s0 : Nat) < back then
      setLineState n 2 (incSat (fTRK_LINE_CNT_REV_CNT n) (doIf (!backupExempt n s0) (setB (fTRK_LINE_STAT_LINE_REVERSE n) true) s0))
    else if st = 2 ∧ dist ≤ 0 then setLineState n 1 s0 else s0
  let isOver := decide ((256 * reversalLimit n s1 : Nat) < back)
  let s2 := doIf (isOver && !(s1.line n).revOver) (fun t => flagStarted n flagReversalLimit (setB (fTRK_LINE_STAT_REV_LIMIT n) true t)) s1
  s2.setLine n { s2.line n with revOver := isOver, revBase := max 0 base }

/-- The predictions of a line's heads are published, and the events they bring due (R54, R82). -/
def publishPreds (n : Nat) (s : State) : State := bringDue (forAll (headsOf n s) predTick s)

/-- After a line has moved: the predictions of its heads, the events that come due, the outputs held by travel. -/
def afterMotion (n : Nat) (s : State) : State := trackRejs (publishPreds n (followRaw n s))

/-- The velocity and acceleration estimates at an accepted edge (R51): over the last VEL_N edges, or fewer where fewer exist. v_prev_window is
taken as the velocity that stood at edge k - N (DESIGN CHOICE, log entry 153). -/
def estimate (n : Nat) (p t : Word) (s : State) : State :=
  let x := s.line n
  let window := x.edges.take (getF (fTRK_LINE_CTL_VEL_N n) s)
  match window.getLast? with
  | none => s.setLine n { x with edges := [(p, t, 0)] }
  | some (p0, t0, v0) =>
    let dt := (t - t0).toNat
    let v := if dt = 0 then v0 else roundOpen (posDiff p p0 * (ticksPerSecond : Int)) dt
    let a := if dt = 0 then 0 else roundOpen ((v - v0) * (ticksPerSecond : Int)) dt
    setI (fTRK_LINE_VEL_V n) v (setI (fTRK_LINE_ACC_A_EST n) a (s.setLine n { x with edges := ((p, t, v) :: x.edges).take 64 }))

/-- A line returns to NORMAL at the end of a run: the source is re-based so that it continues from p_raw. DROFF records the offset of an
encoder's re-base, or the whole difference between p_raw and the broadcast position, which is added to every later broadcast; a virtual line
resumes integrating from p_raw (R66). -/
def recover (n : Nat) (s : State) : State :=
  let x := s.line n
  let off := pRaw n s - x.ck
  let s1 := s.setLine n { x with ck := pRaw n s, run := 0, runIvl := none, frac := 0, drTravel := 0, bOff := x.bOff + off,
                                 edges := x.edges.map fun e => (e.1 + off, e.2) }
  let src := getF (fTRK_LINE_CTL_SRC n) s
  let s2 := doIf (decide (src ≠ 2)) (fun t => t.setReg (rTRK_LINE_DROFF n) (if src = 1 then x.bOff + off else off)) s1
  setLineState n 1 (setB (fTRK_LINE_STAT_RECOVERED n) true s2)

/-- An edge of the run of R66: forward, no illegal transition since, the fault input high, and from the third edge an interval
between half and twice the one before. -/
def consistent (x : Line) (forward fltHigh : Bool) (ivl : Nat) : Bool :=
  forward && !x.illSince && fltHigh &&
  (decide (x.run < 2) || match x.runIvl with
    | some p => decide (p ≤ 2 * ivl) && decide (ivl ≤ 2 * p)
    | none => true)

/-- One accepted count of a line's encoder, `up` in the line's direction, its level first seen at tick `t` (R48, R51, R66). -/
def lineEdge (n : Nat) (up fltHigh : Bool) (t : Word) (s : State) : State :=
  let x := s.line n
  let c := if up then x.ck + 256 else x.ck - 256
  let st := lineState n s
  let ivl := (t - x.tk).toNat
  if st = 0 then s
  else if st = 1 ∨ st = 2 then
    let s1 := estimate n c t (s.setLine n { x with ck := c, tk := t, illSince := false })
    afterMotion n (s1.setReg (rTRK_LINE_RAWPOS n) c)
  else
    let ok := consistent x up fltHigh ivl
    let y := { x with ck := c, tk := t, illSince := false, run := if ok then x.run + 1 else 0,
                      runIvl := if ok ∧ 1 ≤ x.run then some ivl else none }
    let s1 := estimate n c t (s.setLine n y)
    if y.run = 64 then afterMotion n (recover n s1) else s1

/-- The run of on-time updates of a broadcast-fed or virtual line (R66): `late` marks an update past the line's timeout. -/
def updateRun (n : Nat) (late : Bool) (s : State) : State :=
  let x := s.line n
  let run := if late then 1 else x.run + 1
  let s1 := s.setLine n { x with run := run, tk := now s }
  if run = 64 then recover n s1 else s1

/-- Integration over one tick: `v` in 1/256 count per second moves the position by v / 200,000,000 sub-counts, with the remainder
carried (R45, R64). -/
def integrate (frac v : Int) : Int × Int := ((frac + v) / (ticksPerSecond : Int), (frac + v) % (ticksPerSecond : Int))

/-- The receiver fault input of the line's encoder is low and FLT_EN makes it a wire loss (R60). -/
def receiverLost (n : Nat) (s : State) : Bool :=
  let m := getF (fTRK_LINE_CTL_ENC_SEL n) s
  getB (fTRK_ENC_CFG_FLT_EN m) s && !getB (fTRK_ENC_STAT_FLT m) s

/-- One tick of a line's raw position by its source and state (R44, R45, R52, R64, R65). -/
def lineTick (n : Nat) (s : State) : State :=
  let st := lineState n s
  let x := s.line n
  let src := getF (fTRK_LINE_CTL_SRC n) s
  if st = 0 ∨ st = 4 ∨ (x.bWait ∧ src = 1) then publishPreds n s
  else if st = 3 then
    let lim := 256 * getF (fTRK_LINE_DR_D_DR n) s * ticksPerSecond
    let left := lim - x.drTravel
    let v := if x.drV.natAbs ≤ left then x.drV else if 0 ≤ x.drV then (left : Int) else -(left : Int)
    let m := integrate x.frac v
    let s1 := s.setLine n { x with frac := m.2, drTravel := x.drTravel + v.natAbs }
    afterMotion n (s1.setReg (rTRK_LINE_RAWPOS n) (pRaw n s + subs m.1))
  else if src = 0 ∧ receiverLost n s then declareLoss n (fTRK_LINE_STAT_WIRE_LOSS n) 1 s
  else if src = 0 then
    let dt := (now s - x.tk).toNat
    let d := min (roundOpen ((velocity n s).natAbs * dt : Nat) ticksPerSecond) 255
    afterMotion n (s.setReg (rTRK_LINE_RAWPOS n) (if 0 ≤ velocity n s then x.ck + subs d else x.ck - subs d))
  else
    let v := if src = 1 then x.bSpeed else getI (fTRK_LINE_VIRT_V_VIRT n) s
    let m := integrate x.frac v
    let s1 := setI (fTRK_LINE_VEL_V n) v (s.setLine n { x with frac := m.2 })
    let p := pRaw n s1 + subs m.1
    let s2 := s1.setReg (rTRK_LINE_RAWPOS n) p
    afterMotion n (s2.setLine n { s2.line n with ck := p })

/-- The filter of a product-detect input starts from the level at the pin (R68): a level that the filter reports before it can have held its
new level long enough is the level it started from. -/
def startFilter (p : Nat) (s : State) : State := s.setPd p { s.pd p with since := some (now s), started := true }

/-- The enabled product-detect inputs of a line. -/
def inputsOf (n : Nat) (s : State) : List Nat :=
  (List.range 16).filter fun p => getB (fTRK_PD_CFG_EN p) s && decide (getF (fTRK_PD_CFG_LINE p) s = n)

/-- A line starts afresh (R519): NORMAL, with every loss, hysteresis and velocity state cleared; its source continues from p_raw, or
from the first broadcast on SRC 1; the predictions of its heads restart. The distance of p_raw below p_m is no reversal, and where the line
leaves OFF the filters of its product-detect inputs start from the levels at their pins (R68). -/
def freshStart (n : Nat) (s : State) : State :=
  let leaves := decide (lineState n s = 0)
  let s1 := s.setLine n { ck := pRaw n s, tk := now s, bWait := getF (fTRK_LINE_CTL_SRC n) s == 1,
                          revBase := max 0 (posDiff (pM n s) (pRaw n s)) }
  let s2 := setF (fTRK_LINE_VEL_V n) 0 (setF (fTRK_LINE_ACC_A_EST n) 0 s1)
  doIf leaves (forAll (inputsOf n s2) startFilter) (forAll (headsOf n s2) predRestart (setLineState n 1 s2))

/-- Set the positions of a line and the predictions of its heads, as a preset does (R54, R78). The run of short pitches and the position of the
last capture are cleared, and the offset that a recovery has given to later broadcasts stays (DESIGN CHOICE, log entry 191). -/
def presetLine (n : Nat) (p : Word) (s : State) : State :=
  let x := s.line n
  let s1 := s.setLine n { x with ck := p, edges := [], frac := 0, pitchRun := 0, pitchLast := none, bWait := false, revBase := 0 }
  let s2 := setF (fTRK_LINE_VEL_V n) 0 (setF (fTRK_LINE_ACC_A_EST n) 0 s1)
  let s3 := (s2.setReg (rTRK_LINE_RAWPOS n) p).setReg (rTRK_LINE_POS n) p
  forAll (headsOf n s3) (fun h t => showPred h (t.setPred h { pos := p, line := some n })) s3

/-- A speed written to a virtual line, by the host or a message: it applies from the next tick and counts as an update for the loss
timeout and the recovery run (R45, R63, R66). -/
def virtualSpeed (n : Nat) (w : Word) (s : State) : State :=
  let late := decide (getF (fTRK_LINE_VIRT_TMO_VIRT_TMO n) s * 200000 < (now s - (s.line n).tk).toNat)
  let s1 := s.setReg (rTRK_LINE_VIRT n) w
  if getF (fTRK_LINE_CTL_SRC n) s = 2 ∧ lineState n s ≠ 0 then
    if 3 ≤ lineState n s then updateRun n late s1 else s1.setLine n { s1.line n with tk := now s }
  else s1

end Sys2Proof.Machine
end

