-- ==== Sys2Proof/Machine/Arming.lean ====
section
/-! DEFINITION. Captures, bindings, arming and the events of a job: R68 to R76, R87 to R106, R520. -/

namespace Sys2Proof.Machine

/-! ### Heads as the scheduler sees them (R109) -/

/-- The state of a head: 0 ABSENT, 1 READY, 2 TAKEOVER, 3 HEAD_LOST, 4 UNPLUGGED. -/
def headState (h : Nat) (s : State) : Nat := getF (fSCH_HEAD_STAT_STATE h) s

def headGone (h : Nat) (s : State) : Bool := headState h s == 3 || headState h s == 4

/-- Bits of an element by personality: 2 PIEZO, 1 THERMAL_INKJET and THERMAL_HEAD, 8 RASTER_LASER, BPE for GENERIC (R167). -/
def elementBits (h : Nat) (s : State) : Nat :=
  match getF (fHP_CFG_PERS h) s with
  | 1 => 2
  | 2 => 1
  | 3 => 1
  | 4 => 8
  | 5 => 2 ^ getF (fREN_HEAD_CFG_BPE h) s
  | _ => 0

/-- The element count E of a head port. -/
def elements (h : Nat) (s : State) : Nat := getF (fHP_CFG_E_M1 h) s + 1

/-- Bytes of a column: E elements, rounded up to a multiple of 32, zero while PERS is NONE (R167, R225). -/
def columnBytes (h : Nat) (s : State) : Nat :=
  if elementBits h s = 0 then 0 else ceilDiv (ceilDiv (elements h s * elementBits h s) 8) 32 * 32

/-- Column slots of a half of the line buffer: min(128, floor(32,768 / column_bytes)) (R225). -/
def halfSlots (h : Nat) (s : State) : Nat := if columnBytes h s = 0 then 0 else min 128 (32768 / columnBytes h s)

/-- A mark's length with the stretch of a head, in counts: ⌈LEN × (1 + S)⌉ (R89, R95). -/
def stretched (len h : Nat) (s : State) : Nat := ceilDiv (len * (256 + getF (fSCH_HEAD_CFG_S h) s)) 256

/-! ### The arming terms (R93) -/

/-- T_compose in ns. -/
def tCompose (f : Figures) : Nat := 9000 + 3000 * f.fields + 6000 * f.checks

/-- T_render in ns at the undivided fabric clock; after k derate steps it lengthens by 16 / (16 − k) (R169). -/
def tRender (f : Figures) : Nat := 38000 + 1100 * f.glyphs + 4000 * f.dms + 20 * f.modules

/-- Twice T_stage in ns: columns_first_buffer × column_bytes at 2 GB/s. -/
def tStage2 (m : MarkSet) (s : State) : Nat := min m.cols 128 * columnBytes m.head s

/-- The largest T_stage term of a slot's marks. -/
def tStage2Max (ms : List MarkSet) (s : State) : Nat := ms.foldl (fun a m => max a (tStage2 m s)) 0

/-- The derate step as published, k_age + k_therm (R473). -/
def derate (s : State) : Nat := min (getF fCLK_DERATE_K_AGE s + getF fCLK_DERATE_K_THERM s) 8

/-- D_ARM = ⌈v_max · (T_compose + T_render + T_stage + T_guard)⌉, rounded up once at the end (R93). -/
def dArm (f : Figures) (ms : List MarkSet) (tGuard vmax : Nat) (s : State) : Nat :=
  let k := 16 - derate s
  ceilDiv (vmax * ((tCompose f + 10 * tGuard) * 2 * k + tRender f * 32 + tStage2Max ms s * k)) (2 * k * 1000000000)

/-- Publish a VALID slot's terms, in units of 10 ns rounded up, and its D_ARM (R93). A term or a D_ARM beyond its field shows the field's largest
value (DESIGN CHOICE, log entry 193); the arming rule compares with the full D_ARM. -/
def publishTerms (b : Nat) (x : Binding) (s : State) : State :=
  let d := dArm x.figs x.marks x.tGuard (getF (fSCH_LINE_VMAX_V_MAX x.line) s) s
  let s1 := setF (fSCH_BIND_ARM0_T_COMPOSE b) (satTo 16 (ceilDiv (tCompose x.figs) 10)) s
  let s2 := setF (fSCH_BIND_ARM0_T_RENDER b) (satTo 16 (ceilDiv (tRender x.figs * 16) (10 * (16 - derate s)))) s1
  let s3 := setF (fSCH_BIND_ARM0_T_STAGE b) (satTo 16 (ceilDiv (tStage2Max x.marks s) 20)) s2
  let s4 := setF (fSCH_BIND_ARM1_D_ARM b) (satTo 24 d) s3
  { s4 with sch.binds := spInsert s4.sch.binds b { x with dArm := d } }

/-- REN_RATE publishes floor(2,400 × (16 − k) / 16) and k (R169). -/
def showRate (s : State) : State := setF fREN_RATE_DERATE (derate s) (setF fREN_RATE_RATE (2400 * (16 - derate s) / 16) s)

/-- Recompute the terms and D_ARM of the VALID slots that meet a test (R93, R473). -/
def republish (p : Binding → Bool) (s : State) : State :=
  forAll (s.sch.binds.filter fun x => p x.2) (fun x => publishTerms x.1 x.2) s

/-! ### Jobs (R95, R96) -/

/-- A job planned for a product. -/
structure Plan where
  mark : Nat
  head : Nat
  alt : Bool
  full : Bool
  ofs : Nat
  len : Nat
  cols : Nat
  pitch : Nat
  panel : Nat

/-- What a mark entry gives at arming: a job, its share taken by the pair partner, or a head lost (R92, R110, R111). -/
inductive MarkOut where
  | job (p : Plan)
  | partner (head : Nat)
  | lost

/-- The panel of a mark entry: its own index, or the lower of the two where two entries name each other as alternate with PAIR set
(R165). -/
def panelOf (ms : List MarkSet) (m : MarkSet) : Nat :=
  match ms.find? fun x => m.pair && x.pair && m.alt == some x.head && x.alt == some m.head with
  | some x => min m.idx x.idx
  | none => m.idx

/-- The plan of one mark entry. -/
def planMark (ms : List MarkSet) (m : MarkSet) (s : State) : MarkOut :=
  let own : Plan :=
    { mark := m.idx, head := m.head, alt := false, full := false, ofs := m.ofs, len := m.len, cols := m.cols, pitch := m.pitch,
      panel := panelOf ms m }
  if headGone m.head s = false then .job own
  else match m.alt with
    | none => .lost
    | some a =>
      if headGone a s then .lost
      else match ms.find? fun x => decide (x.head = a) with
        | some x => if m.pair then .partner a else .job { own with head := a, alt := true, ofs := x.ofs }
        | none => .job { own with head := a, alt := true }

/-- The heads whose job takes the rows of a lost partner (R111). -/
def partnersOf (os : List MarkOut) : List Nat := os.filterMap fun o => match o with
  | .partner h => some h
  | _ => none

/-- The jobs of a product: those planned, with FULL where they cover a lost partner. -/
def plansOf (os : List MarkOut) : List Plan :=
  let full := partnersOf os
  os.filterMap fun o => match o with
    | .job p => some { p with full := full.contains p.head && !p.alt }
    | _ => none

/-- The three events of a job: READY_BY, START_CHK and END_CHK, matched against its head's predicted position (R82, R95). -/
def placeJobEvents (j : Nat) (x : Job) (s : State) : State :=
  let ev (t : EvType) (p : Word) : Event :=
    { pos := p, type := t, line := x.line, headrel := true, head := x.head, job := j, ptab := x.ptab, noent := false, rej := 0,
      host := false, arg := 0, width := 0, wmode := false, hasRej := false, pulse := false, seq := 0, due := none }
  let n := x.line
  petInsert (ev .endChk x.endchk)
    (petInsert (ev .startChk (x.start + counts (getF (fSCH_LINE_CTL_START_SLIP n) s)))
      (petInsert (ev .readyBy (x.start - counts (getF (fSCH_LINE_CTL_READY_LEAD n) s))) s))

/-- END_CHK of a mark: its start, plus its stretched length, plus END_SLIP (R95). -/
def endChkOf (start : Word) (len h n : Nat) (s : State) : Word :=
  start + counts (stretched len h s + getF (fSCH_LINE_CTL_END_SLIP n) s)

/-- Create one ARMED job of a product and place its events (R95). -/
def armJob (i : Nat) (slot : Nat) (p : Plan) (s : State) : State :=
  match product i s, spFree s.sch.jobs jobSize 0 with
  | some q, some j =>
    let start := q.dpos + counts p.ofs
    let x : Job :=
      { state := .armed, head := p.head, sq := driver p.head s, ptab := i, slot := slot, mark := p.mark, line := q.line,
        alt := p.alt, full := p.full, start := start, endchk := endChkOf start p.len p.head q.line s, image := 0, cols := p.cols,
        colsRes := 0, colsDone := 0, stretchMax := 256, flags := 0, cause := .none, firstTick := 0, closeTick := 0, ofs := p.ofs,
        len := p.len, pitch := p.pitch, half := none, prod := q.seq, seq := s.sch.seq, stopping := false, ended := false,
        firstCol := false, firstEmit := false, lateArmed := true, renCfg := 0, fullMid := false,
        panel := p.panel }
    let s1 := putJob j x { s with sch.seq := s.sch.seq + 1 }
    placeJobEvents j x (modProduct i (fun y => { y with jobs := y.jobs ||| 2 ^ p.head }) s1)
  | _, _ => s

/-- The reject settings a product is armed with (R105, R116). -/
def rejPlan (r : Nat) (s : State) : RejPlan :=
  { rej := r, width := max 1 (getF (fSCH_REJ_CFG_WIDTH r) s), wmode := getB (fSCH_REJ_CFG_WMODE r) s,
    flagRej := getB (fSCH_REJ_CFG_FLAG_REJ r) s }

/-- Place the reject events of a product: REJ_DECIDE and REJ_GATE of its slot's output, or a gate with no output at REL counts
(R104, R105). A product without a table entry gets the same events with NOENT set (R74). -/
def placeGate (i : Nat) (noent : Bool) (line : Nat) (dpos : Word) (rej : Option Nat) (s : State) : State :=
  let base : Event :=
    { pos := 0, type := .rejGate, line := line, headrel := false, head := 0, job := 0, ptab := i, noent := noent, rej := 0,
      host := false, arg := 0, width := 0, wmode := false, hasRej := false, pulse := noent, seq := 0, due := none }
  match rej with
  | none => petInsert { base with pos := dpos + counts (getF (fSCH_LINE_REL_REL line) s) } s
  | some r =>
    let gate := dpos + counts (getF (fSCH_REJ_GATE_GATE_OFS r) s)
    let pl := rejPlan r s
    let e := { base with rej := r, hasRej := true, width := pl.width, wmode := pl.wmode }
    petInsert { e with pos := gate } (petInsert { e with type := .rejDecide, pos := gate - counts (getF (fSCH_REJ_CFG_DEC_LEAD r) s) } s)

/-! ### Arming at confirmation (R91, R92) -/

/-- The slot a product of an input takes: a pending changeover falls at its product number (R91). -/
def takeSlot (p : Nat) (pnum : Word) (s : State) : State :=
  if getB (fSCH_PD_NEXT_PEND p) s ∧ getF (fSCH_PD_AT_PNUM_AT p) s ≤ pnum.toNat then
    setB (fSCH_PD_NEXT_PEND p) false (setF (fSCH_PD_BIND_SLOT p) (getF (fSCH_PD_NEXT_SLOT p) s) s)
  else s

/-- Arming is stopped at the supply warning level (R107). -/
def brownout (n : Nat) (s : State) : Bool := getB (fSCH_LINE_STAT_BROWNOUT n) s

/-- The secure clock is TRUSTED (R127). -/
def clockTrusted (s : State) : Bool := getB fTRU_TSTAT_TRUSTED s

/-- The arming rule for every enabled mark: (DPOS + OFS) − CPOS ≥ D_ARM (R93). -/
def ruleHolds (b : Binding) (dpos cpos : Word) (s : State) : Bool :=
  decide (getF (fSCH_LINE_VMAX_V_MAX b.line) s ≠ 0) &&
  b.marks.all fun m => decide ((256 * b.dArm : Nat) ≤ posDiff (dpos + counts m.ofs) cpos)

/-- The causes that a list of tests gives. -/
def causesOf (l : List (Bool × Cause)) : Cause := l.foldl (fun a x => if x.1 then firstCause a x.2 else a) .none

/-- The first applicable cause that keeps a product from being armed, `.none` where it is armed (R92). A product captured in DEAD_RECKONING or
POS_LOST has the cause FEEDBACK_LOST whatever its line's state at confirmation (R64, R65). -/
def armCause (line : Nat) (b : Option Binding) (dpos cpos : Word) (dateTrusted dr : Bool) (os : List MarkOut) (noent : Bool)
    (s : State) : Cause :=
  let offer := offersLost line s
  let lost := os.any fun o => match o with
    | .lost => true
    | _ => false
  let usable := match b with
    | none => false
    | some x => ruleHolds x dpos cpos s && decide ((plansOf os).length ≤ jobSize - s.sch.jobs.length) &&
        decide (3 * (plansOf os).length + 2 ≤ petFree s)
  causesOf [
    (getB (fSCH_LINE_STAT_LINE_SAFE line) s, .lineSafe),
    (brownout line s, .brownout),
    (dr || decide (3 ≤ lineState line s), .feedbackLost),
    ((b.any fun x => x.figs.dateDep) && !(dateTrusted && clockTrusted s), .timeUntrusted),
    (lost && !offer, .headLost),
    (!usable || noent, .notArmed)]

/-- OPEN values whose product number is reached come into force (R123). -/
def takeOpenSets (handle line : Nat) (pnum : Word) (s : State) : State :=
  let due (o : OpenSet) : Bool := decide (o.handle = handle) && decide (o.line = line) && decide (o.pnumAt.toNat ≤ pnum.toNat)
  { s with trust.openVals := s.trust.openPend.filter due ++ s.trust.openVals
           trust.openPend := s.trust.openPend.filter fun o => !due o }

/-- A product of this unit on a line in mode ALWAYS is to be offered once its local jobs have closed (R371). -/
def offersAlways (p : Product) (s : State) : Bool :=
  p.hosted.isNone && getB (fOCL_HOFF_EN p.line) s && !getB (fOCL_HOFF_MODE p.line) s

/-- What the marks of a slot give at arming; none where the slot is not usable. -/
def marksOut (bind : Option Binding) (s : State) : List MarkOut := match bind with
  | some x => x.marks.map fun m => planMark x.marks m s
  | none => []

/-- An armed product's render queues, after every render whose product is composed (R95, R168). -/
def queueRender (prod : Nat) (s : State) : State :=
  showRenders { s with ren.queue := s.ren.queue ++ [{ prod := prod, composed := false, only := none, late := false }] }

/-- Arm a product that holds a table entry, or close it with the first applicable cause (R92, R95). -/
def armProduct (i : Nat) (b : Option (Nat × Binding)) (cpos : Word) (s : State) : State :=
  match product i s with
  | none => s
  | some q =>
    let bind := b.map (·.2)
    let os := marksOut bind s
    let c := armCause q.line bind q.dpos cpos q.dateTrusted q.dr os false s
    let rej := bind.bind (·.rej)
    if c ≠ .none then closeProduct i .rejected c (placeGate i false q.line q.dpos rej s)
    else
      let slot := (b.map (·.1)).getD 0
      let s1 := forAll (plansOf os) (armJob i slot) s
      let s2 := placeGate i false q.line q.dpos rej s1
      let lost := os.any fun o => match o with
        | .lost => true
        | _ => false
      modProduct i (fun y => { y with
        compose := if (plansOf os).isEmpty then .none else .asked (now s2)
        remote := if lost || offersAlways q s then .due else y.remote }) (doIf (!(plansOf os).isEmpty) (queueRender q.seq) s2)

/-- The confirmed capture of an input becomes a product: its number, its table entry, DETECTED and IN_FLIGHT, and the evaluation of
arming (R73, R74, R91, R92). Where the table is full the cause is NOT_ARMED (R74) unless an earlier one of R15 applies at that moment: every
cause of R92 is tested (DEDUCED, log entry 154). -/
def confirmProduct (p : Nat) (c : Capture) (s0 : State) : State :=
  let n := getF (fTRK_PD_CFG_LINE p) s0
  let s := compareLedger n s0
  let pnum := (ledger n s).nextPnum
  let s1 := modLedger n countDetected (setNextPnum n (pnum + 1) s)
  let s2 := takeSlot p pnum s1
  let slot := getF (fSCH_PD_BIND_SLOT p) s2
  let usable := getB (fSCH_PD_BIND_EN p) s2 && getB (fSCH_BIND_CTL_VALID slot) s2
  let b := if usable then (spFind s2.sch.binds slot).map fun x => (slot, x) else none
  let handle := (b.map (·.2.stencil)).getD 0
  let s3 := takeOpenSets handle n pnum s2
  let cpos := pM n s3
  let x : Product :=
    { pnum := pnum, dpos := c.pos, date := c.date, line := n, pd := p, state := .inFlight, cause := .none, flags := 0, jobs := 0,
      dr := c.dr, expired := false, dateTrusted := c.trusted, slot := slot, stencil := handle, ctick := c.tick,
      cpos := cpos.toNat / 256, plan := (b.bind (·.2.rej)).map fun r => rejPlan r s3, decision := none, compose := .none,
      seq := s3.sch.seq, closeTick := 0, remote := .none, hosted := none }
  let s4 := { s3 with sch.seq := s3.sch.seq + 1 }
  match spFree s4.sch.ptab ptabSize 0 with
  | some i => armProduct i b cpos (putProduct i x s4)
  | none =>
    -- no free entry: the product closes at once without one (R74)
    let s5 := raiseSimple srcPtabFull clsFlag false n (incSat fTRK_PTAB_STAT_OVERFLOW s4)
    let cause := armCause n (b.map (·.2)) c.pos cpos c.trusted c.dr (marksOut (b.map (·.2)) s5) true s5
    let q := { x with state := .rejected, cause := cause, closeTick := now s5 }
    closureReports q (modLedger n (countClosed .rejected cause) (placeGate 0 true n c.pos (b.bind (·.2.rej)) s5))

/-- The pitch test of R61 at a capture of a line with SRC 0: captures in a row below PITCH_NOM × q_pitch. -/
def pitchTest (n : Nat) (pos : Word) (s : State) : State :=
  let x := s.line n
  let nom := getF (fTRK_LINE_PITCH_PITCH_NOM n) s
  let short : Bool := match x.pitchLast with
    | some q => decide (posDiff pos q < (nom * getF (fTRK_LINE_FREEZE_PITCH_Q n) s : Nat))
    | none => false
  let run := if nom ≠ 0 ∧ short = true then x.pitchRun + 1 else 0
  let s1 := s.setLine n { x with pitchLast := some pos, pitchRun := run }
  if nom ≠ 0 ∧ getF (fTRK_LINE_CTL_SRC n) s = 0 ∧ getF (fTRK_LINE_FREEZE_PITCH_K n) s ≤ run then
    declareLoss n (fTRK_LINE_STAT_PITCH_FREEZE n) 3 (s1.setLine n { s1.line n with pitchRun := 0 })
  else s1

/-! ### The events of a job (R97 to R99) -/

/-- The line speed is at or below v_col·(1 + S): v in 1/256 count/s, v_col = F_LIM × PITCH / 256 counts/s (R97, R101). -/
def speedFits (x : Job) (s : State) : Bool :=
  decide (velocity x.line s * 256 ≤
    (getF (fSCH_HEAD_STAT_F_LIM x.head) s * x.pitch * (256 + getF (fSCH_HEAD_CFG_S x.head) s) : Nat))

/-- Two other jobs of a path hold the halves of its line buffer, or fill its release queue: no third job can be RELEASED (R221, R226; log entry
201). -/
def pathTaken (j h : Nat) (s : State) : Bool :=
  let p := path h s
  (p.halves.all fun o => o.any fun k => decide (k ≠ j)) || decide (2 ≤ (p.cur.toList ++ p.queue).length)

/-- What keeps a job from being released at READY_BY, `.none` where it is released (R97, R103). A line that is HOLDING when an event that came due
before is dispatched gives NOT_ARMED (DESIGN CHOICE, log entry 194). -/
def readyCause (j : Nat) (x : Job) (s : State) : Cause :=
  let lateMode := getB (fSCH_LINE_CTL_LATE_MODE x.line) s
  causesOf [
    (getB (fSCH_LINE_STAT_LINE_SAFE x.line) s, .lineSafe),
    (brownout x.line s, .brownout),
    (decide (3 ≤ lineState x.line s), .feedbackLost),
    (headGone x.head s, .headLost),
    (!speedFits x s, .overspeed),
    ((decide (x.state ≠ .resident) && (!lateMode || pathTaken j x.head s)) || headState x.head s == 0 || lineState x.line s == 0 || lineState x.line s == 2, .notArmed)]

/-- A render that is queued or running for a job as its READY_BY comes due counts once in LATE (R169). -/
def countLateRender (x : Job) (j : Nat) (s : State) : State :=
  let hit (r : RenderReq) : Bool := rendersFor r (j, x) && !r.late
  if (s.ren.current.any hit) || (s.ren.queue.any hit) then
    incSat fREN_ERR_LATE { s with ren.queue := s.ren.queue.map fun r => if hit r then { r with late := true } else r
                                  ren.current := s.ren.current.map fun r => if hit r then { r with late := true } else r }
  else s

/-- A job is released into its path's queue (R97, R221). -/
def releaseJob (j : Nat) (x : Job) (s : State) : State :=
  showPath x.head (modPath x.head (fun p => { p with queue := p.queue ++ [j] })
    (modJob j (fun y => { y with state := .released, sq := driver x.head s }) s))

/-- READY_BY: the job is released or withdrawn (R97). -/
def readyBy (e : Event) (s : State) : State :=
  match job e.job s with
  | none => s
  | some x =>
    if x.state ≠ .armed ∧ x.state ≠ .resident then s else
    let s1 := countLateRender x e.job s
    let c := readyCause e.job x s1
    if c = .none then releaseJob e.job x s1
    else if c = .headLost then closeIfDone x.ptab (headLostJob e.job s1)
    else closeIfDone x.ptab (notStarted e.job c s1)

/-- START_CHK: a job still RELEASED with no first column is withdrawn (R98). -/
def startChk (e : Event) (s : State) : State :=
  match job e.job s with
  | none => s
  | some x =>
    if x.state ≠ .released ∨ x.firstCol then s
    else closeIfDone x.ptab (notStarted e.job (if headGone x.head s then .headLost else .notArmed) s)

/-- END_CHK: a job still STARTED is stopped at its next column boundary, flagged COLUMN_MISSED (R99). It closes when its sequencer
reaches that boundary (R89, R206). -/
def endChk (e : Event) (s : State) : State :=
  match job e.job s with
  | none => s
  | some x =>
    if x.state ≠ .started then s
    else modJob e.job (fun y => { y with flags := y.flags ||| flagColumnMissed, stopping := true }) s

/-! ### Reject decision and gate (R104 to R106) -/

/-- REJ_DECIDE: the decision is fixed; a product still IN_FLIGHT is to pulse and counts in EARLY. A product whose RESULT has not
arrived closes REJECTED with cause HEAD_LOST (R104, R372). -/
def rejDecide (e : Event) (s : State) : State :=
  if e.noent then s else
  let s0 := match product e.ptab s with
    | some p => if p.state = .inFlight ∧ remoteOpen p.remote then closeUnmarked e.ptab s else s
    | none => s
  match product e.ptab s0 with
  | none => s0
  | some p =>
    if p.decision.isSome then s0 else
    let flagRej := (p.plan.map (·.flagRej)).getD false
    let pulse := p.state == .rejected || p.state == .inFlight || (p.state == .markedFlagged && flagRej)
    doIf (decide (p.state = .inFlight)) (incSat (fSCH_REJ_STAT_EARLY e.rej)) (modProduct e.ptab (fun q => { q with decision := some pulse }) s0)

/-- The output's gate events are absorbed while its line is lost or LINE_SAFE, and in the stretch of GATE_OFS after that, also where LOST_HOLD
has been cleared meanwhile (R106; DESIGN CHOICE, log entry 195). -/
def gateAbsorbed (r : Nat) (s : State) : Bool :=
  let x := s.rej r
  x.lost || x.holdUntil.isSome

/-- REJ_GATE: the output pulses if the decision says so, and the product's entry is released in every case (R105, R106). A pulse
counted in counts takes over the entry of the gate for its REJ_OFF. -/
def rejGate (i : Nat) (e : Event) (s : State) : State :=
  let pulse := e.hasRej && (if e.noent then e.pulse else ((product e.ptab s).bind (·.decision)).getD false)
  let s0 := petErase i s
  let s1 :=
    if e.hasRej = false then s0
    else if gateAbsorbed e.rej s then incSat (fSCH_REJ_STAT_ABSORBED e.rej) s0
    else if pulse then
      let x := s0.rej e.rej
      if e.wmode then incSat (fSCH_REJ_STAT_PULSES e.rej) (showRej e.rej (s0.setRej e.rej
        { x with timed := x.timed ++ [(now s0, 2000 * e.width)] }))
      else
        let off := { e with type := .rejOff, pos := e.pos + counts e.width, due := none, seq := s0.sch.seq }
        let s2 := showPet { s0 with sch.pet := spInsert s0.sch.pet i off, sch.seq := s0.sch.seq + 1 }
        incSat (fSCH_REJ_STAT_PULSES e.rej) (showRej e.rej (s2.setRej e.rej { x with open_ := x.open_ + 1 }))
    else s0
  bringDue (if e.noent then s1 else tidy (releaseEntry e.ptab s1))

/-- REJ_OFF: a pulse of WIDTH counts ends (R105). -/
def rejOff (e : Event) (s : State) : State :=
  let x := s.rej e.rej
  showRej e.rej (s.setRej e.rej { x with open_ := x.open_ - 1 })

/-! ### Expiry (R76) -/

/-- An entry whose DPOS lies 2^39 − 2^32 counts or more behind p_m is expired. -/
def isExpired (p : Product) (s : State) : Bool :=
  decide (((2 ^ 39 - 2 ^ 32) * 256 : Int) ≤ posDiff (pM p.line s) p.dpos)

/-- Expire an entry: its open jobs end, the product closes, its events are freed, and the entry is released (R76). -/
def expire (i : Nat) (s : State) : State :=
  match product i s with
  | none => s
  | some p =>
    let js := jobsOf p s
    let s1 := forAll js (fun x => doIf (jobOpen x.2.state)
      (if x.2.state = .started then stopFlagged x.1 0 else notStarted x.1 .notArmed)) s
    let s2 := modProduct i (fun q => { q with expired := true, remote := if remoteOpen q.remote then .ended .notStarted .notArmed else q.remote }) s1
    let s3 := closeIfDone i s2
    let s4 := petDrop (fun e => !e.host && !e.noent && decide (e.ptab = i) && decide (e.type ≠ .rejOff)) s3
    let s5 := setB (fTRK_LINE_STAT_EXPIRED p.line) true s4
    tidy (releaseEntry i (raiseSimple srcProductExpired clsFlag false p.line s5))

end Sys2Proof.Machine
end

