-- ==== Sys2Proof/Machine/Flags.lean ====
section
/-! DEFINITION. Arithmetic and flags of the Adeger instruction set (R187, R193 to R195). -/

namespace Sys2Proof.Machine

/-- Profiles of the instruction set (R183). -/
inductive Profile where
  | f | l | m
  deriving DecidableEq, Repr

/-- A 48-bit register value as an integer is `toInt`; `wrap` reads an integer modulo 2^48 (helpers of R193). -/
def wrap48 (x : Int) : Word := BitVec.ofInt 48 x

/-- Saturation to 48 bits. -/
def sat48 (x : Int) : Int := clampInt (-(2 ^ 47)) (2 ^ 47 - 1) x

/-- Saturation to 96 bits. -/
def sat96 (x : Int) : Int := clampInt (-(2 ^ 95)) (2 ^ 95 - 1) x

/-- Sign-extend an `n`-bit field (R193). -/
def sext (n x : Nat) : Int := signedOf n x

/-- FL as a register: Z, N, C, V, S and O in bits 0 to 5 (R187). -/
def Flags.word (f : Flags) : Word :=
  BitVec.ofNat 48 (f.z.toNat + 2 * f.n.toNat + 4 * f.c.toNat + 8 * f.v.toNat + 16 * f.s.toNat + 32 * f.o.toNat)

/-- The flags that a word written to FL gives (R187). -/
def Flags.ofWord (w : Word) : Flags :=
  { z := w.getLsbD 0, n := w.getLsbD 1, c := w.getLsbD 2, v := w.getLsbD 3, s := w.getLsbD 4, o := w.getLsbD 5 }

/-- Z and N from a result (R193). -/
def Flags.zn (r : Word) (f : Flags) : Flags := { f with z := r == 0, n := r.msb }

/-- Z from a result. -/
def Flags.zOf (r : Word) (f : Flags) : Flags := { f with z := r == 0 }

/-- A result and the flags it leaves. -/
structure Res where
  r : Word
  fl : Flags
  deriving DecidableEq, Repr

/-- The result of an exact integer in a profile: modular in F and M, saturating in L, where a clamp sets V and S (R193). -/
def narrow (p : Profile) (exact : Int) (c : Bool) (f : Flags) : Res :=
  let r := if p = .l then wrap48 (sat48 exact) else wrap48 exact
  let v := decide (r.toInt ≠ exact)
  ⟨r, Flags.zn r { f with c := c, v := v, s := f.s || (decide (p = .l) && v) }⟩

/-- A saturating result of profile L that sets V and S where it is clamped (R212). -/
def saturate (exact : Int) (c : Bool) (f : Flags) : Res := narrow .l exact c f

def addOp (p : Profile) (a b : Word) (f : Flags) : Res :=
  narrow p (a.toInt + b.toInt) (decide (2 ^ 48 ≤ a.toNat + b.toNat)) f

def subOp (p : Profile) (a b : Word) (f : Flags) : Res := narrow p (a.toInt - b.toInt) (decide (a.toNat < b.toNat)) f

/-- AND, OR and XOR clear C and V (R196). -/
def logicOp (r : Word) (f : Flags) : Res := ⟨r, Flags.zn r { f with c := false, v := false }⟩

/-- The last bit shifted out to the left, for a shift of 1 to 48 (R195). -/
def lastLeft (a : Word) (sh : Nat) : Bool := decide (1 ≤ sh) && decide (sh ≤ 48) && a.getLsbD (48 - sh)

/-- The last bit shifted out to the right, for a shift of 1 to 48 (R195). -/
def lastRight (a : Word) (sh : Nat) : Bool := decide (1 ≤ sh) && decide (sh ≤ 48) && a.getLsbD (sh - 1)

/-- SHL: in profile L a result that loses a significant bit or changes the sign is saturated and sets V and S; V is cleared
otherwise (R195). -/
def shlOp (p : Profile) (a : Word) (sh : Nat) (f : Flags) : Res :=
  let c := lastLeft a sh
  if p = .l then narrow .l (a.toInt * 2 ^ sh) c f
  else
    let r := a <<< sh
    ⟨r, Flags.zn r { f with c := c, v := false }⟩

def shrOp (a : Word) (sh : Nat) (f : Flags) : Res :=
  let r := a >>> sh
  ⟨r, Flags.zn r { f with c := lastRight a sh, v := false }⟩

/-- SRA: the sign bit fills; by 48 or more the result is 0 or −1 (R195). -/
def sraOp (a : Word) (sh : Nat) (f : Flags) : Res :=
  let r := a.sshiftRight sh
  ⟨r, Flags.zn r { f with c := lastRight a sh, v := false }⟩

/-- CMP: the flags of the exact difference (R194). -/
def cmpFlags (a b : Word) (f : Flags) : Flags :=
  { f with z := a == b, n := decide (a.toInt < b.toInt), c := decide (a.toNat < b.toNat), v := false }

/-- CMP with POS: the flags of the modular difference of two positions (R194, R41). -/
def cmpPosFlags (a b : Word) (f : Flags) : Flags :=
  { f with z := a == b, n := (a - b).msb, c := false, v := false }

end Sys2Proof.Machine
end

