-- ==== Sys2Proof/Machine/Adeger.lean ====
section
/-! DEFINITION. The instruction words of the Adeger engines (R184, R186, R190 to R192, R196, R203, R212 to R215): their decoding
and what makes a word illegal (R219). -/

namespace Sys2Proof.Machine

/-! ### Cause codes (R219) -/

def causeOpcode : Nat := 1
def causeField : Nat := 2
def causeRegister : Nat := 3
def causeReadonly : Nat := 4
def causeAddress : Nat := 5
def causeStack : Nat := 6
def causePcRange : Nat := 7
def causeMemEcc : Nat := 8
def causeMove : Nat := 9
def causeTable : Nat := 10

/-- A register operand: its class and index (R184). -/
structure RegRef where
  cls : Nat
  idx : Nat
  deriving DecidableEq, Repr

/-- A general register. -/
def wReg (i : Nat) : RegRef := ⟨0, i⟩

/-- The second operand: a register or an immediate. -/
inductive Src where
  | reg (r : RegRef)
  | imm (x : Word)
  deriving DecidableEq, Repr

/-- Operations of the common arithmetic group. -/
inductive Alu where
  | add | sub | and | or | xor | shl | shr | sra
  deriving DecidableEq, Repr

/-- A decoded instruction. -/
inductive Insn where
  | nop
  | ldi (rd imm : Nat)
  | ldiZ (rd imm : Nat)
  | ldiSh (rd imm : Nat)
  | ld (rd mode an imm : Nat)
  | st (rd mode an imm : Nat)
  | alu (op : Alu) (rd rs1 : RegRef) (src : Src)
  | cmp (rs1 : RegRef) (src : Src)
  | cmpP (rs1 rs2 : RegRef)
  | br (off : Int)
  | bz (off : Int)
  | bnz (off : Int)
  | bn (off : Int)
  | call (off : Int)
  | ret
  | loop (wc : Nat) (off : Int)
  | halt
  | evt (code : Nat)
  -- profile F
  | waitp (wb : Nat) (off : Int)
  | ldcol
  | mask (row : Nat)
  | maskW (wr : Nat)
  | enrg (rd wg : Nat)
  | grpAdv
  | grpSet (rs : Nat)
  | grpGet (rd : Nat)
  | strb (wm ww : Nat)
  | wfselGet (rd : Nat)
  | wfselSet (rs : Nat)
  | col
  | ckpt (wc : Nat)
  | stretch (fn rd rs : Nat)
  -- profile L
  | mul (sh : Nat) (rnd : Bool) (rd rs1 rs2 : RegRef)
  | macAcc (rs1 rs2 : RegRef)
  | macSet (rs1 rs2 : RegRef)
  | macSub (rs1 rs2 : RegRef)
  | macRead (sh : Nat) (rd : RegRef)
  | lim (rd rs1 rs2 : RegRef)
  | mins (rd rs1 rs2 : RegRef)
  | pre (cond : Bool) (rd rs1 rs2 : RegRef)
  | tbli (rd rs1 : RegRef) (an : Nat)
  | diff (rd rs1 : RegRef) (w2 : Nat)
  | fresh (rd xi ws k m : Nat)
  -- profile M
  | mov (wd ws wn : Nat)
  | movb (wd ws wn : Nat)
  | waitEvi (rd mask : Nat)
  | sig (kind signal idx : Nat)
  deriving DecidableEq, Repr

/-- Bits of an instruction word. -/
def ibits (w lo n : Nat) : Nat := w / 2 ^ lo % 2 ^ n

/-- The cause that keeps a register from being read, 0 for none (R184, R186). -/
def readCause (p : Profile) (r : RegRef) : Nat :=
  match r.cls, p with
  | 0, _ => 0
  | 1, .l => 0
  | 1, _ => if r.idx < 4 then 0 else causeRegister
  | 2, .l => 0
  | 3, .l => if r.idx < 11 then 0 else causeRegister
  | 3, _ => if r.idx < 9 then 0 else causeRegister
  | _, _ => causeRegister

/-- The cause that keeps a register from being written, 0 for none (R183, R184, R186). P, X and K registers and CYC, LR and STK may
only be read. -/
def writeCause (p : Profile) (r : RegRef) : Nat :=
  let c := readCause p r
  if c ≠ 0 then c
  else match r.cls, p with
    | 0, _ => 0
    | 1, .l => if r.idx < 8 then causeReadonly else 0
    | 3, _ => if r.idx = 5 ∨ r.idx = 7 ∨ r.idx = 8 then causeReadonly else 0
    | _, _ => causeReadonly

/-- The first cause of a list, 0 for none. -/
def firstOf : List Nat → Nat
  | [] => 0
  | 0 :: t => firstOf t
  | c :: _ => c

/-- An instruction, unless a cause of the list stands against it. -/
def legal (causes : List Nat) (i : Insn) : Except Nat Insn := if firstOf causes = 0 then .ok i else .error (firstOf causes)

/-- FIELD where a must-be-zero field is not zero or a field is out of range (R191). -/
def field (ok : Bool) : Nat := if ok then 0 else causeField

/-- The registers of format A (R190). -/
def rdA (w : Nat) : RegRef := ⟨ibits w 12 2, ibits w 22 4⟩
def rs1A (w : Nat) : RegRef := ⟨ibits w 10 2, ibits w 18 4⟩
def rs2A (w : Nat) : RegRef := ⟨ibits w 8 2, ibits w 14 4⟩

/-- The format A instruction of an arithmetic operation; its function field is zero. -/
def aluA (p : Profile) (op : Alu) (w : Nat) : Except Nat Insn :=
  legal [field (ibits w 0 8 == 0), readCause p (rs1A w), readCause p (rs2A w), writeCause p (rdA w)]
    (.alu op (rdA w) (rs1A w) (.reg (rs2A w)))

/-- The immediate form: fn is zero; ADD and SUB extend the sign, AND, OR and XOR fill with zeros, and a shift uses bits [5:0]. -/
def aluI (op : Alu) (w : Nat) : Except Nat Insn :=
  let imm := ibits w 0 14
  let x : Word := match op with
    | .add | .sub => wrap48 (sext 14 imm)
    | _ => BitVec.ofNat 48 imm
  let ok := match op with
    | .shl | .shr | .sra => imm < 64
    | _ => true
  legal [field (ibits w 14 4 == 0 && ok)] (.alu op (wReg (ibits w 22 4)) (wReg (ibits w 18 4)) (.imm x))

/-- A branch offset (R192). -/
def off22 (w : Nat) : Int := sext 22 (ibits w 0 22)

/-- A branch whose register field is zero. -/
def branch (w : Nat) (i : Int → Insn) : Except Nat Insn := legal [field (ibits w 22 4 == 0)] (i (off22 w))

/-- Decode a profile F extension word (R203). -/
def decodeF (w : Nat) : Except Nat Insn :=
  let rd := ibits w 22 4
  let rs1 := ibits w 18 4
  let rs2 := ibits w 14 4
  let low := ibits w 0 14
  let fn := ibits w 0 2
  let upper := ibits w 2 12
  match ibits w 26 6 with
  | 0x20 => .ok (.waitp rd (off22 w))
  | 0x21 => legal [field (ibits w 0 26 == 0)] .ldcol
  | 0x22 =>
    if ibits w 13 1 = 0 then legal [field (rd == 0 && rs1 == 0 && rs2 == 0 && ibits w 4 9 == 0)] (.mask (ibits w 0 4))
    else legal [field (rd == 0 && rs2 == 0 && ibits w 0 13 == 0)] (.maskW rs1)
  | 0x23 => legal [field (rs2 == 0 && low == 0)] (.enrg rd rs1)
  | 0x24 =>
    match fn with
    | 0 => legal [field (rd == 0 && rs1 == 0 && rs2 == 0 && upper == 0)] .grpAdv
    | 1 => legal [field (rd == 0 && rs2 == 0 && upper == 0)] (.grpSet rs1)
    | 2 => legal [field (rs1 == 0 && rs2 == 0 && upper == 0)] (.grpGet rd)
    | _ => .error causeField
  | 0x25 => legal [field (rd == 0 && low == 0)] (.strb rs1 rs2)
  | 0x26 =>
    match fn with
    | 0 => legal [field (rs1 == 0 && rs2 == 0 && upper == 0)] (.wfselGet rd)
    | 1 => legal [field (rd == 0 && rs2 == 0 && upper == 0)] (.wfselSet rs1)
    | _ => .error causeField
  | 0x27 => legal [field (ibits w 0 26 == 0)] .col
  | 0x28 => legal [field (rd == 0 && rs2 == 0 && low == 0)] (.ckpt rs1)
  | 0x29 => legal [field (rs2 == 0 && upper == 0)] (.stretch fn rd rs1)
  | _ => .error causeOpcode

/-- Decode a profile L extension word (R212 to R214). -/
def decodeL (w : Nat) : Except Nat Insn :=
  let rd := rdA w
  let a := rs1A w
  let b := rs2A w
  let fn := ibits w 0 8
  let reads := [readCause .l a, readCause .l b]
  match ibits w 26 6 with
  | 0x20 =>
    legal (field (ibits w 7 1 == 0 && decide (ibits w 0 6 < 48)) :: reads ++ [writeCause .l rd])
      (.mul (ibits w 0 6) (ibits w 6 1 == 1) rd a b)
  | 0x21 =>
    let acc := ibits w 2 6 == 0 && ibits w 22 4 == 0 && ibits w 12 2 == 0
    match ibits w 0 2 with
    | 0 => legal (field acc :: reads) (.macAcc a b)
    | 1 => legal (field acc :: reads) (.macSet a b)
    | 2 => legal (field acc :: reads) (.macSub a b)
    | _ => legal [field (ibits w 14 8 == 0 && ibits w 8 4 == 0), writeCause .l rd] (.macRead (ibits w 2 6) rd)
  | 0x22 => legal (field (fn == 0) :: reads ++ [readCause .l rd, writeCause .l rd]) (.lim rd a b)
  | 0x23 => legal (field (fn == 0) :: reads ++ [writeCause .l rd]) (.mins rd a b)
  | 0x24 => legal (field (ibits w 1 7 == 0) :: reads ++ [writeCause .l rd]) (.pre (ibits w 0 1 == 1) rd a b)
  | 0x25 =>
    legal [field (fn == 0 && b.cls == 3 && decide (b.idx < 4)), readCause .l a, writeCause .l rd] (.tbli rd a b.idx)
  | 0x26 => legal [field (fn == 0 && b.cls == 0), readCause .l a, writeCause .l rd] (.diff rd a b.idx)
  | 0x27 =>
    legal [field (decide (ibits w 18 4 < 8) && ibits w 0 7 != 0)]
      (.fresh (ibits w 22 4) (ibits w 18 4) (ibits w 14 4) (ibits w 0 7) (ibits w 7 7))
  | _ => .error causeOpcode

/-- The engines a SIG may name: 20 sequencers, 8 control engines, 8 move channels. -/
def sigIndexOk (kind idx : Nat) : Bool := match kind with
  | 0 => decide (idx < 20)
  | 1 => decide (idx < 8)
  | 2 => decide (idx < 8)
  | _ => false

/-- Decode a profile M extension word (R215). -/
def decodeM (w : Nat) : Except Nat Insn :=
  let rd := ibits w 22 4
  let rs1 := ibits w 18 4
  let rs2 := ibits w 14 4
  match ibits w 26 6 with
  | 0x20 => legal [field (ibits w 0 14 == 0)] (.mov rd rs1 rs2)
  | 0x21 => legal [field (ibits w 0 14 == 0)] (.movb rd rs1 rs2)
  | 0x22 => legal [field (rs1 == 0 && rs2 == 0 && ibits w 10 4 == 0 && ibits w 0 10 != 0)] (.waitEvi rd (ibits w 0 10))
  | 0x23 =>
    let kind := ibits w 12 2
    let idx := ibits w 0 5
    legal [field (rd == 0 && rs1 == 0 && rs2 == 0 && ibits w 11 1 == 0 && ibits w 5 3 == 0 && sigIndexOk kind idx)]
      (.sig kind (ibits w 8 3) idx)
  | _ => .error causeOpcode

/-- Decode an instruction word in a profile; an illegal word gives its cause (R190 to R219). Where several causes stand against a word,
the opcode comes first, then the fields, then the registers. -/
def decodeInsn (p : Profile) (word : BitVec 32) : Except Nat Insn :=
  let w := word.toNat
  let rd := ibits w 22 4
  let rs1 := ibits w 18 4
  let imm := ibits w 0 14
  let mode := ibits w 20 2
  match ibits w 26 6 with
  | 0x00 => .ok .nop
  | 0x01 =>
    match ibits w 14 4 with
    | 0 => legal [field (rs1 == 0)] (.ldi rd imm)
    | 1 => legal [field (rs1 == 0)] (.ldiZ rd imm)
    | 2 => legal [field (rs1 == 0)] (.ldiSh rd imm)
    | _ => .error causeField
  | 0x02 => legal [field (mode != 3 && ibits w 14 4 == 0)] (.ld rd mode (ibits w 18 2) imm)
  | 0x03 => legal [field (mode != 3 && ibits w 14 4 == 0)] (.st rd mode (ibits w 18 2) imm)
  | 0x04 => aluA p .add w
  | 0x05 => aluI .add w
  | 0x06 => aluA p .sub w
  | 0x07 => aluI .sub w
  | 0x08 => aluA p .and w
  | 0x09 => aluI .and w
  | 0x0A => aluA p .or w
  | 0x0B => aluI .or w
  | 0x0C => aluA p .xor w
  | 0x0D => aluI .xor w
  | 0x0E => aluA p .shl w
  | 0x0F => aluI .shl w
  | 0x10 => aluA p .shr w
  | 0x11 => aluI .shr w
  | 0x12 => aluA p .sra w
  | 0x13 => aluI .sra w
  | 0x14 =>
    let causes := [field (ibits w 1 7 == 0 && rd == 0 && ibits w 12 2 == 0), readCause p (rs1A w), readCause p (rs2A w)]
    if ibits w 0 1 = 1 then legal causes (.cmpP (rs1A w) (rs2A w)) else legal causes (.cmp (rs1A w) (.reg (rs2A w)))
  | 0x15 => legal [field (rd == 0 && ibits w 14 4 == 0)] (.cmp (wReg rs1) (.imm (wrap48 (sext 14 imm))))
  | 0x16 => branch w .br
  | 0x17 => branch w .bz
  | 0x18 => branch w .bnz
  | 0x19 => branch w .bn
  | 0x1A => branch w .call
  | 0x1B => legal [field (ibits w 0 26 == 0)] .ret
  | 0x1C => .ok (.loop rd (off22 w))
  | 0x1D => legal [field (ibits w 0 26 == 0)] .halt
  | 0x1E => legal [field (rd == 0 && rs1 == 0 && ibits w 14 4 == 0)] (.evt imm)
  | _ => match p with
    | .f => decodeF w
    | .l => decodeL w
    | .m => decodeM w

end Sys2Proof.Machine
end

