-- ==== Sys2Proof/Machine/Operands.lean ====
section
/-! DEFINITION. The engines' state and operands: which registers an operand names, reading and writing them, fetching an
instruction (R183 to R192, R199, R218). -/

namespace Sys2Proof.Machine

/-! ### Engines -/

/-- An engine the device has (R16). -/
def Engine.exists_ : Engine → Bool
  | .sq n => decide (n < 20)
  | .ce n => decide (n < 8)
  | .mv n => decide (n < 8)

/-- The profile an engine runs (R183). -/
def Engine.profile : Engine → Profile
  | .sq _ => .f
  | .ce _ => .l
  | .mv _ => .m

def seqOf (n : Nat) (s : State) : Seq := s.sqs.getD n {}
def setSeq (n : Nat) (x : Seq) (s : State) : State := { s with sqs := s.sqs.set n x }
def ctlOf (n : Nat) (s : State) : Ctl := s.ces.getD n {}
def setCtl (n : Nat) (x : Ctl) (s : State) : State := { s with ces := s.ces.set n x }
def moverOf (n : Nat) (s : State) : Mover := s.mvs.getD n {}
def setMover (n : Nat) (x : Mover) (s : State) : State := { s with mvs := s.mvs.set n x }

/-- The state every engine has. -/
def coreOf (e : Engine) (s : State) : Core := match e with
  | .sq n => (seqOf n s).core
  | .ce n => (ctlOf n s).core
  | .mv n => (moverOf n s).core

/-- A sticky flag as its status bit shows it; its rise is an event of the tick (R11). -/
def showFlag (f : Field) (b : Bool) (s : State) : State := doIf (b && !getB f s) (noteRaised f 0) (setF f b.toNat s)

/-- The status bits of an engine's S and O. -/
def stickyFields : Engine → Option (Field × Field)
  | .sq n => some (fSQ_STAT_S n, fSQ_STAT_O n)
  | .ce n => some (fCE_STAT_S n, fCE_STAT_O n)
  | .mv _ => none

/-- The engine's S and O stand in its status register too (R187). -/
def showSticky (e : Engine) (f : Flags) (s : State) : State := match stickyFields e with
  | some x => showFlag x.1 f.s (showFlag x.2 f.o s)
  | none => s

/-- A saturation in this tick: S, set before or not, is not lost to a clearing write of the tick (R11, R187). -/
def noteSaturation (e : Engine) (s : State) : State := match stickyFields e with
  | some x => noteRaised x.1 0 s
  | none => s

/-- An overrun or a skipped column in this tick, likewise. -/
def noteOverrun (e : Engine) (s : State) : State := match stickyFields e with
  | some x => noteRaised x.2 0 s
  | none => s

def setCore (e : Engine) (c : Core) (s : State) : State :=
  showSticky e c.fl (match e with
    | .sq n => setSeq n { seqOf n s with core := c } s
    | .ce n => setCtl n { ctlOf n s with core := c } s
    | .mv n => setMover n { moverOf n s with core := c } s)

def modCore (e : Engine) (f : Core → Core) (s : State) : State := setCore e (f (coreOf e s)) s

/-- The STATE field of an engine: 0 STOPPED, 1 IDLE, 2 RUNNING, 3 FAULTED (R199). -/
def stateField : Engine → Field
  | .sq n => fSQ_STAT_STATE n
  | .ce n => fCE_STAT_STATE n
  | .mv n => fMV_STAT_STATE n

def engState (e : Engine) (s : State) : Nat := getF (stateField e) s

def setEngState (e : Engine) (x : Nat) (s : State) : State := setF (stateField e) x s

/-- Size of the program memory in words (R188). -/
def progSize : Engine → Nat
  | .sq _ => 4096
  | .ce _ => 2048
  | .mv _ => 1024

/-- Size of the data memory in words (R188). -/
def dataSize : Engine → Nat
  | .sq _ => 2048
  | .ce _ => 4096
  | .mv _ => 512

/-- The bank of an engine's local memory (R377): sequencers 64 to 83, control engines 84 to 91; a move channel's lies in the move buffers, 108. -/
def bankOf : Engine → Nat
  | .sq n => 64 + n
  | .ce n => 84 + n
  | .mv _ => 108

/-- The first word of an engine's program memory and of its data memory in their bank, in the order in which R377 lists what the bank holds (log
entry 200). -/
def progBase : Engine → Nat
  | .sq n => wordNo (64 + n) 8192
  | .ce n => wordNo (84 + n) 0
  | .mv n => wordNo 108 (3072 * n)

def dataBase : Engine → Nat
  | .sq n => wordNo (64 + n) 10240
  | .ce n => wordNo (84 + n) 1024
  | .mv n => wordNo 108 (3072 * n + 1024)

/-- The word of the bank that holds an instruction, of which two stand in a word, and the one that holds a slot of data memory. -/
def progWord (e : Engine) (i : Nat) : Nat := progBase e + i / 2
def dataWord (e : Engine) (i : Nat) : Nat := dataBase e + i

/-- A data memory word. -/
def dataGet (c : Core) (a : Nat) : Word := spGet (fun _ => 0) c.data a

def dataPut (c : Core) (a : Nat) (x : Word) : Core := { c with data := spPut (fun _ => (0 : Word)) c.data a x }

/-- A program memory word. -/
def progGet (c : Core) (a : Nat) : BitVec 32 := spGet (fun _ => 0) c.prog a

def progPut (c : Core) (a : Nat) (x : BitVec 32) : Core := { c with prog := spPut (fun _ => (0 : BitVec 32)) c.prog a x }

/-- A general register. -/
def Core.getW (c : Core) (i : Nat) : Word := c.w.getD i 0

def Core.setW (c : Core) (i : Nat) (x : Word) : Core := { c with w := c.w.set i x }

/-- A general register written in an engine. -/
def putW (e : Engine) (i : Nat) (x : Word) (s : State) : State := modCore e (fun c => c.setW i x) s

def getW (e : Engine) (i : Nat) (s : State) : Word := (coreOf e s).getW i

def Core.getA (c : Core) (i : Nat) : BitVec 16 := c.a.getD i 0

/-- The head a sequencer drives: its own, or the one a Chamois has taken over (R220). -/
def headOf (n : Nat) (s : State) : Option Nat :=
  let h := if n < 16 then n else getF (fSQ_BIND_PARTNER n) s
  if h < 16 ∧ driver h s = n then some h else none

/-! ### Reading and writing operands -/

/-- A value the spec leaves open: the next free value. -/
def drawFree (s : State) : Nat × State := (Config.freeValue s.free, { s with free := s.free + 1 })

/-- The position register a program reads (R183, R185): P0 of a sequencer is its head's predicted position less ALIGN_X (R273), zero
for a sequencer that drives no head; P1 to P3 are p_m of the lines in its settings. In profile M, P0 to P3 are p_m of the lines. -/
def posReg (e : Engine) (i : Nat) (s : State) : Word := match e with
  | .sq n =>
    match headOf n s, i with
    | some h, 0 => s.reg (rTRK_HPRED h)
    | some h, 1 => s.reg (rTRK_LINE_POS (getF (fSQ_CFG_P1_LINE h) s))
    | some h, 2 => s.reg (rTRK_LINE_POS (getF (fSQ_CFG_P2_LINE h) s))
    | some h, _ => s.reg (rTRK_LINE_POS (getF (fSQ_CFG_P3_LINE h) s))
    | none, _ => 0
  | .ce _ => 0
  | .mv _ => s.reg (rTRK_LINE_POS i)

/-- P0 of the sequencer. -/
def p0 (n : Nat) (s : State) : Word := posReg (.sq n) 0 s

/-- The masked Y outputs of a control engine in a mode other than AUTO read what the hardware committed (R313). -/
def yMasked (n i : Nat) (s : State) : Bool :=
  decide (getF (fCE_STAT_MODE n) s ≠ 1) && (getF (fCE_MODE_OVR_MASK n) s).testBit i

/-- A register's value. -/
def regValue (e : Engine) (r : RegRef) (s : State) : Word :=
  let c := coreOf e s
  match r.cls, e with
  | 0, _ => c.getW r.idx
  | 1, .ce n =>
    if r.idx < 8 then (ctlOf n s).x.getD r.idx 0
    else match yMasked n (r.idx - 8) s, spFind (ctlOf n s).yPend (r.idx - 8) with
      | false, some v => v
      | _, _ => s.reg (rCE_Y n (r.idx - 8))
  | 1, _ => posReg e r.idx s
  | 2, .ce n => (ctlOf n s).k.getD r.idx 0
  | 2, _ => 0
  | _, _ =>
    match r.idx, e with
    | 4, _ => c.fl.word
    | 6, _ => BitVec.ofNat 48 c.evi
    | 7, _ => BitVec.ofNat 48 (c.stack.headD 0)
    | 8, _ => c.stk
    | 9, .ce n => (ctlOf n s).acc.extractLsb' 48 48
    | 10, .ce n => (ctlOf n s).acc.extractLsb' 0 48
    | i, _ => (c.getA i).setWidth 48

/-- CYC as the instruction in progress reads it: the count of engine cycles up to the present tick, and in it none or one more. Which of the tick's
two cycles an instruction takes is a free value of this model; every read of one instruction finds the same count, and a later instruction none
that is lower (R186; log entry 147). -/
def readCyc (e : Engine) (s : State) : Word × State :=
  let c := coreOf e s
  if c.cycHeld then (BitVec.ofNat 48 c.cycSeen, s)
  else
    let d := drawFree s
    let n := max c.cycSeen (c.cyc / 8 + d.1 % 2)
    (BitVec.ofNat 48 n, modCore e (fun x => { x with cycSeen := n, cycHeld := true }) d.2)

/-- A register is read: a P read notes its tick in STK (R185). -/
def readReg (e : Engine) (r : RegRef) (s : State) : Word × State :=
  if r.cls = 3 ∧ r.idx = 5 then readCyc e s
  else
    let s1 := if r.cls = 1 ∧ e.profile ≠ .l then modCore e (fun c => { c with stk := now s }) s else s
    (regValue e r s, s1)

/-- A second operand is read. -/
def readSrc (e : Engine) (x : Src) (s : State) : Word × State := match x with
  | .reg r => readReg e r s
  | .imm w => (w, s)

/-- A register is written. EVI bits written as one are cleared (R186); a Y write is pending until HALT and is discarded for a masked
output outside AUTO (R210, R313). -/
def writeReg (e : Engine) (r : RegRef) (x : Word) (s : State) : State :=
  match r.cls, e with
  | 0, _ => putW e r.idx x s
  | 1, .ce n =>
    if r.idx < 8 then s else
    let y := ctlOf n s
    if yMasked n (r.idx - 8) s then s else setCtl n { y with yPend := spInsert y.yPend (r.idx - 8) x } s
  | 3, _ =>
    match r.idx, e with
    | 4, _ => modCore e (fun c => { c with fl := Flags.ofWord x }) s
    | 6, _ => modCore e (fun c => { c with evi := c.evi &&& (1023 - x.toNat % 1024) }) s
    | 9, .ce n => setCtl n { ctlOf n s with acc := x ++ (ctlOf n s).acc.extractLsb' 0 48 } s
    | 10, .ce n => setCtl n { ctlOf n s with acc := (ctlOf n s).acc.extractLsb' 48 48 ++ x } s
    | i, _ => if i < 4 then modCore e (fun c => { c with a := c.a.set i (x.setWidth 16) }) s else s
  | _, _ => s

/-- The flags of an engine set, unless FL is the destination (R187). -/
def setFlags (e : Engine) (rd : RegRef) (f : Flags) (s : State) : State :=
  if rd.cls = 3 ∧ rd.idx = 4 then s else modCore e (fun c => { c with fl := f }) s

/-- A result written with its flags: where FL is the destination the written value replaces all six. -/
def writeRes (e : Engine) (rd : RegRef) (x : Res) (s : State) : State :=
  writeReg e rd x.r (doIf (decide (e.profile = .l) && x.fl.s && x.fl.v) (noteSaturation e) (setFlags e rd x.fl s))

/-- The program counter moves on. -/
def advance (e : Engine) (s : State) : State := modCore e (fun c => { c with pc := c.pc + 1 }) s

/-! ### Fetching (R188, R189, R219) -/

/-- The data address of LD and ST (R189). -/
def dataAddr (c : Core) (an imm : Nat) : Nat := ((c.getA an).toNat + imm) % 65536

/-- The header of a table: base, SH, N, PERIODIC (R213). -/
structure Table where
  base : Word
  sh : Nat
  n : Nat
  periodic : Bool

/-- The table at a data word, or the cause that makes TBLI illegal (R213). -/
def tableAt (e : Engine) (c : Core) (a : Nat) : Except Nat Table :=
  if dataSize e ≤ a + 1 then .error causeAddress
  else
    let h := (dataGet c (a + 1)).toNat
    let sh := ibits h 0 6
    let n := ibits h 8 13
    if 40 < sh ∨ n < 2 ∨ 4096 < n ∨ ibits h 6 2 ≠ 0 ∨ h / 2 ^ 22 ≠ 0 then .error causeTable
    else if dataSize e < a + 2 + n then .error causeAddress
    else .ok ⟨dataGet c a, sh, n, ibits h 21 1 == 1⟩

/-- What the state of the engine adds to a word's legality: data addresses, the return stack, tables, and lengths of moves. -/
def stateCause (e : Engine) (c : Core) (i : Insn) : Nat := match i with
  | .ld _ _ an imm => if dataSize e ≤ dataAddr c an imm then causeAddress else 0
  | .st _ _ an imm => if dataSize e ≤ dataAddr c an imm then causeAddress else 0
  | .call _ => if 8 ≤ c.stack.length then causeStack else 0
  | .ret => if c.stack.isEmpty then causeStack else 0
  | .tbli _ _ an => match tableAt e c (c.getA an).toNat with
    | .ok _ => 0
    | .error k => k
  | .mov _ _ wn => if 2 ^ 24 ≤ (c.getW wn).toNat then causeField else 0
  | .movb _ _ wn => if 2 ^ 24 ≤ (c.getW wn).toNat then causeField else 0
  | _ => 0

/-- The instruction an engine comes to, or the cause that makes it illegal (R219). -/
def fetchInsn (e : Engine) (s : State) : Except Nat Insn :=
  let c := coreOf e s
  if progSize e ≤ c.pc then .error causePcRange
  else if wordBad (progWord e c.pc) s then .error causeMemEcc
  else match decodeInsn e.profile (progGet c c.pc) with
    | .error k => .error k
    | .ok i => if stateCause e c i = 0 then .ok i else .error (stateCause e c i)

/-- An engine is executing and no instruction of it waits. -/
def executing (e : Engine) (s : State) : Bool :=
  e.exists_ && decide (engState e s = 2) && decide ((coreOf e s).wait = .none)

/-- The legal instruction that an executing engine comes to. -/
def nextInsn (e : Engine) (s : State) : Option Insn :=
  if executing e s then
    match fetchInsn e s with
    | .ok i => some i
    | .error _ => none
  else none

end Sys2Proof.Machine
end

