-- ==== Sys2Proof/Machine/Heads.lean ====
section
/-! DEFINITION. Heads: presence and readiness, the safe state of a port, its frame time and column-rate limit, and what becomes of the
jobs of a head that is lost (R109 to R111, R222, R259, R260, R267). -/

namespace Sys2Proof.Machine

def portOf (h : Nat) (s : State) : Port := s.ports.getD h {}
def setPort (h : Nat) (p : Port) (s : State) : State := { s with ports := s.ports.set h p }
def modPort (h : Nat) (f : Port → Port) (s : State) : State := setPort h (f (portOf h s)) s

/-- Personalities (R255). -/
def persOf (h : Nat) (s : State) : Nat := getF (fHP_CFG_PERS h) s

/-! ### Frame time and column-rate limit (R258 to R260, R291) -/

/-- Nanoseconds of one symbol at the lane rate in force (R257, R259). -/
def symbolNs (h : Nat) (s : State) : Nat := match getF (fHP_LANE_RATE h) s with
  | 1 => 16
  | 2 => 32
  | _ => 8

/-- Lanes that carry column frames (R258). -/
def laneCount (h : Nat) (s : State) : Nat := if persOf h s = 1 then 3 else 4

/-- T_frame in ns (R258). -/
def frameNs (h : Nat) (s : State) : Nat := (2 + ceilDiv (columnBytes h s + 6) (laneCount h s)) * symbolNs h s

/-- T_PORT in units of 10 ns, rounded up: T_frame + LAT_DLY, or START_DLY pixel periods on a laser port (R259, R288). -/
def portLatency (h : Nat) (s : State) : Nat :=
  match persOf h s with
  | 0 => 0
  | 4 => ceilDiv (getF (fHP_LSR_CFG_START_DLY h) s * max 4 (getF (fHP_DLL_CFG_PIX_DIV h) s) * 5) 30
  | _ => ceilDiv (frameNs h s + 10 * getF (fHP_LANE_LAT_DLY h) s) 10

/-- The lengths of the four segments of a band set (R262). -/
def segment (h b i : Nat) (s : State) : Nat := wordGet (s.reg (rHP_WFLEN h b)) (10 * i) 10

def segmentSum (h b : Nat) (s : State) : Nat := segment h b 0 s + segment h b 1 s + segment h b 2 s + segment h b 3 s

/-- N_wf: the largest total segment length of the eight band sets (R260). -/
def longestSet (h : Nat) (s : State) : Nat := (List.range 8).foldl (fun a b => max a (segmentSum h b s)) 0

/-- Byte `k` of the identity record as the registers hold it, six bytes to a register (R151, R269). -/
def idByte (h k : Nat) (s : State) : Byte := BitVec.ofNat 8 (wordGet (s.reg (rHP_ID h (k / 6))) (8 * (k % 6)) 8)

/-- Bytes of the identity record. -/
def idBytes (h ofs n : Nat) (s : State) : List Byte := (List.range n).map fun i => idByte h (ofs + i) s

/-- FMAX of the identity record (R269). -/
def idFmax (h : Nat) (s : State) : Nat := leNat (idBytes h 8 4 s)

/-- The limits of R260 that apply to a head. -/
def rateLimits (h : Nat) (s : State) : List Nat :=
  let pers := persOf h s
  let kAge := getF fCLK_DERATE_K_AGE s
  [getF (fHP_CFG_FMAX h) s, 100000 * (16 - kAge) / 16] ++
  (if getB (fHP_CFG_ID_REQ h) s && (portOf h s).idValid then [idFmax h s] else []) ++
  (if pers = 4 then
    (if getF (fHP_LSR_STAT_STATE h) s = 2 ∧ getF (fHP_LSR_MEAS_T_FACET h) s ≠ 0 then
      [100000000 / getF (fHP_LSR_MEAS_T_FACET h) s] else [])
   else if pers = 0 then [] else [1000000000 / frameNs h s]) ++
  (if pers = 1 ∧ longestSet h s ≠ 0 then [200000000 / (getF (fHP_WF_WF_DIV h) s * longestSet h s)] else [])

/-- The head's column-rate limit, the lowest of the limits (R260). -/
def rateLimit (h : Nat) (s : State) : Nat := (rateLimits h s).foldl min 131071

/-- F_LIM follows the limits (R260, R291). -/
def showLimit (h : Nat) (s : State) : State := setF (fSCH_HEAD_STAT_F_LIM h) (rateLimit h s) s

/-- T_PORT and H_LB follow the settings (R225, R259, R288). -/
def showPort (h : Nat) (s : State) : State :=
  setF (fSQ_LB_H_LB h) (halfSlots h s) (setF (fHP_STAT_T_PORT h) (satTo 16 (portLatency h s)) s)

/-- F_LIM is recomputed at each hand-over and at each change of k_age; T_PORT and H_LB follow the settings (R225, R259, R260). -/
def publishPort (h : Nat) (s : State) : State := showPort h (showLimit h s)

/-! ### The set of a path (R234, R236) -/

/-- The registers of a path's set whose every field is RWS. -/
def setRegisters (h : Nat) : List Nat :=
  [rSQ_CFG h, rTRK_HLEAD h, rHP_LANE h, rHP_ALIGN h, rHP_GROUP h, rHP_ENRG0 h, rHP_ENRG1 h, rHP_WF h] ++
  (List.range 3).map (rHP_KTAB h) ++ (List.range 3).map (rHP_BANDS h) ++ (List.range 8).map (rHP_WFLEN h) ++
  (if 12 ≤ h then (List.range 24).map (rHP_FACET h) else [])

/-- Fields of the set in a register that holds other fields too. -/
def setFields (h : Nat) : List Field :=
  if 12 ≤ h then [fHP_LSR_CFG_START_DLY h, fHP_LSR_CFG_PSCALE h, fHP_LSR_CFG_EN_WAIT h] else []

/-- A host write to a register of a path's set, after it has reached the shadow bank: one that lands with a hand-over, after its copy, sets
SHADOW_LATE (R236). The clock of the hand-over is taken to the tick. -/
def shadowLate (a : Nat) (s : State) : State :=
  forAll ((List.range 16).filter fun h => decide ((path h s).hoTick = some (now s)) &&
      ((setRegisters h).contains a || (setFields h).any (fun f => f.reg == a) ||
        (decide (rSQ_MASK h 0 ≤ a) && decide (a < rSQ_MASK h 0 + 0x400))))
    (fun h => setB (fSQ_STAT_SHADOW_LATE h) true) s

/-! ### Readiness (R222, R267, R269, R298) -/

/-- The head counts as present: the test of R269, and for a laser head laser enable for EN_WAIT on a locked channel (R298). -/
def headPresent (h : Nat) (s : State) : Bool :=
  decide (persOf h s ≠ 0) && getB (fHP_STAT_PRESENT h) s && !getB (fHP_STAT_NEW_HEAD h) s &&
  (decide (persOf h s ≠ 4) || (path h s).laserUp && (portOf h s).laser.enSince.any fun t =>
    decide (getF (fHP_LSR_CFG_EN_WAIT h) s * 2000 ≤ (now s - t).toNat))

/-- The sequencer driving the head is IDLE or RUNNING, with no STOP pending on it (R222). -/
def driverUp (h : Nat) (s : State) : Bool :=
  let e := Engine.sq (driver h s)
  (decide (engState e s = 1) || decide (engState e s = 2)) && !getB (fSQ_STAT_STOP_PEND (driver h s)) s

def setHeadState (h x : Nat) (s : State) : State := setF (fSCH_HEAD_STAT_STATE h) x s

/-- The head's state follows its tests, unless it is in TAKEOVER, HEAD_LOST or UNPLUGGED (R222); with PERS at NONE it is ABSENT (R255). At
READY the port leaves its safe state (R267). -/
def refreshHead (h : Nat) (s : State) : State :=
  if persOf h s = 0 then setHeadState h 0 s
  else if 2 ≤ headState h s then s
  else if headPresent h s && driverUp h s then setB (fHP_STAT_SAFE h) (getB fFLT_REC_DEVICE_SAFE s) (setHeadState h 1 s)
  else setHeadState h 0 s

/-- The driven head of a sequencer is tested again. -/
def refreshDriven (n : Nat) (s : State) : State := match headOf n s with
  | some h => refreshHead h s
  | none => if n < 16 then refreshHead n s else s

/-! ### The safe state of a port (R267, R297, R299) -/

/-- A line of a laser port is dropped: it counts in DROPPED and its job is marked COLUMN_MISSED (R299). -/
def dropLine (h : Nat) (l : Option ScanLine) (s : State) : State := match l with
  | none => s
  | some x =>
    let s1 := incSat (fHP_LSR_CNT_DROPPED h) s
    match x.job with
    | some j => modJob j (fun y => { y with flags := y.flags ||| flagColumnMissed }) s1
    | none => s1

/-- The port of a laser head is gated (R297), or not; in a takeover laser enable keeps its level while its conditions hold. -/
def showGate (h : Nat) (s : State) : State :=
  let up := decide (getF (fHP_LSR_STAT_STATE h) s = 2) && getB (fHP_LSR_CFG_LASER_EN h) s && !getB (fHP_STAT_SAFE h) s
  let taken := (path h s).takeover.isSome
  let enable := up && (!taken || getB (fHP_LSR_STAT_ENABLE h) s)
  let was := getB (fHP_LSR_STAT_ENABLE h) s
  let s1 := setB (fHP_LSR_STAT_GATE h) (!up || taken) (setB (fHP_LSR_STAT_ENABLE h) enable s)
  let p := portOf h s1
  let s2 := setPort h { p with laser := { p.laser with
    enSince := if enable then (if was then p.laser.enSince else some (now s1)) else none } } s1
  if enable then s2 else setPath h { path h s2 with laserUp := false } s2

/-! ### Scan lines (R288, R292, R299) -/

/-- PIX_DIV as it acts. -/
def pixDiv (h : Nat) (s : State) : Nat := max 4 (getF (fHP_DLL_CFG_PIX_DIV h) s)

/-- The start of pixel `k` of a line on facet `f`, in 1/64 pixel after the beam-detect edge (R292). -/
def pixelStart (l : ScanLine) (f k : Nat) : Int :=
  let w := l.facets.getD f 0
  64 * ((l.startDly + k : Nat) : Int) + signedOf 12 (wordGet w 0 12) + ((k : Int) * signedOf 12 (wordGet w 12 12)) / (max 1 l.pixels.length : Nat)

/-- How far a line has got: the 1/64 pixels since the edge that took it, at one pixel per PIX_DIV periods of 600 MHz. -/
def scanned (h : Nat) (t : Word) (s : State) : Nat := (now s - t).toNat * 192 / pixDiv h s

/-- The line in WRITING, until the end of its last pixel. -/
def inWriting (h : Nat) (s : State) : Option ScanLine :=
  (portOf h s).laser.writing.filter fun l => match l.taken with
    | none => true
    | some (t, f) => decide ((scanned h t s : Int) < pixelStart l f (l.pixels.length - 1) + 64)

/-- The pixel that the line in WRITING is sending. -/
def pixelNow (h : Nat) (l : ScanLine) (s : State) : Nat := match l.taken with
  | none => 0
  | some (t, f) => ((List.range l.pixels.length).filter fun k => decide (pixelStart l f k ≤ (scanned h t s : Int))).length - 1

/-- A line that was being written is cut (R297, R299). -/
def cutLine (h : Nat) (w : Option ScanLine) (s : State) : State := match w with
  | some l => send (.scanCut h (pixelNow h l s)) s
  | none => s

/-- The lines in PENDING and WRITING are dropped, each counted and its job flagged; the one being written is cut at the pixel then being
sent (R299). -/
def dropLines (h : Nat) (s : State) : State :=
  let w := inWriting h s
  let s1 := dropLine h w (dropLine h (portOf h s).laser.pend (modPort h (fun p => { p with laser := { p.laser with pend := none, writing := none } }) s))
  cutLine h w s1

/-! ### The pins of a port (R257, R259, R261, R267, R288) -/

/-- K28.5, sent between frames; K27.7 and K29.7, which open and close a frame (R257, R258). -/
def symIdle : Symbol := ⟨true, 0xBC⟩
def symStart : Symbol := ⟨true, 0xFB⟩
def symEnd : Symbol := ⟨true, 0xFD⟩
def symData (b : Byte) : Symbol := ⟨false, b⟩

/-- The period of the sample clock in ns (R261). -/
def samplePeriodNs (h : Nat) (s : State) : Nat := 5 * max 10 (getF (fHP_WF_WF_DIV h) s)

/-- The segment being converted at a sample of a playback (R261). -/
def segmentAt (h i : Nat) (s : State) : Nat :=
  let b := (path h s).band
  if i < segment h b 0 s then 0
  else if i < segment h b 0 s + segment h b 1 s then 1
  else if i < segment h b 0 s + segment h b 1 s + segment h b 2 s then 2 else 3

/-- The segment that a PIEZO port plays now, none between playbacks. -/
def playing (h : Nat) (s : State) : Option Nat :=
  (portOf h s).play.bind fun x =>
    let ns := 5 * (now s - x.1).toNat
    if ns < x.2 then some (segmentAt h (ns / samplePeriodNs h s) s) else none

/-- What the pins of a port carry between frames. In the safe state every strobe and LAT is inactive (R267). -/
def pinLevels (h : Nat) (s : State) : PortPins :=
  let p := portOf h s
  let free := !getB (fHP_STAT_SAFE h) s
  let idle := getF (fHP_WF_WF_IDLE h) s
  let fired := p.lastFire.any fun t => decide (5 * (now s - t).toNat < 10 * max 1 (getF (fHP_LANE_LAT_W h) s))
  let lat (on : Bool) : Bool := if free && on then !getB (fHP_LANE_LAT_POL h) s else getB (fHP_LANE_LAT_POL h) s
  let symCk := 3 * symbolNs h s
  match persOf h s with
  | 4 =>
    let up := (inWriting h s).any fun l => l.taken.any fun x => decide (pixelStart l x.2 0 ≤ (scanned h x.1 s : Int))
    { laneUp := true, ioUp := true, lanes := List.replicate 4 [], ck := 5 * pixDiv h s, sample := none, stb := (free && !getB (fHP_LSR_STAT_GATE h) s && up) :: List.replicate 7 false,
      lat := lat (getB (fHP_LSR_STAT_ENABLE h) s) }
  | 1 =>
    let seg := if free then playing h s else none
    { laneUp := true, ioUp := true, lanes := List.replicate 3 [symIdle] ++ [[symData (BitVec.ofNat 8 idle), symData (BitVec.ofNat 8 (idle / 256))]]
      ck := symCk, sample := some (samplePeriodNs h s, p.lastFire)
      stb := [false, seg.any fun k => k.testBit 0, seg.any fun k => k.testBit 1, seg.isSome, false, false, false, false]
      lat := lat fired }
  | _ =>
    { laneUp := true, ioUp := true, lanes := List.replicate 4 [symIdle], ck := symCk, sample := none
      stb := (List.range 8).map fun g => free && p.active.contains g
      lat := lat fired }

/-- The pins of a head port: an output is high-impedance until its own supply is good (R492). -/
def portPins (h : Nat) (s : State) : PortPins :=
  let x := pinLevels h s
  { laneUp := laneGood s, ioUp := io33Good s, lanes := if laneGood s then x.lanes else [], ck := if laneGood s then x.ck else 0
    sample := if io33Good s then x.sample else none, stb := x.stb.map fun b => b && io33Good s, lat := x.lat && io33Good s }

/-- A drop-test burst ends: it is no longer active and its gate is free (R276, R278). -/
def endBurst (h : Nat) (s : State) : State :=
  match (portOf h s).burst with
  | none => s
  | some b => setB (fDG_STAT_BUSY b.gate) false (setB (fHP_TESTSTAT_ACTIVE h) false (modPort h (fun p => { p with burst := none }) s))

/-- A READY_BY of the head that comes due ends its burst; the firing in progress is discarded and counted in ABORTS (R278). -/
def abortBurst (h : Nat) (s : State) : State :=
  if (portOf h s).burst.isSome then
    incSat (fHP_TESTSTAT_ABORTS h) (endBurst h (modPort h (fun p => { p with frames := p.frames.filter fun f => !f.test }) s))
  else s

/-- The port enters its safe state: nothing strobes, no column is in hand, and a laser port is gated with its enable deasserted and
its lines dropped; its pins take the levels of that state (R267, R297). -/
def portSafe (h : Nat) (s : State) : State :=
  let s1 := if persOf h s = 4 then dropLines h s else s
  let s2 := setB (fHP_STAT_SAFE h) true (endBurst h
    (modPort h (fun p => { p with active := [], frames := [], lastFrame := none, play := none, lastFire := none }) s1))
  let s3 := if persOf h s2 = 4 then showGate h s2 else s2
  send (.pins h (portPins h s3)) s3

/-! ### Jobs of a lost head (R109 to R111) -/

/-- The mark settings a job was created from. -/
def markOf (x : Job) (s : State) : Option MarkSet := (spFind s.sch.binds x.slot).bind fun b => b.marks.find? fun m => decide (m.idx = x.mark)

/-- The entry of the same slot that names a head as its own. -/
def entryOf (x : Job) (h : Nat) (s : State) : Option MarkSet :=
  (spFind s.sch.binds x.slot).bind fun b => b.marks.find? fun m => decide (m.head = h)

/-- A render of one job again, with every job that shares the damaged image where it has one, ahead of every queued render (R110, R175). -/
def renderAgain (j : Nat) (s : State) : State := match job j s with
  | none => s
  | some x =>
    let r : RenderReq := { prod := x.prod, only := some j, late := false, image := x.image }
    showRenders { s with ren.queue := r :: s.ren.queue }

/-- Move a job to an alternate head (R110): it returns to ARMED with its events replaced, keeps its image where the alternate's
REN_HEADn_CFG equals the value it was rendered with, and is otherwise rendered again ahead of every queued render. -/
def moveJob (j a : Nat) (s : State) : State :=
  match job j s with
  | none => s
  | some x =>
    match s.sch.ptab.find? fun p => decide (p.2.seq = x.prod) with
    | none => headLostJob j s
    | some (i, q) =>
      let s1 := petDrop (fun e => isJobEvent e && decide (e.job = j)) (quitPath j s)
      let ofs := ((entryOf x a s).map (·.ofs)).getD x.ofs
      let start := q.dpos + counts ofs
      let ready := start - counts (getF (fSCH_LINE_CTL_READY_LEAD x.line) s)
      if atOrBeyond (s.reg (rTRK_HPRED a)) ready ∨ petFree s1 < 3 then headLostJob j s1
      else
        let keep := decide (x.image ≠ 0) && decide (x.renCfg = s1.reg (rREN_HEAD_CFG a))
        let y : Job := { x with
          state := .armed, head := a, sq := driver a s1, alt := true, ofs := ofs, start := start,
          endchk := endChkOf start x.len a x.line s1, colsRes := 0, half := none, ended := false, stopping := false,
          image := if keep then x.image else 0, seq := s1.sch.seq, lateArmed := true }
        let s2 := placeJobEvents j y (modJob j (fun _ => y) { s1 with sch.seq := s1.sch.seq + 1 })
        let s3 := modProduct i (fun p => { p with jobs := (p.jobs &&& (0xFFFF ^^^ 2 ^ x.head)) ||| 2 ^ a }) s2
        doIf (!keep && decide (x.image ≠ 0)) (renderAgain j) s3

/-- The job of a redundant pair's partner takes the rows of the lost head (R111). -/
def coverByPartner (j k : Nat) (s : State) : State :=
  match job k s with
  | none => headLostJob j s
  | some y =>
    if jobOpen y.state then
      dropJob j (modJob k (fun z => { z with
        full := true, fullMid := z.fullMid || decide (z.state = .started),
        flags := if z.state = .started then z.flags ||| flagHeadLostMid else z.flags }) s)
    else headLostJob j s

/-- An unstarted job of a lost head goes to its mark's alternate, or becomes NOT_STARTED (R109 to R111). -/
def toAlternate (j : Nat) (s : State) : State :=
  match job j s with
  | none => s
  | some x =>
    match (markOf x s).filter fun m => decide (m.head = x.head), x.alt with
    | some m, false =>
      match m.alt with
      | none => headLostJob j s
      | some a =>
        if headGone a s then headLostJob j s
        else if m.pair ∧ (entryOf x a s).isSome then
          match s.sch.jobs.find? fun y => decide (y.2.prod = x.prod) && decide (y.2.head = a) && !y.2.alt with
          | some (k, _) => coverByPartner j k s
          | none => headLostJob j s
        else moveJob j a s
    | _, _ => headLostJob j s

/-- A head becomes HEAD_LOST (3) or UNPLUGGED (4): its port enters its safe state, its STARTED jobs are flagged and closed, and its
other jobs move or end (R109, R267). -/
def headGoes (h st : Nat) (s : State) : State :=
  let js := s.sch.jobs.filter fun x => decide (x.2.head = h) && jobOpen x.2.state
  let s1 := portSafe h (setHeadState h st s)
  let s2 := forAll js (fun x => if x.2.state = .started then stopFlagged x.1 flagHeadLostMid else toAlternate x.1) s1
  tidy (closeAllDone (s2.sch.ptab.map (·.1)) s2)

/-- The head's loss flagged a STARTED job (the class of HEAD_PORT, R430). -/
def hadStarted (h : Nat) (s : State) : Bool :=
  s.sch.jobs.any fun x => decide (x.2.head = h) && decide (x.2.state = .started)

end Sys2Proof.Machine
end

