-- ==== Sys2Proof/Machine/Backup.lean ====
section
/-! DEFINITION. Trips of motor channels, and the stop-and-back-up sequence of a line that a motor channel drives (R103, R344 to R346). -/

namespace Sys2Proof.Machine

/-! ### Settings that a carrier period latches (R348) -/

def motorOf (c : Nat) (s : State) : Motor := s.motors.getD c {}
def modMotor (c : Nat) (f : Motor → Motor) (s : State) : State := { s with motors := s.motors.set c (f (motorOf c s)) }

/-- The registers of a channel whose values take effect at the next carrier period (R348). -/
def latchedRegs (c : Nat) : List Nat :=
  [rMC_CUR c, rMC_ID_REF c, rMC_SCALE c, rMC_ENC c, rMC_HFI c, rMC_SPD c, rMC_CATCH c, rMC_ATSPD c, rMC_REGEN c, rMC_BU_CFG c]

/-- A setting as it acts: what stood when the carrier period began, or the register itself while no carrier runs. -/
def mcReg (c a : Nat) (s : State) : Word :=
  (((motorOf c s).inForce.find? fun x => decide (x.1 = a)).map (·.2)).getD (s.reg a)

/-- A field of a setting as it acts. -/
def mcF (c : Nat) (f : Field) (s : State) : Nat := wordGet (mcReg c f.reg s) f.lo f.width

/-- The settings are latched. -/
def latchSettings (c : Nat) (s : State) : State := modMotor c (fun x => { x with inForce := (latchedRegs c).map fun a => (a, s.reg a) }) s

/-- The duties that wait take effect, or every output goes low (R328, R339). -/
def takeDuties (c : Nat) (s : State) : State :=
  modMotor c (fun x => { x with gate := (x.waiting.map (·.1)).getD x.gate, gates := (x.waiting.map (·.2)).getD x.gates, waiting := none }) s

/-- A carrier period ends with its PER-th tick: the next one begins, takes the duties that wait and latches the settings (R326, R328, R339,
R348). -/
def carrierTick (c : Nat) (s : State) : State := match (motorOf c s).carrier with
  | none => s
  | some t =>
    let per := getF (fMC_PWM_PER c) s
    if (now s - t).toNat < per then s
    else latchSettings c (takeDuties c (modMotor c (fun x => { x with carrier := some (t + BitVec.ofNat 48 per) }) s))

/-- The carrier follows EN: it starts with the write that sets EN, the odd channel of a pair PER / 2 behind the even one (R326). Without a
carrier every output is low. -/
def carrierFollows (c : Nat) (s : State) : State :=
  let per := getF (fMC_PWM_PER c) s
  let lag : Nat := if c % 2 = 0 then per / 2 else per - per / 2
  if getB (fMC_CFG_EN c) s = false then modMotor c (fun x => { x with carrier := none, inForce := [], gate := none, gates := [], waiting := none }) s
  else
    let start := match (motorOf (if c % 2 = 0 then c + 1 else c - 1) s).carrier with
      | some t => t - BitVec.ofNat 48 lag
      | none => now s
    latchSettings c (modMotor c (fun x => { x with carrier := some start }) s)

/-! ### The sequence (R345, R346) -/

def backupOf (c : Nat) (s : State) : Option Backup := s.backups.getD c none
def setBackup (c : Nat) (b : Option Backup) (s : State) : State := { s with backups := s.backups.set c b }

/-- STATE of a back-up: 0 IDLE, 1 STOPPING, 2 BACKING, 3 WAIT_DATA, 4 RUN_UP. -/
def buState (c : Nat) (s : State) : Nat := getF (fMC_BU_STAT_STATE c) s

/-- The control engine whose generator drives the web. -/
def buEngine (c : Nat) (s : State) : Nat := mcF c (fMC_BU_CFG_CE c) s

/-- The channel is in RUN, and the engine is RUNNING or IDLE in AUTO (R345). -/
def buReady (c : Nat) (s : State) : Bool :=
  let e := buEngine c s
  decide (c < 6) && decide (getF (fMC_STAT_STATE c) s = 3) &&
  (decide (engState (.ce e) s = 1) || decide (engState (.ce e) s = 2)) && decide (getF (fCE_STAT_MODE e) s = 1)

/-- An accepted generator command: MODE shows it, and it takes effect at the engine's next trigger (R321, R324). -/
def pgIssue (e cmd : Nat) (tgt : Word) (s : State) : State :=
  setF (fCE_PG_STAT_MODE e) cmd (setCtl e { ctlOf e s with pgCmd := some (cmd, tgt) } s)

/-- The generator stands: no command waits, and velocity and acceleration are zero. -/
def pgStands (e : Nat) (s : State) : Bool :=
  (ctlOf e s).pgCmd.isNone && decide (s.reg (rCE_PG_VEL e) = 0) && decide (s.reg (rCE_PG_ACC e) = 0)

/-- The generator has reached its target. -/
def pgDone (e : Nat) (s : State) : Bool := (ctlOf e s).pgCmd.isNone && decide (getF (fCE_PG_STAT_STATE e) s = 2)

/-- A job held for data late is stopped at its next column boundary, flagged COLUMN_MISSED (R345, R346). -/
def stopHeld (j : Nat) (s : State) : State :=
  modJob j (fun y => if y.state = .started ∨ y.state = .released then
    { y with flags := y.flags ||| flagColumnMissed, stopping := true } else y) s

/-- The sequence ends: the generator is released and BACKUP clears. -/
def buEnd (c : Nat) (s : State) : State :=
  match backupOf c s with
  | none => s
  | some b =>
    setB (fSCH_LINE_STAT_BACKUP b.line) false
      (setB (fCE_PG_STAT_MC_OWNED (buEngine c s)) false (setF (fMC_BU_STAT_STATE c) 0 (setBackup c none s)))

/-- BU_FAIL: the sequence ends and every held job is stopped (R345). -/
def buFail (c : Nat) (s : State) : State :=
  match backupOf c s with
  | none => s
  | some b => setB (fMC_BU_STAT_BU_FAIL c) true (forAll b.held stopHeld (buEnd c s))

/-- The sequence fails once one of its requirements no longer holds (R345). -/
def buCheck (c : Nat) (s : State) : State := if (backupOf c s).isSome ∧ buReady c s = false then buFail c s else s

/-- Every running sequence is tested. -/
def buCheckAll (s : State) : State := forAll (List.range 6) buCheck s

/-- STOPPING begins: p_begin and v_begin are recorded and STOP is issued. -/
def buStopping (c : Nat) (b : Backup) (s : State) : State :=
  let e := buEngine c s
  let b1 := { b with pBegin := pRaw b.line s, vBegin := (s.reg (rCE_PG_VEL e)).toInt }
  pgIssue e 4 0 (setF (fMC_BU_STAT_STATE c) 1 (setBackup c (some b1) s))

/-- A held job has its data: all its columns are resident, or LOW_COLS of them beyond those emitted (R346). -/
def heldReady (j : Nat) (s : State) : Bool := match job j s with
  | none => true
  | some x => !jobOpen x.state || x.colsRes == x.cols || decide (getF (fSQ_CFG_LOW_COLS x.head) s + x.colsDone ≤ x.colsRes)

/-- RUN_UP begins: VEL v_begin is issued. It ends at once where the line is not HOLDING. -/
def buRunUp (c : Nat) (b : Backup) (s : State) : State :=
  let s1 := pgIssue (buEngine c s) 1 (subs b.vBegin) (setF (fMC_BU_STAT_STATE c) 4 s)
  if lineState b.line s1 = 2 then s1 else buEnd c s1

/-- The back-up distance in sub-counts, held so that p_m − target stays within L_BU − 1, and whether that held it (R346). -/
def buDistance (c : Nat) (b : Backup) (s : State) : Int × Bool :=
  let want := 2 * posDiff b.pRest b.pBegin + 256 * (mcF c (fMC_BU_CFG_MARGIN c) s : Int)
  let lim := 256 * ((getF (fTRK_LINE_REVLIM_L_BU b.line) s : Int) - 1) - posDiff (pM b.line s) b.pRest
  if lim < want then (lim, true) else (want, false)

/-- One advance of the sequence, where the condition of its state is met (R346). -/
def buAdvance (c : Nat) (s : State) : State :=
  match backupOf c s with
  | none => s
  | some b =>
    let e := buEngine c s
    match buState c s with
    | 1 =>
      if pgStands e s then
        let b1 := { b with pRest := pRaw b.line s }
        let d := buDistance c b1 s
        let s1 := setF (fMC_BU_STAT_STATE c) 2 (setBackup c (some b1) s)
        pgIssue e 3 (subs (-d.1)) (doIf d.2 (setB (fMC_BU_STAT_BU_CLAMP c) true) s1)
      else s
    | 2 => if pgDone e s then setF (fMC_BU_STAT_STATE c) 3 (setBackup c (some { b with since := now s }) s) else s
    | 3 => if b.held.all fun j => heldReady j s then buRunUp c b s else s
    | 4 => if lineState b.line s = 2 then s else buEnd c s
    | _ => s

/-- Every running sequence advances where it can: rest, target, data or line (R346). WAIT_DATA with its data already there is left at
once. -/
def buAdvanceAll (s : State) : State := forAll (List.range 6) (fun c t => buAdvance c (buAdvance c t)) s

/-- TMO has passed in WAIT_DATA: the held jobs are stopped and the run-up follows (R346). -/
def buTimeout (c : Nat) (s : State) : State :=
  match backupOf c s with
  | none => s
  | some b =>
    if buState c s = 3 ∧ max 1 (mcF c (fMC_BU_CFG_TMO c) s) * 200000 ≤ (now s - b.since).toNat then
      buRunUp c b (incSat (fMC_BU_STAT_TIMEOUTS c) (forAll b.held stopHeld s))
    else s

/-- The scheduler commands the back-up for a job held for data late, or the report joins the one that runs (R103, R346). MC 6 and 7 name no motor
channel: the job is stopped, and no channel shows BU_FAIL (DESIGN CHOICE, log entry 196). -/
def buCommand (line j : Nat) (s : State) : State :=
  let c := getF (fSCH_LINE_CTL_MC line) s
  match backupOf c s with
  | some b =>
    if b.line = line then
      let b1 := { b with held := if b.held.contains j then b.held else b.held ++ [j] }
      if buState c s = 4 then buStopping c b1 s else setBackup c (some b1) s
    else stopHeld j (setB (fMC_BU_STAT_BU_FAIL c) true s)
  | none =>
    let s1 := incSat (fSCH_LINE_BACKUPS_BACKUPS line) s
    if buReady c s1 then
      let s2 := setB (fSCH_LINE_STAT_BACKUP line) true (setB (fCE_PG_STAT_MC_OWNED (buEngine c s1)) true s1)
      buStopping c { line := line, held := [j], pBegin := 0, vBegin := 0, pRest := 0, since := 0 } s2
    else stopHeld j (if c < 6 then setB (fMC_BU_STAT_BU_FAIL c) true s1 else s1)

/-- A data-late report of a path's running job reaches the scheduler: it commands the back-up on a LATE_MODE 1 line and does nothing
more on another (R103, R204, R230). -/
def dataLate (h j : Nat) (s : State) : State :=
  let s1 := incSat (fSQ_LB_LATE_CNT h) s
  match job j s1 with
  | none => s1
  | some x => if getB (fSCH_LINE_CTL_LATE_MODE x.line) s1 ∧ jobOpen x.state then buCommand x.line j s1 else s1

/-- The early report: on a LATE_MODE 1 line, resident columns not yet consumed fall below LOW_COLS while not all are resident; it is
made once until COLS_RES rises above COLS_DONE + LOW_COLS (R230). -/
def earlyLate (h j : Nat) (s : State) : State :=
  match job j s with
  | none => s
  | some x =>
    let low := getF (fSQ_CFG_LOW_COLS h) s
    if getB (fSCH_LINE_CTL_LATE_MODE x.line) s = false then s
    else if x.colsDone + low < x.colsRes then modJob j (fun y => { y with lateArmed := true }) s
    else if x.lateArmed ∧ x.colsRes < x.colsDone + low ∧ x.colsRes < x.cols then
      dataLate h j (modJob j (fun y => { y with lateArmed := false }) s)
    else s

/-! ### Trips (R344) -/

/-- Every output low at once and the integrators zero. -/
def outputsLow (c : Nat) (s : State) : State :=
  modMotor c (fun x => { x with gate := none, gates := [], waiting := none, intD := 0, intQ := 0, hSign := 0 }) s

/-- The quantities that read zero in OFF and TRIPPED (R329). -/
def clearQuantities (c : Nat) (s : State) : State :=
  forAll [0, 1, 2, 3, 4, 5, 6, 7, 8, 10, 11] (fun q t => t.setReg (rMC_Q c q) 0) s

/-- A channel enters TRIPPED: every output low, integrators zero, the cause recorded (R344); a back-up on it fails (R345). -/
def toTripped (c cause : Nat) (s : State) : State :=
  if getF (fMC_STAT_STATE c) s = 4 then s else
  let s1 := incSat (fMC_CNT_TRIPS c) (setF (fMC_STAT_TRIP_CAUSE c) cause (setF (fMC_STAT_STATE c) 4 (outputsLow c s)))
  let s2 := setB (fMC_STAT_AT_SPEED c) false (setB (fMC_STAT_REV_DEFERRED c) false (setB (fMC_STAT_REGEN_LIMITED c) false s1))
  buCheck c (clearQuantities c s2)

/-- A trip with its fault source (R344). -/
def tripChannel (c cause : Nat) (s : State) : State :=
  if getF (fMC_STAT_STATE c) s = 4 then s
  else raiseSimple srcMcTrip clsNote false (16 * c + cause) (toTripped c cause s)

end Sys2Proof.Machine
end

