-- ==== Sys2Proof/Machine/Nozzles.lean ====
section
/-! DEFINITION. The nozzle status table and its views (R274, R280 to R283). -/

namespace Sys2Proof.Machine

/-- Y_int: ALIGN_Y / 16 to the nearest integer, halves away from zero (R274). -/
def yInt (h : Nat) (s : State) : Int :=
  let y := getI (fHP_ALIGN_ALIGN_Y h) s
  if 0 ≤ y then (y + 8) / 16 else -((-y + 8) / 16)

/-! ### Entries (R280) -/

/-- A nozzle entry: STATE in bits 1 and 0, TRIM in 3 and 2, RUN in 6 to 4. HIDDEN follows from the view in use. -/
def nozzle (h e : Nat) (s : State) : Byte := spGet (fun _ => 0) (portOf h s).noz e

def setNozzle (h e : Nat) (b : Byte) (s : State) : State :=
  modPort h (fun p => { p with noz := spPut (fun _ => (0 : Byte)) p.noz e b }) s

/-- STATE: 0 PRESENT, 1 SLOW, 2 ABSENT, 3 DISABLED; TRIM; RUN. -/
def nozState (b : Byte) : Nat := b.toNat % 4
def nozTrim (b : Byte) : Nat := b.toNat / 4 % 4
def nozRun (b : Byte) : Nat := b.toNat / 16 % 8

/-- An entry from its fields. -/
def nozEntry (st trim run : Nat) : Byte := BitVec.ofNat 8 (st % 4 + 4 * (trim % 4) + 16 * (run % 8))

/-! ### Views of the tables (R283) -/

/-- The table of a port as it stands. -/
def tableNow (h : Nat) (s : State) : NozTable :=
  { noz := (portOf h s).noz, cover := getF (fHP_NZCFG_COVER h) s, partner := getF (fHP_NZCFG_PARTNER h) s
    y := yInt h s, rep := getF (fREN_HEAD_CFG_YREP h) s + 1, elems := elements h s }

/-- A port's table in a view. -/
def View.table (v : View) (h : Nat) : NozTable := ((v.tables.find? fun x => decide (x.1 = h)).map (·.2)).getD {}

/-- An entry of a table. -/
def NozTable.entry (t : NozTable) (e : Nat) : Byte := spGet (fun _ => 0) t.noz e

/-- The hidden physical elements of a port: those that are ABSENT or DISABLED (R282). -/
def hiddenIn (v : View) (h : Nat) : List Nat :=
  ((v.table h).noz.filter fun x => decide (2 ≤ nozState x.2) && decide (x.1 < (v.table h).elems)).map (·.1)

/-! ### Covering (R282) -/

/-- The ports paired with a port: the partner it names, and those that name it. -/
def pairOf (h : Nat) (s : State) : List Nat :=
  (List.range 16).filter fun k => decide (k ≠ h) &&
    ((decide (getF (fHP_NZCFG_COVER h) s = 1) && decide (getF (fHP_NZCFG_PARTNER h) s = k)) ||
     (decide (getF (fHP_NZCFG_COVER k) s = 1) && decide (getF (fHP_NZCFG_PARTNER k) s = h)))

/-- The physical element of a port at an image element, where it exists. -/
def NozTable.physicalAt (t : NozTable) (i : Int) : Option Nat :=
  let p := i - t.y
  if 0 ≤ p ∧ p < t.elems then some p.toNat else none

/-- The image element is printed by a port: its physical element exists and is neither ABSENT nor DISABLED. -/
def prints (v : View) (h : Nat) (i : Int) : Bool := match (v.table h).physicalAt i with
  | some p => decide (nozState ((v.table h).entry p) < 2)
  | none => false

/-- Where a hidden image element is covered: the port and the image element that is set there. -/
def coverOf (v : View) (h : Nat) (i : Int) : Option (Nat × Int) :=
  match (v.table h).cover with
  | 1 =>
    let m := (v.table h).partner
    if prints v m i then some (m, i) else none
  | 2 =>
    let rep : Int := (v.table h).rep
    let near (k : Int) : Bool := decide (0 ≤ k) && decide (k / rep = i / rep) && prints v h k
    if near (i - 1) then some (h, i - 1) else if near (i + 1) then some (h, i + 1) else none
  | _ => none

/-- The image element of a physical element of a port. -/
def imageIn (v : View) (h p : Nat) : Int := (p : Int) + (v.table h).y

/-- The view that the present tables of a port and its pair give. -/
def viewNow (h : Nat) (s : State) : View := { tables := (h :: pairOf h s).map fun k => (k, tableNow k s) }

/-- The image elements that a view clears in the rows of a port. -/
def clearedIn (v : View) (h : Nat) : List Nat :=
  ((hiddenIn v h).map fun p => imageIn v h p).filterMap fun i => if 0 ≤ i then some i.toNat else none

/-- The image elements that a view sets in the rows of a port, for its own hidden elements and its pair's. -/
def setIn (v : View) (h : Nat) : List Nat :=
  ((v.tables.map (·.1)).flatMap fun k => (hiddenIn v k).filterMap fun p => coverOf v k (imageIn v k p)).filterMap
    fun c => if c.1 = h ∧ 0 ≤ c.2 then some c.2.toNat else none

/-- The trim of a physical element in a view. -/
def trimIn (v : View) (h p : Nat) : Nat := nozTrim ((v.table h).entry p)

/-- HIDDEN of an entry: remapped in the view in use. -/
def showsHidden (h e : Nat) (s : State) : Bool :=
  let v := (portOf h s).view
  decide (0 ≤ imageIn v h e) && (clearedIn v h).contains (imageIn v h e).toNat

/-- The hidden elements that nothing covers. -/
def uncovered (h : Nat) (s : State) : Nat :=
  let v := viewNow h s
  ((hiddenIn v h).filter fun p => (coverOf v h (imageIn v h p)).isNone).length

/-- NZSTAT follows the table; the head-port source is raised when UNCOVERED rises from zero (R282). -/
def showNozzles (h : Nat) (s : State) : State :=
  let before := getF (fHP_NZSTAT_UNCOVERED h) s
  let u := uncovered h s
  let slow := ((portOf h s).noz.filter fun x => decide (nozState x.2 = 1) && decide (x.1 < elements h s)).length
  let s1 := setF (fHP_NZSTAT_UNCOVERED h) u (setF (fHP_NZSTAT_SLOW h) slow (setF (fHP_NZSTAT_ABSENT h) (hiddenIn (viewNow h s) h).length s))
  if before = 0 ∧ u ≠ 0 then raiseSimple srcHeadPort clsNote false h s1 else s1

/-- The port and its pair. -/
def viewPair (h : Nat) (s : State) : List Nat := h :: pairOf h s

/-- NZSTAT of a port and its pair follow the tables and the settings that place image elements (R274, R282). -/
def showPair (h : Nat) (s : State) : State := forAll (viewPair h s) showNozzles s

/-! ### Pending views (R283) -/

/-- The pending view of a port takes the present tables, under a switch number. -/
def putPending (sw : Word) (h : Nat) (s : State) : State :=
  setB (fHP_STAT_VIEW_PEND h) true (modPort h (fun p => { p with pendView := some (sw, viewNow h s), viewWait := false }) s)

/-- The pending view of a port, where it has one, becomes the view in use. -/
def usePending (h : Nat) (s : State) : State := match (portOf h s).pendView with
  | some (_, v) => setB (fHP_STAT_VIEW_PEND h) false (modPort h (fun p => { p with view := v, pendView := none }) s)
  | none => s

/-- PNUM_SW: one more than the highest product number among the pair's jobs that have reached a mark boundary. -/
def switchNumber (l : List Nat) (s : State) : Word :=
  l.foldl (fun a h => match (portOf h s).topPnum with
    | some p => if a.toNat < (p + 1).toNat then p + 1 else a
    | none => a) 0

/-- The product number of a job. -/
def jobPnum (x : Job) (s : State) : Word := ((s.sch.ptab.find? fun q => decide (q.2.seq = x.prod)).map (·.2.pnum)).getD 0

/-- An open job of a pair uses the previous view: its product number is below the switch number. -/
def previousUsed (l : List Nat) (sw : Word) (s : State) : Bool :=
  s.sch.jobs.any fun x => jobOpen x.2.state && l.contains x.2.head && decide ((jobPnum x.2 s).toNat < sw.toNat)

/-- Once a mark boundary has taken the pending view, the previous view is released when the last job that uses it closes: every port of the
pair then uses the new one, and changes that waited form the next pending view. -/
def releaseView (h : Nat) (s : State) : State :=
  match (portOf h s).viewSw with
  | none => s
  | some sw =>
    let l := viewPair h s
    if previousUsed l sw s then s
    else
      let s1 := forAll l (fun k t => modPort k (fun p => { p with viewSw := none }) (usePending k t)) s
      if (portOf h s1).viewWait then forAll l (putPending (switchNumber l s1)) s1 else s1

/-- A change of a port's table reaches marking through the pending view of the port and its pair: it forms one, joins one that no mark
boundary has taken, or waits for the release of the previous view. -/
def tableChanged (h : Nat) (s0 : State) : State :=
  let s := showPair h (releaseView h s0)
  let l := viewPair h s
  if l.any fun k => (portOf k s).viewSw.isSome then forAll l (fun k => modPort k fun p => { p with viewWait := true }) s
  else
    let sw := (l.findSome? fun k => (portOf k s).pendView.map (·.1)).getD (switchNumber l s)
    forAll l (putPending sw) s

/-- The view in use of a port places the elements of the port and its pair as they stand at a mark boundary, the rows of the port's own grid as the
job's image was rendered; it then stays fixed for the mark (R283). -/
def fixView (h : Nat) (x : Job) (s : State) : State :=
  let place (k : Nat) (t : NozTable) : NozTable :=
    { t with y := yInt k s, elems := elements k s, rep := if k = h then wordGet x.renCfg 13 3 + 1 else getF (fREN_HEAD_CFG_YREP k) s + 1 }
  modPort h (fun p => { p with view := { tables := p.view.tables.map fun t => (t.1, place t.1 t.2) } }) s

/-- A job takes its view at its mark boundary: the pending view where its product number is PNUM_SW or higher, else the previous one. -/
def takeView (h j : Nat) (s : State) : State :=
  match job j s with
  | none => s
  | some x =>
    let pnum := jobPnum x s
    let top (p : Port) : Port := { p with topPnum := some (match p.topPnum with
      | some t => if t.toNat < pnum.toNat then pnum else t
      | none => pnum) }
    let s1 := modPort h top s
    fixView h x (match (portOf h s1).pendView with
      | some (sw, _) =>
        if sw.toNat ≤ pnum.toNat then
          releaseView h (forAll (viewPair h s1) (fun k => modPort k fun p => { p with viewSw := some sw }) (usePending h s1))
        else s1
      | none => s1)

end Sys2Proof.Machine
end

