-- ==== Sys2Proof/Machine/Faults.lean ====
section
/-! DEFINITION. Reactions to faults: escalation, LINE_SAFE, DEVICE_SAFE, takeovers, and which sources are active (R36, R108, R247,
R248, R251, R430 to R437). -/

namespace Sys2Proof.Machine

/-! ### Persistence (R36, R114) -/

/-- The numbers of a counter slot that are RESERVED and handed out: pre-issued ones and those of products (R136, R137). -/
def handedOut (k : Nat) (s : State) : List Nat :=
  (s.trust.preissue.filter fun q => decide ((s.trust.stencils.getD q.1 {}).counter = some k)).flatMap (·.2) ++
  (s.sch.ptab.filterMap fun p => (composeSerial p.2.compose).bind fun x =>
    if x.slot = k ∧ x.state = .reserved then some x.value else none) ++
  s.sch.unsettled.filterMap fun u => if u.2.slot = k then some u.2.value else none

/-- The ledgers, the serial counters with their reservations, and the audit head with the newest checkpoint are persisted (R36, R114,
R144). Before a start has restored its records there are none to persist, and the persisted copy stays (R79). -/
def persist (s : State) : State :=
  if s.pwr.restore.isSome then s else
  let cs := if s.trust.copyLost = some 0 then s.trust.mirror else s.trust.counters
  { journalWrite s with
    sch.saved := some ((List.range 4).map fun n => ledger n s)
    trust.savedCounters := cs.map fun c => (c.1, { c.2 with orphans := c.2.orphans ++ handedOut c.1 s, writing := none })
    trust.savedHead := some (s.trust.auditNext, s.trust.chain, s.trust.ackNext)
    trust.savedCkpt := s.trust.ckpts.head? }

/-! ### Recovery windows (R435) -/

/-- The enabled lines. -/
def enabledLines (s : State) : List Nat := (List.range 4).filter fun n => getB (fTRK_LINE_CTL_EN n) s

/-- A head's takeover window is open. -/
def takeoverOpen (h : Nat) (s : State) : Bool := (path h s).takeover.isSome

/-- A window that affects every enabled line is open: supervisor restart, trust-core restart or copy rebuild. -/
def wideWindow (s : State) : Bool := getB fFLT_REC_SUP s || getB fFLT_REC_TRUST s || getB fFLT_REC_REBUILD s

/-- The heads whose takeover or path restart window is open. -/
def windowHeads (s : State) : List Nat := (List.range 16).filter fun h => takeoverOpen h s || (path h s).restart

/-- A recovery window is open. -/
def windowOpen (s : State) : Bool := wideWindow s || !(windowHeads s).isEmpty

/-- The lines that the open windows affect. -/
def windowLines (s : State) : List Nat :=
  if wideWindow s then enabledLines s ++ (windowHeads s).map fun h => getF (fTRK_HLEAD_LINE h) s
  else (windowHeads s).map fun h => getF (fTRK_HLEAD_LINE h) s

/-- FLT_REC TAKEOVERS and PATHS follow the windows of the head paths. -/
def showWindows (s : State) : State :=
  let bits (p : Nat → Bool) : Nat := (List.range 16).foldl (fun a h => if p h then a + 2 ^ h else a) 0
  setF fFLT_REC_PATHS (bits fun h => (path h s).restart) (setF fFLT_REC_TAKEOVERS (bits fun h => takeoverOpen h s) s)

/-! ### LINE_SAFE (R108) -/

/-- SCH_LINEn_STAT ARMING: the line is enabled, arming is not stopped at the warning level, and the line is not in LINE_SAFE (R107, R108). -/
def showArming (n : Nat) (s : State) : State :=
  setB (fSCH_LINE_STAT_ARMING n)
    (getB (fTRK_LINE_CTL_EN n) s && !getB (fSCH_LINE_STAT_BROWNOUT n) s && !getB (fSCH_LINE_STAT_LINE_SAFE n) s) s

/-- A line enters LINE_SAFE: its jobs stop and its products close REJECTED with cause LINE_SAFE, in one tick (R108). -/
def enterLineSafe (src n : Nat) (s : State) : State :=
  let add (t : State) : State := { t with sch.safeSrc := t.sch.safeSrc.set n (src :: t.sch.safeSrc.getD n []) }
  if getB (fSCH_LINE_STAT_LINE_SAFE n) s then add s else
  let old := reportedState n s
  let s1 := setF fFLT_REC_LINES_SAFE (getF fFLT_REC_LINES_SAFE s ||| 2 ^ n) (setB (fSCH_LINE_STAT_LINE_SAFE n) true (add s))
  let s2 := forAll (lineJobs n s1) (fun x => if x.2.state = .started then stopFlagged x.1 0
    else doIf (jobOpen x.2.state) (notStarted x.1 .lineSafe)) s1
  let s3 := forAll ((lineProducts n s2).map (·.1)) (fun i => closeProduct i .rejected .lineSafe) s2
  showArming n (trackRejs (lineStateChanged n old (tidy s3)))

/-- A fault of a source is raised with its base class; a fault of a shared source that arrives while a recovery window is open escalates
to LINE_SAFE for every line that a window affects and every line its resource serves (R435). -/
def raiseFault (src base detail : Nat) (shared : Bool) (served : List Nat) (s : State) : State :=
  if shared && windowOpen s then
    forAll (windowLines s ++ served) (enterLineSafe src) (raiseSimple src (max base clsLineSafe) true detail s)
  else raiseSimple src base false detail s

/-- A shared source that serves every enabled line. -/
def raiseShared (src base detail : Nat) (s : State) : State := raiseFault src base detail true (enabledLines s) s

/-! ### DEVICE_SAFE (R434) -/

/-- Every line in LINE_SAFE, every head port in its safe state, every motor channel tripped, persistence started and HOLD set. -/
def deviceSafe (src : Nat) (s : State) : State :=
  let s1 := setB fFLT_REC_DEVICE_SAFE true s
  let s2 := forAll (List.range 4) (enterLineSafe src) s1
  let s3 := forAll (List.range 16) portSafe s2
  let s4 := forAll (List.range 6) (fun c => tripChannel c 0) s3
  showPin (setB fFLT_PIN_HOLD_HOLD true (persist s4))

/-- An event that enters DEVICE_SAFE, recorded with that class: above its base class or not. -/
def raiseDeviceSafe (src : Nat) (escalated : Bool) (detail : Nat) (s : State) : State :=
  deviceSafe src (raiseSimple src clsDeviceSafe escalated detail s)

/-! ### Sequencer faults and takeovers (R247, R248, R251) -/

/-- The lowest-numbered free Chamois (R248). -/
def freeChamois (s : State) : Option Nat := [16, 17, 18, 19].find? fun c => getB (fSQ_BIND_FREE c) s

/-- The takeover window of a head closes. -/
def endTakeover (h : Nat) (s : State) : State :=
  showWindows (setPath h { path h s with takeover := none, headWas := none } s)

/-- A Chamois that drives a head lets go of it, and the home sequencer drives the head again; a Chamois that has not faulted is free (R250,
R251). -/
def unbindChamois (h : Nat) (s : State) : State :=
  let c := driver h s
  if 16 ≤ c ∧ c < 20 then
    setF (fSQ_BIND_PARTNER h) h (setF (fSQ_BIND_PARTNER c) 0x1F (setB (fSQ_BIND_FREE c) (decide (sqState c s ≠ 3)) s))
  else s

/-- The running job of a path whose sequencer has faulted for good ends there: nothing can bring it to a column boundary (R224, R251). -/
def abandonJob (h : Nat) (s : State) : State :=
  match (path h s).cur with
  | none => s
  | some j =>
    let s1 := discardColumns h j s
    let s2 := showPath h (setPath h { path h s1 with cur := none, spent := [] } s1)
    tidy (modJob j (fun x => { x with stopping := false, ended := true, half := none }) s2)

/-- A head is lost with its faulted sequencer; a Chamois that drove it names it no longer (R251). -/
def headLostWith (h : Nat) (s : State) : State :=
  let s1 := abandonJob h (headGoes h 3 s)
  unbindChamois h (setPath h { path h s1 with giveback := false, giving := false } s1)

/-- A head goes to HEAD_LOST from a takeover that cannot go on (R251). -/
def takeoverLost (h : Nat) (s : State) : State :=
  let n := driver h s
  headLostWith h (setB (fSQ_BIND_REBINDING n) false (setB (fSQ_BIND_REBINDING h) false (endTakeover h s)))

/-- What a Chamois takes with it: the program and data memories (R248 step 2). The line buffer and the mask pages stay the path's. -/
def copyMemories (a b : Nat) (s : State) : State :=
  let c := coreOf (.sq a) s
  modCore (.sq b) (fun d => { d with prog := c.prog, data := c.data })
    { s with mem.flaws := s.mem.flaws.filter fun f => decide (wordBank f.word ≠ 64 + b) }

/-- A takeover of head `h` from sequencer `n` by Chamois `c` begins: the two name each other and the memories are copied; the line of
a laser port's PENDING slot is dropped and the one being written is cut by the gate (R248, R297, R300). -/
def startTakeover (h n c : Nat) (s : State) : State :=
  let s1 := cutLine h (inWriting h s) (modPort h (fun p => { p with laser := { p.laser with pend := none, writing := none } }) s)
  let s2 := if persOf h s = 4 then dropLine h (portOf h s).laser.pend s1 else s1
  let s3 := setF (fSQ_BIND_PARTNER h) c (setF (fSQ_BIND_PARTNER c) h (setB (fSQ_BIND_FREE c) false s2))
  let s4 := setB (fSQ_BIND_REBINDING h) true (setB (fSQ_BIND_REBINDING c) true s3)
  let s5 := if n < 16 then s4 else setF (fSQ_BIND_PARTNER n) 0x1F s4
  let s6 := setEngState (.sq c) 1 (copyMemories n c s5)
  let st := headState h s6
  let s7 := setPath h { path h s6 with takeover := some (c, now s6), headWas := if st = 3 ∨ st = 4 then some st else none, giving := false } s6
  let s8 := showWindows (incSat (fSQ_TKO_COUNT h) (setHeadState h 2 s7))
  if persOf h s8 = 4 then showGate h s8 else s8

/-- What a sequencer's registers record of a fault: its source, the PC and the instruction word, and the cause code of an illegal
instruction, 0 for any other source (R219, R247, R254). -/
def recordSeqFault (n fsrc cause : Nat) (s : State) : State :=
  let c := coreOf (.sq n) s
  setF (fSQ_STAT_FSRC n) fsrc (setF (fSQ_STAT_CAUSE n) cause (setF (fSQ_STAT_FAULT_PC n) c.pc
    (setF (fSQ_FINSN_INSN n) (progGet c c.pc).toNat s)))

/-- A sequencer faults (R247): it enters FAULTED with its source, and the head it drives is taken over, or lost where no Chamois is free
or the fault struck a takeover in progress (R251). -/
def seqFault (n fsrc cause : Nat) (s : State) : State :=
  let driven := headOf n s
  let s1 := modCore (.sq n) (fun c => { c with wait := .none }) (setEngState (.sq n) 3 (recordSeqFault n fsrc cause s))
  match driven with
  | some h =>
    if takeoverOpen h s1 then takeoverLost h (raiseSimple h clsHeadLost true n s1)
    else match freeChamois s1 with
      | some c => startTakeover h n c (raiseSimple h clsTakeover false n s1)
      | none => headLostWith h (raiseSimple h clsHeadLost true n s1)
  | none => if 16 ≤ n then raiseSimple srcChamoisIdle clsNote false n (setB (fSQ_BIND_FREE n) false s1) else s1

/-! ### Memory errors (R382, R383) -/

/-- An error is recorded in MEM_ERRLOG: the first is kept while VALID is set. -/
def logWord (bank word agent syndrome : Nat) (ue : Bool) (s : State) : State :=
  if getB fMEM_ERRLOG_VALID s then setB fMEM_ERRLOG_OVERFLOW true s
  else
    setF fMEM_ERRLOG_BANK bank (setF fMEM_ERRLOG_WORD word (setB fMEM_ERRLOG_UE ue (setF fMEM_ERRLOG_AGENT agent
      (setF fMEM_ERRLOG_SYNDROME syndrome (setB fMEM_ERRLOG_VALID true s)))))

/-- An error of a bank at a word that its structure does not give: WORD and SYNDROME are free values. -/
def logError (bank agent : Nat) (ue : Bool) (s : State) : State :=
  let w := drawFree s
  let y := drawFree w.2
  logWord bank w.1 agent y.1 ue y.2

/-- The error of a word is recorded. The syndrome of bits whose place is not known is a free value. -/
def logFlaw (f : Flaw) (agent : Nat) (s : State) : State :=
  let log (y : Nat) (t : State) : State := logWord (wordBank f.word) (wordPlace f.word) agent y f.kind.isUe t
  match f.kind with
  | .flips l => log (Config.syndrome l) s
  | .poison => log Config.poisonSyndrome s
  | .upset _ => let y := drawFree s; log y.1 y.2

/-- An uncorrectable error raises MEM_UE, a shared source for banks 92 to 108 (R383, R430). -/
def raiseUe (bank : Nat) (s : State) : State := raiseFault srcMemUe clsFlag bank (decide (92 ≤ bank)) (enabledLines s) s

/-- An uncorrectable error: it is recorded, counted in UE and raised. -/
def memUe (bank agent : Nat) (s : State) : State := raiseUe bank (incSat fMEM_ERRCNT_UE (logError bank agent true s))

/-- A correctable error: it is corrected, recorded and counted (R382). -/
def memCe (bank agent : Nat) (s : State) : State := incSat fMEM_ERRCNT_CE (logError bank agent false s)

/-- The fourth correctable error of a word within a pass of Skim counts in STUCK and raises MEM_CE (R382). -/
def countHit (w : Nat) (s : State) : State :=
  let n := (spFind s.mem.hits w).getD 0 + 1
  let s1 := { s with mem.hits := spInsert s.mem.hits w n }
  if n = 4 then raiseSimple srcMemCe clsNote false (wordBank w) (incSat fMEM_ERRCNT_STUCK s1) else s1

/-- A word is read: a correctable error in it is corrected, recorded and counted; an uncorrectable one is recorded, counted unless Skim has
counted it, and raised (R382, R383). -/
def readWord (w agent : Nat) (s : State) : State := match flawAt w s with
  | none => s
  | some f =>
    if f.kind.isUe then raiseUe (wordBank w) (doIf (!f.counted) (incSat fMEM_ERRCNT_UE) (logFlaw f agent s))
    else countHit w (incSat fMEM_ERRCNT_CE (logFlaw f agent (clearFlaw w s)))

/-- Words are read by one access: the collector takes MEM_CE before MEM_UE (R437). -/
def readWords (l : List Nat) (agent : Nat) (s : State) : State :=
  forAll (l.filter fun w => wordBad w s) (fun w => readWord w agent) (forAll (l.filter fun w => !wordBad w s) (fun w => readWord w agent) s)

/-- The area of a usable LPDDR4X offset, for a capacity: 0 the supervisor's, 1 the move window, 2 the trust domain's (R386, R430). -/
def ddrArea (usable off : Nat) : Nat := if off < 2 ^ 28 then 0 else if usable < off + 2 ^ 24 + 1 then 2 else 1

/-- An uncorrectable LPDDR4X error: it is counted in DDR_STAT and raises DDR_UE, a shared source in the supervisor's and the trust domain's area
(R386, R430). -/
def ddrUe (area : Nat) (s : State) : State :=
  raiseFault srcDdrUe clsFlag area (decide (area ≠ 1)) (enabledLines s) (incSat fMEM_DDR_STAT_UE s)

/-- A write to the boot flash or the settings area has failed (R430). The spec does not number the areas. -/
def flashFault (s : State) : State :=
  let d := drawFree s
  raiseSimple srcFlash clsFlag false (d.1 % 256) d.2

/-! ### Active sources (R431) -/

/-- A source is active in the tick of its event, and then for as long as its condition holds. Sources whose chapter names no state bit are active
only in that tick. TIME and HOST_LINK become active as the clock leaves TRUSTED and a link is lost, not as a reset leaves them without. -/
def sourceActive (src : Nat) (s : State) : Bool :=
  let latched := (getF fFLT_STATUS_STATUS s).testBit src
  if s.raised.contains (rFLT_ACTIVE, src) then true
  else if src < 16 then takeoverOpen src s
  else if 17 ≤ src ∧ src ≤ 20 then
    let n := src - 17
    [fTRK_LINE_STAT_WIRE_LOSS n, fTRK_LINE_STAT_FREEZE n, fTRK_LINE_STAT_PITCH_FREEZE n, fTRK_LINE_STAT_OCING_STALE n,
      fTRK_LINE_STAT_VIRT_STALE n, fTRK_LINE_STAT_DR_EXHAUSTED n].any fun f => getB f s
  else match src with
    | 21 => decide (ptabUsed s = ptabSize)
    | 22 => (List.range 4).any fun n => getB (fTRK_LINE_STAT_EXPIRED n) s
    | 23 => (List.range 64).any fun k => (counter k s).any fun c => c.state == .broken
    | 26 => (List.range 16).any fun h => (path h s).restart
    | 27 => (List.range 16).any fun h =>
        headState h s == 4 || getB (fHP_STAT_MISMATCH h) s || getF (fHP_NZSTAT_UNCOVERED h) s != 0 ||
        (decide (12 ≤ h) && [fHP_LSR_STAT_BD_LOSS h, fHP_LSR_STAT_LOCK_LOSS h, fHP_LSR_STAT_IDX_ERR h,
          fHP_LSR_STAT_RATE_ERR h].any fun f => getB f s)
    | 31 => getB fHST_STAT_SUP_BUSY s && getB fFLT_REC_SUP s
    | 32 => getB fTRU_STAT_RESTARTING s && getB fFLT_REC_TRUST s
    | 33 => (List.range 8).any fun n => decide (getF (fCE_STAT_MODE n) s = 2)
    | 34 => (List.range 6).any fun c => decide (getF (fMC_STAT_STATE c) s = 4)
    | 35 => (List.range 2).any fun m => getB (fBUS_STAT_CHOP_FAULT m) s
    | 36 => (List.range 8).any fun n => decide (engState (.mv n) s = 3)
    | 37 => (List.range 4).any fun n => getB (fSCH_LINE_STAT_BROWNOUT n) s
    | 38 => (List.range 12).any fun i => decide (railGet fPWR_RAIL_STATE i s = 5)
    | 39 => decide (3 ≤ getF fTHM_STAT_BAND s)
    | 40 => decide (getF fCLK_STAT_DUP s ≠ 0)
    | 41 => latched && !getB fTRU_TSTAT_TRUSTED s
    | 42 => getB fTRU_AUDIT_STAT_HIGH s || getB fTRU_AUDIT_STAT_FULL s
    | 43 => (List.range 64).any fun k => (counter k s).any fun c => c.state == .dry
    | 44 => getB fOCL_STAT_DUP_ID s || getB fOCL_STAT_EPOCH_MISS s
    | 45 => latched && (!getB fHST_STAT_LINK_UP s || (List.range 2).any fun p => getB (fLNP_CFG_EN p) s && !getB (fLNP_STAT_LINK p) s)
    | _ => false

/-- FLT_ACTIVE as the host reads it (R442). -/
def activeMask (s : State) : Nat := (List.range 48).foldl (fun a k => if sourceActive k s then a + 2 ^ k else a) 0

end Sys2Proof.Machine
end

