-- ==== Sys2Proof/Machine/Banks.lean ====
section
/-! DEFINITION. The banks of the SRAM: the image store, the merge buffers of every bank, and where an engine's memories lie in its bank (R377 to
R383). -/

namespace Sys2Proof.Machine

/-! ### Merge buffers (R380) -/

/-- A byte of the image store: a merge buffer entry's byte stands over the stored one (R380). -/
def imgByte (a : Nat) (s : State) : Byte :=
  match (s.mem.merges.find? fun m => decide (m.word = a / 8)).bind fun m => m.bytes.getD (a % 8) none with
  | some b => b
  | none => cellGet s.mem.image a

/-- `k` bytes of the image store. -/
def imgRead (s : State) : Nat → Nat → List Byte
  | _, 0 => []
  | a, k + 1 => imgByte a s :: imgRead s (a + 1) k

/-- The bytes of a merge entry written over the stored word. -/
def mergeInto (m : List Host.Cell) (w : Nat) (l : List (Option Byte)) : List Host.Cell :=
  l.zipIdx.foldl (fun c x => match x.1 with
    | some b => cellPut c (8 * w + x.2) b
    | none => c) m

/-- The stored bytes of a word. The data of a word outside the image store stands in the structure that owns it. -/
def storeBytes (w : Nat) (l : List (Option Byte)) (s : State) : State :=
  if w < imageWords then { s with mem.image := mergeInto s.mem.image w l } else s

/-- An entry leaves its merge buffer, its bytes stored. -/
def takeEntry (m : Merge) (s : State) : State :=
  { storeBytes m.word m.bytes s with mem.merges := s.mem.merges.filter fun x => decide (x.word ≠ m.word) }

/-- A merge entry is drained: the word is read, overlaid and written; where the read is uncorrectable the word takes POISON, which reads
as uncorrectable for good (R380). -/
def drain (m : Merge) (s : State) : State :=
  let full := m.bytes.all (·.isSome)
  if !full && wordBad m.word s then setFlaw { word := m.word, kind := .poison } (takeEntry m (readWord m.word 5 s))
  else bankWrite m.word (takeEntry m (doIf (!full) (readWord m.word 5) s))

/-- Bytes written to one word: a whole word goes directly, a narrower write into the bank's merge buffer of eight entries (R380). -/
def writeWord (w : Nat) (l : List (Option Byte)) (s : State) : State :=
  if l.all (·.isSome) then bankWrite w (takeEntry { word := w, bytes := l } s)
  else match s.mem.merges.find? fun m => decide (m.word = w) with
    | some m =>
      let l1 := (l.zip m.bytes).map fun x => x.1.orElse fun _ => x.2
      let m1 : Merge := { m with bytes := l1 }
      let s1 := { s with mem.merges := s.mem.merges.map fun x => if x.word = w then m1 else x }
      if l1.all (·.isSome) then drain m1 s1 else s1
    | none =>
      let mine := s.mem.merges.filter fun m => decide (wordBank m.word = wordBank w)
      let s1 := match mine with
        | m :: _ => if 8 ≤ mine.length then drain m s else s
        | [] => s
      { s1 with mem.merges := s1.mem.merges ++ [{ word := w, bytes := l }] }

/-! ### The engines' memories (R377, R383; log entry 200) -/

/-- The half of a program word that an instruction fills. -/
def progBytes (i v : Nat) : List (Option Byte) :=
  let l := (leBytes 4 v).map some
  if i % 2 = 0 then l ++ List.replicate 4 none else List.replicate 4 none ++ l

/-- An engine fetches an instruction: a correctable error in it is corrected (R382), and its reads of CYC are yet to come (R186). -/
def fetched (e : Engine) (s : State) : State := modCore e (fun c => { c with cycHeld := false }) (readWord (progWord e (coreOf e s).pc) 0 s)

/-- An error that an engine meets in words of its memory is recorded; one at a word that the command does not give is recorded without it. -/
def engineRead (e : Engine) (words : List Nat) (s : State) : State :=
  if words.any fun w => wordBad w s then readWords words 0 s else memUe (bankOf e) 0 s

/-- The words of a column in its half of the line buffer of head `h`, at its slot. -/
def columnWords (h half slot bytes : Nat) : List Nat := (wordsOf (32768 * (half % 2) + slot * bytes) bytes).map fun w => wordNo (64 + h) w

end Sys2Proof.Machine
end

