-- ==== Sys2Proof/Machine/Control.lean ====
section
/-! DEFINITION. What surrounds the programs of the control engines: source events, deliveries, inputs, the modes of the outputs and
the profile generator (R305 to R322). -/

namespace Sys2Proof.Machine

def modCtl (n : Nat) (f : Ctl → Ctl) (s : State) : State := setCtl n (f (ctlOf n s)) s

/-! ### Deliveries and source events (R305, R306, R309) -/

/-- The inputs connected to a source take a new value: CLASS, UNIT and, where it counts, SEL. -/
def deliver (p : Nat → Nat → Nat → Bool) (s : State) : State :=
  forAll (List.range 8) (fun n t =>
    let hit (i : Nat) : Bool := p (getF (fCE_XCFG_CLASS n i) s) (getF (fCE_XCFG_UNIT n i) s) (getF (fCE_XCFG_SEL n i) s)
    if (List.range 8).any hit then
      modCtl n (fun x => { x with fresh := x.fresh.zipIdx.map fun y => y.1 || hit y.2 }) t
    else t) s

/-- A Y output is committed: its register shows it and class 6 inputs are delivered (R309, R312). -/
def commitY (n i : Nat) (v : Word) (s : State) : State :=
  deliver (fun c u k => c == 6 && u == n && k == i) (s.setReg (rCE_Y n i) v)

/-- An event of a source reaches every engine that takes its trigger from it. -/
def sourceEvent (src idx : Nat) (s : State) : State :=
  forAll (List.range 8) (fun n t =>
    if getF (fCE_TRIG_SRC n) t = src ∧ getF (fCE_TRIG_IDX n) t = idx then modCtl n (fun x => { x with srcDue := x.srcDue + 1 }) t
    else t) s

/-- A cycle of an engine ends: the engines chained to it have a source event (R305, R306). -/
def cycleEnd (n : Nat) (s : State) : State := sourceEvent 3 n s

/-- An encoder has shown an illegal transition: until the next trigger its class 4 inputs are not delivered (R309). -/
def ctlIllegal (m : Nat) (s : State) : State :=
  forAll (List.range 8) (fun n t => modCtl n (fun x => { x with ill := x.ill.set m true }) t) s

/-- A source that delivers at every tick delivers in this one: a line in NORMAL or HOLDING, or an encoder whose receiver shows no fault and
that has shown no illegal transition since the previous trigger. -/
def tickDelivers (n c u : Nat) (s : State) : Bool :=
  ((c == 2 || c == 3) && decide (u < 4) && (lineState u s == 1 || lineState u s == 2)) ||
  (c == 4 && decide (u < 8) && getB (fTRK_ENC_STAT_FLT u) s && !(ctlOf n s).ill.getD u false)

/-! ### The profile generator (R321, R322) -/

/-- The largest integer whose square is not above `n`, found bit by bit. -/
def isqrtFrom (n : Nat) : Nat → Nat → Nat
  | 0, r => r
  | k + 1, r => let c := r + 2 ^ k; isqrtFrom n k (if c * c ≤ n then c else r)

def isqrt (n : Nat) : Nat := isqrtFrom n 128 0

/-- A quotient rounded to the nearest integer, ties away from zero. -/
def roundDiv (a : Int) (b : Nat) : Int :=
  if 0 ≤ a then (((2 * a.toNat + b) / (2 * b) : Nat) : Int) else -(((2 * (-a).toNat + b) / (2 * b) : Nat) : Int)

/-- The speed from which the generator can stop within `x` (R322), rounded to its unit. -/
def vStop (amax jmax x : Nat) : Nat :=
  if jmax = 0 then (isqrt (8 * amax * x) + 1) / 2
  else (isqrt (amax ^ 4 + 8 * x * amax * jmax ^ 2) + jmax - amax ^ 2) / (2 * jmax)

/-- The generator's position, velocity and acceleration. -/
structure Gen where
  p : Word
  v : Int
  a : Int
  done : Bool

/-- One advance of the generator over `t` ticks towards velocity `vt`, or towards a target: each result is rounded to its unit (R322). -/
def genAdvance (amax jmax vmax t : Nat) (target : Option Word) (vt0 : Int) (g : Gen) : Gen :=
  let d : Int := match target with
    | some q => posDiff q g.p
    | none => 0
  let vt : Int := match target with
    | some _ => d.sign * (min vmax (vStop amax jmax d.natAbs) : Nat)
    | none => clampInt (-(vmax : Int)) vmax vt0
  let e := vt - g.v
  let ease := decide (jmax ≠ 0) && decide (0 < g.a * e) && decide (2 * jmax * e.natAbs ≤ g.a.natAbs ^ 2)
  let ad : Int := if ease then 0 else e.sign * amax
  let jt := jmax * t
  let a : Int := if jmax = 0 then ad
    else roundDiv (g.a * ticksPerSecond + clampInt (-(jt : Int)) jt ((ad - g.a) * ticksPerSecond)) ticksPerSecond
  let snap := if jmax = 0 then decide (e.natAbs * ticksPerSecond ≤ amax * t)
    else decide (e.natAbs * ticksPerSecond ≤ a.natAbs * t) && decide (a.natAbs * ticksPerSecond ≤ jt)
  let v := if snap then vt else roundDiv (g.v * ticksPerSecond + a * t) ticksPerSecond
  let a1 := if snap then 0 else a
  let p := subs (roundDiv (g.p.toInt * ticksPerSecond + v * t) ticksPerSecond)
  match target with
  | some q =>
    if d.natAbs * ticksPerSecond ≤ v.natAbs * t ∧ v.natAbs * ticksPerSecond ≤ amax * t then ⟨q, 0, 0, true⟩ else ⟨p, v, a1, false⟩
  | none => ⟨p, v, a1, false⟩

/-- A waiting command takes effect at the trigger (R321). -/
def pgTake (n : Nat) (s : State) : State :=
  let x := ctlOf n s
  match x.pgCmd with
  | none => s
  | some (cmd, tgt) =>
    let p := s.reg (rCE_PG_POS n)
    let s1 := setCtl n { x with
      pgCmd := none, pgMode := cmd,
      pgVt := if cmd = 1 then tgt.toInt else 0,
      pgTgt := if cmd = 3 then p + tgt else tgt } s
    let s2 := setF (fCE_PG_STAT_STATE n) (if cmd = 2 ∨ cmd = 3 then 1 else 0) s1
    if cmd = 5 then s2.setReg (rCE_PG_POS n) tgt else s2

/-- The generator advances at a trigger over the sample period `t` in ticks (R322). STATE is DONE at the end of a POS or REL move,
MOVING while one runs or the generator moves or has a velocity to reach, and IDLE otherwise. -/
def pgAdvance (n t : Nat) (s0 : State) : State :=
  let s := pgTake n s0
  let x := ctlOf n s
  let move := decide (x.pgMode = 2) || decide (x.pgMode = 3)
  let g : Gen := ⟨s.reg (rCE_PG_POS n), (s.reg (rCE_PG_VEL n)).toInt, (s.reg (rCE_PG_ACC n)).toInt, false⟩
  let r := genAdvance (getF (fCE_PG_AMAX_AMAX n) s) (getF (fCE_PG_JMAX_JMAX n) s) (getF (fCE_PG_VMAX_VMAX n) s) t
    (if move then some x.pgTgt else none) x.pgVt g
  let s1 := ((s.setReg (rCE_PG_POS n) r.p).setReg (rCE_PG_VEL n) (subs r.v)).setReg (rCE_PG_ACC n) (subs r.a)
  let st := if move then (if r.done then 2 else 1)
    else if r.v = 0 ∧ r.a = 0 ∧ x.pgVt = 0 then 0 else 1
  setF (fCE_PG_STAT_STATE n) st s1

/-- The generator moves. -/
def pgMoves (n : Nat) (s : State) : Bool := s.reg (rCE_PG_VEL n) != 0 || s.reg (rCE_PG_ACC n) != 0

/-- A host's generator command: refused while a back-up owns the generator, and a SET while it moves (R321). -/
def pgCommand (n cmd : Nat) (s : State) : State :=
  if 8 ≤ n ∨ cmd = 0 ∨ 5 < cmd then s
  else if getB (fCE_PG_STAT_MC_OWNED n) s ∨ (cmd = 5 ∧ pgMoves n s) then setB (fCE_PG_STAT_REFUSED n) true s
  else pgIssue n cmd (s.reg (rCE_PG_TGT n)) s

/-! ### Modes and outputs (R313 to R317) -/

/-- An output is overridden in a mode other than AUTO. -/
def overridden (n i : Nat) (s : State) : Bool := (getF (fCE_MODE_OVR_MASK n) s).testBit i

/-- Each masked manual value takes the present value of its output. -/
def manTakesY (n : Nat) (s : State) : State :=
  forAll ((List.range 8).filter fun i => overridden n i s) (fun i t => t.setReg (rCE_MAN n i) (t.reg (rCE_Y n i))) s

/-- The engine enters SAFE (R315). -/
def safeEntry (n cause : Nat) (s : State) : State :=
  let s1 := modCtl n (fun x => { x with held := 0 }) s
  raiseSimple srcCeSafe clsNote false (16 * n + cause)
    (incSat (fCE_CNT_SAFE_ENTRIES n) (setF (fCE_STAT_SAFE_CAUSE n) cause (setF (fCE_STAT_MODE n) 2 s1)))

/-- The mode change due at a trigger (R314 to R316): a cause for SAFE comes first, then the end of SAFE, then the requested mode. A
request written while the engine is SAFE is dropped. -/
def modeChange (n due : Nat) (s : State) : State :=
  let x := ctlOf n s
  let m := getF (fCE_STAT_MODE n) s
  let s1 := setCtl n { x with clearDue := false, modeReq := none } s
  if m = 2 then
    if x.clearDue then manTakesY n (setF (fCE_STAT_SAFE_CAUSE n) 0 (setF (fCE_STAT_MODE n) 0 s1)) else s1
  else if due ≠ 0 then safeEntry n due s1
  else match x.modeReq with
    | none => s1
    | some r =>
      if r = 0 ∧ m = 1 then manTakesY n (setF (fCE_STAT_MODE n) 0 s1)
      else setF (fCE_STAT_MODE n) r s1

/-- A step of at most `ramp` from `y` towards `target`. -/
def rampStep (y target : Word) (ramp : Nat) : Word :=
  let d := target.toInt - y.toInt
  if d.natAbs ≤ ramp then target else wrap48 (y.toInt + d.sign * ramp)

/-- The hardware's commits at a trigger: the manual values, or in SAFE the hold and then the ramp (R313, R315). -/
def hardwareOutputs (n : Nat) (s : State) : State :=
  let masked := (List.range 8).filter fun i => overridden n i s
  match getF (fCE_STAT_MODE n) s with
  | 0 => forAll masked (fun i t => commitY n i (t.reg (rCE_MAN n i)) t) s
  | 2 =>
    let x := ctlOf n s
    if x.held < getF (fCE_MODE_HOLD_N n) s then setCtl n { x with held := x.held + 1 } s
    else forAll masked (fun i t =>
      commitY n i (rampStep (t.reg (rCE_Y n i)) (t.reg (rCE_SAFE n i)) (t.reg (rCE_RAMP n i)).toNat) t) s
  | _ => s

/-- The cause for SAFE that arrives at a control engine is due at the next trigger, or counted where the engine is SAFE (R315). Of two
causes in one cycle the lower code is recorded. -/
def safeCause (n cause : Nat) (s : State) : State :=
  if getF (fCE_STAT_MODE n) s = 2 then incSat (fCE_CNT_CAUSES_IN_SAFE n) s
  else modCtl n (fun x => if x.safeDue = 0 ∨ cause < x.safeDue then { x with safeDue := cause } else x) s

/-- The engine's cycle ends without a HALT: no Y is committed, O is set and the overrun counted; N_OVR of them in a row are a cause
for SAFE (R211, R315). -/
def overrun (n : Nat) (s : State) : State :=
  let s1 := noteOverrun (.ce n) (modCore (.ce n) (fun c => { c with fl := { c.fl with o := true }, wait := .none, stopReq := false }) s)
  let s2 := modCtl n (fun x => { x with yPend := [], overran := true, fbCut := false }) s1
  let s3 := setEngState (.ce n) 1 (incSat (fCE_CNT_CONSEC n) (incSat (fCE_CNT_OVERRUNS n) s2))
  let s4 := if max 1 (getF (fCE_MODE_N_OVR n) s3) ≤ getF (fCE_CNT_CONSEC n) s3 then safeCause n 2 s3 else s3
  cycleEnd n s4

/-! ### Inputs (R309, R310) -/

/-- The loop status word (R310). -/
def statusWord (n : Nat) (s : State) : Word :=
  let x := ctlOf n s
  let m := getF (fCE_STAT_MODE n) s
  BitVec.ofNat 48 (m + 4 * (if m ≠ x.lastMode then 1 else 0) + 8 * x.first.toNat + 16 * getF (fCE_FB_ACTIVE n) s +
    4096 * x.overran.toNat + 8192 * getF (fCE_STAT_SAFE_CAUSE n) s)

/-- The value an input's source offers; a UNIT or SEL that names nothing gives a free value. -/
def inputValue (n i : Nat) (s : State) : Option Word :=
  let u := getF (fCE_XCFG_UNIT n i) s
  let k := getF (fCE_XCFG_SEL n i) s
  match getF (fCE_XCFG_CLASS n i) s with
  | 0 => some 0
  | 1 => if u < 6 then some (s.reg (rMC_Q u k)) else none
  | 2 => if u < 4 then some (pM u s) else none
  | 3 => if u < 4 then some (s.reg (rTRK_LINE_VEL u)) else none
  | 4 => if u < 8 then some (subs (256 * getI (fTRK_ENC_COUNT_COUNT u) s)) else none
  | 5 => match k with
    | 0 => some (s.reg (rCE_PG_POS n))
    | 1 => some (s.reg (rCE_PG_VEL n))
    | 2 => some (s.reg (rCE_PG_ACC n))
    | _ => none
  | 6 => if u < 8 ∧ k < 8 then some (s.reg (rCE_Y u k)) else none
  | 7 => some (s.reg (rCE_HOSTX n i))
  | 8 => some (BitVec.ofInt 48 (getI (fPWR_HK_VALUE u) s))
  | 9 => if u < 2 then some (BitVec.ofNat 48 (getF (fBUS_STAT_V u) s)) else none
  | 10 => some (statusWord n s)
  | _ => none

/-- One input is latched; AGE and SAME count on (R214, R309). An input of a source that delivers at every tick is as fresh as the tick of the
trigger, so that a source that stops being delivered ages from the first trigger after. -/
def latchInput (n i : Nat) (s : State) : State :=
  let r := match inputValue n i s with
    | some v => (v, s)
    | none => let d := drawFree s; (BitVec.ofNat 48 d.1, d.2)
  let cls := getF (fCE_XCFG_CLASS n i) s
  modCtl n (fun x =>
    let delivered := x.fresh.getD i false || cls == 5 || cls == 10 || tickDelivers n cls (getF (fCE_XCFG_UNIT n i) s) s
    { x with
      x := x.x.set i r.1,
      age := x.age.set i (if delivered then 0 else min 127 (x.age.getD i 0 + 1)),
      same := x.same.set i (if x.x.getD i 0 = r.1 then min 127 (x.same.getD i 0 + 1) else 0) }) r.2

/-! ### The trigger (R305 to R307, R210, R211) -/

/-- A cycle starts at ENTRY (R210). -/
def startCycle (n : Nat) (s : State) : State :=
  let entry := getF (fCE_CTL_ENTRY n) s
  let s1 := modCore (.ce n) (fun c => { c with
    pc := entry, stack := [], wait := .none, cyc := 0, cycSeen := 0,
    fl := { c.fl with z := false, n := false, c := false, v := false } }) s
  setEngState (.ce n) 2 (modCtl n (fun x => { x with yPend := [], fbCut := false }) s1)

/-- A sample trigger that is taken. -/
def takeTrigger (n : Nat) (s : State) : State :=
  let x0 := ctlOf n s
  let due := x0.safeDue
  let running := decide (engState (.ce n) s = 2)
  let s1 := doIf running (overrun n) (modCtl n (fun x => { x with safeDue := 0 }) s)
  let t := match x0.trigAt with
    | some t0 => ((now s - t0).toNat, s1)
    | none => drawFree s1
  let s2 := pgAdvance n t.1 (hardwareOutputs n (modeChange n due t.2))
  let s3 := if getB (fCE_MODE_KHOLD n) s2 then s2
    else modCtl n (fun x => { x with k := (List.range 16).map fun i => s2.reg (rCE_K n i) }) s2
  let s4 := forAll (List.range 8) (latchInput n) s3
  let s5 := modCore (.ce n) (fun c => { c with stk := now s }) s4
  let s6 := modCtl n (fun x => { x with
    fresh := List.replicate 8 false, ill := List.replicate 8 false, first := false,
    lastMode := getF (fCE_STAT_MODE n) s5, trigAt := some (now s), period := t.1 }) s5
  let st := engState (.ce n) s6
  let s7 := if st = 1 then startCycle n s6 else s6
  let s8 := if st = 0 ∨ st = 3 ∨ getF (fCE_STAT_MODE n) s7 = 2 then cycleEnd n s7 else s7
  buAdvanceAll (buCheckAll s8)

/-- A source event stands: one counted from a motor channel or another engine, or PER ticks of the timer (R305). -/
def eventStands (n : Nat) (s : State) : Bool :=
  match getF (fCE_TRIG_SRC n) s with
  | 0 => false
  | 2 => decide (max 2000 (getF (fCE_TRIG_PER n) s) ≤ (now s - (ctlOf n s).timerAt).toNat)
  | _ => decide (0 < (ctlOf n s).srcDue)

/-- An engine takes a source event: at every DIV-th it has a trigger, unless less than 10 µs have passed since the one before, which
SKIPPED counts (R305). -/
def sampleTrigger (n : Nat) (s : State) : State :=
  if 8 ≤ n ∨ eventStands n s = false then s else
  let per := max 2000 (getF (fCE_TRIG_PER n) s)
  let timer := decide (getF (fCE_TRIG_SRC n) s = 2)
  let s1 := modCtl n (fun x => { x with
    srcDue := x.srcDue - 1, events := x.events + 1,
    timerAt := if timer then x.timerAt + BitVec.ofNat 48 per else x.timerAt }) s
  let x := ctlOf n s1
  if x.events % (getF (fCE_TRIG_DIV_M1 n) s1 + 1) ≠ 0 then s1
  else match x.trigAt with
    | some t0 => if (now s1 - t0).toNat < 2000 then incSat (fCE_CNT_SKIPPED n) s1 else takeTrigger n s1
    | none => takeTrigger n s1

/-! ### FORCE_SAFE and CLEAR_SAFE (R315, R316) -/

/-- The inputs whose CEn_XCFGi FB is set. -/
def fbInputs (n : Nat) (s : State) : List Nat := (List.range 8).filter fun i => getB (fCE_XCFG_FB n i) s

/-- The cause that put the engine in SAFE persists (R316). -/
def causePersists (n : Nat) (s : State) : Bool :=
  match getF (fCE_STAT_SAFE_CAUSE n) s with
  | 1 => (fbInputs n s).any fun i => (getF (fCE_FB_ACTIVE n) s).testBit i
  | 2 => (ctlOf n s).overran
  | 3 => decide (engState (.ce n) s = 3)
  | _ => false

def forceSafe (n : Nat) (s : State) : State := if n < 8 then safeCause n 4 s else s

def clearSafe (n : Nat) (s : State) : State :=
  if n < 8 ∧ getF (fCE_STAT_MODE n) s = 2 ∧ causePersists n s = false then modCtl n (fun x => { x with clearDue := true }) s else s

/-! ### Configuration (R308, R311, R314) -/

/-- The engines a chain of SRC 3 leads to from an engine, in order. -/
def chainFrom (s : State) : Nat → Nat → List Nat
  | 0, _ => []
  | k + 1, n => n :: (if getF (fCE_TRIG_SRC n) s = 3 then chainFrom s k (getF (fCE_TRIG_IDX n) s) else [])

/-- A value written to CEn_TRIG closes a loop of engines. -/
def closesLoop (n v : Nat) (s : State) : Bool :=
  decide (fieldOf (fCE_TRIG_SRC n) v = 3) && (chainFrom s 9 (fieldOf (fCE_TRIG_IDX n) v)).contains n

/-- A write of CEn_TRIG is accepted only while the engine is STOPPED and closes no loop (R308). -/
def trigWrite (n v : Nat) (s : State) : State :=
  if engState (.ce n) s ≠ 0 ∨ closesLoop n v s = true then setB (fCE_STAT_CFG_REFUSED n) true s
  else modCtl n (fun x => { x with srcDue := 0, events := 0, timerAt := now s }) (plainWrite (rCE_TRIG n) v s)

/-- A write of CEn_XCFGi is accepted only while the engine is STOPPED, with a CLASS up to 10 (R308, R309). -/
def xcfgWrite (n i v : Nat) (s : State) : State :=
  if engState (.ce n) s ≠ 0 ∨ 10 < fieldOf (fCE_XCFG_CLASS n i) v then setB (fCE_STAT_CFG_REFUSED n) true s
  else plainWrite (rCE_XCFG n i) v s

/-- The engine and the index of a register of a bank of eight or sixteen per engine, from its address. -/
def ceSlot (base : Nat → Nat → Nat) (k a : Nat) : Option (Nat × Nat) :=
  ((List.range 8).flatMap fun n => (List.range k).map fun i => (n, i)).find? fun x => decide (base x.1 x.2 = a)

def ceConfigWrite (a v : Nat) (s : State) : State :=
  match (List.range 8).find? (fun n => decide (rCE_TRIG n = a)), ceSlot rCE_XCFG 8 a with
  | some n, _ => trigWrite n v s
  | none, some (n, i) => xcfgWrite n i v s
  | none, none => s

def execCeConfigWrite (addr value : Nat) (s : State) : Host.Outcome State Fault Refusal := .next (hostAccess (ceConfigWrite addr value) s)

/-- A coefficient is written; a trigger applies it unless KHOLD is set (R311). -/
def execCeKWrite (addr value : Nat) (s : State) : Host.Outcome State Fault Refusal :=
  .next (if (ceSlot rCE_K 16 addr).isSome then hostAccess (plainWrite addr value) s else s)

/-- CEn_MODE is written; REQ selects the mode from the next trigger (R314). -/
def ceModeWrite (n v : Nat) (s : State) : State :=
  if 8 ≤ n then s else modCtl n (fun x => { x with modeReq := some (v % 2) }) (plainWrite (rCE_MODE n) v s)

def execCeModeWrite (n value : Nat) (s : State) : Host.Outcome State Fault Refusal := .next (hostAccess (ceModeWrite n value) s)

/-- CEn_HOSTXi is written: class 7 input i is delivered (R309). -/
def hostxWrite (n i v : Nat) (s : State) : State :=
  if 8 ≤ n ∨ 8 ≤ i then s else
  let s1 := plainWrite (rCE_HOSTX n i) v s
  if getF (fCE_XCFG_CLASS n i) s1 = 7 then modCtl n (fun x => { x with fresh := x.fresh.set i true }) s1 else s1

def execCeHostxWrite (n i value : Nat) (s : State) : Host.Outcome State Fault Refusal := .next (hostAccess (hostxWrite n i value) s)

def execSampleTrigger (n : Nat) (s : State) : Host.Outcome State Fault Refusal := .next (sampleTrigger n s)

/-- The budget of a cycle ends in this tick: of the tick's two engine cycles the first at least is the last of the budget or comes after it
(R211, R307; log entry 210). -/
def budgetEnds (n : Nat) (s : State) : Bool := decide (max 16 (getF (fCE_TRIG_BUDGET n) s) ≤ (coreOf (.ce n) s).cyc / 8 + 1)

/-- A running cycle exceeds its budget (R211). -/
def execCycleOverrun (n : Nat) (s : State) : Host.Outcome State Fault Refusal :=
  .next (if n < 8 ∧ engState (.ce n) s = 2 ∧ budgetEnds n s then overrun n s else s)

def execForceSafe (n : Nat) (s : State) : Host.Outcome State Fault Refusal := .next (forceSafe n s)
def execClearSafe (n : Nat) (s : State) : Host.Outcome State Fault Refusal := .next (clearSafe n s)

/-- The generator commands: the target is written, then the command with GO (R321). -/
def pgGo (n cmd target : Nat) (s : State) : State :=
  if 8 ≤ n then s else pgCommand n cmd (plainWrite (rCE_PG_TGT n) target s)

def execPgVel (n target : Nat) (s : State) : Host.Outcome State Fault Refusal := .next (hostAccess (pgGo n 1 target) s)
def execPgPos (n target : Nat) (s : State) : Host.Outcome State Fault Refusal := .next (hostAccess (pgGo n 2 target) s)
def execPgRel (n target : Nat) (s : State) : Host.Outcome State Fault Refusal := .next (hostAccess (pgGo n 3 target) s)
def execPgStop (n : Nat) (s : State) : Host.Outcome State Fault Refusal := .next (if n < 8 then hostAccess (pgCommand n 4) s else s)
def execPgSet (n target : Nat) (s : State) : Host.Outcome State Fault Refusal := .next (hostAccess (pgGo n 5 target) s)

end Sys2Proof.Machine
end

