-- ==== Sys2Proof/Machine/Laser.lean ====
section
/-! DEFINITION. Raster laser channels: acquisition, facets, losses, laser enable and the polygon (R287 to R302). -/

namespace Sys2Proof.Machine

def laserOf (h : Nat) (s : State) : Laser := (portOf h s).laser
def modLaser (h : Nat) (f : Laser → Laser) (s : State) : State := modPort h (fun p => { p with laser := f p.laser }) s

/-- STATE of a channel: 0 OFF, 1 ACQUIRING, 2 LOCKED, 3 FAILED. -/
def laserState (h : Nat) (s : State) : Nat := getF (fHP_LSR_STAT_STATE h) s

/-- A port is one of HP12 to HP15 with the personality RASTER_LASER. -/
def isLaser (h : Nat) (s : State) : Bool := decide (12 ≤ h) && decide (h < 16) && decide (persOf h s = 4)

/-- The laser line must fit in its facet (R293): (START_DLY + E + 64) × T_pix + 1 µs ≤ T_FACET. -/
def windowFits (h : Nat) (s : State) : Bool :=
  decide ((getF (fHP_LSR_CFG_START_DLY h) s + elements h s + 64) * getF (fHP_DLL_CFG_PIX_DIV h) s * 5 + 3000 ≤
    30 * getF (fHP_LSR_MEAS_T_FACET h) s)

/-- Gate, laser enable, the head's presence and its column-rate limit follow the channel (R291, R297, R298). -/
def showLaser (h : Nat) (s : State) : State := showLimit h (refreshHead h (showGate h s))

/-- An acquisition starts (R296). -/
def startAcquisition (h : Nat) (s : State) : State :=
  let s1 := modLaser h (fun l => { l with edges := 0, sum := 0, cnt := 0, steady := true, taps := 0, idxSeen := false, lastBd := none,
                                          winFail := false }) s
  showLaser h (incSat (fHP_LSR_CNT_ACQUISITIONS h) (setF (fHP_LSR_STAT_ACQ_FACETS h) 0 (setF (fHP_LSR_STAT_STATE h) 1 s1)))

/-- The window test has failed: the channel is FAILED with WINDOW set (R293). The port is gated, so that no line is written: the lines in hand are
dropped as at a loss (R297; log entry 209). -/
def windowFailed (h : Nat) (s : State) : State :=
  showLaser h (setF (fHP_LSR_STAT_STATE h) 3 (setB (fHP_LSR_STAT_WINDOW h) true
    (modLaser h (fun l => { l with winFail := true }) (dropLines h s))))

/-- A loss is declared (R299): the bits of its condition are set, the port is gated with its enable deasserted, the lines in progress
are dropped and the head-port source is raised. -/
def laserLoss (h : Nat) (bits : List Field) (s : State) : State :=
  let l := laserOf h s
  let flagged := (l.pend.any fun x => x.job.isSome) || ((inWriting h s).any fun x => x.job.isSome)
  let s1 := forAll bits (fun f => setB f true) (dropLines h s)
  raiseSimple srcHeadPort (if flagged then clsFlag else clsNote) false h s1

/-- A loss after which the channel acquires again. -/
def loseLock (h : Nat) (bits : List Field) (s : State) : State := startAcquisition h (laserLoss h bits s)

/-- An interval lies within ±BD_TOL / 256 of a mean sum / cnt. -/
def nearMean (h ivl sum cnt : Nat) (s : State) : Bool :=
  decide (256 * ((ivl * cnt : Nat) - sum : Int).natAbs ≤ getF (fHP_DLL_CFG_BD_TOL h) s * sum)

/-- The polygon test (R302): the motor channel is at speed, and 1 / T_FACET lies within ±BD_TOL / 256 of its speed in revolutions per
second × NFACET. -/
def polyTest (h : Nat) (s : State) : Bool :=
  let c := getF (fHP_DLL_CFG_POLY_MC h) s
  if getB (fHP_DLL_CFG_POLY_EN h) s = false ∨ 6 ≤ c then true
  else
    let expected := (s.reg (rMC_Q c 9)).toInt.natAbs * getF (fHP_DLL_CFG_NFACET h) s * getF (fHP_LSR_MEAS_T_FACET h) s
    getB (fMC_STAT_AT_SPEED c) s && decide (getF (fHP_LSR_MEAS_T_FACET h) s ≠ 0) &&
    decide (256 * ((100000000000 : Int) - expected).natAbs ≤ getF (fHP_DLL_CFG_BD_TOL h) s * expected)

/-- The facet index at an edge (R292): 0 after an IDX edge, otherwise one more, modulo NFACET. -/
def nextFacet (h : Nat) (s : State) : Nat :=
  if getB (fHP_DLL_CFG_IDX_EN h) s ∧ (laserOf h s).idxNow then 0
  else (getF (fHP_LSR_STAT_FACET h) s + 1) % max 1 (getF (fHP_DLL_CFG_NFACET h) s)

/-- The mean facet period in units of 10 ns, from the intervals of the acquisition. -/
def showMean (h : Nat) (s : State) : State :=
  let l := laserOf h s
  if l.cnt = 0 then s else setF (fHP_LSR_MEAS_T_FACET h) (satTo 24 (roundOpen l.sum (2 * l.cnt)).toNat) s

/-- One edge of an acquisition: LOCKED once every condition holds, FAILED at the 32nd facet without (R293, R296). With IDX_EN clear
facet 0 is the first edge after LOCKED. -/
def acquireEdge (h : Nat) (ivl : Option Nat) (tapErr : Nat) (s : State) : State :=
  let l := laserOf h s
  let l1 : Laser := match ivl with
    | none => l
    | some i => { l with sum := l.sum + i, cnt := l.cnt + 1, steady := l.steady && nearMean h i (l.sum + i) (l.cnt + 1) s }
  let l2 := { l1 with edges := l1.edges + 1, taps := if tapErr ≤ 1 then l1.taps + 1 else 0 }
  let s1 := showMean h (setF (fHP_LSR_STAT_ACQ_FACETS h) (min 32 l2.edges) (modLaser h (fun _ => l2) s))
  let idxOk := l2.idxSeen || !getB (fHP_DLL_CFG_IDX_EN h) s1
  if decide (5 ≤ l2.edges) && l2.steady && decide (4 ≤ l2.taps) && idxOk && polyTest h s1 then
    if windowFits h s1 then
      let s2 := if getB (fHP_DLL_CFG_IDX_EN h) s1 then s1
        else setF (fHP_LSR_STAT_FACET h) (max 1 (getF (fHP_DLL_CFG_NFACET h) s1) - 1) s1
      showLaser h (setF (fHP_LSR_STAT_STATE h) 2 s2)
    else windowFailed h s1
  else if 32 ≤ l2.edges then showLaser h (setF (fHP_LSR_STAT_STATE h) 3 (setB (fHP_LSR_STAT_ACQ_FAIL h) true s1))
  else s1

/-- The pixel values sent for a line: floor(v × PSCALE / 256) (R288). -/
def pixelsSent (l : ScanLine) : List Byte := l.pixels.map fun v => BitVec.ofNat 8 (v.toNat * l.pscale / 256)

/-- The pixels of a line on a facet: when each starts, and the bits its lanes carry; lane j sends bit 2j on the rising edge of the pixel
clock and bit 2j + 1 on the falling one (R288, R292). -/
def scanPixels (l : ScanLine) (f : Nat) : List ScanPixel :=
  (pixelsSent l).zipIdx.map fun x =>
    { start := pixelStart l f x.2, lanes := (List.range 4).map fun j => (x.1.getLsbD (2 * j), x.1.getLsbD (2 * j + 1)) }

/-- The facet takes the line in PENDING into WRITING, or writes nothing and counts idle (R290). -/
def writeFacet (h : Nat) (s : State) : State :=
  let l := laserOf h s
  match l.pend with
  | none => addMod (fHP_LSR_CNT_FACETS_IDLE h) 1 (modLaser h (fun x => { x with writing := none }) s)
  | some x =>
    if getB (fHP_LSR_STAT_GATE h) s then s
    else
      let f := getF (fHP_LSR_STAT_FACET h) s
      send (.scan h f (pixDiv h s) (scanPixels x f))
        (modLaser h (fun y => { y with pend := none, writing := some { x with taken := some (now s, f) } }) s)

/-- An edge on a LOCKED channel: a loss with the bits of every condition that holds, or the next facet (R290, R299, R302). -/
def lockedEdge (h : Nat) (ivl : Option Nat) (tapErr : Nat) (s : State) : State :=
  let l := laserOf h s
  let off := match ivl with
    | none => false
    | some i => !nearMean h i l.sum l.cnt s
  let s1 := match ivl with
    | some i => if off then s else showMean h (modLaser h (fun x => { x with sum := x.sum + i, cnt := x.cnt + 1 }) s)
    | none => s
  let rate := !polyTest h s1
  let bits := (if 2 < tapErr then [fHP_LSR_STAT_LOCK_LOSS h] else []) ++ (if rate then [fHP_LSR_STAT_RATE_ERR h] else []) ++
    (if off || rate then [fHP_LSR_STAT_BD_LOSS h] else [])
  if bits.isEmpty then writeFacet h (showLimit h s1) else loseLock h bits s1

/-- A beam-detect edge with its measured phase and tap calibration error, both in taps (R290 to R299); one in the tick of a write that
starts an acquisition is discarded (R296). -/
def bdEdge (h phase tapErr : Nat) (s : State) : State :=
  if isLaser h s = false ∨ (laserOf h s).cfgTick = some (now s) then s else
  let s0 := if laserState h s = 3 ∧ (laserOf h s).winFail = false then startAcquisition h s else s
  let l := laserOf h s0
  let ivl := l.lastBd.map fun t => (now s0 - t).toNat
  let s1 := setF (fHP_LSR_STAT_FACET h) (nextFacet h s0) (setF (fHP_LSR_STAT_BD_PHASE h) phase s0)
  let s2 := modLaser h (fun x => { x with lastBd := some (now s0), idxNow := false }) s1
  match laserState h s2 with
  | 1 => acquireEdge h ivl tapErr s2
  | 2 => lockedEdge h ivl tapErr s2
  | _ => s2

def execBdEdge (h phase tapErr : Nat) (s : State) : Host.Outcome State Fault Refusal := .next (bdEdge h phase tapErr s)

/-- An index edge: the next beam-detect edge is facet 0; on a LOCKED channel an index edge elsewhere is a loss (R292, R299). -/
def idxEdge (h : Nat) (s : State) : State :=
  if isLaser h s = false then s else
  let wrong := decide (laserState h s = 2) && getB (fHP_DLL_CFG_IDX_EN h) s &&
    decide ((getF (fHP_LSR_STAT_FACET h) s + 1) % max 1 (getF (fHP_DLL_CFG_NFACET h) s) ≠ 0)
  let s1 := if wrong then loseLock h [fHP_LSR_STAT_IDX_ERR h, fHP_LSR_STAT_BD_LOSS h] s else s
  modLaser h (fun l => { l with idxSeen := true, idxNow := true }) s1

def execIdxEdge (h : Nat) (s : State) : Host.Outcome State Fault Refusal := .next (idxEdge h s)

/-- No beam-detect edge within 1.5 × T_FACET of the previous one (R299). -/
def execBdTimeout (h : Nat) (s : State) : Host.Outcome State Fault Refusal :=
  .next (if isLaser h s ∧ laserState h s = 2 then
    match (laserOf h s).lastBd with
    | some t => if 3 * getF (fHP_LSR_MEAS_T_FACET h) s < (now s - t).toNat then loseLock h [fHP_LSR_STAT_BD_LOSS h] s else s
    | none => s
  else s)

/-- An acquisition that a write starts: a beam-detect edge of its tick is discarded (R296). -/
def acquireOnWrite (h : Nat) (s : State) : State := modLaser h (fun l => { l with cfgTick := some (now s) }) (startAcquisition h s)

/-- A write of HPn_DLL_CFG, even of the value held, gates the port and starts an acquisition (R296); a line in hand is dropped. -/
def dllCfgWrite (h v : Nat) (s : State) : State :=
  if h < 12 ∨ 16 ≤ h then s else
  let s1 := showPort h (plainWrite (rHP_DLL_CFG h) v s)
  if isLaser h s1 then acquireOnWrite h (dropLines h s1) else s1

def execDllCfgWrite (h value : Nat) (s : State) : Host.Outcome State Fault Refusal := .next (hostAccess (dllCfgWrite h value) s)

/-- A write of HPn_LSR_CFG: LASER_EN takes effect at once, and cleared on a LOCKED channel it is a loss that leaves the lock
(R297, R299). -/
def lsrCfgWrite (h v : Nat) (s : State) : State :=
  if h < 12 ∨ 16 ≤ h then s else
  let was := getB (fHP_LSR_CFG_LASER_EN h) s
  let s1 := shadowLate (rHP_LSR_CFG h) (plainWrite (rHP_LSR_CFG h) v s)
  if isLaser h s1 = false then s1
  else if was ∧ getB (fHP_LSR_CFG_LASER_EN h) s1 = false ∧ laserState h s1 = 2 then showLaser h (laserLoss h [] s1)
  else showLaser h s1

def execLaserEnWrite (h value : Nat) (s : State) : Host.Outcome State Fault Refusal := .next (hostAccess (lsrCfgWrite h value) s)

/-- Laser enable has been asserted for EN_WAIT × 10 µs on a LOCKED channel: the head counts as present (R298). -/
def execEnWaitElapsed (h : Nat) (s : State) : Host.Outcome State Fault Refusal :=
  .next (match (laserOf h s).enSince with
    | some t =>
      if isLaser h s ∧ laserState h s = 2 ∧ getB (fHP_LSR_STAT_ENABLE h) s ∧ getF (fHP_LSR_CFG_EN_WAIT h) s * 2000 ≤ (now s - t).toNat then
        refreshHead h (setPath h { path h s with laserUp := true } s)
      else s
    | none => s)

/-- A motor channel's speed has changed: the laser channels coupled to it that fail the polygon test lose their lock (R299, R302). -/
def polygonSample (c : Nat) (s : State) : State :=
  forAll [12, 13, 14, 15] (fun h t =>
    if isLaser h t ∧ laserState h t = 2 ∧ getB (fHP_DLL_CFG_POLY_EN h) t ∧ getF (fHP_DLL_CFG_POLY_MC h) t = c ∧ polyTest h t = false then
      loseLock h [fHP_LSR_STAT_RATE_ERR h, fHP_LSR_STAT_BD_LOSS h] t
    else t) s

/-- The line in WRITING has been written whole: the slot is empty (R288, R290). -/
def endLines (s : State) : State :=
  forAll [12, 13, 14, 15] (fun h t => if (laserOf h t).writing.isSome ∧ (inWriting h t).isNone then modLaser h (fun l => { l with writing := none }) t
    else t) s

end Sys2Proof.Machine
end

