-- ==== Sys2Proof/Machine/Tracking.lean ====
section
/-! DEFINITION. The meanings of the tracking commands: encoder and position events, product detect, and the tracking tick
(R40 to R79). -/

namespace Sys2Proof.Machine

/-! ### Settings of a product-detect input -/

/-- EN or LINE of an input changes: an input that is enabled starts its filter (R68). -/
def setPdCfg (p v : Nat) (s : State) : State :=
  let was := getB (fTRK_PD_CFG_EN p) s
  let s1 := (plainWrite (rTRK_PD_CFG p) v s).setPd p { s.pd p with waitCfg := none }
  if !was ∧ getB (fTRK_PD_CFG_EN p) s1 then startFilter p s1 else s1

/-- A write of EN or LINE takes effect once no capture of the input awaits confirmation (R78). -/
def applyPdCfg (p : Nat) (s : State) : State :=
  match (s.pd p).pending, (s.pd p).waitCfg with
  | [], some v => setPdCfg p v s
  | _, _ => s

/-! ### Line control -/

/-- Captures of a line that await confirmation are discarded when it goes OFF (R68). -/
def discardCaptures (n : Nat) (s : State) : State :=
  forAll (List.range 16) (fun p t =>
    if (t.pd p).pending ≠ [] ∧ getF (fTRK_PD_CFG_LINE p) t = n then
      applyPdCfg p (addSat (fTRK_PD_STAT_FILT_CNT p) (t.pd p).pending.length (t.setPd p { t.pd p with pending := [] }))
    else t) s

/-- A line goes OFF (R78, R79). -/
def lineOff (n : Nat) (s : State) : State := discardCaptures n (setLineState n 0 (s.setLine n { s.line n with ck := pRaw n s }))

/-- The fields of TRK_LINEn_CTL that R43 guards differ from the register. -/
def guardedChange (n v : Nat) (s : State) : Bool :=
  [fTRK_LINE_CTL_EN n, fTRK_LINE_CTL_SRC n, fTRK_LINE_CTL_ENC_SEL n, fTRK_LINE_CTL_DIR_INV n, fTRK_LINE_CTL_OC_UNIT n,
    fTRK_LINE_CTL_OC_LINE n].any fun f => decide (fieldOf f v ≠ getF f s)

/-- A write of TRK_LINEn_CTL (R43, R519). -/
def lineCtlWrite (n v : Nat) (s : State) : State :=
  if 4 ≤ n then s
  else if fieldOf (fTRK_LINE_CTL_SRC n) v = 3 ∨ (guardedChange n v s ∧ lineBusy n s) then setB (fTRK_LINE_STAT_CFG_REFUSED n) true s
  else
    let was := getB (fTRK_LINE_CTL_EN n) s
    let s1 := plainWrite (rTRK_LINE_CTL n) v s
    let isOn := getB (fTRK_LINE_CTL_EN n) s1
    showArming n (if isOn ∧ (!was ∨ guardedChange n v s) then freshStart n s1
      else if was ∧ !isOn then lineOff n s1 else s1)

def execLineCtlWrite (line value : Nat) (s : State) : Host.Outcome State Fault Refusal := .next (hostAccess (lineCtlWrite line value) s)

/-- A write of TRK_LINEn_PRESET, refused while the line has a product IN_FLIGHT (R43, R78). -/
def linePreset (n v : Nat) (s : State) : State :=
  if 4 ≤ n then s
  else if lineBusy n s then setB (fTRK_LINE_STAT_CFG_REFUSED n) true s
  else bringDue (presetLine n (BitVec.ofNat 48 v) s)

def execLinePreset (line value : Nat) (s : State) : Host.Outcome State Fault Refusal := .next (hostAccess (linePreset line value) s)

def execVirtSpeedWrite (line value : Nat) (s : State) : Host.Outcome State Fault Refusal :=
  .next (if 4 ≤ line then s else hostAccess (virtualSpeed line (BitVec.ofNat 48 value)) s)

/-! ### Encoder inputs -/

/-- The lines on SRC 0 that name an encoder and are not OFF (R42). -/
def linesOf (m : Nat) (s : State) : List Nat :=
  (List.range 4).filter fun n => decide (lineState n s ≠ 0) && decide (getF (fTRK_LINE_CTL_SRC n) s = 0) &&
    decide (getF (fTRK_LINE_CTL_ENC_SEL n) s = m)

/-- Place of the levels (A, B) in the forward order 00, 10, 11, 01 (R46). -/
def phase (a b : Bool) : Nat := match a, b with
  | false, false => 0
  | true, false => 1
  | true, true => 2
  | false, true => 3

/-- The count a transition gives: none, up or down (R46). `bBefore` is the level of B in the tick before A's edge. -/
def countOf (mode : Nat) (a0 b0 a b bBefore : Bool) : Option Bool :=
  let fwd := decide ((phase a0 b0 + 1) % 4 = phase a b)
  let back := decide ((phase a b + 1) % 4 = phase a0 b0)
  let legal := fwd || back
  match mode with
  | 0 => if legal then some fwd else none
  | 1 => if legal && (a0 != a) then some fwd else none
  | 2 => if !a0 && a && !b0 && !b then some true else if a0 && !a && !b0 && !b then some false else none
  | _ => if !a0 && a then some (!bBefore) else none

/-- An illegal quadrature transition, in which A and B change together: no count, but it is counted, and more than 8 of them in 256
consecutive edges are a wire loss (R49, R60). -/
def illegalEdge (m : Nat) (s : State) : State := incSat (fTRK_ENC_STAT_ILL_CNT m) (setB (fTRK_ENC_STAT_ILLEGAL m) true s)

/-- A line sees one transition of its encoder, legal or not (R60). -/
def seeTransition (n : Nat) (illegal : Bool) (s : State) : State :=
  let x := s.line n
  let win := (illegal :: x.illWin).take 256
  let s1 := s.setLine n { x with illWin := win, illSince := x.illSince || illegal,
                                 run := if illegal then 0 else x.run, runIvl := if illegal then none else x.runIvl }
  if illegal ∧ 8 < (win.filter id).length then
    declareLoss n (fTRK_LINE_STAT_WIRE_LOSS n) 1 s1
  else s1

/-- A new level of an encoder pin can have been stable for ENC_FILT + 1 ticks since the pin's last accepted level (R47). -/
def settled (m : Nat) (last : Option Word) (s : State) : Bool := match last with
  | some t => decide (getF (fTRK_ENC_CFG_ENC_FILT m) s + 1 ≤ (now s - t).toNat)
  | none => true

/-- An accepted transition of A and B of an encoder (R46 to R49). The new levels were first seen ENC_FILT ticks before (R47, R48); none is
accepted that cannot have been stable for so long. -/
def encEdge (m : Nat) (a b : Bool) (s : State) : State :=
  if 8 ≤ m then s else
  let a0 := getB (fTRK_ENC_STAT_A m) s
  let b0 := getB (fTRK_ENC_STAT_B m) s
  if (a0 = a ∧ b0 = b) ∨ (a0 ≠ a ∧ !settled m (s.enc m).accA s) ∨ (b0 ≠ b ∧ !settled m (s.enc m).accB s) then s else
  let mode := getF (fTRK_ENC_CFG_MODE m) s
  let e := s.enc m
  let t := now s - BitVec.ofNat 48 (getF (fTRK_ENC_CFG_ENC_FILT m) s)
  let bBefore := if b0 ≠ b then b0 else if e.bTick = now s then e.bPrev else b0
  let s1 := setB (fTRK_ENC_STAT_A m) a (setB (fTRK_ENC_STAT_B m) b s)
  let e0 := { e with held := t, accA := if a0 ≠ a then some (now s) else e.accA, accB := if b0 ≠ b then some (now s) else e.accB }
  let e1 := if b0 ≠ b then { e0 with bPrev := if e.bTick = now s then e.bPrev else b0, bTick := now s } else e0
  let illegal := decide (mode ≠ 3) && (a0 != a) && (b0 != b)
  let s2 := s1.setEnc m e1
  let s3 := doIf illegal (fun t => ctlIllegal m (illegalEdge m t)) s2
  let s4 := forAll (linesOf m s3) (fun n => seeTransition n illegal) s3
  if illegal then s4 else
  match countOf mode a0 b0 a b bBefore with
  | none => s4
  | some up =>
    let c := getF (fTRK_ENC_COUNT_COUNT m) s4
    let s5 := setF (fTRK_ENC_COUNT_COUNT m) (if up then c + 1 else c + 2 ^ 40 - 1) s4
    let s6 := s5.setEnc m { s5.enc m with lastUp := some up, zTurned := (s5.enc m).zTurned || (s5.enc m).lastUp == some (!up) }
    let flt := getB (fTRK_ENC_STAT_FLT m) s6
    forAll (linesOf m s6) (fun n u => lineEdge n (up != getB (fTRK_LINE_CTL_DIR_INV n) u) flt t u) s6

/-- A new level of Z is accepted (R47); a rising edge is a Z pulse: the counts since the previous one are checked against CPR (R50). -/
def encZ (m : Nat) (level : Bool) (s : State) : State :=
  if 8 ≤ m ∨ getB (fTRK_ENC_STAT_Z m) s = level ∨ !settled m (s.enc m).accZ s then s else
  let s1 := setB (fTRK_ENC_STAT_Z m) level (s.setEnc m { s.enc m with accZ := some (now s) })
  if !level ∨ !getB (fTRK_ENC_CFG_Z_EN m) s ∨ getF (fTRK_ENC_CFG_CPR m) s = 0 then s1 else
  let e := s1.enc m
  let c := getF (fTRK_ENC_COUNT_COUNT m) s1
  let cpr := getF (fTRK_ENC_CFG_CPR m) s1
  let bad := match e.zLast with
    | none => false
    | some c0 =>
      let d := (signedOf 40 ((c + 2 ^ 40 - c0) % 2 ^ 40)).natAbs
      !e.zTurned && (decide (cpr + 2 < d) || decide (d + 2 < cpr))
  let s2 := s1.setEnc m { e with zLast := some c, zTurned := false }
  if bad then incSat (fTRK_ENC_STAT_Z_CNT m) (setB (fTRK_ENC_STAT_Z_ERR m) true s2) else s2

/-- The first Z pulse after a write that changes CPR or Z_EN is not checked (R50). -/
def encCfgWrite (m v : Nat) (s : State) : State :=
  let changed := decide (fieldOf (fTRK_ENC_CFG_CPR m) v ≠ getF (fTRK_ENC_CFG_CPR m) s) ||
    decide (fieldOf (fTRK_ENC_CFG_Z_EN m) v ≠ getF (fTRK_ENC_CFG_Z_EN m) s)
  let s1 := plainWrite (rTRK_ENC_CFG m) v s
  if changed then s1.setEnc m { s1.enc m with zLast := none, zTurned := false } else s1

/-- The receiver fault input has settled: low sets WIRE and, with FLT_EN, is a wire loss of every line that uses the encoder (R60). -/
def encFlt (m : Nat) (low : Bool) (s : State) : State :=
  if 8 ≤ m then s else
  let s1 := setB (fTRK_ENC_STAT_FLT m) (!low) s
  if !low then s1 else
  let s2 := setB (fTRK_ENC_STAT_WIRE m) true s1
  if getB (fTRK_ENC_CFG_FLT_EN m) s2 then
    forAll (linesOf m s2) (fun n => declareLoss n (fTRK_LINE_STAT_WIRE_LOSS n) 1) s2
  else s2

/-- The speed at a line's last edge exceeds V_MIN (R60, R61). -/
def movingFast (n : Nat) (s : State) : Bool := decide (256 * getF (fTRK_LINE_VMIN_V_MIN n) s < (velocity n s).natAbs)

/-- Ticks since a line's last accepted edge or update. -/
def sinceEdge (n : Nat) (s : State) : Nat := (now s - (s.line n).tk).toNat

/-- A and B of encoder `m` have held their levels for more than 4 count intervals at the speed of the line's last edge (R60). -/
def isStuck (m n : Nat) (s : State) : Bool :=
  movingFast n s && decide (4 * 256 * ticksPerSecond < (velocity n s).natAbs * (now s - (s.enc m).held).toNat)

def execEncEdge (m : Nat) (a b : Bool) (s : State) : Host.Outcome State Fault Refusal :=
  .next (buAdvanceAll (encEdge m a b s))
def execEncZPulse (m : Nat) (level : Bool) (s : State) : Host.Outcome State Fault Refusal := .next (encZ m level s)
def execEncFltInput (m : Nat) (low : Bool) (s : State) : Host.Outcome State Fault Refusal := .next (encFlt m low s)

/-- STUCK: the lines of the encoder for which the condition of R60 holds lose their source. -/
def execStuck (m : Nat) (s : State) : Host.Outcome State Fault Refusal :=
  .next (forAll ((linesOf m s).filter fun n => isStuck m n s)
    (fun n t => declareLoss n (fTRK_LINE_STAT_WIRE_LOSS n) 1 (setB (fTRK_ENC_STAT_STUCK m) true t)) s)

/-- FREEZE: no edge for FREEZE_WIN ticks while the speed exceeds V_MIN, on a line with SRC 0 (R61). -/
def execFreeze (line : Nat) (s : State) : Host.Outcome State Fault Refusal :=
  .next (if line < 4 ∧ getF (fTRK_LINE_CTL_SRC line) s = 0 ∧ movingFast line s ∧
      getF (fTRK_LINE_FREEZE_FREEZE_WIN line) s ≤ sinceEdge line s then
    declareLoss line (fTRK_LINE_STAT_FREEZE line) 2 s else s)

/-- OCING_STALE: a broadcast-fed line has received no broadcast for 8 µs (R63). -/
def execOcingStale (line : Nat) (s : State) : Host.Outcome State Fault Refusal :=
  .next (if line < 4 ∧ getF (fTRK_LINE_CTL_SRC line) s = 1 ∧ 1600 ≤ sinceEdge line s then
    declareLoss line (fTRK_LINE_STAT_OCING_STALE line) 4 s else s)

/-- VIRT_STALE: a virtual line has had no speed written for VIRT_TMO ms (R63). -/
def execVirtStale (line : Nat) (s : State) : Host.Outcome State Fault Refusal :=
  .next (if line < 4 ∧ getF (fTRK_LINE_CTL_SRC line) s = 2 ∧
      getF (fTRK_LINE_VIRT_TMO_VIRT_TMO line) s * 200000 ≤ sinceEdge line s then
    declareLoss line (fTRK_LINE_STAT_VIRT_STALE line) 5 s else s)

/-- The dead-reckoned travel has reached D_DR counts (R64, R65). -/
def travelUsed (n : Nat) (s : State) : Bool :=
  decide (256 * getF (fTRK_LINE_DR_D_DR n) s * ticksPerSecond ≤ (s.line n).drTravel)

def execDrExhausted (line : Nat) (s : State) : Host.Outcome State Fault Refusal :=
  .next (if line < 4 ∧ lineState line s = 3 ∧ travelUsed line s then posLost line s else s)

/-! ### Product detect -/

/-- A write of TRK_PDn_CFG (R78). -/
def pdCfgWrite (p v : Nat) (s : State) : State :=
  if 16 ≤ p then s
  else if (s.pd p).pending ≠ [] then
    let keep := withField (fTRK_PD_CFG_EN p) (getF (fTRK_PD_CFG_EN p) s) (withField (fTRK_PD_CFG_LINE p) (getF (fTRK_PD_CFG_LINE p) s) v)
    (plainWrite (rTRK_PD_CFG p) keep s).setPd p { s.pd p with waitCfg := some v }
  else setPdCfg p v s

def execPdCfgWrite (p value : Nat) (s : State) : Host.Outcome State Fault Refusal := .next (hostAccess (pdCfgWrite p value) s)

/-- p_m has moved FILT_C counts past a latched position (R70). -/
def passedFilter (p : Nat) (c : Capture) (s : State) : Bool :=
  decide (c.latchIn = 0) &&
  atOrBeyond (pM (getF (fTRK_PD_CFG_LINE p) s) s) (c.pos + counts (getF (fTRK_PD_CFG_FILT_C p) s))

/-- The latched position of the last capture confirmed. Captures that still wait at a leading edge have passed their filter, or have none:
they are confirmed too (R70). -/
def lastConfirmed (p : Nat) (s : State) : Option Word := match (s.pd p).pending.getLast? with
  | some c => some c.pos
  | none => (s.pd p).lastPos

/-- A leading edge lies within BLANK counts of the last confirmed capture (R71). A preset, another line for the input, or the line going OFF
leaves the position to compare with as it was (DESIGN CHOICE, log entry 155). -/
def blanked (p : Nat) (s : State) : Bool :=
  match lastConfirmed p s with
  | none => false
  | some q => decide (posDiff (pM (getF (fTRK_PD_CFG_LINE p) s) s) q < (256 * getF (fTRK_PD_CFG_BLANK p) s : Nat))

/-- A leading edge of an enabled input: ignored while its line is OFF (R68), suppressed below the high-water mark (R58), blanked
(R71), or latched with its date (R69, R72). -/
def leadingEdge (p : Nat) (s : State) : State :=
  let n := getF (fTRK_PD_CFG_LINE p) s
  if lineState n s = 0 then incSat (fTRK_PD_STAT_OFF_CNT p) s
  else if atOrBeyond (pRaw n s) (pM n s) = false then incSat (fTRK_LINE_CNT_SUPP_CNT n) s
  else if blanked p s then incSat (fTRK_PD_STAT_BLANK_CNT p) s
  else
    s.setPd p { s.pd p with pending := (s.pd p).pending ++
      [{ pos := pM n s, latchIn := 3, tick := now s, date := s.reg rTRU_TIME, trusted := clockTrusted s, dr := decide (3 ≤ lineState n s) }] }

/-- The pin can have held a new level for FILT_N ticks since the filtered level last changed or the filter started (R69). -/
def heldFor (p : Nat) (s : State) : Bool := match (s.pd p).since with
  | some t => decide (max 1 (getF (fTRK_PD_CFG_FILT_N p) s) ≤ (now s - t).toNat)
  | none => true

/-- The filtered level of a product-detect input changes (R69). Leaving the product level before FILT_C counts discards the capture
with its date latch (R70, R72). A level that cannot have been held for FILT_N ticks is not accepted; just after the filter has started it is
the level from which it started (R68; log entry 156). -/
def pdEdge (p : Nat) (level : Bool) (s : State) : State :=
  if 16 ≤ p ∨ getB (fTRK_PD_STAT_LEVEL p) s = level then s
  else if !heldFor p s then (if (s.pd p).started then setB (fTRK_PD_STAT_LEVEL p) level s else s)
  else
  let s1 := setB (fTRK_PD_STAT_LEVEL p) level (s.setPd p { s.pd p with since := some (now s), started := false })
  if !getB (fTRK_PD_CFG_EN p) s1 then s1
  else if level != getB (fTRK_PD_CFG_POL p) s1 then leadingEdge p s1
  else match (s1.pd p).pending.getLast? with
    | some c =>
      if getF (fTRK_PD_CFG_FILT_C p) s1 = 0 ∨ passedFilter p c s1 then s1
      else applyPdCfg p (incSat (fTRK_PD_STAT_FILT_CNT p) (s1.setPd p { s1.pd p with pending := (s1.pd p).pending.dropLast }))
    | none => s1

def execPdEdgeAccept (p : Nat) (level : Bool) (s : State) : Host.Outcome State Fault Refusal := .next (pdEdge p level s)

/-- The oldest capture of an input has passed its filter. -/
def confirmable (p : Nat) (s : State) : Bool := (s.pd p).pending.head?.any fun c => passedFilter p c s

/-- An input of the same line with a lower index is confirmed first: captures of one tick take their numbers in that order (R73). -/
def lowerFirst (p : Nat) (s : State) : Bool :=
  (List.range p).any fun q => decide (getF (fTRK_PD_CFG_LINE q) s = getF (fTRK_PD_CFG_LINE p) s) && confirmable q s

/-- A capture that has passed its filter is confirmed (R70, R73); the pitch test of R61 follows it. -/
def captureConfirm (p : Nat) (s : State) : State :=
  if 16 ≤ p ∨ lowerFirst p s then s else
  match (s.pd p).pending with
  | [] => s
  | c :: rest =>
    let n := getF (fTRK_PD_CFG_LINE p) s
    if passedFilter p c s then
      let s1 := s.setPd p { s.pd p with pending := rest, lastPos := some c.pos }
      applyPdCfg p (pitchTest n c.pos (bringDue (confirmProduct p c s1)))
    else s

def execCaptureConfirm (p : Nat) (s : State) : Host.Outcome State Fault Refusal := .next (captureConfirm p s)

/-- Every 1 ms the table is swept for expired entries (R76). -/
def execPtabSweep (s : State) : Host.Outcome State Fault Refusal :=
  .next (forAll ((s.sch.ptab.filter fun x => decide (x.1 < ptabSize) && isExpired x.2 s).map (·.1)) expire s)

/-! ### The tracking tick (R20, R52) -/

/-- The secure clock counts a millisecond: it counts on, and where a slew is under way it runs fast or slow by one millisecond
in 3,600, so that it never steps and never decreases (R125, R128). The leap allowance shrinks with the slew, and none is left at its end. -/
def clockCount (s : State) : State :=
  let t := secureTime s
  if 3599 ≤ s.trust.slewWait ∧ s.trust.slew ≠ 0 then
    let d : Int := if 0 < s.trust.slew then 1 else -1
    let leap := if s.trust.slew = d then 0
      else if (0 < s.trust.leap ∧ d = 1) ∨ (s.trust.leap < 0 ∧ d = -1) then s.trust.leap - d else s.trust.leap
    setF fTRU_TIME_TIME (if d = 1 then t + 2 else t) { s with trust.slew := s.trust.slew - d, trust.leap := leap, trust.slewWait := 0 }
  else setF fTRU_TIME_TIME (t + 1) { s with trust.slewWait := min 3599 (s.trust.slewWait + 1) }

/-- The value that an accepted token sets (R126). -/
def takeToken (t : Nat) (s : State) : State := setF fTRU_TIME_TIME t { s with trust.timeDue := none }

/-- A millisecond boundary of the secure clock: a token's set and a change of trust take effect there (R130). -/
def clockMs (s : State) : State :=
  let s1 := match s.trust.timeDue with
    | some t => takeToken t s
    | none => clockCount s
  setCauses s1.trust.causes s1

/-- A clock whose crystal has stopped has no millisecond boundary: a token's set and a change of trust take effect at the next tick (R126, R127;
log entry 157). -/
def clockStopped (s : State) : State :=
  let s1 := match s.trust.timeDue with
    | some t => takeToken t s
    | none => s
  setCauses s1.trust.causes s1

/-- The 32.768 kHz crystal during one tick of 5 ns: a millisecond is counted at the crystal's cycle that completes it. A crystal that has
stopped counts nothing (R20, R125; log entry 157). -/
def crystalTick (s : State) : State :=
  if s.trust.oscStopped then clockStopped s
  else
    let p := s.trust.oscPart + 32768
    if p < ticksPerSecond then { s with trust.oscPart := p }
    else
      let m := s.trust.msPart + 1000
      let s1 := { s with trust.oscPart := p - ticksPerSecond, trust.msPart := m % 32768 }
      if m < 32768 then s1 else clockMs s1

/-- The clocks of the trust core: the age of a nonce is measured in ticks, whatever becomes of the crystal (R126, R410). -/
def clockTick (s : State) : State :=
  crystalTick (if (now s).toNat % 200000 = 0 then { s with trust.upMs := s.trust.upMs + 1 } else s)

/-- Captures whose position is not yet latched take p_m; it is the one of the third tick after the acceptance (R69). -/
def latchTick (s : State) : State :=
  forAll (List.range 16) (fun p t =>
    t.setPd p { t.pd p with pending := (t.pd p).pending.map fun c =>
      if c.latchIn = 0 then c else { c with latchIn := c.latchIn - 1, pos := pM (getF (fTRK_PD_CFG_LINE p) t) t } }) s

/-- The engines that run count the cycles of a tick for CYC: two at 400 MHz, of which the steps of ageing in force leave 16 − k sixteenths (R21,
R186, R218, R472, R473). -/
def cycleTick (s : State) : State :=
  let k := 16 - s.age.kAge
  let count (e : Engine) (c : Core) : Core := if engState e s = 2 then { c with cyc := c.cyc + k } else c
  { s with
    sqs := s.sqs.zipIdx.map fun x => { x.1 with core := count (.sq x.2) x.1.core }
    ces := s.ces.zipIdx.map fun x => { x.1 with core := count (.ce x.2) x.1.core }
    mvs := s.mvs.zipIdx.map fun x => { x.1 with core := count (.mv x.2) x.1.core } }

/-- WIRE is set for as long as the receiver fault input is low (R60). -/
def wireTick (s : State) : State :=
  forAll (List.range 8) (fun m t => doIf (!getB (fTRK_ENC_STAT_FLT m) t) (setB (fTRK_ENC_STAT_WIRE m) true) t) s

/-- One 5 ns tick: the tick counter, the secure clock, the observers, the predictions and the events they bring due. -/
def trackingTick (s : State) : State :=
  let s1 := s.setReg rTRK_TICK (now s + 1)
  let s2 := { s1 with sch.dispatched := 0, raised := [] }
  cycleTick (latchTick (forAll (List.range 4) lineTick (wireTick (clockTick s2))))

end Sys2Proof.Machine
end

