-- ==== Sys2Proof/Machine/Sequencer.lean ====
section
/-! DEFINITION. Firing sequencers around their instructions: hand-overs, mark boundaries, job ends, engine control, takeovers and
give-back (R199 to R202, R220 to R252, R271 to R283 where they meet a mark boundary). -/

namespace Sys2Proof.Machine

/-! ### Columns of a path (R224, R228, R230) -/

/-- A column of the running job is consumed: its slot is released and CONSUMED counts it, once (R228). -/
def consume (h j idx : Nat) (s : State) : State :=
  let p := path h s
  match p.buf.find? fun c => decide (c.job = j) && decide (c.idx = idx) with
  | none => s
  | some c =>
    let p1 := { p with buf := p.buf.filter fun d => !(decide (d.job = j) && decide (d.idx = idx)), spent := p.spent ++ [c] }
    showPath h (addMod (fSQ_CRED_CONSUMED h) 1 (setPath h p1 s))

/-- Mark a job with a flag. -/
def flagJob (j flag : Nat) (s : State) : State := modJob j (fun x => { x with flags := x.flags ||| flag }) s

/-- A column still in CR is replaced or left: it is counted skipped and consumed (R204). -/
def dropCr (n h : Nat) (s : State) : State :=
  let x := seqOf n s
  match x.crIdx, (path h s).cur with
  | some i, some j => setSeq n { seqOf n s with crIdx := none } (consume h j i (incSat (fSQ_COLCNT_SKIPPED h) s))
  | _, _ => s

/-- The first-column report of a job makes it STARTED (R84, R205). -/
def firstColumn (j : Nat) (s : State) : State :=
  modJob j (fun x => if x.firstCol then x else
    { x with firstCol := true, firstTick := now s, state := if x.state = .released then .started else x.state }) s

/-- The first-emission report of a job moves its product's serial to PRINTED (R138, R205). -/
def firstEmission (j : Nat) (s : State) : State :=
  match job j s with
  | none => s
  | some x => if x.firstEmit then s else printSerial x.prod (modJob j (fun y => { y with firstEmit := true }) s)

/-! ### Hand-over (R234 to R238) -/

/-- A hand-over tests the line window of a laser channel (R293): a LOCKED channel that fails it enters FAILED with WINDOW set; one that
failed it before and meets it now acquires again. -/
def testWindow (h : Nat) (s : State) : State :=
  if persOf h s ≠ 4 then s
  else if getF (fHP_LSR_STAT_STATE h) s = 2 ∧ windowFits h s = false then windowFailed h s
  else if (portOf h s).laser.winFail ∧ windowFits h s then startAcquisition h s
  else s

/-- A hand-over commits the whole set at once: registers, mask pages, predictions and what follows from the settings (R54, R234 to R238,
R260, R273). -/
def commitSet (h : Nat) (s : State) : State :=
  let en := getB (fTRK_HLEAD_EN h) s
  let line := getF (fTRK_HLEAD_LINE h) s
  let s1 := forAll (setRegisters h) (fun a t => t.setReg a (t.shadowReg a)) s
  let s2 := forAll (setFields h) (fun f t => setF f (getShadowF f t) t) s1
  let p := path h s2
  let s3 := setPath h { p with maskA := p.maskS, maskS := p.maskA, copying := true, hoHeld := false, hoWait := false, hoTick := some (now s) } s2
  let s4 := addMod (fSQ_HOCNT_HANDOVERS h) 1 s3
  let fresh := getB (fTRK_HLEAD_EN h) s4 && (!en || decide (getF (fTRK_HLEAD_LINE h) s4 ≠ line))
  let s5 := if fresh then predRestart h s4 else showPred h s4
  bringDue (doIf (decide (persOf h s = 4)) (refreshHead h) (testWindow h (showPair h (publishPort h s5))))

/-- A hand-over of a path falls due: deferred while SEAL is set, and kept waiting while the mask page copy runs (R237, R238). -/
def handOver (h : Nat) (s : State) : State :=
  if getB (fSQ_SHADOW_SEAL_SEAL h) s then incSat (fSQ_HOCNT_DEFERRED h) s
  else if (path h s).copying then setPath h { path h s with hoWait := true } s
  else commitSet h s

/-- A HANDOVER event hands over at once, but two of one tick make one hand-over, or one deferral (R235, R237). -/
def handOverOnce (h : Nat) (s : State) : State :=
  if (path h s).evTick = some (now s) then s else handOver h (setPath h { path h s with evTick := some (now s) } s)

/-- A host write to a mask page reaches the shadow page; it is held while the page copy runs (R238). -/
def maskWrite (h i : Nat) (x : BitVec 32) (s : State) : State :=
  let k := (getF (fSQ_MASK_SEL_BANK h) s * 16 + getF (fSQ_MASK_SEL_ROW h) s) * 128 + i
  let p := path h s
  shadowLate (rSQ_MASK h i) (if p.copying then setPath h { p with maskHeld := p.maskHeld ++ [(k, x)] } s
    else setPath h { p with maskS := spPut (fun _ => (0xFFFFFFFF : BitVec 32)) p.maskS k x } s)

/-- A mask word as a read answers it: what the next hand-over would commit (R238). -/
def maskRead (h i : Nat) (s : State) : BitVec 32 :=
  let k := (getF (fSQ_MASK_SEL_BANK h) s * 16 + getF (fSQ_MASK_SEL_ROW h) s) * 128 + i
  let p := path h s
  let m := if p.copying then p.maskHeld.foldl (fun a x => spPut (fun _ => (0xFFFFFFFF : BitVec 32)) a x.1 x.2) p.maskA else p.maskS
  spGet (fun _ => 0xFFFFFFFF) m k

/-- The page copy ends: the shadow page equals the active one, held writes are applied, and a hand-over that waited goes ahead, or is
deferred where SEAL is set (R237, R238). -/
def maskCopyDone (h : Nat) (s : State) : State :=
  let p := path h s
  if p.copying = false then s else
  let m := p.maskHeld.foldl (fun a x => spPut (fun _ => (0xFFFFFFFF : BitVec 32)) a x.1 x.2) p.maskA
  let s1 := setPath h { p with copying := false, maskS := m, maskHeld := [], hoWait := false } s
  if p.hoWait then handOver h s1 else s1

/-! ### Job ends (R206, R224) -/

/-- The running job of a path ends at its sequencer: its remaining columns are discarded, the sequencer goes to IDLE, and the product
may close (R100, R206, R224). -/
def endJob (n h j : Nat) (s : State) : State :=
  let s1 := dropCr n h s
  let s2 := discardColumns h j s1
  let s3 := modCore (.sq n) (fun c => { c with wait := .none }) (setEngState (.sq n) 1 s2)
  let s4 := showPath h (setPath h { path h s3 with cur := none, spent := [] } s3)
  let s5 := modJob j (fun x => { x with stopping := false, ended := true, half := none }) s4
  let i := (job j s5).map (·.ptab)
  let s6 := match i with
    | some k => closeIfDone k s5
    | none => s5
  tidy s6

/-- HALT of a sequencer closes its job: CLOSED_OK where every column was emitted and no flag is set, CLOSED_FLAGGED otherwise (R205). A job
that the scheduler has already closed stays so. -/
def haltJob (n h j : Nat) (s : State) : State :=
  let done := (path h s).emitted
  let s1 := modJob j (fun x => if jobOpen x.state then
    { x with state := if done = x.cols ∧ x.flags = 0 then .closedOk else .closedFlagged, closeTick := now s } else x) s
  endJob n h j s1

/-- The scheduler has ordered the running job of a path to stop: it is gone, moved to another head, or marked stopping (R206). -/
def stopOrdered (h : Nat) (s : State) : Bool :=
  match (path h s).cur with
  | none => false
  | some j => match job j s with
    | none => true
    | some x => x.stopping || decide (x.head ≠ h)

/-- The job stops at its column boundary and ends as the scheduler decided; one still open ends CLOSED_FLAGGED (R65, R99, R206, R345). -/
def stopJob (n h j : Nat) (s : State) : State :=
  endJob n h j (modJob j (fun x => if x.head = h ∧ x.stopping ∧ jobOpen x.state then
    { x with state := .closedFlagged, closeTick := now s } else x) s)

/-- The sequencer is at a column boundary: it comes to WAITP or LDCOL, or waits in WAITP (R206). -/
def atBoundary (n : Nat) (s : State) : Bool :=
  decide (n < 20) && decide (engState (.sq n) s = 2) &&
  (decide ((coreOf (.sq n) s).wait = .waitp) ||
    match nextInsn (.sq n) s with
    | some (.waitp _ _) => true
    | some .ldcol => true
    | _ => false)

def execJobStopAtBoundary (n : Nat) (s : State) : Host.Outcome State Fault Refusal :=
  .next (match headOf n s with
    | some h => match (path h s).cur with
      | some j => if stopOrdered h s && atBoundary n s then stopJob n h j s else s
      | none => s
    | none => s)

/-! ### Mark boundary (R221, R232) -/

/-- Write a checkpoint into the slot not in force and switch to it (R208, R231). -/
def writeCkpt (h : Nat) (c : Ckpt) (init : Bool) (s : State) : State :=
  let slot := 1 - getF (fSQ_CKPT_SLOT h) s
  let s1 := setPath h { path h s with ckpts := (path h s).ckpts.set slot c } s
  setF (fSQ_CKPT_SLOT h) slot (setF (fSQ_CKPT_COL h) (c.col.toNat % 65536) (setB (fSQ_CKPT_INIT h) init s1))

/-- The release state of a job (R202). -/
def releaseCore (x : Job) (j entry : Nat) (t : Word) (c : Core) : Core :=
  { c with
    pc := entry
    w := (((c.w.set 0 x.start).set 1 (BitVec.ofNat 48 x.cols)).set 2 (BitVec.ofNat 48 x.pitch)).set 3 (BitVec.ofNat 48 j)
    fl := { c.fl with z := false, n := false, c := false, v := false }
    stack := []
    wait := .none
    cyc := 0, cycSeen := 0
    stk := t }

/-- The amplitude in force is taken at a mark boundary (R478). -/
def latchAmp (h : Nat) (s : State) : State := setPort h { portOf h s with amp := getF (fAGE_HP_AMP h) s } s

/-- The mark boundary: an IDLE sequencer takes the earliest queued job (R221). It waits while a page copy keeps its hand-over, or an earlier
one, waiting (R238), and while a give-back runs (R250). -/
def markBoundary (n : Nat) (s : State) : State :=
  match headOf n s with
  | none => s
  | some h =>
    let p := path h s
    match p.queue, job (p.queue.headD 0) s with
    | j :: rest, some x =>
      if engState (.sq n) s ≠ 1 ∨ p.cur.isSome ∨ p.takeover.isSome ∨ p.giving ∨
          (p.copying ∧ (p.hoWait ∨ getB (fSQ_SHADOW_SEAL_SEAL h) s = false)) then s else
      let s1 := handOver h s
      let p1 := path h s1
      let band := match p1.wfNext with
        | some b => b
        | none => getF (fHP_TEMP_BAND h) s1
      let s2 := setPath h { p1 with cur := some j, queue := rest, band := band, wfNext := none, hist := [], spent := [], rdcol := 0,
                                    emitTick := none, emitPos := none, emitDist := none, emitted := 0, stretch := 0, hoHeld := false } s1
      let entry := getF (fSQ_CTL_ENTRY h) s2
      let q := seqOf n s2
      let s3 := setSeq n { q with core := releaseCore x j entry q.core.stk q.core, cr := List.replicate (columnBytes h s2) 0,
                                  crIdx := none, crCol := none, crBad := false, t := x.start, lep := x.start - BitVec.ofNat 48 x.pitch,
                                  ranFrom := now s2 } s2
      let q3 := (seqOf n s3).core
      let c : Ckpt := { col := -1, w := q3.w, a := q3.a, fl := q3.fl, t := x.start, lep := x.start - BitVec.ofNat 48 x.pitch,
                        phase := (path h s3).phase, stack := [], resume := entry,
                        granted := getF (fSQ_CRED_GRANTED h) s3, consumed := getF (fSQ_CRED_CONSUMED h) s3 }
      let s4 := latchAmp h (takeView h j (writeCkpt h c true s3))
      let s5 := setF (fSQ_LB_RDCOL h) 0 (setEngState (.sq n) 2 (modJob j (fun y => { y with sq := n }) s4))
      showPath h s5
    | _, _ => s

def execMarkBoundary (n : Nat) (s : State) : Host.Outcome State Fault Refusal := .next (markBoundary n s)

def execMaskWrite (addr value : Nat) (s : State) : Host.Outcome State Fault Refusal :=
  .next (match (List.range 16).find? fun h => decide (rSQ_MASK h 0 ≤ addr) && decide (addr < rSQ_MASK h 0 + 0x400) with
    | some h => if addr % 8 = 0 then hostAccess (maskWrite h ((addr - rSQ_MASK h 0) / 8) (BitVec.ofNat 32 value)) s else s
    | none => s)

def execMaskPageCopyDone (n : Nat) (s : State) : Host.Outcome State Fault Refusal :=
  .next (if n < 16 then maskCopyDone n s else s)

/-- A write of SQn_SHADOW_SEAL (R237). -/
def execShadowSealWrite (n value : Nat) (s : State) : Host.Outcome State Fault Refusal :=
  .next (if n < 16 then hostAccess (plainWrite (rSQ_SHADOW_SEAL n) value) s else s)

/-! ### Host-inserted events at their position (R86, R235) -/

/-- A HANDOVER event for a path: at once where its sequencer is IDLE, held for the next mark boundary where a job runs. -/
def handoverEvent (h : Nat) (s : State) : State :=
  let n := driver h s
  if engState (.sq n) s = 1 ∧ (path h s).cur.isNone ∧ (path h s).takeover.isNone then handOverOnce h s
  else if (path h s).cur.isSome ∨ (path h s).takeover.isSome then setPath h { path h s with hoHeld := true } s else s

def execHandover (i : Nat) (s : State) : Host.Outcome State Fault Refusal :=
  .next (dispatch i .handover (fun e t =>
    match headOf (e.arg % 64) (petErase i t) with
    | some h => handoverEvent h (petErase i t)
    | none => if e.arg % 64 < 16 then handoverEvent (e.arg % 64) (petErase i t) else petErase i t) s)

/-- Set an event input of an engine (R217). -/
def setEvi (e : Engine) (bit : Nat) (s : State) : State :=
  if e.exists_ then modCore e (fun c => { c with evi := c.evi ||| 2 ^ bit }) s else s

/-- The engine a kind and an index name (R86, R215). -/
def engineOf (kind idx : Nat) : Engine := match kind with
  | 0 => .sq idx
  | 1 => .ce idx
  | _ => .mv idx

def execSignal (i : Nat) (s : State) : Host.Outcome State Fault Refusal :=
  .next (dispatch i .signal (fun e t => setEvi (engineOf (e.arg / 64) (e.arg % 64)) 0 (petErase i t)) s)

/-! ### Watchdog and datapath checks (R247) -/

/-- The run watchdog of a RUNNING sequencer has counted WDOG × 40 ns, eight ticks to each, without a wait. -/
def watchdogDue (n : Nat) (s : State) : Bool :=
  match headOf n s with
  | some h =>
    executing (.sq n) s && decide (8 * clampField ⟨22, 8, .rws, 1, 250, false⟩ (getF (fSQ_CFG_WDOG h) s) ≤ (now s - (seqOf n s).ranFrom).toNat)
  | none => false

def execSeqWatchdog (n : Nat) (s : State) : Host.Outcome State Fault Refusal :=
  .next (if watchdogDue n s then seqFault n 2 0 s else s)

def execDatapathCheck (n : Nat) (s : State) : Host.Outcome State Fault Refusal :=
  .next (if n < 20 ∧ (engState (.sq n) s = 1 ∨ engState (.sq n) s = 2) then seqFault n 3 0 s else s)

/-! ### Takeover, give-back and restore (R248 to R252) -/

/-- The checkpoint in force is restored in a Chamois, which resumes (R208, R233, R248). -/
def restoreCkpt (h c : Nat) (s : State) : State :=
  let p := path h s
  let k := p.ckpts.getD (getF (fSQ_CKPT_SLOT h) s) {}
  let q := seqOf c s
  let core := { q.core with pc := k.resume, w := k.w, a := k.a, fl := k.fl, stack := k.stack, wait := .none, cyc := 0, cycSeen := 0 }
  let s1 := setSeq c { q with t := k.t, lep := k.lep, cr := List.replicate (columnBytes h s) 0, crIdx := none, crCol := none,
                              crBad := false, ranFrom := now s } s
  let s2 := setCore (.sq c) core s1
  let rd := (k.col + 1).toNat
  setF (fSQ_LB_RDCOL h) rd (setPath h { path h s2 with phase := k.phase, rdcol := rd } s2)

/-- A word of a home sequencer's program, data or line buffer that the copy of a takeover reads holds an uncorrectable error (R248, R251). -/
def memoryBad (h : Nat) (s : State) : Bool := s.mem.flaws.any fun f => decide (wordBank f.word = 64 + h) && f.kind.isUe

/-- An uncorrectable error in that copy: the head is lost, and the error is raised after it in the order of the sources (R251, R433, R437; log
entry 202). -/
def copyFailed (h : Nat) (s : State) : State :=
  let words := (s.mem.flaws.filter fun f => decide (wordBank f.word = 64 + h)).map (·.word)
  engineRead (.sq h) words (takeoverLost h (raiseSimple h clsHeadLost true h s))

/-- The rebind of a head completes: the Chamois resumes, or the takeover ends in HEAD_LOST where the copy met an uncorrectable error
(R248, R251). The times measured, in microseconds, are recorded in units of 10 ns (R254). -/
def takeoverResume (h tDetect tRebind : Nat) (ok : Bool) (s : State) : State :=
  match (path h s).takeover with
  | none => s
  | some (c, _) =>
    if ok = false ∨ memoryBad h s then copyFailed h s else
    let s1 := setF (fSQ_TKO_T_DETECT h) (satTo 16 (100 * tDetect)) (setF (fSQ_TKO_T_REBIND h) (satTo 16 (100 * tRebind)) s)
    let s2 := setB (fSQ_BIND_REBINDING h) false (setB (fSQ_BIND_REBINDING c) false s1)
    let s3 := match (path h s2).cur with
      | some j => setEngState (.sq c) 2 (modJob j (fun x => { x with sq := c }) (restoreCkpt h c s2))
      | none => setEngState (.sq c) 1 (restoreCkpt h c s2)
    let s4 := forAll (path h s3).queue (fun j => modJob j fun x => { x with sq := c }) s3
    let was := (path h s4).headWas
    let s5 := pathEmptied h (endTakeover h s4)
    let s6 := if persOf h s5 = 4 then showGate h s5 else s5
    match was with
    | some st => headGoes h st s6
    | none => refreshHead h (setHeadState h 0 s6)

def execTakeoverResume (h tDetect tRebind : Nat) (ok : Bool) (s : State) : Host.Outcome State Fault Refusal :=
  .next (if h < 16 then takeoverResume h tDetect tRebind ok s else s)

/-- GIVEBACK written to a Chamois: it is noted where the home sequencer of its head is IDLE, and ignored otherwise; the give-back begins at
the first moment when the path has no job (R250). -/
def giveback (n : Nat) (s : State) : State :=
  match if 16 ≤ n then headOf n s else none with
  | some h => if engState (.sq h) s = 1 then pathEmptied h (setPath h { path h s with giveback := true } s) else s
  | none => s

def execGiveback (n : Nat) (s : State) : Host.Outcome State Fault Refusal := .next (if n < 20 then hostAccess (giveback n) s else s)

/-- The give-back that has begun ends: the Chamois's memories go back, the head port switches home, and the jobs that waited for it run there
(R250). Where the home sequencer has left IDLE in the meantime there is none (DESIGN CHOICE, log entry 171). -/
def givebackCopy (h : Nat) (s : State) : State :=
  let c := driver h s
  let p := path h s
  if h < 16 ∧ p.giving ∧ 16 ≤ c ∧ c < 20 ∧ engState (.sq c) s = 1 ∧ p.cur.isNone ∧ p.takeover.isNone then
    let s0 := setPath h { p with giveback := false, giving := false } s
    if engState (.sq h) s = 1 then
      let s1 := copyMemories c h s0
      let s2 := setF (fSQ_BIND_PARTNER h) h (setF (fSQ_BIND_PARTNER c) 0x1F (setB (fSQ_BIND_FREE c) true s1))
      refreshHead h (forAll p.queue (fun j => modJob j fun x => { x with sq := h }) s2)
    else s0
  else s

def execGivebackCopy (h : Nat) (s : State) : Host.Outcome State Fault Refusal := .next (givebackCopy h s)

/-- RESTORE: a HEAD_LOST head becomes READY where its home sequencer is IDLE; otherwise the write is ignored (R252). -/
def restoreHead (h : Nat) (s : State) : State :=
  if h < 16 ∧ headState h s = 3 ∧ engState (.sq h) s = 1 then refreshHead h (setHeadState h 0 s) else s

def execRestore (h : Nat) (s : State) : Host.Outcome State Fault Refusal := .next (hostAccess (restoreHead h) s)

/-! ### Engine control (R200, R217, R223) -/

/-- The ENTRY field of an engine's control register. -/
def entryField : Engine → Field
  | .sq n => fSQ_CTL_ENTRY n
  | .ce n => fCE_CTL_ENTRY n
  | .mv n => fMV_CTL_ENTRY n

/-- RUN moves a STOPPED or FAULTED engine to IDLE, or a move channel to RUNNING at ENTRY (R200, R393). A home sequencer's hand-over falls
due (R235), and a STOP pending on it is over; a Chamois with no head becomes free (R251). -/
def engineRun (e : Engine) (s : State) : State :=
  let st := engState e s
  if e.exists_ = false ∨ (st ≠ 0 ∧ st ≠ 3) then s else
  match e with
  | .sq n =>
    let s1 := setEngState e 1 (modCore e (fun c => { c with wait := .none, stopReq := false }) s)
    if n < 16 then
      refreshHead n (handOver n (setB (fSQ_STAT_STOP_PEND n) false s1))
    else if getF (fSQ_BIND_PARTNER n) s1 = 0x1F then setB (fSQ_BIND_FREE n) true s1 else s1
  | .ce n =>
    let s1 := setEngState e 1 (modCore e (fun c => { c with wait := .none, stopReq := false }) s)
    setCtl n { ctlOf n s1 with first := true, events := 0, srcDue := 0, timerAt := now s1 } s1
  | .mv n =>
    let entry := getF (fMV_CTL_ENTRY n) s
    setEngState e 2 (modCore e (fun c => { c with pc := entry, stack := [], wait := .none, stopReq := false, cyc := 0, cycSeen := 0,
                                                  fl := { c.fl with z := false, n := false, c := false, v := false } }) s)

/-- STOP (R200, R223): a home sequencer whose path holds jobs notes it and its head stops being READY; a Chamois driving a head ignores
it; a move channel in a wait stops at the end of its instruction. A cycle of a control engine that it ends has not overrun (R310). -/
def engineStop (e : Engine) (s : State) : State :=
  if e.exists_ = false then s else
  match e with
  | .sq n =>
    match headOf n s with
    | some h =>
      if 16 ≤ n then s
      else if (path h s).cur.isSome ∨ !(path h s).queue.isEmpty then refreshHead h (setB (fSQ_STAT_STOP_PEND n) true s)
      else refreshHead h (setEngState e 0 s)
    | none => setEngState e 0 s
  | .ce n => buCheckAll (setEngState e 0 (if engState e s = 2 then setCtl n { ctlOf n s with overran := false } s else s))
  | .mv _ =>
    if engState e s = 2 ∧ (coreOf e s).wait ≠ .none then modCore e (fun c => { c with stopReq := true }) s
    else setEngState e 0 s

/-- The host's DOORBELL bit sets EVI[1] (R217). -/
def engineDoorbell (e : Engine) (s : State) : State := setEvi e 1 s

def execEngineRun (e : Engine) (entry : Nat) (s : State) : Host.Outcome State Fault Refusal :=
  .next (if e.exists_ then hostAccess (fun t => engineRun e (setF (entryField e) entry t)) s else s)

def execEngineStop (e : Engine) (s : State) : Host.Outcome State Fault Refusal := .next (hostAccess (engineStop e) s)

def execEngineDoorbell (e : Engine) (s : State) : Host.Outcome State Fault Refusal := .next (hostAccess (engineDoorbell e) s)

/-- The program window of an engine: base address and words (R188, R398). -/
def progWindow : Engine → Nat
  | .sq n => rSQ_CTL n + 0x8000
  | .ce n => rCE_CTL n + 0x4000
  | .mv n => rMV_CTL n + 0x2000

/-- The data window of an engine (R188, R398). -/
def dataWindow : Engine → Nat
  | .sq n => rSQ_CTL n + 0x4000
  | .ce n => rCE_CTL n + 0x8000
  | .mv n => rMV_CTL n + 0x1000

/-- The engines whose windows the host sees; a Chamois block has none (R220). -/
def allEngines : List Engine := (List.range 16).map .sq ++ (List.range 8).map .ce ++ (List.range 8).map .mv

/-- The engine and word whose program window holds an address. -/
def progSlot (a : Nat) : Option (Engine × Nat) :=
  (allEngines.find? fun e => decide (progWindow e ≤ a) && decide (a < progWindow e + 8 * progSize e)).map fun e =>
    (e, (a - progWindow e) / 8)

/-- The engine and word whose data window holds an address. -/
def dataSlot (a : Nat) : Option (Engine × Nat) :=
  (allEngines.find? fun e => decide (dataWindow e ≤ a) && decide (a < dataWindow e + 8 * dataSize e)).map fun e =>
    (e, (a - dataWindow e) / 8)

/-- The PROG_REFUSED bit of an engine. -/
def progRefused : Engine → Field
  | .sq n => fSQ_STAT_PROG_REFUSED n
  | .ce n => fCE_STAT_PROG_REFUSED n
  | .mv n => fMV_STAT_PROG_REFUSED n

/-- A host write to a program window takes effect only while the engine is STOPPED (R200). -/
def progWrite (e : Engine) (i : Nat) (v : Nat) (s : State) : State :=
  if engState e s = 0 then writeWord (progWord e i) (progBytes i v) (modCore e (fun c => progPut c i (BitVec.ofNat 32 v)) s)
  else setB (progRefused e) true s

/-- A host write to a data window is applied whole (R200, R320). -/
def dataWrite (e : Engine) (i : Nat) (v : Nat) (s : State) : State :=
  bankWrite (dataWord e i) (modCore e (fun c => dataPut c i (BitVec.ofNat 48 v)) s)

def execProgramWindowWrite (addr value : Nat) (s : State) : Host.Outcome State Fault Refusal :=
  .next (match progSlot addr with
    | some (e, i) => if addr % 8 = 0 then hostAccess (progWrite e i value) s else s
    | none => s)

def execDataWindowWrite (addr value : Nat) (s : State) : Host.Outcome State Fault Refusal :=
  .next (match dataSlot addr with
    | some (e, i) => if addr % 8 = 0 then hostAccess (dataWrite e i value) s else s
    | none => s)

end Sys2Proof.Machine
end

