-- ==== Sys2Proof/Machine/AdegerCommon.lean ====
section
/-! DEFINITION. The meanings of the common Adeger instructions and of the illegal instruction (R192 to R198, R219). An instruction command
names an engine; it acts where that engine is executing and comes to an instruction of its kind, and changes nothing otherwise. -/

namespace Sys2Proof.Machine

/-- Run one instruction of a kind on an engine: `f` answers what an instruction of the kind does, and none for any other. Its word is read. -/
def runInsn (e : Engine) (f : Insn → Option (State → State)) (s : State) : Host.Outcome State Fault Refusal :=
  .next (match (nextInsn e s).bind f with
    | some g => g (fetched e s)
    | none => s)

/-! ### Faulting (R219) -/

/-- The fields that record an engine's illegal instruction. -/
def recordIllegal (e : Engine) (cause : Nat) (s : State) : State :=
  let c := coreOf e s
  let w := (progGet c c.pc).toNat
  match e with
  | .sq n => recordSeqFault n 1 cause s
  | .ce n => setF (fCE_STAT_CAUSE n) cause (setF (fCE_STAT_FAULT_PC n) c.pc (setF (fCE_FINSN_INSN n) w s))
  | .mv n => setF (fMV_STAT_CAUSE n) cause (setF (fMV_STAT_FAULT_PC n) c.pc (setF (fMV_FINSN_INSN n) w s))

/-- A move channel faults (R216, R219): the source MOVE is raised. -/
def moverFault (n : Nat) (s : State) : State :=
  raiseSimple srcMove clsNote false n (setEngState (.mv n) 3 (modCore (.mv n) (fun c => { c with wait := .none }) s))

/-- An illegal instruction changes no state of the program; the engine enters FAULTED with PC, word and cause, and its fault has its
reaction: a sequencer is taken over, a control engine's loop goes to its safe output, a move channel stops (R219). -/
def illegal (e : Engine) (cause : Nat) (s : State) : State :=
  let s1 := recordIllegal e cause s
  match e with
  | .sq n => seqFault n 1 cause s
  | .ce n => buCheckAll (safeCause n 3 (setEngState e 3 (setCtl n { ctlOf n s1 with overran := false } s1)))
  | .mv n => moverFault n s1

/-- The cause of the illegal instruction an executing engine comes to, if it is one; `ue` says that the fetch or the mask page it needs
met an uncorrectable error (R189, R383). -/
def illegalCause (e : Engine) (ue : Bool) (s : State) : Option Nat :=
  if executing e s = false then none
  else if progSize e ≤ (coreOf e s).pc then some causePcRange
  else if ue then some causeMemEcc
  else match fetchInsn e s with
    | .ok _ => none
    | .error k => some k

/-- An instruction that an uncorrectable error makes illegal: the events of the tick come in ascending order of their sources (R219, R383,
R437). -/
def eccIllegal (e : Engine) (words : List Nat) (s : State) : State := match e with
  | .sq _ => engineRead e words (illegal e causeMemEcc s)
  | _ => illegal e causeMemEcc (engineRead e words s)

def execIllegalInstruction (e : Engine) (ue : Bool) (s : State) : Host.Outcome State Fault Refusal :=
  .next (match illegalCause e ue s with
    | some k => if k = causeMemEcc then eccIllegal e [progWord e (coreOf e s).pc] s else illegal e k s
    | none => s)

/-! ### Moves of data -/

/-- A register takes a value without flags, and the program goes on. -/
def loadReg (e : Engine) (i : Nat) (x : Word) (s : State) : State := advance e (putW e i x s)

def execNop (e : Engine) (s : State) : Host.Outcome State Fault Refusal :=
  runInsn e (fun i => match i with
    | .nop => some (advance e)
    | _ => none) s

def execLdi (e : Engine) (s : State) : Host.Outcome State Fault Refusal :=
  runInsn e (fun i => match i with
    | .ldi rd imm => some (loadReg e rd (wrap48 (sext 14 imm)))
    | _ => none) s

def execLdiZ (e : Engine) (s : State) : Host.Outcome State Fault Refusal :=
  runInsn e (fun i => match i with
    | .ldiZ rd imm => some (loadReg e rd (BitVec.ofNat 48 imm))
    | _ => none) s

def execLdiSh (e : Engine) (s : State) : Host.Outcome State Fault Refusal :=
  runInsn e (fun i => match i with
    | .ldiSh rd imm => some fun t => loadReg e rd (getW e rd t <<< 14 + BitVec.ofNat 48 imm) t
    | _ => none) s

/-- The address register moves on after an access: mode 1 up, mode 2 down (R196). -/
def stepA (mode an : Nat) (c : Core) : Core :=
  let a := c.getA an
  match mode with
  | 1 => { c with a := c.a.set an (a + 1) }
  | 2 => { c with a := c.a.set an (a - 1) }
  | _ => c

/-- LD: rd takes a data memory word; a load that meets an uncorrectable error is illegal with cause MEM_ECC (R189, R383). -/
def loadInsn (e : Engine) (ue : Bool) (rd mode an imm : Nat) (s : State) : State :=
  let i := dataAddr (coreOf e s) an imm
  if ue || wordBad (dataWord e i) s then eccIllegal e [dataWord e i] s
  else
    let s1 := readWord (dataWord e i) 0 s
    loadReg e rd (dataGet (coreOf e s1) i) (modCore e (stepA mode an) s1)

def execLd (e : Engine) (ue : Bool) (s : State) : Host.Outcome State Fault Refusal :=
  runInsn e (fun i => match i with
    | .ld rd mode an imm => some (loadInsn e ue rd mode an imm)
    | _ => none) s

/-- ST: a data memory word takes a register. -/
def storeInsn (e : Engine) (rd mode an imm : Nat) (s : State) : State :=
  let s1 := bankWrite (dataWord e (dataAddr (coreOf e s) an imm)) s
  advance e (modCore e (fun c => stepA mode an (dataPut c (dataAddr c an imm) (c.getW rd))) s1)

def execSt (e : Engine) (s : State) : Host.Outcome State Fault Refusal :=
  runInsn e (fun i => match i with
    | .st rd mode an imm => some (storeInsn e rd mode an imm)
    | _ => none) s

/-! ### Arithmetic (R193 to R196) -/

/-- The result of an arithmetic operation in a profile. -/
def aluRes (p : Profile) (op : Alu) (a b : Word) (f : Flags) : Res :=
  let sh := b.toNat % 64
  match op with
  | .add => addOp p a b f
  | .sub => subOp p a b f
  | .and => logicOp (a &&& b) f
  | .or => logicOp (a ||| b) f
  | .xor => logicOp (a ^^^ b) f
  | .shl => shlOp p a sh f
  | .shr => shrOp a sh f
  | .sra => sraOp a sh f

/-- An arithmetic instruction: both operands are read, then the result and the flags are written. -/
def aluInsn (e : Engine) (op : Alu) (rd rs1 : RegRef) (src : Src) (s : State) : State :=
  let x := readReg e rs1 s
  let y := readSrc e src x.2
  advance e (writeRes e rd (aluRes e.profile op x.1 y.1 (coreOf e y.2).fl) y.2)

/-- The arithmetic instruction of one operation. -/
def onAlu (e : Engine) (op : Alu) (i : Insn) : Option (State → State) := match i with
  | .alu o rd rs1 src => if o = op then some (aluInsn e op rd rs1 src) else none
  | _ => none

def execAdd (e : Engine) (s : State) : Host.Outcome State Fault Refusal := runInsn e (onAlu e .add) s
def execSub (e : Engine) (s : State) : Host.Outcome State Fault Refusal := runInsn e (onAlu e .sub) s
def execAnd (e : Engine) (s : State) : Host.Outcome State Fault Refusal := runInsn e (onAlu e .and) s
def execOr (e : Engine) (s : State) : Host.Outcome State Fault Refusal := runInsn e (onAlu e .or) s
def execXor (e : Engine) (s : State) : Host.Outcome State Fault Refusal := runInsn e (onAlu e .xor) s
def execShl (e : Engine) (s : State) : Host.Outcome State Fault Refusal := runInsn e (onAlu e .shl) s
def execShr (e : Engine) (s : State) : Host.Outcome State Fault Refusal := runInsn e (onAlu e .shr) s
def execSra (e : Engine) (s : State) : Host.Outcome State Fault Refusal := runInsn e (onAlu e .sra) s

/-- A compare: only flags change. -/
def cmpInsn (e : Engine) (f : Word → Word → Flags → Flags) (rs1 : RegRef) (src : Src) (s : State) : State :=
  let x := readReg e rs1 s
  let y := readSrc e src x.2
  advance e (modCore e (fun c => { c with fl := f x.1 y.1 c.fl }) y.2)

def execCmp (e : Engine) (s : State) : Host.Outcome State Fault Refusal :=
  runInsn e (fun i => match i with
    | .cmp rs1 src => some (cmpInsn e cmpFlags rs1 src)
    | _ => none) s

def execCmpP (e : Engine) (s : State) : Host.Outcome State Fault Refusal :=
  runInsn e (fun i => match i with
    | .cmpP rs1 rs2 => some (cmpInsn e cmpPosFlags rs1 (.reg rs2))
    | _ => none) s

/-! ### Branches (R192, R197) -/

/-- The target of a branch at `pc`; the program counter has 16 bits. -/
def target (pc : Nat) (off : Int) : Nat := (((pc : Int) + off) % 65536).toNat

/-- Branch where a condition on the flags holds, and go on otherwise. -/
def branchIf (e : Engine) (p : Flags → Bool) (off : Int) (s : State) : State :=
  modCore e (fun c => { c with pc := if p c.fl then target c.pc off else c.pc + 1 }) s

def execBr (e : Engine) (s : State) : Host.Outcome State Fault Refusal :=
  runInsn e (fun i => match i with
    | .br off => some (branchIf e (fun _ => true) off)
    | _ => none) s

def execBz (e : Engine) (s : State) : Host.Outcome State Fault Refusal :=
  runInsn e (fun i => match i with
    | .bz off => some (branchIf e (fun f => f.z) off)
    | _ => none) s

def execBnz (e : Engine) (s : State) : Host.Outcome State Fault Refusal :=
  runInsn e (fun i => match i with
    | .bnz off => some (branchIf e (fun f => !f.z) off)
    | _ => none) s

def execBn (e : Engine) (s : State) : Host.Outcome State Fault Refusal :=
  runInsn e (fun i => match i with
    | .bn off => some (branchIf e (fun f => f.n) off)
    | _ => none) s

/-- CALL pushes the return address. -/
def callInsn (e : Engine) (off : Int) (s : State) : State :=
  modCore e (fun c => { c with stack := (c.pc + 1) :: c.stack, pc := target c.pc off }) s

def execCall (e : Engine) (s : State) : Host.Outcome State Fault Refusal :=
  runInsn e (fun i => match i with
    | .call off => some (callInsn e off)
    | _ => none) s

/-- RET pops it. -/
def retInsn (e : Engine) (s : State) : State := modCore e (fun c => { c with pc := c.stack.headD 0, stack := c.stack.drop 1 }) s

def execRet (e : Engine) (s : State) : Host.Outcome State Fault Refusal :=
  runInsn e (fun i => match i with
    | .ret => some (retInsn e)
    | _ => none) s

/-- LOOP counts Wc down and branches while it is not zero. -/
def loopInsn (e : Engine) (wc : Nat) (off : Int) (s : State) : State :=
  modCore e (fun c =>
    let x := c.getW wc - 1
    let d := c.setW wc x
    { d with pc := if x = 0 then d.pc + 1 else target d.pc off }) s

def execLoop (e : Engine) (s : State) : Host.Outcome State Fault Refusal :=
  runInsn e (fun i => match i with
    | .loop wc off => some (loopInsn e wc off)
    | _ => none) s

/-! ### Events (R198) -/

/-- DEPTH and LOST of an engine's event queue. -/
def evtDepth : Engine → Field
  | .sq n => fSQ_EVT_DEPTH n
  | .ce n => fCE_EVT_DEPTH n
  | .mv n => fMV_EVT_DEPTH n

def evtLost : Engine → Field
  | .sq n => fSQ_EVT_LOST n
  | .ce n => fCE_EVT_LOST n
  | .mv n => fMV_EVT_LOST n

/-- EVT places its code in the engine's queue of four, or counts it lost (R198). -/
def evtInsn (e : Engine) (code : Nat) (s : State) : State :=
  let c := coreOf e s
  if 4 ≤ c.evq.length then advance e (incSat (evtLost e) s)
  else advance e (setF (evtDepth e) (c.evq.length + 1) (setCore e { c with evq := c.evq ++ [(code, now s)] } s))

def execEvt (e : Engine) (s : State) : Host.Outcome State Fault Refusal :=
  runInsn e (fun i => match i with
    | .evt code => some (evtInsn e code)
    | _ => none) s

end Sys2Proof.Machine
end

