-- ==== Sys2Proof/Machine/Memory.lean ====
section
/-! DEFINITION. The image store with its merge buffers, the LPDDR4X memory, and the addresses that moves and the host reach (R25,
R171, R352, R377 to R388, R392 to R397). -/

namespace Sys2Proof.Machine

/-! ### Accesses recorded (R25, R352) -/

/-- An access that R25 or R26 records: the first one's offset and direction, and a count; the vector for it is signalled. -/
def recordBad (write : Bool) (a : Nat) (s : State) : State :=
  let s1 := incSat fHST_BADADDR_COUNT s
  if getB fHST_BADADDR_VALID s1 then s1
  else signalVector 7 (setB fHST_BADADDR_VALID true (setB fHST_BADADDR_WRITE write (setF fHST_BADADDR_ADDR a s1)))

/-! ### The image store (R171, R380 to R383) -/

/-- BAR0 offset of the image store window and its size. -/
def imageBase : Nat := 0x1000000
def imageSize : Nat := 0x2000000

/-- The bytes of a write that fall into a word. -/
def wordPart (a : Nat) (l : List Byte) (w : Nat) : List (Option Byte) :=
  (List.range 8).map fun i => let k := 8 * w + i; if a ≤ k then l[k - a]? else none

/-- Bytes written to the image store. -/
def imgWrite (a : Nat) (l : List Byte) (s : State) : State :=
  if l.isEmpty then s else
  forAll ((List.range ((a + l.length - 1) / 8 + 1 - a / 8)).map (· + a / 8)) (fun w => writeWord w (wordPart a l w)) s

/-- The host may write a byte of the image store: font staging, and the writable buffer of each host image slot (R171). -/
def imgWritable (a : Nat) (s : State) : Bool :=
  if 0x1FA0000 ≤ a ∧ a < 0x1FC0000 then true
  else if 0x1FC0000 ≤ a ∧ a < 0x2000000 then
    let j := (a - 0x1FC0000) / 0x2000
    decide (j % 2 = ((getF fREN_HIMG_WBUF_WBUF s).testBit (j / 2)).toNat) && !(getF fREN_HIMG_STAT_INUSE s).testBit (j / 2)
  else false

/-- A host write into the window: accepted where every byte may be written, otherwise discarded and recorded (R26, R171). -/
def imageWindowWrite (addr size v : Nat) (s : State) : State :=
  let a := addr - imageBase
  if (List.range size).all fun i => imgWritable (a + i) s then imgWrite a (leBytes size v) s else recordBad true addr s

def execImageStoreWrite (addr size value : Nat) (s : State) : Host.Outcome State Fault Refusal :=
  .next (if imageBase ≤ addr ∧ addr + size ≤ imageBase + imageSize ∧ 0 < size ∧ size ≤ 8 then hostAccess (imageWindowWrite addr size value) s else s)

/-- An entry that no write has reached for 64 cycles is drained (R380). -/
def execMergeDrain (word : Nat) (s : State) : Host.Outcome State Fault Refusal :=
  .next (match s.mem.merges.find? fun m => decide (m.word = word) with
    | some m => drain m s
    | none => s)

/-! ### Move addresses (R386, R392) -/

/-- C_u, the usable capacity: 7/8 of the installed size (R386). -/
def usable (s : State) : Nat := match getF fMEM_DDR_STAT_SIZE s with
  | 1 => 7 * 2 ^ 27
  | 2 => 7 * 2 ^ 28
  | 3 => 7 * 2 ^ 29
  | 4 => 7 * 2 ^ 30
  | _ => 0

/-- A byte of the LPDDR4X: what was written under another key, or not at all, reads as noise (R388). -/
def ddrByte (a : Nat) (s : State) : Byte := (spGet (fun _ => none) s.mem.ddr a).getD (Config.ddrNoise s.mem.ddrKey a)

/-- Bytes written to the LPDDR4X. -/
def ddrWrite (a : Nat) (l : List Byte) (s : State) : State :=
  forAll l.zipIdx (fun x t => { t with mem.ddr := spPut (fun _ => none) t.mem.ddr (a + x.2) (some x.1) }) s

/-- Causes of a move's failure (R397). -/
def whyWindow : Nat := 1
def whyAlign : Nat := 2
def whyHost : Nat := 3
def whyEcc : Nat := 4
def whyRange : Nat := 5

/-- Where a move address leads, with the region's offset. -/
inductive Place where
  | image (a : Nat)
  | data (e : Engine) (word byte : Nat)
  | ddr (a : Nat)
  | host (a : Nat)
  | bad (why : Nat)
  deriving DecidableEq, Repr

/-- The place of a move address (R392). -/
def placeOf (n addr : Nat) (s : State) : Place :=
  let off := addr % 2 ^ 46
  match addr / 2 ^ 46 % 4 with
  | 0 =>
    if 2 ^ 26 ≤ off then .bad whyWindow
    else if imageBase ≤ off ∧ off < imageBase + imageSize then .image (off - imageBase)
    else match dataSlot off with
      | some (e, i) => .data e i (off % 8)
      | none => .bad whyWindow
  | 1 =>
    if usable s ≤ off then .bad whyRange
    else if off < 2 ^ 28 ∨ usable s < off + 2 ^ 24 + 1 then .bad whyWindow
    else .ddr off
  | 2 => .host (2 ^ 46 * getF (fMV_CFG_HOST_HI n) s + off)
  | _ => .bad whyWindow

/-- A byte a move reads. -/
def placeByte (p : Place) (s : State) : Byte := match p with
  | .image a => imgByte a s
  | .data e i b => if b < 6 then BitVec.ofNat 8 ((dataGet (coreOf e s) i).toNat / 256 ^ b) else 0
  | .ddr a => ddrByte a s
  | .host a => cellGet s.host.mem a
  | .bad _ => 0

/-- The SRAM word that a place lies in. -/
def placeWord : Place → Option Nat
  | .image a => some (a / 8)
  | .data e i _ => some (dataWord e i)
  | _ => none

/-- Why a byte cannot be read at a place, 0 where it can. -/
def readWhy (p : Place) (s : State) : Nat := match p with
  | .bad why => why
  | p => if (placeWord p).any fun w => wordBad w s then whyEcc else 0

/-- Why a byte cannot be written at a place, 0 where it can (R171, R392). -/
def writeWhy (p : Place) (s : State) : Nat := match p with
  | .bad why => why
  | .image a => if imgWritable a s then 0 else whyWindow
  | _ => 0

/-- Bytes written from a move address on; a data window takes whole 8-byte slots (R394). -/
def placeWrite (n addr : Nat) (l : List Byte) (s : State) : State :=
  match placeOf n addr s with
  | .image a => imgWrite a l s
  | .data e i _ => forAll (List.range (l.length / 8)) (fun k => dataWrite e (i + k) (leNat (slice l (8 * k) 6))) s
  | .ddr a => ddrWrite a l s
  | .host a => { s with host.mem := cellWrite s.host.mem a l }
  | .bad _ => s

end Sys2Proof.Machine
end

