-- ==== Sys2Proof/Machine/ProfileF.lean ====
section
/-! DEFINITION. The meanings of the profile F instructions and of what completes their waits (R201 to R209, R240 to R245). -/

namespace Sys2Proof.Machine

/-! ### Columns as elements (R167) -/

/-- The first `e` elements of `b` bits of a column, least significant bit first in each byte. -/
def unpackElems (b e : Nat) (l : List Byte) : List Nat :=
  (l.flatMap fun x => (List.range (8 / b)).map fun i => x.toNat / 2 ^ (b * i) % 2 ^ b).take e

/-- One byte from its elements. -/
def packByte (b : Nat) (l : List Nat) : Byte := BitVec.ofNat 8 (l.foldr (fun x a => x % 2 ^ b + 2 ^ b * a) 0)

/-- Elements of `b` bits packed into `n` bytes. -/
def packElems (b n : Nat) (l : List Nat) : List Byte :=
  (List.range n).map fun i => packByte b ((l.drop (i * (8 / b))).take (8 / b))

/-- The elements of a column of a head. -/
def columnElems (h : Nat) (col : List Byte) (s : State) : List Nat :=
  if elementBits h s = 0 then [] else unpackElems (elementBits h s) (elements h s) col

/-- A column of a head from its elements. -/
def columnOf (h : Nat) (l : List Nat) (s : State) : List Byte :=
  if elementBits h s = 0 then [] else packElems (elementBits h s) (columnBytes h s) l

/-- The sequencer's run watchdog starts anew (R247). -/
def touchWatchdog (n : Nat) (s : State) : State := setSeq n { seqOf n s with ranFrom := now s } s

/-- The job a sequencer runs, with its head. -/
def runningJob (n : Nat) (s : State) : Option (Nat × Nat) :=
  (headOf n s).bind fun h => (path h s).cur.map fun j => (h, j)

/-- The scheduler's stop keeps WAITP and LDCOL from executing (R206). -/
def stopped (n : Nat) (s : State) : Bool := (headOf n s).any fun h => stopOrdered h s

/-! ### WAITP (R203) -/

/-- P0 has reached the target. -/
def reached (n : Nat) (s : State) : Bool := atOrBeyond (p0 n s) (seqOf n s).t

/-- A sequencer's instruction that waits no longer, or did not wait, is done. -/
def goOn (n : Nat) (s : State) : State := advance (.sq n) (modCore (.sq n) (fun c => { c with wait := .none }) s)

/-- The wait of a sequencer's instruction is over. -/
def finish (n : Nat) (s : State) : State := touchWatchdog n (goOn n s)

/-- WAITP sets the target and waits until P0 is at or beyond it; where it already is, no wait is entered (R247). -/
def waitpInsn (n wb : Nat) (off : Int) (s : State) : State :=
  let t := getW (.sq n) wb s + wrap48 off
  let s1 := setSeq n { seqOf n s with t := t } s
  if reached n s1 then goOn n s1 else touchWatchdog n (modCore (.sq n) (fun c => { c with wait := .waitp }) s1)

def execWaitp (n : Nat) (s : State) : Host.Outcome State Fault Refusal :=
  runInsn (.sq n) (fun i => match i with
    | .waitp wb off => if stopped n s then none else some (waitpInsn n wb off)
    | _ => none) s

def execWaitpReached (n : Nat) (s : State) : Host.Outcome State Fault Refusal :=
  .next (if n < 20 ∧ engState (.sq n) s = 2 ∧ (coreOf (.sq n) s).wait = .waitp ∧ stopped n s = false ∧ reached n s then
    finish n s else s)

/-! ### LDCOL (R204) -/

/-- The column the next LDCOL returns, in the line buffer or among those consumed since the checkpoint. -/
def nextColumn (h j : Nat) (s : State) : Option BufCol :=
  let p := path h s
  (p.buf ++ p.spent).find? fun c => decide (c.job = j) && decide (c.idx = p.rdcol)

/-- The head supply, housekeeping channel VSRC of the last completed round, in mV (R265). -/
def headSupply (h : Nat) (s : State) : Nat := getF (fPWR_HK_VALUE (getF (fHP_ENRG1_VSRC h) s)) s

/-- The head's flag Z after LDCOL. -/
def setZ (n : Nat) (z : Bool) (s : State) : State := modCore (.sq n) (fun c => { c with fl := { c.fl with z := z } }) s

/-- LDCOL moves the next column into CR, or reports data late. A column that an uncorrectable error has damaged is skipped and its job
marked COLUMN_MISSED: CR stands for it, empty, and the next COL emits nothing (R383). -/
def ldcolInsn (n h j : Nat) (ue : Bool) (s : State) : State :=
  let s1 := dropCr n h s
  let q := seqOf n s1
  let blank := List.replicate (columnBytes h s1) (0 : Byte)
  match nextColumn h j s1 with
  | some c =>
    let p := path h s1
    let words := columnWords h ((((job j s1).bind (·.half)).getD 0)) (c.idx % max 1 (halfSlots h s1)) c.data.length
    let s2 := setF (fSQ_LB_RDCOL h) (p.rdcol + 1) (setPath h { p with rdcol := p.rdcol + 1 } s1)
    if ue || words.any fun w => wordBad w s then
      let s3 := incSat (fSQ_COLCNT_SKIPPED h) (consume h j c.idx (flagJob j flagColumnMissed s2))
      advance (.sq n) (setZ n false (engineRead (.sq h) words (setSeq n { seqOf n s3 with cr := blank, crIdx := none, crCol := some c.idx, crBad := true } s3)))
    else
      advance (.sq n) (setZ n false (setSeq n { q with
        cr := c.data, crIdx := some c.idx, crCol := some c.idx, crBad := false,
        tHead := getF (fHP_TEMP_T_HEAD h) s2, vHead := headSupply h s2 } (readWords words 0 s2)))
  | none =>
    let s2 := setZ n true (setSeq n { q with cr := blank, crIdx := none, crCol := none, crBad := false } s1)
    let p := path h s2
    advance (.sq n) (if p.lateSent then s2 else dataLate h j (setPath h { p with lateSent := true } s2))

def execLdcol (n : Nat) (ue : Bool) (s : State) : Host.Outcome State Fault Refusal :=
  runInsn (.sq n) (fun i => match i with
    | .ldcol => match runningJob n s with
      | some (h, j) => if stopped n s then none else some (ldcolInsn n h j ue)
      | none => none
    | _ => none) s

/-! ### MASK (R203, R243, R244, R282) -/

/-- Bit `e` of a row of the active mask page. -/
def maskBit (h bank row e : Nat) (s : State) : Bool :=
  (spGet (fun _ => (0xFFFFFFFF : BitVec 32)) (path h s).maskA ((bank * 16 + row) * 128 + e / 32)).getLsbD (e % 32)

/-- The view that the running job of a path uses: it changes only at mark boundaries of the path (R283). -/
def viewOf (h : Nat) (s : State) : View := (portOf h s).view

/-- The row as the nozzle remap has adjusted it: hidden elements cleared, covered ones set (R282). -/
def adjustedBit (h bank row e : Nat) (v : View) (s : State) : Bool :=
  (setIn v h).contains e || (maskBit h bank row e s && !(clearedIn v h).contains e)

/-- MASK clears the elements of CR whose bit is zero; a job with FULL takes the full-coverage bank. -/
def maskInsn (n h j row : Nat) (s : State) : State :=
  let full := (job j s).any fun x => x.full
  let bank := if full then 1 else 0
  let v := viewOf h s
  let q := seqOf n s
  let els := (columnElems h q.cr s).zipIdx.map fun x => if adjustedBit h bank row x.2 v s then x.1 else 0
  advance (.sq n) (setSeq n { q with cr := columnOf h els s } s)

def execMask (n : Nat) (s : State) : Host.Outcome State Fault Refusal :=
  runInsn (.sq n) (fun i => match runningJob n s, i with
    | some (h, j), .mask row => some (maskInsn n h j row)
    | some (h, j), .maskW wr => some fun t => maskInsn n h j ((getW (.sq n) wr t).toNat % 16) t
    | _, _ => none) s

/-! ### ENRG (R241, R265, R289) -/

/-- Entry `i` of the temperature table, in 0.001. -/
def kEntry (h i : Nat) (s : State) : Nat := wordGet (s.reg (rHP_KTAB h (i / 3))) (16 * (i % 3)) 16

/-- k at a temperature in 1/16 °C, times 16 × KTSTEP: interpolated linearly and held at its end values. -/
def kScaled (h : Nat) (t : Int) (s : State) : Int :=
  let span : Int := 16 * (max 1 (getF (fHP_ENRG1_KTSTEP h) s) : Nat)
  let d := t - 16 * getI (fHP_ENRG1_KT0 h) s
  if d ≤ 0 then kEntry h 0 s * span
  else
    let i := (d / span).toNat
    if 7 ≤ i then kEntry h 7 s * span
    else
      let a : Int := kEntry h i s
      let b : Int := kEntry h (i + 1) s
      a * span + (b - a) * (d % span)

/-- The history column: the most recently emitted column of the job other than the one in CR. -/
def historyColumn (n h : Nat) (s : State) : List Byte :=
  (((path h s).hist.find? fun x => decide (x.1 ≠ (seqOf n s).crCol)).map (·.2)).getD []

/-- The groups of a head, and the one an element belongs to (R241). -/
def groups (h : Nat) (s : State) : Nat := max 1 (min 8 (getF (fHP_GROUP_G h) s))

def groupOf (h e : Nat) (s : State) : Nat := e * groups h s / elements h s

/-- The width of a strobe of a group for the column in CR: exact, rounded down once, then clamped. A head temperature or supply that no
measurement gives leaves the unclamped width open. -/
def strobeWidth (n h g : Nat) (s : State) : Nat × State :=
  let q := seqOf n s
  let on := (columnElems h q.cr s).zipIdx.filter fun x => decide (x.1 ≠ 0) && decide (groupOf h x.2 s = g)
  let old := columnElems h (historyColumn n h s) s
  let nOn := on.length
  let nHist := (on.filter fun x => decide (old.getD x.2 0 ≠ 0)).length
  if nOn = 0 ∨ persOf h s ≠ 3 then (0, s)
  else
    let wMax := getF (fHP_GROUP_W_MAX h) s
    let clampW (x : Nat) : Nat := min (max x (getF (fHP_ENRG1_W_MIN h) s)) wMax
    if q.tHead = 0x8000 ∨ q.vHead = 0 then
      let d := drawFree s
      (clampW d.1, d.2)
    else
      let span := 16 * max 1 (getF (fHP_ENRG1_KTSTEP h) s)
      let k := (kScaled h (signedOf 16 q.tHead) s).toNat
      let vr := getF (fHP_ENRG0_V_REF h) s
      let hist := min 128 (getF (fHP_ENRG0_HIST h) s)
      let num := getF (fHP_ENRG0_T_BASE h) s * k * (vr * vr) * (256 * nOn - hist * nHist)
      let den := 1000 * span * (q.vHead * q.vHead) * (256 * nOn)
      (clampW (num / den), s)

/-- ENRG: rd takes the width and Z follows it. -/
def enrgInsn (n h rd wg : Nat) (s : State) : State :=
  let r := strobeWidth n h ((getW (.sq n) wg s).toNat % 8) s
  let x : Word := BitVec.ofNat 48 r.1
  advance (.sq n) (putW (.sq n) rd x (setZ n (x == 0) r.2))

def execEnrg (n : Nat) (s : State) : Host.Outcome State Fault Refusal :=
  runInsn (.sq n) (fun i => match runningJob n s, i with
    | some (h, _), .enrg rd wg => some (enrgInsn n h rd wg)
    | _, _ => none) s

/-! ### GRP (R203, R239) -/

/-- The group phase of a path set, modulo the head's group count (R203, R239). -/
def setPhase (n h : Nat) (x : Int) (s : State) : State :=
  advance (.sq n) (setPath h { path h s with phase := (x % (groups h s : Int)).toNat } s)

def execGrpAdv (n : Nat) (s : State) : Host.Outcome State Fault Refusal :=
  runInsn (.sq n) (fun i => match runningJob n s, i with
    | some (h, _), .grpAdv => some fun t => setPhase n h (((path h t).phase + 1 : Nat) : Int) t
    | _, _ => none) s

def execGrpSet (n : Nat) (s : State) : Host.Outcome State Fault Refusal :=
  runInsn (.sq n) (fun i => match runningJob n s, i with
    | some (h, _), .grpSet rs => some fun t => setPhase n h (getW (.sq n) rs t).toInt t
    | _, _ => none) s

def execGrpGet (n : Nat) (s : State) : Host.Outcome State Fault Refusal :=
  runInsn (.sq n) (fun i => match runningJob n s, i with
    | some (h, _), .grpGet rd => some fun t => loadReg (.sq n) rd (BitVec.ofNat 48 (path h t).phase) t
    | _, _ => none) s

/-! ### STRB (R207, R265) -/

/-- The port has strobe lines that STRB drives now (R207). -/
def strobes (h : Nat) (s : State) : Bool :=
  let p := persOf h s
  (p == 2 || p == 3 || p == 5) && !getB (fHP_STAT_SAFE h) s

/-- The largest trim among the marked elements of a group in the column last handed over (R265). An element that ALIGN_Y drops has no physical
element and no trim (R274). -/
def groupTrim (h g : Nat) (s : State) : Nat :=
  let v := viewOf h s
  ((columnElems h (((path h s).hist.head?.map (·.2)).getD []) s).zipIdx.filter fun x =>
    decide (x.1 ≠ 0) && decide (groupOf h x.2 s = g) && decide (yInt h s ≤ (x.2 : Int)) &&
    decide ((x.2 : Int) - yInt h s < elements h s)).foldl
      (fun a x => max a (trimIn v h ((x.2 : Int) - yInt h s).toNat)) 0

/-- The width the port drives: clamped to W_MAX, and on THERMAL_INKJET lengthened by the group's trim. -/
def drivenWidth (h g w : Nat) (s : State) : Nat :=
  let wMax := getF (fHP_GROUP_W_MAX h) s
  let x := min w wMax
  if persOf h s = 2 then min (x + getF (fHP_WF_TRIM_STEP h) s * groupTrim h g s) wMax else x

/-- AGE_FIREg show the counts of the port that AGE_SEL selects (R479). -/
def showFires (s : State) : State :=
  let h := getF fAGE_SEL_PORT s
  forAll (List.range 8) (fun g t => t.setReg (rAGE_FIRE g) ((portOf h t).fires.getD g 0)) s

/-- A strobe or firing of a group is counted (R479). -/
def countFire (h g : Nat) (s : State) : State :=
  showFires (modPort h (fun p => { p with fires := p.fires.set g (p.fires.getD g 0 + 1) }) s)

/-- A strobe of a group starts, with the width the port drives. -/
def driveStrobe (h g w : Nat) (s : State) : State :=
  send (.strobe h g w) (countFire h g (modPort h (fun p => { p with active := p.active ++ [g] }) s))

/-- A strobe of a group starts. -/
def startStrobe (h g w : Nat) (s : State) : State := driveStrobe h g (drivenWidth h g w s) s

/-- The group may start: it has finished any earlier strobe and fewer than G_SIM groups are active (R207). -/
def mayStrobe (h g : Nat) (s : State) : Bool :=
  let a := (portOf h s).active
  !a.contains g && decide (a.length < min (max 1 (getF (fHP_GROUP_G_SIM h) s)) (groups h s))

/-- Start the groups of a list, in order, as far as they may start now; answer those left. -/
def startGroups (h w : Nat) : List Nat → State → List Nat × State
  | [], s => ([], s)
  | g :: t, s => if mayStrobe h g s then startGroups h w t (startStrobe h g w s) else (g :: t, s)

/-- The groups of a mask in rotation order from the phase; mask bits at or above G name no group. -/
def groupOrder (h mask : Nat) (s : State) : List Nat :=
  let g := groups h s
  ((List.range g).map fun i => ((path h s).phase + i) % g).filter fun k => mask.testBit k

/-- STRB goes on with the groups left, and returns once every group has started. On a port that has entered its safe state it drives no line
and returns (R207, R267); the watchdog starts anew only where STRB has waited (R247). -/
def strobeOn (n h : Nat) (left : List Nat) (w : Nat) (s : State) : State :=
  let r := if strobes h s then startGroups h w left s else ([], s)
  let waited := (coreOf (.sq n) s).wait != .none
  if r.1.isEmpty then doIf waited (touchWatchdog n) (goOn n r.2)
  else touchWatchdog n (modCore (.sq n) (fun c => { c with wait := .strb r.1 w }) r.2)

def strbInsn (n h wm ww : Nat) (s : State) : State :=
  let w := (getW (.sq n) ww s).toInt
  if w ≤ 0 then goOn n s
  else strobeOn n h (groupOrder h ((getW (.sq n) wm s).toNat % 256) s) w.toNat s

def execStrb (n : Nat) (s : State) : Host.Outcome State Fault Refusal :=
  runInsn (.sq n) (fun i => match runningJob n s, i with
    | some (h, _), .strb wm ww => some (strbInsn n h wm ww)
    | _, _ => none) s

def execStrbGroupStart (n : Nat) (s : State) : Host.Outcome State Fault Refusal :=
  .next (match runningJob n s, (coreOf (.sq n) s).wait with
    | some (h, _), .strb left w => if engState (.sq n) s = 2 then strobeOn n h left w s else s
    | _, _ => s)

/-- A group's strobe ends (R207). -/
def execStrobeEnd (h g : Nat) (s : State) : Host.Outcome State Fault Refusal :=
  .next (modPort h (fun p => { p with active := p.active.filter fun k => decide (k ≠ g) }) s)

/-! ### WFSEL (R203, R242, R289) -/

def execWfselGet (n : Nat) (s : State) : Host.Outcome State Fault Refusal :=
  runInsn (.sq n) (fun i => match runningJob n s, i with
    | some (h, _), .wfselGet rd => some fun t =>
        loadReg (.sq n) rd (if persOf h t = 4 then 0 else BitVec.ofNat 48 (getF (fHP_TEMP_BAND h) t)) t
    | _, _ => none) s

def execWfselSet (n : Nat) (s : State) : Host.Outcome State Fault Refusal :=
  runInsn (.sq n) (fun i => match runningJob n s, i with
    | some (h, _), .wfselSet rs => some fun t => advance (.sq n)
        (if persOf h t = 4 then t else setPath h { path h t with wfNext := some ((getW (.sq n) rs t).toNat % 8) } t)
    | _, _ => none) s

/-! ### COL (R205, R245, R257 to R259, R264, R274, R288 to R291) -/

/-- P0 lies beyond T + CWIN: the column is too late. -/
def tooLate (n h : Nat) (s : State) : Bool :=
  decide (0 < posDiff (p0 n s) ((seqOf n s).t + BitVec.ofNat 48 (getF (fSQ_CFG_CWIN h) s)))

/-- The column in CR is skipped without a wait: N and O set, counted consumed, the job marked COLUMN_MISSED. -/
def skipColumn (n h j : Nat) (s : State) : State :=
  let q := seqOf n s
  let s1 := match q.crIdx with
    | some i => incSat (fSQ_COLCNT_SKIPPED h) (consume h j i s)
    | none => s
  let s2 := setSeq n { seqOf n s1 with crIdx := none, crBad := false } s1
  let s3 := noteOverrun (.sq n) (modCore (.sq n) (fun c => { c with fl := { c.fl with n := true, o := true } }) s2)
  earlyLate h j (goOn n (firstColumn j (flagJob j flagColumnMissed s3)))

def colInsn (n h j : Nat) (s : State) : State :=
  if (seqOf n s).crBad ∨ tooLate n h s then skipColumn n h j s
  else touchWatchdog n (modCore (.sq n) (fun c => { c with fl := { c.fl with n := false }, wait := .col }) s)

def execCol (n : Nat) (s : State) : Host.Outcome State Fault Refusal :=
  runInsn (.sq n) (fun i => match runningJob n s, i with
    | some (h, j), .col => some (colInsn n h j)
    | _, _ => none) s

/-- At least ⌈200,000,000 / F_LIM⌉ ticks have passed since the previous emission of the job. -/
def paced (h : Nat) (s : State) : Bool :=
  let f := getF (fSCH_HEAD_STAT_F_LIM h) s
  match (path h s).emitTick with
  | none => true
  | some t => decide (f ≠ 0) && decide (ceilDiv ticksPerSecond f ≤ (now s - t).toNat)

/-- The head port accepts a column: at once in its safe state; a laser port with PENDING empty, or while not LOCKED or gated; the others
when the previous frame has sent its last symbol, and thermal ports when no strobe is active (R240, R259, R267, R290, R299). -/
def portAccepts (h : Nat) (s : State) : Bool :=
  let p := portOf h s
  let pers := persOf h s
  if getB (fHP_STAT_SAFE h) s then true
  else if pers = 4 then decide (getB (fHP_LSR_STAT_GATE h) s = true) || p.laser.pend.isNone
  else
    (match p.lastFrame with
      | none => true
      | some (t, ns) => decide (ns ≤ 5 * (now s - t).toNat)) &&
    (!(pers == 2 || pers == 3) || p.active.isEmpty)

/-- The element sent at physical element `p` of a column: the image element p + Y_int, with its trim on a PIEZO port (R264, R274). -/
def physicalElems (h : Nat) (els : List Nat) (v : View) (s : State) : List Nat :=
  (List.range (elements h s)).map fun (p : Nat) =>
    let i : Int := (p : Int) + yInt h s
    let x := if 0 ≤ i ∧ i < elements h s then els.getD i.toNat 0 else 0
    if persOf h s = 1 ∧ x ≠ 0 then min (x + trimIn v h p) 3 else x

/-- CRC-16 with polynomial 0x1021 (R258). -/
def crc16Bit (c : Nat) : Nat := if 0x8000 ≤ c then ((c * 2) ^^^ 0x1021) % 65536 else c * 2

def crc16Byte (c : Nat) (b : Byte) : Nat :=
  let x := c ^^^ (b.toNat * 256)
  crc16Bit (crc16Bit (crc16Bit (crc16Bit (crc16Bit (crc16Bit (crc16Bit (crc16Bit x)))))))

def crc16 (l : List Byte) : Nat := l.foldl crc16Byte 0xFFFF

/-- The body of a frame: header, payload, CRC low byte first, zeros up to a multiple of the lanes (R258). -/
def frameBody (type seq lanes : Nat) (payload : List Byte) : List Byte :=
  let l := leBytes 1 type ++ leBytes 1 seq ++ leBytes 2 payload.length ++ payload
  let l1 := l ++ leBytes 2 (crc16 l)
  padTo (ceilDiv l1.length lanes * lanes) l1

/-- A frame as its lanes send it: byte k of the body on lane k mod NL, between K27.7 and K29.7 on every lane (R258). -/
def frameLanes (lanes : Nat) (body : List Byte) : List (List Symbol) :=
  (List.range lanes).map fun j =>
    symStart :: ((List.range (body.length / lanes)).map fun i => symData (body.getD (i * lanes + j) 0)) ++ [symEnd]

/-- A frame leaves the port (R258, R259). The running disparity that each lane has reached by then follows from the number of K28.5 sent since, which
the spec does not give: a free value (R257; log entry 178). -/
def sendFrame (h : Nat) (test : Bool) (payload : List Byte) (s : State) : State :=
  let p := portOf h s
  let s1 := setPort h { p with seq := (p.seq + 1) % 256, frames := p.frames ++ [{ tick := now s, test }],
                               lastFrame := some (now s, frameNs h s) } s
  let d := drawFree s1
  let lanes := frameLanes (laneCount h s) (frameBody (if test then 2 else 1) p.seq (laneCount h s) payload)
  send (.column h (lanes.zipIdx.map fun x => codeGroups (d.1.testBit x.2) x.1)) d.2

/-- A scan line with the settings in force at its acceptance (R288, R290). -/
def scanLine (h : Nat) (j : Option Nat) (pixels : List Nat) (s : State) : ScanLine :=
  { job := j, pixels := pixels.map (BitVec.ofNat 8), startDly := getF (fHP_LSR_CFG_START_DLY h) s,
    pscale := getF (fHP_LSR_CFG_PSCALE h) s, facets := (List.range 24).map fun f => s.reg (rHP_FACET h f) }

/-- The head port takes a column of the running job (R257 to R259, R264 to R267, R274, R288 to R299). -/
def portTake (h j : Nat) (cr : List Byte) (s : State) : State :=
  let els := physicalElems h (columnElems h cr s) (viewOf h s) s
  if persOf h s = 4 then
    let l := scanLine h (some j) els s
    if getB (fHP_STAT_SAFE h) s ∨ getB (fHP_LSR_STAT_GATE h) s then dropLine h (some l) s
    else modPort h (fun p => { p with laser := { p.laser with pend := some l } }) s
  else if getB (fHP_STAT_SAFE h) s then s
  else sendFrame h false (columnOf h els s) s

/-- The elongation ratio 256 × distance / W2 of the last two emissions, rounded down; 256 before the second emission. A pitch W2 of zero
leaves it open (R209). -/
def elongation (n h : Nat) (s : State) : Int × State :=
  match (path h s).emitDist with
  | none => (256, s)
  | some d =>
    let w2 := (getW (.sq n) 2 s).toInt
    if w2 = 0 then
      let f := drawFree s
      ((f.1 : Int), f.2)
    else ((256 * d).fdiv w2, s)

/-- The stretch state of a ratio (R245). -/
def stretchState (r : Int) (tol lim : Nat) : Nat :=
  if (256 + lim : Nat) < r then 3 else if (256 + tol : Nat) < r then 2 else if 256 < r then 1 else 0

/-- From the second emission on the ratio is formed and classified: states 2 and 3 set STRETCH_OVER, and STRETCH_MAX keeps the largest
ratio (R245). -/
def classify (n h j : Nat) (s : State) : State :=
  if (path h s).emitDist.isNone then s else
  let r := elongation n h s
  match job j r.2 with
  | none => r.2
  | some x =>
    let st := stretchState r.1 (getF (fSCH_BIND_MK_PITCH_TOL x.slot x.mark) s) (getF (fSCH_HEAD_CFG_S h) s)
    let s1 := setPath h { path h r.2 with stretch := max (path h r.2).stretch st } r.2
    modJob j (fun y => { y with flags := if 2 ≤ st then y.flags ||| flagStretchOver else y.flags,
                                stretchMax := max y.stretchMax (satTo 16 r.1.toNat) }) s1

/-- The waiting COL hands CR to the head port: LEP, pacing, history, consumption, reports (R205). -/
def emitColumn (n h j : Nat) (s : State) : State :=
  let q := seqOf n s
  let pos := p0 n s
  let s1 := portTake h j q.cr s
  let p := path h s1
  let fresh := match q.crIdx with
    | some i => p.buf.any fun c => decide (c.job = j) && decide (c.idx = i)
    | none => false
  let s2 := setPath h { p with emitTick := some (now s1), emitPos := some pos, emitDist := p.emitPos.map fun o => posDiff pos o,
                               emitted := p.emitted + (if fresh then 1 else 0), 
                               hist := (q.crCol, q.cr) :: (p.hist.filter fun x => decide (x.1 ≠ q.crCol)).take 1 } s1
  let s3 := setSeq n { seqOf n s2 with lep := pos, crIdx := none } s2
  let s4 := match q.crIdx with
    | some i => consume h j i s3
    | none => s3
  let s5 := addMod (fSQ_COLCNT_EMITTED h) 1 (modJob j (fun x => { x with colsDone := x.colsDone + (if fresh then 1 else 0) }) s4)
  let s6 := classify n h j (firstEmission j (firstColumn j s5))
  earlyLate h j (finish n s6)

def execColEmit (n : Nat) (s : State) : Host.Outcome State Fault Refusal :=
  .next (match runningJob n s with
    | some (h, j) =>
      if engState (.sq n) s = 2 ∧ (coreOf (.sq n) s).wait = .col ∧ paced h s ∧ portAccepts h s then emitColumn n h j s else s
    | none => s)

/-! ### CKPT (R208, R231) -/

/-- CKPT writes the slot not in force and switches to it; a write that fails its check leaves the previous slot in force and faults the
sequencer with FSRC 4 (R208, R231, R247). -/
def ckptInsn (n h wc : Nat) (bad : Bool) (s : State) : State :=
  if bad then seqFault n 4 0 s else
  let q := seqOf n s
  let c : Ckpt := { col := q.core.getW wc, w := q.core.w, a := q.core.a, fl := q.core.fl, t := q.t, lep := q.lep,
                    phase := (path h s).phase, stack := q.core.stack, resume := q.core.pc + 1,
                    granted := getF (fSQ_CRED_GRANTED h) s, consumed := getF (fSQ_CRED_CONSUMED h) s }
  let s1 := writeCkpt h c false s
  let p := path h s1
  advance (.sq n) (setPath h { p with spent := p.spent.filter fun x => decide (c.col.toInt < x.idx) } s1)

def execCkpt (n : Nat) (bad : Bool) (s : State) : Host.Outcome State Fault Refusal :=
  runInsn (.sq n) (fun i => match runningJob n s, i with
    | some (h, _), .ckpt wc => some (ckptInsn n h wc bad)
    | _, _ => none) s

/-! ### STRETCH (R209) -/

/-- rd takes a value, and Z is set when it is zero. -/
def stretchPut (n rd : Nat) (x : Word) (s : State) : State := loadReg (.sq n) rd x (setZ n (x == 0) s)

/-- The STRETCH instruction of one function. -/
def onStretch (n fn : Nat) (f : Nat → Nat → Nat → State → State) (s : State) (i : Insn) : Option (State → State) :=
  match runningJob n s, i with
  | some (h, _), .stretch k rd rs => if k = fn then some (f h rd rs) else none
  | _, _ => none

def execStretchLep (n : Nat) (s : State) : Host.Outcome State Fault Refusal :=
  runInsn (.sq n) (onStretch n 0 (fun _ rd _ t => stretchPut n rd (seqOf n t).lep t) s) s

def execStretchNext (n : Nat) (s : State) : Host.Outcome State Fault Refusal :=
  runInsn (.sq n) (onStretch n 1 (fun _ rd rs t =>
    stretchPut n rd (posMax (getW (.sq n) rd t) ((seqOf n t).lep + getW (.sq n) rs t)) t) s) s

def execStretchRatio (n : Nat) (s : State) : Host.Outcome State Fault Refusal :=
  runInsn (.sq n) (onStretch n 2 (fun h rd _ t =>
    let r := elongation n h t
    stretchPut n rd (wrap48 r.1) r.2) s) s

def execStretchState (n : Nat) (s : State) : Host.Outcome State Fault Refusal :=
  runInsn (.sq n) (onStretch n 3 (fun h rd _ t => stretchPut n rd (BitVec.ofNat 48 (path h t).stretch) t) s) s

end Sys2Proof.Machine
end

