-- ==== Sys2Proof/Machine/ProfileL.lean ====
section
/-! DEFINITION. The meanings of the profile L instructions (R212 to R214). -/

namespace Sys2Proof.Machine

/-- The two register operands are read in order. -/
def read2 (e : Engine) (a b : RegRef) (s : State) : Word × Word × State :=
  let x := readReg e a s
  let y := readReg e b x.2
  (x.1, y.1, y.2)

/-- The flags an engine stands at. -/
def flagsOf (e : Engine) (s : State) : Flags := (coreOf e s).fl

/-! ### Multiplication (R212) -/

/-- MUL: the product, rounded where RND asks for it, shifted right and saturated; C is cleared. -/
def mulInsn (e : Engine) (sh : Nat) (rnd : Bool) (rd a b : RegRef) (s : State) : State :=
  let r := read2 e a b s
  let p := r.1.toInt * r.2.1.toInt + (if rnd ∧ 0 < sh then ((2 ^ (sh - 1) : Nat) : Int) else 0)
  advance e (writeRes e rd (saturate (p / ((2 ^ sh : Nat) : Int)) false (flagsOf e r.2.2)) r.2.2)

def execMul (n : Nat) (s : State) : Host.Outcome State Fault Refusal :=
  runInsn (.ce n) (fun i => match i with
    | .mul sh rnd rd a b => some (mulInsn (.ce n) sh rnd rd a b)
    | _ => none) s

/-- ACC takes a value held to 96 bits; Z and N come from ACC, and a clamp sets V and S. -/
def setAcc (n : Nat) (exact : Int) (s : State) : State :=
  let x := sat96 exact
  let v := decide (x ≠ exact)
  let acc : BitVec 96 := BitVec.ofInt 96 x
  let s1 := doIf v (noteSaturation (.ce n)) (modCtl n (fun c => { c with acc := acc }) s)
  modCore (.ce n) (fun c => { c with fl := { c.fl with z := acc == 0, n := acc.msb, v := v, s := c.fl.s || v } }) s1

/-- MAC of one operation on ACC: the value it gives from ACC and the product. -/
def macInsn (n : Nat) (f : Int → Int → Int) (a b : RegRef) (s : State) : State :=
  let r := read2 (.ce n) a b s
  advance (.ce n) (setAcc n (f (ctlOf n r.2.2).acc.toInt (r.1.toInt * r.2.1.toInt)) r.2.2)

def execMacAcc (n : Nat) (s : State) : Host.Outcome State Fault Refusal :=
  runInsn (.ce n) (fun i => match i with
    | .macAcc a b => some (macInsn n (fun acc p => acc + p) a b)
    | _ => none) s

def execMacSet (n : Nat) (s : State) : Host.Outcome State Fault Refusal :=
  runInsn (.ce n) (fun i => match i with
    | .macSet a b => some (macInsn n (fun _ p => p) a b)
    | _ => none) s

def execMacSub (n : Nat) (s : State) : Host.Outcome State Fault Refusal :=
  runInsn (.ce n) (fun i => match i with
    | .macSub a b => some (macInsn n (fun acc p => acc - p) a b)
    | _ => none) s

/-- MAC op 3 reads ACC shifted right and saturated; C is unchanged. -/
def macReadInsn (n sh : Nat) (rd : RegRef) (s : State) : State :=
  let f := flagsOf (.ce n) s
  advance (.ce n) (writeRes (.ce n) rd (saturate ((ctlOf n s).acc.toInt / ((2 ^ sh : Nat) : Int)) f.c f) s)

def execMacRead (n : Nat) (s : State) : Host.Outcome State Fault Refusal :=
  runInsn (.ce n) (fun i => match i with
    | .macRead sh rd => some (macReadInsn n sh rd)
    | _ => none) s

/-! ### Limits and selections (R212) -/

/-- LIM: rd is held between rs1 and rs2; V says that it changed. -/
def limInsn (e : Engine) (rd a b : RegRef) (s : State) : State :=
  let r := read2 e a b s
  let o := readReg e rd r.2.2
  let x := wrap48 (min (max o.1.toInt r.1.toInt) r.2.1.toInt)
  let f := flagsOf e o.2
  advance e (writeRes e rd ⟨x, Flags.zn x { f with v := x != o.1 }⟩ o.2)

def execLim (n : Nat) (s : State) : Host.Outcome State Fault Refusal :=
  runInsn (.ce n) (fun i => match i with
    | .lim rd a b => some (limInsn (.ce n) rd a b)
    | _ => none) s

/-- MINS: the lesser of two; C says that rs2 was the lesser. -/
def minsInsn (e : Engine) (rd a b : RegRef) (s : State) : State :=
  let r := read2 e a b s
  let second := decide (r.2.1.toInt < r.1.toInt)
  let x := if second then r.2.1 else r.1
  advance e (writeRes e rd ⟨x, Flags.zn x { flagsOf e r.2.2 with c := second, v := false }⟩ r.2.2)

def execMins (n : Nat) (s : State) : Host.Outcome State Fault Refusal :=
  runInsn (.ce n) (fun i => match i with
    | .mins rd a b => some (minsInsn (.ce n) rd a b)
    | _ => none) s

/-- PRE presets a register to rs1 − rs2; with COND only where C is set. C is unchanged. -/
def preInsn (e : Engine) (cond : Bool) (rd a b : RegRef) (s : State) : State :=
  if cond ∧ (flagsOf e s).c = false then advance e s
  else
    let r := read2 e a b s
    let f := flagsOf e r.2.2
    advance e (writeRes e rd (saturate (r.1.toInt - r.2.1.toInt) f.c f) r.2.2)

def execPre (n : Nat) (s : State) : Host.Outcome State Fault Refusal :=
  runInsn (.ce n) (fun i => match i with
    | .pre cond rd a b => some (preInsn (.ce n) cond rd a b)
    | _ => none) s

/-- DIFF: t = rs1 − rs2, saturated; rs2 takes rs1, then rd takes t. -/
def diffInsn (e : Engine) (rd a : RegRef) (w2 : Nat) (s : State) : State :=
  let r := read2 e a (wReg w2) s
  advance e (writeRes e rd (subOp .l r.1 r.2.1 (flagsOf e r.2.2)) (putW e w2 r.1 r.2.2))

def execDiff (n : Nat) (s : State) : Host.Outcome State Fault Refusal :=
  runInsn (.ce n) (fun i => match i with
    | .diff rd a w2 => some (diffInsn (.ce n) rd a w2)
    | _ => none) s

/-! ### Tables (R213) -/

/-- Where an interpolation at `x` falls in a table: the entry at or below it, and the part of the step to the next in 2^-SH. -/
def tablePlace (t : Table) (x : Word) : Nat × Nat :=
  let span : Nat := if t.periodic then t.n * 2 ^ t.sh else (t.n - 1) * 2 ^ t.sh
  let raw := x - t.base
  let d : Nat := if t.periodic then raw.toNat % span else (clampInt 0 span raw.toInt).toNat
  (d / 2 ^ t.sh, d % 2 ^ t.sh)

/-- The entry that follows one; a periodic table goes round. -/
def tableNext (t : Table) (i : Nat) : Nat := if t.periodic ∧ i + 1 = t.n then 0 else i + 1

/-- The interpolated value of a table at a position, before saturation; `entry` gives its entries. -/
def tableValue (t : Table) (entry : Nat → Int) (x : Word) : Int :=
  let i := (tablePlace t x).1
  let f := (tablePlace t x).2
  let e0 := entry i
  let e1 := if f = 0 then e0 else entry (tableNext t i)
  e0 + (e1 - e0) * (f : Int) / ((2 ^ t.sh : Nat) : Int)

/-- The entries of a table that an interpolation at `x` reads. -/
def tableEntries (t : Table) (x : Word) : List Nat :=
  let i := (tablePlace t x).1
  i :: if (tablePlace t x).2 = 0 then [] else [tableNext t i]

/-- TBLI interpolates the table at data word An; C is unchanged. An uncorrectable error in a word that it reads makes it illegal (R383). -/
def tbliInsn (e : Engine) (rd a : RegRef) (an : Nat) (s : State) : State :=
  let base := ((coreOf e s).getA an).toNat
  match tableAt e (coreOf e s) base with
  | .error _ => s
  | .ok t =>
    let words := ([base, base + 1] ++ (tableEntries t (readReg e a s).1).map (base + 2 + ·)).map (dataWord e)
    if words.any fun w => wordBad w s then eccIllegal e words s else
    let r := readReg e a (readWords words 0 s)
    let c := coreOf e r.2
    let v := tableValue t (fun i => (dataGet c (base + 2 + i)).toInt) r.1
    advance e (writeRes e rd (saturate v c.fl.c c.fl) r.2)

def execTbli (n : Nat) (s : State) : Host.Outcome State Fault Refusal :=
  runInsn (.ce n) (fun i => match i with
    | .tbli rd a an => some (tbliInsn (.ce n) rd a an)
    | _ => none) s

/-! ### FRESH (R214, R318) -/

/-- The result of FRESH on an input: 1 STALE, 2 STUCK, 0 fresh. -/
def freshResult (x : Ctl) (xi k m : Nat) (ws : Word) : Nat :=
  if k ≤ x.age.getD xi 0 then 1
  else if m ≠ 0 ∧ m ≤ x.same.getD xi 0 ∧ ws ≠ 0 then 2
  else 0

/-- A non-zero result sets the input's feedback-fault bit; on an input with FB it is a cause for SAFE and discards the masked writes of
the cycle (R315, R318). -/
def feedbackFault (n xi : Nat) (s : State) : State :=
  let s1 := noteRaised (fCE_FB_FAULT n) xi (setF (fCE_FB_FAULT n) (getF (fCE_FB_FAULT n) s ||| 2 ^ xi) s)
  if getB (fCE_XCFG_FB n xi) s1 then safeCause n 1 (modCtl n (fun x => { x with fbCut := true }) s1) else s1

def freshInsn (n rd xi ws k m : Nat) (s : State) : State :=
  let e := Engine.ce n
  let r := freshResult (ctlOf n s) xi k m (getW e ws s)
  let act := getF (fCE_FB_ACTIVE n) s
  let bit := 2 ^ xi
  let s1 := setF (fCE_FB_ACTIVE n) (if r = 0 then act &&& (255 - bit) else act ||| bit) s
  let s2 := doIf (decide (r ≠ 0)) (feedbackFault n xi) s1
  advance e (modCore e (fun c => { c with fl := { c.fl with z := r == 0 } }) (putW e rd (BitVec.ofNat 48 r) s2))

def execFresh (n : Nat) (s : State) : Host.Outcome State Fault Refusal :=
  runInsn (.ce n) (fun i => match i with
    | .fresh rd xi ws k m => some (freshInsn n rd xi ws k m)
    | _ => none) s

/-! ### The end of a cycle (R201, R210) -/

/-- HALT of a control engine commits the pending Y values in one engine cycle, but for masked values that the mode or a FRESH result of
the cycle discards; the count of consecutive overruns returns to zero (R210, R313, R315, R317). -/
def haltCycle (n : Nat) (s : State) : State :=
  let x := ctlOf n s
  let keep := x.yPend.filter fun y => !(yMasked n y.1 s || (x.fbCut && overridden n y.1 s))
  let s1 := forAll keep (fun y => commitY n y.1 y.2) s
  let s2 := modCtl n (fun c => { c with yPend := [], overran := false, fbCut := false }) s1
  cycleEnd n (setEngState (.ce n) 1 (setF (fCE_CNT_CONSEC n) 0 s2))

end Sys2Proof.Machine
end

