-- ==== Sys2Proof/Machine/ProfileM.lean ====
section
/-! DEFINITION. The meanings of the profile M instructions, the completion of moves, and HALT of every profile (R201, R215 to R217,
R392 to R397). -/

namespace Sys2Proof.Machine

def modMover (n : Nat) (f : Mover → Mover) (s : State) : State := setMover n (f (moverOf n s)) s

/-- QUEUED follows the queue. -/
def showQueue (n : Nat) (s : State) : State := setF (fMV_STAT_QUEUED n) (moverOf n s).queue.length s

/-- The instruction in progress ends and the program goes on, or stops where STOP waits for it (R200). -/
def finishMover (n : Nat) (s : State) : State :=
  let e := Engine.mv n
  let stop := (coreOf e s).stopReq
  let s1 := advance e (modCore e (fun c => { c with wait := .none, stopReq := false }) s)
  doIf stop (setEngState e 0) s1

/-- A move fails: the channel faults with cause MOVE, and FADDR and WHY record it (R216, R397). -/
def moveFailed (n addr why : Nat) (s : State) : State :=
  moverFault n (recordIllegal (.mv n) causeMove (setF (fMV_STAT_WHY n) why (setF (fMV_FADDR_ADDR n) addr s)))

/-- A move that touches an engine data window needs an address there and a length that are multiples of 8 (R394). -/
def misaligned (n : Nat) (m : Move) (s : State) : Option Nat :=
  let isData (a : Nat) : Bool := match placeOf n a s with
    | .data _ _ _ => true
    | _ => false
  let bad (a : Nat) : Bool := isData a && (decide (a % 8 ≠ 0) || decide (m.len % 8 ≠ 0))
  if bad m.src.toNat then some m.src.toNat else if bad m.dst.toNat then some m.dst.toNat else none

/-- The background channels pause between moves while a throttle is in force (R396). -/
def movePaused (n : Nat) (s : State) : Bool := getB (fMV_CFG_BG n) s && getB fMEM_SKIM_STAT_PAUSED s

/-- The oldest move of a channel that is not paused begins (R396). -/
def beginMove (n : Nat) (s : State) : State :=
  modMover n (fun x => { x with begun := !x.queue.isEmpty && (x.begun || !movePaused n s) }) s

/-- A move is queued, or fails as it is queued; MOV then goes on and MOVB waits (R215, R394). -/
def queueMove (n : Nat) (m : Move) (block : Bool) (s : State) : State :=
  match misaligned n m s with
  | some a => moveFailed n a whyAlign s
  | none =>
    let s1 := beginMove n (showQueue n (modMover n (fun x => { x with queue := x.queue ++ [m], nextId := x.nextId + 1 }) s))
    if block then modCore (.mv n) (fun c => { c with wait := .moves m.id }) s1 else finishMover n s1

/-- MOV and MOVB: a length of zero queues nothing, and a fifth move waits for a place (R215, R216). -/
def movInsn (n wd ws wn : Nat) (block : Bool) (s : State) : State :=
  let e := Engine.mv n
  let x := moverOf n s
  let len := getW e wn s
  let m : Move := { id := x.nextId, dst := getW e wd s, src := getW e ws s, len := len.toNat }
  if m.len = 0 then
    if block then modCore e (fun c => { c with wait := .moves (x.nextId - 1) }) s else advance e s
  else if 4 ≤ x.queue.length then modCore e (fun c => { c with wait := .place m.dst m.src len block }) s
  else queueMove n m block s

def execMov (n : Nat) (s : State) : Host.Outcome State Fault Refusal :=
  runInsn (.mv n) (fun i => match i with
    | .mov wd ws wn => some (movInsn n wd ws wn false)
    | _ => none) s

def execMovb (n : Nat) (s : State) : Host.Outcome State Fault Refusal :=
  runInsn (.mv n) (fun i => match i with
    | .movb wd ws wn => some (movInsn n wd ws wn true)
    | _ => none) s

/-- MOVB ends once every move it waits on has been written and every merge entry with the channel's bytes has drained (R395). -/
def movbDone (n : Nat) (s : State) : State :=
  let x := moverOf n s
  match x.core.wait with
  | .moves k =>
    if engState (.mv n) s = 2 ∧ k ≤ x.doneId then
      let mine := s.mem.merges.filter fun m => x.touched.contains m.word
      finishMover n (modMover n (fun y => { y with touched := [] }) (forAll mine drain s))
    else s
  | _ => s

def execMovbDone (n : Nat) (s : State) : Host.Outcome State Fault Refusal := .next (if n < 8 then movbDone n s else s)

/-- The event bits WAIT takes go to rd and are cleared (R215). -/
def takeEvents (n rd mask : Nat) (s : State) : State :=
  let e := Engine.mv n
  let x := (coreOf e s).evi &&& mask
  finishMover n (putW e rd (BitVec.ofNat 48 x) (modCore e (fun c => { c with evi := c.evi &&& (1023 - x) }) s))

def waitInsn (n rd mask : Nat) (s : State) : State :=
  let e := Engine.mv n
  if (coreOf e s).evi &&& mask = 0 then modCore e (fun c => { c with wait := .event rd mask }) s else takeEvents n rd mask s

def execWait (n : Nat) (s : State) : Host.Outcome State Fault Refusal :=
  runInsn (.mv n) (fun i => match i with
    | .waitEvi rd mask => some (waitInsn n rd mask)
    | _ => none) s

/-- A masked event bit is set while WAIT waits (R215). -/
def execWaitWake (n : Nat) (s : State) : Host.Outcome State Fault Refusal :=
  .next (match (coreOf (.mv n) s).wait with
    | .event rd mask =>
      if n < 8 ∧ engState (.mv n) s = 2 ∧ (coreOf (.mv n) s).evi &&& mask ≠ 0 then takeEvents n rd mask s else s
    | _ => s)

/-- SIG sets EVI bit 2 + signal of its target (R215). -/
def sigInsn (n kind signal idx : Nat) (s : State) : State := advance (.mv n) (setEvi (engineOf kind idx) (2 + signal) s)

def execSig (n : Nat) (s : State) : Host.Outcome State Fault Refusal :=
  runInsn (.mv n) (fun i => match i with
    | .sig kind signal idx => some (sigInsn n kind signal idx)
    | _ => none) s

/-! ### Moves (R394 to R397) -/

/-- The pieces of a move: offsets and lengths, cut where the destination passes a 64-byte boundary (log entry 204). -/
def movePieces : Nat → Nat → Nat → Nat → List (Nat × Nat)
  | 0, _, _, _ => []
  | k + 1, dst, ofs, len =>
    if len ≤ ofs then []
    else
      let here := min (64 - (dst + ofs) % 64) (len - ofs)
      (ofs, here) :: movePieces k dst (ofs + here) len

/-- The places a move writes and reads at an offset. -/
def dstPlace (n : Nat) (m : Move) (k : Nat) (s : State) : Place := placeOf n (m.dst.toNat + k) s
def srcPlace (n : Nat) (m : Move) (k : Nat) (s : State) : Place := placeOf n (m.src.toNat + k) s

def Place.isHost : Place → Bool
  | .host _ => true
  | _ => false

def Place.isDdr : Place → Bool
  | .ddr _ => true
  | _ => false

/-- The words of SRAM that a piece reads: its source, rounded outward to 64-byte boundaries (R394). -/
def sourceWords (n : Nat) (m : Move) (p : Nat × Nat) (s : State) : List Nat :=
  let a := (m.src.toNat + p.1) / 64
  let b := (m.src.toNat + p.1 + p.2 + 63) / 64
  ((List.range (8 * (b - a))).filterMap fun k => placeWord (placeOf n (64 * a + 8 * k) s)).eraseDups

/-- The first byte of a piece that fails, with the address and the cause: a byte outside its region, or an uncorrectable error in what is read. -/
def pieceFailure (n : Nat) (m : Move) (p : Nat × Nat) (s : State) : Option (Nat × Nat) :=
  let own := (List.range p.2).findSome? fun i =>
    let r := readWhy (srcPlace n m (p.1 + i) s) s
    let w := writeWhy (dstPlace n m (p.1 + i) s) s
    if r ≠ 0 then some (m.src.toNat + p.1 + i, r) else if w ≠ 0 then some (m.dst.toNat + p.1 + i, w) else none
  own.orElse fun _ => if (sourceWords n m p s).any fun w => wordBad w s then some (m.src.toNat + p.1, whyEcc) else none

/-- One piece is copied from what has been read. -/
def copyPiece (n : Nat) (m : Move) (p : Nat × Nat) (s : State) : State :=
  let l := (List.range p.2).map fun i => placeByte (srcPlace n m (p.1 + i) s) s
  let words := ((List.range p.2).filterMap fun i => match dstPlace n m (p.1 + i) s with
    | .image a => some (a / 8)
    | _ => none).eraseDups
  addMod (fMV_CNT_BYTES n) p.2 (modMover n (fun x => { x with touched := (x.touched ++ words).eraseDups })
    (placeWrite n (m.dst.toNat + p.1) l s))

/-- A piece is read and copied, or fails; what it meets in its source is recorded (R382, R383, R397). -/
def movePiece (n : Nat) (m : Move) (p : Nat × Nat) (s : State) : State × Option (Nat × Nat) :=
  match pieceFailure n m p s with
  | some (a, why) => (doIf (decide (why = whyEcc)) (readWords (sourceWords n m p s) 2) s, some (a, why))
  | none => (copyPiece n m p (readWords (sourceWords n m p s) 2 s), none)

/-- What fails in a piece outside the SRAM: the link to the host, at the host's side of the move, or an uncorrectable error in LPDDR4X, or else in
the channel's buffer in bank 108 (R383, R386, R397). -/
def pieceEnv (n : Nat) (m : Move) (p : Nat × Nat) (ecc : Bool) (s : State) : State × Option (Nat × Nat) :=
  let hostDst := !(srcPlace n m p.1 s).isHost && (dstPlace n m p.1 s).isHost
  if ecc = false then (s, some ((if hostDst then m.dst else m.src).toNat + p.1, whyHost))
  else (if (srcPlace n m p.1 s).isDdr then ddrUe 1 s else memUe 108 2 s, some (m.src.toNat + p.1, whyEcc))

/-- The pieces are copied in order up to the first that fails; `env` names a piece that fails at the host (false) or in the channel's
buffer or the LPDDR4X memory (true). -/
def copyPieces (n : Nat) (m : Move) (env : Option (Nat × Bool)) : List (Nat × Nat) → Nat → State → State × Option (Nat × Nat)
  | [], _, s => (s, none)
  | p :: t, k, s =>
    match env.filter fun x => decide (x.1 = k) with
    | some (_, ecc) => pieceEnv n m p ecc s
    | none => match movePiece n m p s with
      | (s1, some f) => (s1, some f)
      | (s1, none) => copyPieces n m env t (k + 1) s1

/-- The read of the last 64 bytes that MOVB waits for, where they went to host memory, fails as a piece after the last (R395, R397). -/
def readBack (n : Nat) (m : Move) (env : Option (Nat × Bool)) (pieces : Nat) (r : State × Option (Nat × Nat)) : State × Option (Nat × Nat) :=
  let asked : Bool := match (moverOf n r.1).core.wait with
    | .moves k => decide (k = m.id)
    | _ => false
  if r.2.isNone ∧ asked ∧ (dstPlace n m 0 r.1).isHost ∧ env = some (pieces, false) then (r.1, some (m.dst.toNat + (m.len - 64), whyHost)) else r

/-- The waiting MOV or MOVB takes the place that has become free (R216). -/
def placeFreed (n : Nat) (s : State) : State :=
  let x := moverOf n s
  match x.core.wait with
  | .place dst src len block =>
    if engState (.mv n) s = 2 ∧ x.queue.length < 4 then
      queueMove n { id := x.nextId, dst := dst, src := src, len := len.toNat } block
        (modCore (.mv n) (fun c => { c with wait := .none }) s)
    else s
  | _ => s

/-- The oldest move of a channel completes, or fails; a paused channel completes the move it has begun (R216, R396, R397). -/
def moveComplete (n : Nat) (env : Option (Nat × Bool)) (s : State) : State :=
  match (moverOf n s).queue with
  | [] => s
  | m :: t =>
    if movePaused n s ∧ (moverOf n s).begun = false then s else
    let pieces := movePieces (m.len / 64 + 2) m.dst.toNat 0 m.len
    let r := readBack n m env pieces.length (copyPieces n m env pieces 0 s)
    let s1 := beginMove n (showQueue n (modMover n (fun x => { x with queue := t, doneId := m.id, begun := false }) r.1))
    match r.2 with
    | some (a, why) => moveFailed n a why s1
    | none => placeFreed n (addMod (fMV_CNT_MOVES n) 1 s1)

def execMoveComplete (n : Nat) (env : Option (Nat × Bool)) (s : State) : Host.Outcome State Fault Refusal :=
  .next (if n < 8 then moveComplete n env s else s)

/-! ### HALT (R201) -/

/-- HALT closes the job of a sequencer, ends the cycle of a control engine, and stops a move channel, whose queued moves complete. -/
def haltInsn (e : Engine) (s : State) : State := match e with
  | .sq n => match runningJob n s with
    | some (h, j) => haltJob n h j s
    | none => setEngState e 1 s
  | .ce n => haltCycle n s
  | .mv _ => setEngState e 0 s

def execHalt (e : Engine) (s : State) : Host.Outcome State Fault Refusal :=
  runInsn e (fun i => match i with
    | .halt => some (haltInsn e)
    | _ => none) s

end Sys2Proof.Machine
end

