-- ==== Sys2Proof/Machine/HeadPorts.lean ====
section
/-! DEFINITION. Head ports: settings, identity, temperature, alignment, firing and drop tests (R255 to R284). -/

namespace Sys2Proof.Machine

/-! ### Presence (R269 to R272) -/

/-- A valid identity record (R269). -/
def recordValid (l : List Byte) : Bool :=
  decide (l.length = 64) && decide (l.take 4 = [0x53#8, 0x56#8, 0x48#8, 0x44#8]) && decide (leAt l 4 1 = 1) &&
  decide (leAt l 60 4 = crc32c (l.take 60))

/-- The record last read agrees with the port's personality and element count (R269). -/
def recordAgrees (h : Nat) (s : State) : Bool :=
  decide ((idByte h 5 s).toNat = persOf h s) && decide (leNat (idBytes h 6 2 s) = elements h s)

/-- SERIAL of the record last read (R269). -/
def recordSerial (h : Nat) (s : State) : List Byte := idBytes h 16 16 s

/-- The head has become present: the serial held decides whether it may become READY or is a new head (R222, R272). -/
def becamePresent (h : Nat) (s : State) : State :=
  let s1 := setB (fHP_STAT_NEW_HEAD h) (decide ((portOf h s).serial ≠ some (recordSerial h s))) s
  let s2 := setF (fHP_STAT_FAILS h) 0 (if headState h s1 = 4 then setHeadState h 0 s1 else s1)
  let s3 := if takeoverOpen h s2 then setPath h { path h s2 with headWas := if (path h s2).headWas = some 4 then none else (path h s2).headWas } s2
    else s2
  refreshHead h s3

/-- The head is no longer present. -/
def becameAbsent (h : Nat) (s : State) : State :=
  refreshHead h (setB (fHP_STAT_NEW_HEAD h) false (setB (fHP_STAT_PRESENT h) false s))

/-- The test of presence (R269): with ID_REQ clear a head counts as present whenever PERS is set; otherwise the record last read must
be valid and agree with the settings, and one that disagrees sets MISMATCH. With PERS at NONE the head is ABSENT (R255). -/
def presentTest (h : Nat) (s : State) : State :=
  let was := getB (fHP_STAT_PRESENT h) s
  if getB (fHP_CFG_ID_REQ h) s = false then
    if persOf h s = 0 then becameAbsent h (setB (fHP_STAT_MISMATCH h) false s) else
    let s1 := setB (fHP_STAT_PRESENT h) true (setB (fHP_STAT_NEW_HEAD h) false (setB (fHP_STAT_MISMATCH h) false s))
    refreshHead h (if headState h s1 = 4 then setHeadState h 0 s1 else s1)
  else
    let valid := (portOf h s).idValid
    let ok := valid && recordAgrees h s && decide (persOf h s ≠ 0)
    let mm := getB (fHP_STAT_MISMATCH h) s
    let differs := valid && !recordAgrees h s
    let s1 := setB (fHP_STAT_MISMATCH h) differs s
    if ok then
      let s2 := setB (fHP_STAT_PRESENT h) true s1
      if was then refreshHead h s2 else becamePresent h s2
    else becameAbsent h (doIf (differs && !mm) (raiseSimple srcHeadPort clsNote false h) s1)

/-- The port attempts a READ of the record at address 0 while no head is present: the record is shown and tested (R268 to R270). -/
def idRead (h : Nat) (record : List Byte) (s : State) : State :=
  if getB (fHP_STAT_PRESENT h) s then s
  else
    let l := padTo 66 (record.take 64)
    let s1 := forAll (List.range 11) (fun w t => t.setReg (rHP_ID h w) (BitVec.ofNat 48 (leAt l (6 * w) 6))) (send (.spi h [0x03#8, 0, 0]) s)
    presentTest h (modPort h (fun p => { p with idValid := recordValid record }) s1)

def execIdRead (h : Nat) (record : List Byte) (s : State) : Host.Outcome State Fault Refusal :=
  .next (if h < 16 then idRead h record s else s)

/-! ### The personality (R255, R256) -/

/-- The port takes this value of PERS. -/
def persLegal (h p : Nat) : Bool := decide (p ≤ 5) && (decide (p ≠ 4) || decide (12 ≤ h))

/-- A write of HPn_CFG (R255, R256, R267, R269, R274, R296, R297). -/
def hpCfgWrite (h v : Nat) (s : State) : State :=
  if engState (.sq h) s ≠ 0 ∨ persLegal h (fieldOf (fHP_CFG_PERS h) v) = false then setB (fHP_STAT_CFG_REFUSED h) true s
  else
    let was := persOf h s
    let s1 := plainWrite (rHP_CFG h) v s
    let s2 := if was = 4 ∧ persOf h s1 ≠ 4 then showGate h (setF (fHP_LSR_STAT_STATE h) 0 (modLaser h (fun _ => {}) s1)) else s1
    let s3 := if persOf h s2 = 0 then portSafe h s2 else s2
    let s4 := presentTest h s3
    let s5 := if persOf h s4 = 4 ∧ was ≠ 4 then acquireOnWrite h s4 else s4
    showPair h (showPort h s5)

def execHpCfgWrite (h value : Nat) (s : State) : Host.Outcome State Fault Refusal := .next (if h < 16 then hostAccess (hpCfgWrite h value) s else s)

/-! ### Temperature (R263, R270, R271) -/

/-- Boundary B_j of the bands, j = 1 to 7, in 1/16 °C. -/
def bandBound (h j : Nat) (s : State) : Int := signedOf 16 (wordGet (s.reg (rHP_BANDS h ((j - 1) / 3))) (16 * ((j - 1) % 3)) 16)

/-- The boundaries ascend. -/
def bandsAscend (h : Nat) (s : State) : Bool := (List.range 6).all fun k => decide (bandBound h (k + 1) s < bandBound h (k + 2) s)

/-- The candidate band, from the current band: up across each boundary at or below the temperature, down across each boundary more than
0.5 °C above it. -/
def bandUp (h : Nat) (t : Int) (s : State) : Nat → Nat → Nat
  | 0, b => b
  | k + 1, b => if b < 7 ∧ bandBound h (b + 1) s ≤ t then bandUp h t s k (b + 1) else b

def bandDown (h : Nat) (t : Int) (s : State) : Nat → Nat → Nat
  | 0, b => b
  | k + 1, b => if 0 < b ∧ t < bandBound h b s - 8 then bandDown h t s k (b - 1) else b

/-- A new sample of the ink temperature (R263): the candidate becomes current once it has held for 4 samples in a row. -/
def bandStep (h : Nat) (t : Int) (s : State) : State :=
  if bandsAscend h s = false then setB (fHP_STAT_WF_REFUSED h) true s
  else
    let c := bandDown h t s 7 (bandUp h t s 7 (getF (fHP_TEMP_BAND h) s))
    let d := if c = getF (fHP_TEMP_CAND h) s then min 7 (getF (fHP_TEMP_DWELL h) s + 1) else 1
    let s1 := setF (fHP_TEMP_DWELL h) d (setF (fHP_TEMP_CAND h) c s)
    if 4 ≤ d then setF (fHP_TEMP_BAND h) c s1 else s1

/-- The temperature is one that the personality uses (R270). -/
def usesHeadTemp (h : Nat) (s : State) : Bool := decide (persOf h s = 3)
def usesInkTemp (h : Nat) (s : State) : Bool := decide (persOf h s = 1) && !getB (fHP_WF_TSRC h) s

/-- The reply of a poll is good (R268, R270). -/
def replyGood (h : Nat) (l : List Byte) (s : State) : Bool :=
  decide (l.length = 5) && decide (leAt l 4 1 = crc8 (l.take 4)) &&
  !(usesHeadTemp h s && decide (leAt l 0 2 = 0x8000)) && !(usesInkTemp h s && decide (leAt l 2 2 = 0x8000))

/-- The head is unplugged (R271). -/
def unplug (h : Nat) (s : State) : State :=
  let cls := if hadStarted h s then clsFlag else clsNote
  let s1 := incSat (fHP_STAT_PLUG_CNT h) (setB (fHP_STAT_NEW_HEAD h) false (setB (fHP_STAT_PRESENT h) false
    (setF (fHP_STAT_FAILS h) 3 (modPort h (fun p => { p with idValid := false }) s))))
  let s2 := if takeoverOpen h s1 then setPath h { path h s1 with headWas := some 4 } s1 else s1
  raiseSimple srcHeadPort cls false h (headGoes h 4 s2)

/-- A poll of the temperatures with the bytes the head answers (R268, R270, R271). T_ink comes from there while TSRC is 0 (R263). -/
def tempPoll (h : Nat) (reply : List Byte) (s : State) : State :=
  if getB (fHP_STAT_PRESENT h) s = false ∨ getB (fHP_CFG_ID_REQ h) s = false then s
  else
    let s0 := send (.spi h [0x0A#8]) s
    if replyGood h reply s0 then
      let s1 := setF (fHP_STAT_FAILS h) 0 (setF (fHP_TEMP_T_HEAD h) (leAt reply 0 2) s0)
      let s2 := if getB (fHP_WF_TSRC h) s1 then s1 else setF (fHP_TEMP_T_INK h) (leAt reply 2 2) s1
      if usesInkTemp h s2 then bandStep h (signedOf 16 (leAt reply 2 2)) s2 else s2
    else if 2 ≤ getF (fHP_STAT_FAILS h) s0 then unplug h s0
    else setF (fHP_STAT_FAILS h) (getF (fHP_STAT_FAILS h) s0 + 1) s0

def execTempPoll (h : Nat) (reply : List Byte) (s : State) : Host.Outcome State Fault Refusal :=
  .next (if h < 16 then tempPoll h reply s else s)

/-! ### Acceptance and alignment (R272, R275) -/

/-- ACCEPT of a new head (R272). -/
def acceptHead (h : Nat) (s : State) : State :=
  if getB (fHP_STAT_NEW_HEAD h) s = false then s
  else
    let serial := recordSerial h s
    let s1 := modPort h (fun p => { p with noz := [], serial := some serial, refCnt := 0, refDue := true }) s
    let s2 := setB (fHP_STAT_ALIGN_STALE h) true (setB (fHP_STAT_NEW_HEAD h) false s1)
    refreshHead h (tableChanged h s2)

def execHeadAccept (h : Nat) (s : State) : Host.Outcome State Fault Refusal := .next (if h < 16 then acceptHead h s else s)

/-- What the signature of an alignment record covers: the port index, the serial and the two values (R275). -/
def alignBody (h : Nat) (r : AlignRec) : List Byte := leBytes 1 h ++ padTo 16 r.serial ++ leBytes 3 r.x ++ leBytes 3 r.y

/-- An alignment record signed with the device identity key. -/
def signAlign (h : Nat) (r : AlignRec) (s : State) : AlignRec := { r with sig := Config.identitySign s.lc.identity (alignBody h r) }

/-- STORE begins writing the alignment record with the shadow-bank values (R275). -/
def alignStore (h : Nat) (s : State) : State :=
  let result (x : Nat) (t : State) : State := setF (fHP_ALIGN_CMD_RESULT h) x t
  if (portOf h s).storing.isSome then result 1 s
  else if getB (fHP_CFG_ID_REQ h) s ∧ getB (fHP_STAT_PRESENT h) s = false then result 3 s
  else
    let serial := if getB (fHP_CFG_ID_REQ h) s then recordSerial h s else (portOf h s).serial.getD []
    let r : AlignRec := { serial, x := getShadowF (fHP_ALIGN_ALIGN_X h) s, y := getShadowF (fHP_ALIGN_ALIGN_Y h) s }
    setB (fHP_ALIGN_CMD_BUSY h) true (modPort h (fun p => { p with storing := some (signAlign h r s) }) s)

def execAlignStore (h : Nat) (s : State) : Host.Outcome State Fault Refusal := .next (if h < 16 then hostAccess (alignStore h) s else s)

/-- The store completes (R272, R275). -/
def alignStoreDone (h : Nat) (ok : Bool) (s : State) : State :=
  match (portOf h s).storing with
  | none => s
  | some r =>
    let s1 := setB (fHP_ALIGN_CMD_BUSY h) false (setF (fHP_ALIGN_CMD_RESULT h) (if ok then 0 else 2)
      (modPort h (fun p => { p with storing := none }) s))
    if ok then setB (fHP_STAT_ALIGN_STALE h) false (modPort h (fun p => { p with stored := some r, serial := some r.serial }) s1)
    else flashFault s1

def execAlignStoreDone (h : Nat) (ok : Bool) (s : State) : Host.Outcome State Fault Refusal :=
  .next (if h < 16 then alignStoreDone h ok s else s)

/-- A write of HPn_ALIGN_CMD: ACCEPT acts before STORE (R275). -/
def alignCmdWrite (h v : Nat) (s : State) : State :=
  let s1 := if fieldOf (fHP_ALIGN_CMD_ACCEPT h) v = 1 then acceptHead h s else s
  if fieldOf (fHP_ALIGN_CMD_STORE h) v = 1 then alignStore h s1 else s1

/-! ### Waveforms (R261, R262) -/

/-- The lane rate of the shadow bank in bit/s (R257). -/
def shadowLaneRate (h : Nat) (s : State) : Nat := match getShadowF (fHP_LANE_RATE h) s with
  | 1 => 625000000
  | 2 => 312500000
  | _ => 1250000000

/-- WF_RATE of the shadow bank does not exceed the shadow lane rate / 40 (R261). -/
def waveRateFits (h : Nat) (s : State) : Bool := decide (8000000000 ≤ shadowLaneRate h s * max 10 (getShadowF (fHP_WF_WF_DIV h) s))

/-- A write of HPn_WF or HPn_LANE (R261). -/
def wfSettingWrite (a v : Nat) (s : State) : State :=
  match (List.range 16).find? fun h => decide (a = rHP_WF h) || decide (a = rHP_LANE h) with
  | none => s
  | some h =>
    let t := plainWrite a v s
    if waveRateFits h t then shadowLate a t else setB (fHP_STAT_WF_REFUSED h) true s

def execWfSettingWrite (addr value : Nat) (s : State) : Host.Outcome State Fault Refusal := .next (hostAccess (wfSettingWrite addr value) s)

/-- The bands whose sets the running job and the queued job hold (R242, R262). -/
def latchedBands (h : Nat) (s : State) : List Nat :=
  let p := path h s
  (if p.cur.isSome then [p.band] else []) ++
  (if p.queue.isEmpty then [] else [p.wfNext.getD (getF (fHP_TEMP_BAND h) s)])

/-- Sample index `i` places after ADDR. -/
def sampleAt (h i : Nat) (s : State) : Nat := (getF (fHP_WF_ADDR_ADDR h) s + i) % 8192

/-- The three samples at ADDR as HPn_WF_DATA reads. -/
def waveData (h : Nat) (s : State) : Word :=
  BitVec.ofNat 48 (((List.range 3).map fun i => (spGet (fun _ => (0 : BitVec 16)) (portOf h s).wave (sampleAt h i s)).toNat * 65536 ^ i).sum)

/-- An access of HPn_WF_DATA: a write puts three samples unless one lies in a latched band, a read answers them, and ADDR moves on by 3
(R262). -/
def waveAccess (h : Nat) (write : Option Nat) (s : State) : State :=
  let l := (List.range 3).map fun i => sampleAt h i s
  let s1 := match write with
    | none => send (.readback (rHP_WF_DATA h) (waveData h s)) s
    | some v =>
      if l.any fun k => (latchedBands h s).contains (k / 1024) then setB (fHP_STAT_WF_REFUSED h) true s
      else modPort h (fun p => { p with wave := (List.range 3).foldl (fun m i =>
        spPut (fun _ => (0 : BitVec 16)) m (l.getD i 0) (BitVec.ofNat 16 (v / 65536 ^ i))) p.wave }) s
  setF (fHP_WF_ADDR_ADDR h) (getF (fHP_WF_ADDR_ADDR h) s1 + 3) s1

def execWfSampleWrite (h : Nat) (write : Option Nat) (s : State) : Host.Outcome State Fault Refusal :=
  .next (if h < 16 then hostAccess (waveAccess h write) s else s)

/-- A write of HPn_WFLENb (R262). -/
def wflenWrite (h b v : Nat) (s : State) : State :=
  let sum := v % 1024 + v / 2 ^ 10 % 1024 + v / 2 ^ 20 % 1024 + v / 2 ^ 30 % 1024
  if 1024 < sum then setB (fHP_STAT_WF_REFUSED h) true s else shadowLate (rHP_WFLEN h b) (plainWrite (rHP_WFLEN h b) v s)

def execWflenWrite (h b value : Nat) (s : State) : Host.Outcome State Fault Refusal :=
  .next (if h < 16 ∧ b < 8 then hostAccess (wflenWrite h b value) s else s)

/-! ### Firing (R259, R261, R478, R479) -/

/-- A sample scaled by the amplitude in force, saturated to 16 bits (R478). -/
def scaledSample (idle amp x : Nat) : BitVec 16 :=
  BitVec.ofInt 16 (clampInt 0 65535 (idle + roundOpen (((x : Int) - idle) * amp) 1024))

/-- The samples played at LAT: the segments of the latched band set, back to back (R261, R262). -/
def playSamples (h : Nat) (s : State) : List (BitVec 16) :=
  let p := portOf h s
  let b := (path h s).band
  let idle := getF (fHP_WF_WF_IDLE h) s
  (List.range (min 1024 (segmentSum h b s))).map fun i =>
    scaledSample idle p.amp (spGet (fun _ => (0 : BitVec 16)) p.wave (1024 * b + i)).toNat

/-- The playback as D3 carries it, segment by segment, each sample low byte first (R261). -/
def playSegments (h : Nat) (s : State) : List (List Byte) :=
  let l := (playSamples h s).zipIdx
  (List.range 4).map fun k => (l.filter fun x => decide (segmentAt h x.2 s = k)).flatMap fun x => leBytes 2 x.1.toNat

/-- The length of a playback in ns (R261). -/
def playNs (h : Nat) (s : State) : Nat := segmentSum h (path h s).band s * samplePeriodNs h s

/-- The playback of a PIEZO port at LAT; it counts as a firing of every group. -/
def playback (h : Nat) (s : State) : State :=
  let s1 := send (.playback h (samplePeriodNs h s) (playSegments h s)) (modPort h (fun p => { p with play := some (now s, playNs h s) }) s)
  forAll (List.range (groups h s1)) (fun g => countFire h g) s1

/-- The strobe of a test column: TEST_W and the element's trim (R265, R278). -/
def testStrobe (h e : Nat) (s : State) : State :=
  let wMax := getF (fHP_GROUP_W_MAX h) s
  let w := min (min (getF (fHP_TEST_TEST_W h) s) wMax + getF (fHP_WF_TRIM_STEP h) s * nozTrim (nozzle h e s)) wMax
  driveStrobe h (groupOf h e s) w s

/-- The oldest frame fires once T_port has passed since its start and the previous playback has ended (R259, R260). -/
def latFire (h : Nat) (s : State) : State :=
  let p := portOf h s
  match p.frames with
  | [] => s
  | f :: t =>
    let played := match p.play with
      | none => true
      | some (t0, ns) => decide (ns ≤ 5 * (now s - t0).toNat)
    if 5 * (now s - f.tick).toNat < frameNs h s + 10 * getF (fHP_LANE_LAT_DLY h) s ∨ played = false then s
    else
      let s1 := send (.fire h (max 1 (getF (fHP_LANE_LAT_W h) s)) (!getB (fHP_LANE_LAT_POL h) s))
        (modPort h (fun q => { q with frames := t, lastFire := some (now s) }) s)
      if persOf h s1 = 1 then playback h s1
      else if persOf h s1 = 2 ∧ f.test then
        match p.burst.bind (·.elem) with
        | some e => testStrobe h e s1
        | none => s1
      else s1

def execLatFire (h : Nat) (s : State) : Host.Outcome State Fault Refusal := .next (if h < 16 then latFire h s else s)

/-! ### Drop tests (R276 to R279, R281) -/

/-- BURST_C in counts (R277). -/
def burstCounts (h : Nat) (s : State) : Nat :=
  let n := getF (fTRK_HLEAD_LINE h) s
  ceilDiv (getF (fSCH_LINE_VMAX_V_MAX n) s * max 1 (getF (fHP_TEST_TEST_N h) s) * getF (fHP_TEST_TEST_PER h) s) 100000000 +
    getF (fSCH_LINE_CTL_READY_LEAD n) s

/-- OFS − FILT_C − READY_LEAD over the mark entries that name the head in VALID slots bound to an enabled input (R277). -/
def freeDistances (h : Nat) (s : State) : List Int :=
  (List.range 16).flatMap fun p =>
    let b := getF (fSCH_PD_BIND_SLOT p) s
    if getB (fSCH_PD_BIND_EN p) s ∧ getB (fTRK_PD_CFG_EN p) s then
      match spFind s.sch.binds b with
      | some x => (x.marks.filter fun m => decide (m.head = h) || decide (m.alt = some h)).map fun m =>
          (m.ofs : Int) - getF (fTRK_PD_CFG_FILT_C p) s - getF (fSCH_LINE_CTL_READY_LEAD x.line) s
      | none => []
    else []

/-- Every condition of R277, and a free gate that is not calibrating (R276). -/
def mayBurst (h : Nat) (s : State) : Bool :=
  let n := getF (fTRK_HLEAD_LINE h) s
  let g := getF (fHP_TEST_GATE h) s
  let c := burstCounts h s
  (decide (persOf h s = 1) || decide (persOf h s = 2)) && (portOf h s).burst.isNone &&
  getB (fHP_TEST_EN h) s && decide (headState h s = 1) &&
  (path h s).cur.isNone && (path h s).queue.isEmpty && decide (engState (.sq (driver h s)) s = 1) &&
  decide (lineState n s = 1) && !getB (fSCH_LINE_STAT_LINE_SAFE n) s && !getB (fSCH_LINE_STAT_BROWNOUT n) s &&
  ((s.sch.jobs.filter fun x => decide (x.2.head = h) && (decide (x.2.state = .armed) || decide (x.2.state = .resident))).all fun x =>
    decide ((c * 256 : Nat) ≤ posDiff (x.2.start - counts (getF (fSCH_LINE_CTL_READY_LEAD x.2.line) s)) (s.reg (rTRK_HPRED h)))) &&
  ((freeDistances h s).all fun d => decide ((c : Int) ≤ d)) &&
  !getB (fDG_STAT_BUSY g) s && !getB (fDG_STAT_CAL g) s

/-- A burst starts on the head's gate (R276, R277). -/
def burstStart (h : Nat) (s : State) : State :=
  if mayBurst h s then
    let g := getF (fHP_TEST_GATE h) s
    let b : Burst := { gate := g, left := max 1 (getF (fHP_TEST_TEST_N h) s), elem := none }
    setB (fDG_STAT_BUSY g) true (setF (fDG_STAT_OWNER g) h (setB (fHP_TESTSTAT_ACTIVE h) true
      (addMod (fHP_TESTSTAT_BURSTS h) 1 (modPort h (fun p => { p with burst := some b }) s))))
  else s

def execBurstStart (h : Nat) (s : State) : Host.Outcome State Fault Refusal := .next (if h < 16 then burstStart h s else s)

/-- The first element from `e` on that is not DISABLED, wrapping at E (R278). -/
def nextTested (h e : Nat) (s : State) : Option Nat :=
  ((List.range (elements h s)).map fun k => (e + k) % elements h s).find? fun k => decide (nozState (nozzle h k s) ≠ 3)

/-- The test column of an element (R278). -/
def testColumn (h e : Nat) (s : State) : List Byte :=
  let level := if persOf h s = 1 then min 3 (max 1 (getF (fHP_TEST_TEST_LEVEL h) s) + nozTrim (nozzle h e s)) else 1
  columnOf h ((List.range (elements h s)).map fun k => if k = e then level else 0) s

/-- The burst fires a test column on its next element (R278); with every element DISABLED it ends. -/
def testFiring (h : Nat) (s : State) : State :=
  match (portOf h s).burst with
  | none => s
  | some b =>
    if b.left = 0 ∨ b.elem.isSome ∨ getB (fHP_STAT_SAFE h) s ∨ takeoverOpen h s then s
    else match nextTested h (getF (fHP_TESTSTAT_NEXT_E h) s) s with
      | none => endBurst h s
      | some e =>
        let s1 := modPort h (fun p => { p with burst := some { b with left := b.left - 1, elem := some e } }) s
        let s2 := sendFrame h true (testColumn h e s1) s1
        setF (fHP_TESTSTAT_NEXT_E h) ((nextTested h ((e + 1) % elements h s2) s2).getD e) s2

def execTestFiring (h : Nat) (s : State) : Host.Outcome State Fault Refusal := .next (if h < 16 then testFiring h s else s)

/-- TESTRES shows the oldest result. -/
def showResults (h : Nat) (s : State) : State :=
  let q := (portOf h s).testQ
  let x := q.headD (0, 0, 0)
  setF (fHP_TESTRES_DEPTH h) q.length (setF (fHP_TESTRES_ELEMENT h) x.1 (setF (fHP_TESTRES_RESULT h) x.2.1 (setF (fHP_TESTRES_T_A h) x.2.2 s)))

/-- The first sample of the first dip: two consecutive samples that lie THRESH or more from the baseline; `base` is 16 times the
baseline (R279). -/
def firstDip (inv : Bool) (thresh base : Nat) : Nat → List Nat → Option Nat
  | _, [] => none
  | _, [_] => none
  | k, x :: y :: t =>
    let hit (v : Nat) : Bool := if inv then decide (base + 16 * thresh ≤ 16 * v) else decide (16 * v + 16 * thresh ≤ base)
    if hit x && hit y then some k else firstDip inv thresh base (k + 1) (y :: t)

/-- The result of a firing: 0 PRESENT, 1 SLOW, 2 MISS, 3 NOISE (R279). -/
def classifyDrop (h : Nat) (dip : Option Nat) (s : State) : Nat := match dip with
  | none => 2
  | some k =>
    if k < getF (fHP_TESTWIN_WIN_START h) s then 3
    else if getF (fHP_TESTWIN_WIN_END h) s < k then 2
    else if k ≤ getF (fHP_TESTWIN_T_SLOW h) s then 0 else 1

/-- A result that disagrees with STATE counts in RUN, and at its threshold changes the entry (R281). -/
def nozzleResult (h : Nat) (b : Byte) (r : Nat) (s : State) : Byte :=
  let st := nozState b
  let trim := nozTrim b
  let run := nozRun b + 1
  let absN := max 1 (getF (fHP_NZCFG_ABS_N h) s)
  let presN := max 1 (getF (fHP_NZCFG_PRES_N h) s)
  let slowN := max 1 (getF (fHP_NZCFG_SLOW_N h) s)
  let mayTrim := getB (fHP_NZCFG_AUTO_TRIM h) s && decide (trim < getF (fHP_NZCFG_TRIM_MAX h) s)
  let up := if mayTrim then trim + 1 else trim
  match st, r with
  | 0, 1 => if slowN ≤ run then nozEntry 1 up 0 else nozEntry st trim run
  | 1, 1 => if slowN ≤ run then (if mayTrim then nozEntry 1 up 0 else nozEntry 2 trim 0) else nozEntry st trim run
  | 0, 2 => if absN ≤ run then nozEntry 2 trim 0 else nozEntry st trim run
  | 1, 2 => if absN ≤ run then nozEntry 2 trim 0 else nozEntry st trim run
  | 1, 0 => if presN ≤ run then nozEntry 0 trim 0 else nozEntry st trim run
  | 2, 0 => if presN ≤ run then nozEntry 0 trim 0 else nozEntry st trim run
  | 2, 1 => if slowN ≤ run then nozEntry 1 trim 0 else nozEntry st trim run
  | 3, _ => b
  | _, _ => nozEntry st trim 0

/-- A result updates the element's entry (R281). -/
def applyResult (h e r : Nat) (s : State) : State :=
  let b := nozzle h e s
  let b1 := nozzleResult h b r s
  let s1 := setNozzle h e b1 s
  if nozState b1 = nozState b ∧ nozTrim b1 = nozTrim b then s1 else tableChanged h s1

/-- PRESENT and SLOW times enter the mean of R478. -/
def countTime (h r t : Nat) (s : State) : State :=
  if r ≤ 1 then modPort h (fun p => { p with dropSum := p.dropSum + t, dropCnt := p.dropCnt + 1, refCnt := p.refCnt + 1 }) s else s

/-- A result enters the queue; one that finds it full is discarded and sets LOST (R279). -/
def queueResult (h e r t : Nat) (s : State) : State :=
  if (portOf h s).testQ.length < 16 then showResults h (modPort h (fun p => { p with testQ := p.testQ ++ [(e, r, t)] }) s)
  else setB (fHP_TESTRES_LOST h) true s

/-- The window of a test firing ends: `before` are the 16 samples ending at LAT, `after` those that follow it, 100 ns apart. -/
def dropResult (h : Nat) (before after : List Nat) (s : State) : State :=
  match (portOf h s).burst with
  | none => s
  | some b =>
    match b.elem with
    | none => s
    | some e =>
      if (portOf h s).frames.any (·.test) ∨ before.length ≠ 16 then s
      else
        let codes := after.map (· % 16384)
        let base := (before.map (· % 16384)).sum
        let dip := firstDip (getB (fDG_CFG_INV b.gate) s) (getF (fDG_CFG_THRESH b.gate) s) base 0 codes
        let r := classifyDrop h dip s
        let d := drawFree s
        let t := if r = 2 then d.1 % 4096 else (dip.getD 0) % 4096
        let s1 := setF (fDG_STAT_BASE b.gate) (roundOpen base 16).toNat (setF (fDG_STAT_SAMPLE b.gate) (codes.getLastD 0)
          (if r = 2 then d.2 else s))
        let s2 := queueResult h e r t s1
        let s3 := if r = 3 then incSat (fHP_TESTSTAT_NOISE h) s2 else countTime h r t (applyResult h e r s2)
        let s4 := modPort h (fun p => { p with burst := some { b with elem := none } }) s3
        if b.left = 0 then endBurst h s4 else s4

def execDropTestResult (h : Nat) (before after : List Nat) (s : State) : Host.Outcome State Fault Refusal :=
  .next (if h < 16 then dropResult h before after s else s)

/-- A write of HPn_TESTRES with POP or LOST (R279). -/
def testresWrite (h v : Nat) (s : State) : State :=
  let s1 := plainWrite (rHP_TESTRES h) v s
  if fieldOf (fHP_TESTRES_POP h) v = 1 then showResults h (modPort h (fun p => { p with testQ := p.testQ.drop 1 }) s1) else s1

def execTestresPop (h : Nat) (s : State) : Host.Outcome State Fault Refusal :=
  .next (if h < 16 then testresWrite h (2 ^ 32) s else s)

/-! ### The nozzle table (R280, R282) -/

/-- The byte an entry reads as. -/
def nozByte (h e : Nat) (s : State) : Nat := (nozzle h e s).toNat % 128 + if showsHidden h e s then 128 else 0

/-- HPn_NZ_DATA as it reads: the six entries from ADDR. -/
def nozData (h : Nat) (s : State) : Word :=
  BitVec.ofNat 48 (((List.range 6).map fun k => nozByte h ((getF (fHP_NZ_ADDR_ADDR h) s + k) % 4096) s * 256 ^ k).sum)

/-- An access of HPn_NZ_DATA covers six entries and moves ADDR on by 6; a write of STATE or TRIM clears RUN (R280). -/
def nozAccess (h : Nat) (write : Option Nat) (s : State) : State :=
  let a := getF (fHP_NZ_ADDR_ADDR h) s
  let s1 := match write with
    | none => send (.readback (rHP_NZ_DATA h) (nozData h s)) s
    | some v => tableChanged h (forAll (List.range 6) (fun k t =>
        let b := v / 256 ^ k % 256
        setNozzle h ((a + k) % 4096) (nozEntry (b % 4) (b / 4 % 4) 0) t) s)
  setF (fHP_NZ_ADDR_ADDR h) (a + 6) s1

def execNzDataAccess (h : Nat) (write : Option Nat) (s : State) : Host.Outcome State Fault Refusal :=
  .next (if h < 16 then hostAccess (nozAccess h write) s else s)

/-- A write of HPn_NZCFG: COVER at PAIR needs a partner that names this port as its own, of equal personality and element count, else it
is refused with CFG_REFUSED (R282). -/
def nzcfgWrite (h v : Nat) (s : State) : State :=
  let m := fieldOf (fHP_NZCFG_PARTNER h) v
  if fieldOf (fHP_NZCFG_COVER h) v = 1 ∧
      (m = h ∨ getF (fHP_NZCFG_PARTNER m) s ≠ h ∨ persOf m s ≠ persOf h s ∨ elements m s ≠ elements h s) then
    setB (fHP_STAT_CFG_REFUSED h) true s
  else tableChanged h (plainWrite (rHP_NZCFG h) v s)

end Sys2Proof.Machine
end

