-- ==== Sys2Proof/Machine/Stencil.lean ====
section
/-! DEFINITION. Stencils and fonts as the verifier reads them: structure, layout rules and published figures (R118 to R122, R155 to
R161). -/

namespace Sys2Proof.Machine

/-- A signed number of `k` bytes at an offset. -/
def leSigned (l : List Byte) (ofs k : Nat) : Int := signedOf (8 * k) (leAt l ofs k)

/-- Every byte of a part is zero. -/
def zeros (l : List Byte) (ofs k : Nat) : Bool := (slice l ofs k).all (· == 0)

/-! ### The parts of a stencil (R118, R119) -/

/-- The string pool. -/
def poolOf (img : List Byte) : List Byte := slice img (leAt img 28 2) (leAt img 30 2)

/-- The layout section. -/
def layoutOf (img : List Byte) : List Byte := slice img (leAt img 32 2) (leAt img 34 2)

def fieldCount (img : List Byte) : Nat := leAt img 19 1

/-- The record of field `i`. -/
def fieldRec (img : List Byte) (i : Nat) : List Byte := slice img (leAt img 26 2 + 24 * i) 24

def fieldType (img : List Byte) (i : Nat) : Nat := leAt (fieldRec img i) 0 1
def fieldAlpha (img : List Byte) (i : Nat) : Nat := leAt (fieldRec img i) 1 1
def fieldMin (img : List Byte) (i : Nat) : Nat := leAt (fieldRec img i) 2 1
def fieldMax (img : List Byte) (i : Nat) : Nat := leAt (fieldRec img i) 3 1
def fieldParam (img : List Byte) (i : Nat) : List Byte := (fieldRec img i).drop 4

/-- The field indices of a type. -/
def fieldsOf (img : List Byte) (type : Nat) : List Nat := (List.range (fieldCount img)).filter fun i => fieldType img i == type

/-- Consecutive character codes. -/
def charRange (a n : Nat) : List Byte := (List.range n).map fun k => BitVec.ofNat 8 (a + k)

/-- The characters of an alphabet, in order (R119). -/
def alphabetOf (img : List Byte) (a : Nat) : List Byte := match a with
  | 0 => charRange 0x30 10
  | 1 => charRange 0x41 26
  | 2 => charRange 0x30 10 ++ charRange 0x41 26
  | 3 => charRange 0x20 95
  | _ =>
    let pool := poolOf img
    let o := Config.poolAlphabet pool a
    slice pool (o + 1) (leAt pool o 1)

def fieldChars (img : List Byte) (i : Nat) : List Byte := alphabetOf img (fieldAlpha img i)

/-- A printable character (R119). -/
def printable (b : Byte) : Bool := decide (0x20 ≤ b.toNat) && decide (b.toNat ≤ 0x7E)

/-- No character occurs twice. -/
def distinct : List Byte → Bool
  | [] => true
  | b :: t => !t.contains b && distinct t

/-- An alphabet number that a field may name, with a pool alphabet that lies in the pool. -/
def alphaLegal (img : List Byte) (a : Nat) : Bool :=
  decide (a ≤ 3) ||
  (decide (8 ≤ a) && decide (a ≤ 15) &&
    (let pool := poolOf img
     let o := Config.poolAlphabet pool a
     let cs := alphabetOf img a
     decide (o < pool.length) && decide (o + 1 + leAt pool o 1 ≤ pool.length) && !cs.isEmpty && cs.all printable && distinct cs))

/-- The text from an offset of the pool up to its terminating zero byte; none where it does not end within the pool. -/
def poolText (img : List Byte) (ofs : Nat) : Option (List Byte) :=
  let l := (poolOf img).drop ofs
  if l.contains 0 then some (l.takeWhile (· != 0)) else none

/-! ### Format strings (R132) -/

/-- The elements of a format string. -/
inductive Token where
  | yyyy | yy | y | mmm | mm | dd | jjj | ww
  | shift | line | seq
  | lit (b : Byte)
  deriving DecidableEq, Repr

/-- Scan a format from left to right, taking the longest token; the batch format has S, L and N besides. -/
def scanFormat (batch : Bool) : Nat → List Byte → List Token
  | 0, _ => []
  | k + 1, l => match l with
    | [] => []
    | 0x5C#8 :: b :: t => .lit b :: scanFormat batch k t
    | 0x59#8 :: 0x59#8 :: 0x59#8 :: 0x59#8 :: t => .yyyy :: scanFormat batch k t
    | 0x59#8 :: 0x59#8 :: t => .yy :: scanFormat batch k t
    | 0x59#8 :: t => .y :: scanFormat batch k t
    | 0x4D#8 :: 0x4D#8 :: 0x4D#8 :: t => .mmm :: scanFormat batch k t
    | 0x4D#8 :: 0x4D#8 :: t => .mm :: scanFormat batch k t
    | 0x44#8 :: 0x44#8 :: t => .dd :: scanFormat batch k t
    | 0x4A#8 :: 0x4A#8 :: 0x4A#8 :: t => .jjj :: scanFormat batch k t
    | 0x57#8 :: 0x57#8 :: t => .ww :: scanFormat batch k t
    | b :: t =>
      (if batch && b == 0x53#8 then .shift else if batch && b == 0x4C#8 then .line else if batch && b == 0x4E#8 then .seq else .lit b) ::
        scanFormat batch k t

/-- The tokens of a field's format; none where the format does not end within the pool. -/
def formatOf (img : List Byte) (i : Nat) : Option (List Token) :=
  ((poolText img (leAt (fieldParam img i) 0 2)).filter fun l => l.all fun b => decide (b.toNat < 128)).map fun l => scanFormat (fieldType img i == 2) (l.length + 1) l

/-- A token that depends on the date. -/
def dateToken : Token → Bool
  | .yyyy | .yy | .y | .mmm | .mm | .dd | .jjj | .ww => true
  | _ => false

/-- A stencil is date-dependent: a DATE field, or a BATCH format with a date token or S (R129). -/
def dateDependent (img : List Byte) : Bool :=
  !(fieldsOf img 1).isEmpty ||
  (fieldsOf img 2).any fun i => ((formatOf img i).getD []).any fun t => dateToken t || t == .shift

/-! ### Structure (R118 to R120) -/

/-- A part lies between the header and the signature. -/
def partFits (img : List Byte) (ofs len : Nat) : Bool := decide (64 ≤ ofs) && decide (ofs + len + 64 ≤ img.length)

/-- Two parts do not overlap. -/
def apart (a b : Nat × Nat) : Bool := decide (a.1 + a.2 ≤ b.1) || decide (b.1 + b.2 ≤ a.1) || a.2 == 0 || b.2 == 0

/-- A part of the pool. -/
def inPool (img : List Byte) (ofs len : Nat) : Bool := decide (ofs + len ≤ leAt img 30 2)

/-- The times of the zone table ascend. -/
def zoneAscends (img : List Byte) : Bool :=
  let pool := poolOf img
  let t := leAt img 36 2
  (List.range (leAt img 38 1 - 1)).all fun k => decide (leAt pool (t + 8 * k) 6 < leAt pool (t + 8 * k + 8) 6)

/-- The header meets R118. -/
def headerOk (img : List Byte) : Bool :=
  let zone := leSigned img 22 2
  let hasZone := leAt img 38 1 != 0
  decide (img.take 4 = [0x53#8, 0x56#8, 0x53#8, 0x54#8]) && leAt img 4 2 == 1 && leAt img 6 2 == 64 &&
  leAt img 8 4 == img.length && decide (192 ≤ img.length) && decide (img.length ≤ 16384) && decide (leAt img 18 1 ≤ 7) &&
  decide (1 ≤ fieldCount img) && decide (fieldCount img ≤ 24) && decide (leAt img 21 1 ≤ 1) &&
  decide (-720 ≤ zone) && decide (zone ≤ 840) && decide (zone % 15 = 0) && decide (leAt img 24 2 ≤ 1439) &&
  partFits img (leAt img 26 2) (24 * fieldCount img) && partFits img (leAt img 28 2) (leAt img 30 2) &&
  partFits img (leAt img 32 2) (leAt img 34 2) &&
  apart (leAt img 26 2, 24 * fieldCount img) (leAt img 28 2, leAt img 30 2) &&
  apart (leAt img 26 2, 24 * fieldCount img) (leAt img 32 2, leAt img 34 2) &&
  apart (leAt img 28 2, leAt img 30 2) (leAt img 32 2, leAt img 34 2) &&
  decide (leAt img 38 1 ≤ 16) &&
  (!hasZone || (leAt img 36 2 != 0xFFFF && inPool img (leAt img 36 2) (8 * leAt img 38 1) && zoneAscends img)) &&
  (leAt img 40 2 == 0xFFFF || inPool img (leAt img 40 2) 36) && zeros img 39 1 && zeros img 42 22

/-- A field record meets R119 and the rules of R120 for its type. -/
def fieldOk (img : List Byte) (i : Nat) : Bool :=
  let p := fieldParam img i
  let cs := fieldChars img i
  let mn := fieldMin img i
  let mx := fieldMax img i
  let noMonths := leAt img 40 2 == 0xFFFF
  let fmtOk := match formatOf img i with
    | some ts => !(noMonths && ts.contains .mmm)
    | none => false
  alphaLegal img (fieldAlpha img i) && decide (1 ≤ mx) && decide (mx ≤ 48) && decide (mn ≤ mx) &&
  (match fieldType img i with
    | 1 => fmtOk && decide (-3650 ≤ leSigned p 2 2) && decide (leSigned p 2 2 ≤ 3650) && decide (leAt p 4 1 ≤ 120) && decide (leAt p 5 1 ≤ 2)
    | 2 => fmtOk && decide (1 ≤ leAt p 2 1) && decide (leAt p 2 1 ≤ 6) && decide (leAt p 3 1 ≤ 2) && decide (leAt p 6 1 ≤ 8) &&
        inPool img (leAt p 4 2) (3 * leAt p 6 1)
    | 3 => mn == mx && decide (leAt p 10 6 < cs.length ^ mx) && decide (leAt p 4 6 ≤ leAt p 10 6) && decide (leAt p 16 1 ≤ 64)
    | 4 => mn == mx && decide (4 ≤ mx) && decide (mx ≤ 8) && decide (2 ≤ cs.length) && decide (cs.length ≤ 64) && decide (leAt p 0 1 ≤ 15) &&
        (fieldsOf img 4).all fun k => !(leAt p 1 3).testBit k
    | 5 => true
    | _ => false)

/-- The structure meets R118 to R120. -/
def structureOk (img : List Byte) : Bool :=
  headerOk img && (List.range (fieldCount img)).all (fieldOk img) && decide ((fieldsOf img 3).length ≤ 1) &&
  decide ((fieldsOf img 2).length ≤ 1) && decide ((fieldsOf img 1).length ≤ 4) && decide ((fieldsOf img 4).length ≤ 2)

/-! ### Fonts (R161) -/

def fontGlyphs (f : List Byte) : Nat := leAt f 21 1
def fontW (f : List Byte) : Nat := leAt f 19 1
def fontH (f : List Byte) : Nat := leAt f 20 1

/-- The bytes of a glyph's bitmap. -/
def glyphSize (f : List Byte) : Nat := fontW f * ceilDiv (fontH f) 8

/-- The record of the glyph of a character: its advance and the offset of its bitmap. -/
def glyphOf (f : List Byte) (ch : Byte) : Option (Nat × Nat) :=
  ((List.range (fontGlyphs f)).find? fun k => leAt f (32 + 4 * k) 1 == ch.toNat).map fun k =>
    (leAt f (33 + 4 * k) 1, leAt f (34 + 4 * k) 2)

/-- A font image meets R161. -/
def fontOk (f : List Byte) : Bool :=
  let n := fontGlyphs f
  decide (f.take 4 = [0x53#8, 0x56#8, 0x46#8, 0x54#8]) && leAt f 4 2 == 1 && leAt f 6 2 == 32 && leAt f 8 4 == f.length &&
  decide (160 ≤ f.length) && decide (f.length ≤ 131072) && decide (1 ≤ fontW f) && decide (fontW f ≤ 64) && decide (1 ≤ fontH f) &&
  decide (fontH f ≤ 64) && decide (1 ≤ n) && decide (n ≤ 95) && zeros f 22 10 && decide (32 + 4 * n + 64 ≤ f.length) &&
  (List.range n).all fun k =>
    let c := leAt f (32 + 4 * k) 1
    let adv := leAt f (33 + 4 * k) 1
    decide (0x20 ≤ c) && decide (c ≤ 0x7E) && (k == 0 || decide (leAt f (28 + 4 * k) 1 < c)) && decide (1 ≤ adv) && decide (adv ≤ 64) &&
    decide (32 + 4 * n ≤ leAt f (34 + 4 * k) 2) && decide (leAt f (34 + 4 * k) 2 + glyphSize f + 64 ≤ f.length)

/-- The loaded font that reference `r` of a layout names, with the digest it pins (R155). -/
def fontRef (img : List Byte) (r : Nat) (s : State) : Option (List Byte) :=
  let l := layoutOf img
  let fid := leAt l (8 + 12 * r) 4
  if leAt l 5 1 ≤ r then none
  else (s.ren.fonts.filterMap (fun x => x)).find? fun f => leAt f 12 4 == fid && decide ((sha256 f).take 8 = slice l (12 + 12 * r) 8)

/-! ### Templates and items (R156 to R158) -/

/-- The elements of a template. -/
inductive Elem where
  | field (i : Nat)
  | fnc1
  | gs
  | lit (b : Byte)
  deriving DecidableEq, Repr

/-- Parse a template up to its end; none where it holds a byte that is not permitted. -/
def parseTemplate : List Byte → Option (List Elem)
  | [] => none
  | 0x00#8 :: _ => some []
  | 0x01#8 :: i :: t => (parseTemplate t).map (Elem.field i.toNat :: ·)
  | 0x02#8 :: t => (parseTemplate t).map (.fnc1 :: ·)
  | 0x1D#8 :: t => (parseTemplate t).map (.gs :: ·)
  | b :: t => if printable b then (parseTemplate t).map (.lit b :: ·) else none

def templateAt (img : List Byte) (ofs : Nat) : Option (List Elem) := parseTemplate ((poolOf img).drop ofs)

def itemCount (img : List Byte) : Nat := leAt (layoutOf img) 4 1

/-- Item `k` of a layout. -/
def itemRec (img : List Byte) (k : Nat) : List Byte :=
  let l := layoutOf img
  slice l (8 + 12 * leAt l 5 1 + 16 * k) 16

def itemType (it : List Byte) : Nat := leAt it 0 1
def itemRot (it : List Byte) : Nat := leAt it 1 1 % 4
def itemPanel (it : List Byte) : Nat := leAt it 1 1 / 4 % 4
def itemX (it : List Byte) : Nat := leAt it 2 2
def itemY (it : List Byte) : Nat := leAt it 4 2

/-- A template's elements meet R156 for an item type: FNC1 first and in DATAMATRIX and GS1-128 only, the GS1 separator there only. -/
def templateOk (img : List Byte) (type : Nat) (l : List Elem) : Bool :=
  let gs1 := type == 2 || type == 4
  l.zipIdx.all fun x => match x.1 with
    | .field i => decide (i < fieldCount img)
    | .fnc1 => gs1 && x.2 == 0
    | .gs => gs1
    | .lit _ => true

/-- A place of a template at every field's MAXLEN: the characters that may stand there; none for FNC1 or a separator. -/
def places (img : List Byte) (l : List Elem) : List (Option (List Byte)) := l.flatMap fun e => match e with
  | .field i => List.replicate (fieldMax img i) (some (fieldChars img i))
  | .fnc1 | .gs => [none]
  | .lit b => [some [b]]

/-- A digit. -/
def isDigit (b : Byte) : Bool := decide (0x30 ≤ b.toNat) && decide (b.toNat ≤ 0x39)

/-- A place that always holds a digit. -/
def sureDigit : Option (List Byte) → Bool
  | some cs => cs.all isDigit
  | none => false

/-- Data Matrix codewords of a sequence of places: two digits in a row pack into one (R163). -/
def dmCount : List Bool → Nat
  | true :: true :: t => 1 + dmCount t
  | _ :: t => 1 + dmCount t
  | [] => 0

/-- Fewest Code 128 symbol characters, from each suffix back to front: from code sets B and C here, and from the place after
(R164). FNC1 stands in both sets; C takes digits in pairs. -/
structure C128 where
  b : Nat
  c : Nat
  nextC : Nat
  nextB : Nat
  digit : Bool

def c128Step (x : Bool × Bool) (k : C128) : C128 :=
  let fnc := x.1
  let dig := x.2
  let stayB := 1 + k.b
  let stayC := if fnc then 1 + k.c else if dig && k.digit then 1 + k.nextC else 1000000
  { b := min stayB (1 + stayC), c := min stayC (1 + stayB), nextC := k.c, nextB := k.b, digit := dig }

/-- Symbol characters of a Code 128 item with start, check and stop; each place says whether it is FNC1 and whether it is a digit. -/
def c128Count (l : List (Bool × Bool)) : Nat :=
  let k := l.foldr c128Step { b := 0, c := 0, nextC := 1000000, nextB := 1000000, digit := false }
  min k.b k.c + 3

/-- Places of a Code 128 item; GS1-128 begins with FNC1 (R164). -/
def c128Places (img : List Byte) (gs1 : Bool) (l : List Elem) : List (Bool × Bool) :=
  let ps := (places img l).map fun p => (p.isNone, sureDigit p)
  if gs1 && l.head? != some .fnc1 then (true, false) :: ps else ps

/-- Rows and columns of the Data Matrix sizes 1 to 30 (R158). -/
def dmSizes : List (Nat × Nat) :=
  ([10, 12, 14, 16, 18, 20, 22, 24, 26, 32, 36, 40, 44, 48, 52, 64, 72, 80, 88, 96, 104, 120, 132, 144].map fun k => (k, k)) ++
  [(8, 18), (8, 32), (12, 26), (12, 36), (16, 36), (16, 48)]

/-- Data codewords of the sizes, as ISO/IEC 16022 gives them (R163). -/
def dmCapacity : List Nat :=
  [3, 5, 8, 12, 18, 22, 30, 36, 44, 62, 86, 114, 144, 174, 204, 280, 368, 456, 576, 696, 816, 1050, 1304, 1558] ++
  [5, 10, 16, 22, 32, 49]

/-- The size of a DATAMATRIX item: SYMBOL, or for 0 the smallest square that holds the template at MAXLEN (R158). -/
def dmSymbol (img it : List Byte) : Option Nat :=
  let need := match templateAt img (leAt it 6 2) with
    | some l => dmCount ((places img l).map sureDigit)
    | none => 0
  match leAt it 9 1 with
  | 0 => ((List.range 24).map (· + 1)).find? fun k => decide (need ≤ dmCapacity.getD (k - 1) 0)
  | k => if k ≤ 30 ∧ need ≤ dmCapacity.getD (k - 1) 0 then some k else none

/-- Width of a text at every field's MAXLEN, each character at its widest (R157, R159). -/
def textWidth (img f : List Byte) (mag sp : Nat) (l : List Elem) : Nat :=
  ((places img l).map fun p => (p.getD []).foldl (fun a ch => max a (((glyphOf f ch).map (·.1)).getD 0)) 0 * mag + sp).sum

/-- The box of an item before rotation, at every field's MAXLEN. -/
def itemBox (img it : List Byte) (s : State) : Option (Nat × Nat) :=
  let t := templateAt img (leAt it 6 2)
  match itemType it with
  | 1 => match t, fontRef img (leAt it 8 1) s with
    | some l, some f => some (textWidth img f (leAt it 10 1) (leAt it 9 1) l, fontH f * leAt it 11 1)
    | _, _ => none
  | 2 => (dmSymbol img it).map fun k =>
      let r := dmSizes.getD (k - 1) (0, 0)
      (r.2 * leAt it 8 1, r.1 * leAt it 8 1)
  | 5 => some (leAt it 8 2, leAt it 10 2)
  | _ => match t with
    | none => none
    | some l =>
      let w := (11 * c128Count (c128Places img (itemType it == 4) l) + 2) * leAt it 8 1
      let h := leAt it 9 2
      if leAt it 14 2 = 0xFFFF then some (w, h)
      else match templateAt img (leAt it 14 2), fontRef img (leAt it 12 1) s with
        | some hl, some f => some (max w (textWidth img f 1 0 hl), h + leAt it 11 1 + fontH f)
        | _, _ => none

/-- The box as it is placed. -/
def placedBox (it : List Byte) (b : Nat × Nat) : Nat × Nat := if itemRot it % 2 = 1 then (b.2, b.1) else b

/-- Every character a template may produce has a glyph. -/
def glyphsHeld (img f : List Byte) (l : List Elem) : Bool :=
  (places img l).all fun p => match p with
    | some cs => cs.all fun ch => (glyphOf f ch).isSome
    | none => false

/-- An item's fields meet R157 and its template and fonts meet R159. -/
def itemOk (img it : List Byte) (s : State) : Bool :=
  let t := itemType it
  let tmpl := templateAt img (leAt it 6 2)
  let tOk (ty : Nat) : Bool := match tmpl with
    | some l => templateOk img ty l
    | none => false
  decide (leAt it 1 1 < 16) &&
  (match t with
    | 1 =>
      tOk 1 && decide (leAt it 9 1 ≤ 15) && decide (1 ≤ leAt it 10 1) && decide (leAt it 10 1 ≤ 4) && decide (1 ≤ leAt it 11 1) &&
      decide (leAt it 11 1 ≤ 4) && zeros it 12 4 &&
      (match tmpl, fontRef img (leAt it 8 1) s with
        | some l, some f => glyphsHeld img f l
        | _, _ => false)
    | 2 => tOk 2 && decide (1 ≤ leAt it 8 1) && decide (leAt it 8 1 ≤ 32) && zeros it 10 6 && (dmSymbol img it).isSome
    | 3 | 4 =>
      tOk t && decide (1 ≤ leAt it 8 1) && decide (leAt it 8 1 ≤ 8) && decide (1 ≤ leAt it 9 2) && decide (leAt it 9 2 ≤ 4096) &&
      zeros it 13 1 &&
      (leAt it 14 2 == 0xFFFF ||
        match templateAt img (leAt it 14 2), fontRef img (leAt it 12 1) s with
        | some l, some f => templateOk img 1 l && glyphsHeld img f l
        | _, _ => false)
    | 5 => decide (leAt it 6 2 ≤ 15) && zeros it 12 4 && decide (ceilDiv (leAt it 10 2) 8 * leAt it 8 2 ≤ 8192)
    | _ => false) &&
  (match itemBox img it s with
    | some b =>
      let p := placedBox it b
      decide (itemX it + p.1 ≤ leAt (layoutOf img) 0 2) && decide (itemY it + p.2 ≤ leAt (layoutOf img) 2 2)
    | none => false)

/-- The items of a layout. -/
def itemsOf (img : List Byte) : List (List Byte) := (List.range (itemCount img)).map (itemRec img)

/-- The layout rules (R155 to R159). -/
def layoutOk (img : List Byte) (s : State) : Bool :=
  let l := layoutOf img
  let nf := leAt l 5 1
  decide (8 ≤ l.length) && decide (1 ≤ leAt l 0 2) && decide (leAt l 0 2 ≤ 4096) && decide (1 ≤ leAt l 2 2) && decide (leAt l 2 2 ≤ 4096) &&
  decide (1 ≤ itemCount img) && decide (itemCount img ≤ 64) && decide (nf ≤ 4) && zeros l 6 2 &&
  l.length == 8 + 12 * nf + 16 * itemCount img && (List.range nf).all (fun r => (fontRef img r s).isSome) &&
  (itemsOf img).all (fun it => itemOk img it s) && decide (((itemsOf img).filter fun it => itemType it == 5).length ≤ 16)

/-! ### Figures (R122, R160) -/

/-- Glyphs of an item. -/
def itemGlyphs (img it : List Byte) (s : State) : Nat :=
  let count (ofs : Nat) : Nat := (((templateAt img ofs).map (places img)).getD []).length
  match itemType it with
  | 1 =>
    let cell := match fontRef img (leAt it 8 1) s with
      | some f => fontW f * leAt it 10 1 * (fontH f * leAt it 11 1)
      | none => 0
    count (leAt it 6 2) * (if 4096 < cell then ceilDiv cell 4096 else 1)
  | 3 | 4 =>
    (match templateAt img (leAt it 6 2) with
      | some l => c128Count (c128Places img (itemType it == 4) l)
      | none => 0) + (if leAt it 14 2 = 0xFFFF then 0 else count (leAt it 14 2))
  | _ => 0

/-- Modules of an item. -/
def itemModules (img it : List Byte) : Nat := match itemType it with
  | 2 => match dmSymbol img it with
    | some k => let r := dmSizes.getD (k - 1) (0, 0); r.1 * r.2
    | none => 0
  | 5 => ceilDiv (leAt it 8 2 * leAt it 10 2) 64
  | _ => 0

/-- The figures published for a stencil. -/
def figuresOf (img : List Byte) (s : State) : Figures :=
  { fields := (fieldsOf img 1).length + (fieldsOf img 2).length + (fieldsOf img 3).length
    checks := (fieldsOf img 4).length
    glyphs := ((itemsOf img).map fun it => itemGlyphs img it s).sum
    dms := ((itemsOf img).filter fun it => itemType it == 2).length
    modules := ((itemsOf img).map (itemModules img)).sum
    tol := leAt img 20 1
    dateDep := dateDependent img }

end Sys2Proof.Machine
end

