-- ==== Sys2Proof/Machine/Trust.lean ====
section
/-! DEFINITION. The trust core: keys as its checks use them, the secure clock, serial counters, the mailbox framing, and restarts (R125
to R130, R135 to R140, R147, R150 to R153, R409). -/

namespace Sys2Proof.Machine

/-! ### The mailbox (R150 to R153) -/

/-- Statuses of R153. -/
def stOk : Nat := 0x00
def stBadLength : Nat := 0x01
def stBadType : Nat := 0x02
def stSignature : Nat := 0x03
def stKeySlot : Nat := 0x04
def stRollback : Nat := 0x05
def stNoRoom : Nat := 0x06
def stBadHandle : Nat := 0x07
def stInUse : Nat := 0x08
def stFieldRule : Nat := 0x09
def stStaleToken : Nat := 0x0A
def stWrongDevice : Nat := 0x0B
def stState : Nat := 0x0C
def stBusy : Nat := 0x0D
def stFormat : Nat := 0x0E
def stNotHeld : Nat := 0x0F

/-- A response: its status and its bytes. -/
abbrev Reply := Nat × List Byte

/-- What serves a request: from the payload, a response and the state after. -/
abbrev Handler := List Byte → State → Reply × State

/-- A refusal that changes nothing. -/
def refuse (st : Nat) (s : State) : Reply × State := ((st, []), s)

/-- A success. -/
def answer (l : List Byte) (s : State) : Reply × State := ((stOk, l), s)

/-- Payload bytes as buffer words, six bytes to a word (R151). -/
def putWords (base : Nat → Nat) (l : List Byte) (s : State) : State :=
  forAll (List.range (ceilDiv l.length 6)) (fun w t => t.setReg (base w) (BitVec.ofNat 48 (leAt l (6 * w) 6))) s

/-- Bytes of buffer words. -/
def getWords (base : Nat → Nat) (n : Nat) (s : State) : List Byte :=
  (List.range n).map fun k => BitVec.ofNat 8 (wordGet (s.reg (base (k / 6))) (8 * (k % 6)) 8)

/-- The response is written, VALID set, BUSY cleared and the trust vector raised (R150, R351). -/
def mailboxReply (ty tag : Nat) (r : Reply) (s : State) : State :=
  let s1 := setF fTRU_RSP_HDR_TYPE ty (setF fTRU_RSP_HDR_STATUS r.1 (setF fTRU_RSP_HDR_LEN r.2.length
    (setF fTRU_RSP_HDR_TAG tag (setB fTRU_RSP_HDR_VALID true (putWords rTRU_RSP r.2 s)))))
  signalVector 5 (setB fTRU_STAT_BUSY false s1)

/-- A supervisor switch runs: stencil loads wait for its end (R425). -/
def switching (s : State) : Bool := s.primer.switch == .toTrial || s.primer.switch == .toActive

/-- A request waits: during a trust-core restart, and a stencil load during a switch (R150, R425). -/
def requestWaits (ty : Nat) (s : State) : Bool :=
  getB fTRU_STAT_RESTARTING s || (switching s && decide (1 ≤ ty) && decide (ty ≤ 3))

/-- A retired device answers LC_STATUS only (R408). -/
def serveWith (ty : Nat) (h : Handler) (payload : List Byte) (s : State) : Reply × State :=
  if s.lc.state = .retired ∧ ty ≠ 0x60 then refuse stState s else h payload s

/-- A GO: rejected while BUSY or VALID, put off while the request has to wait, otherwise served at once (R150). -/
def mailboxGo (ty tag : Nat) (payload : List Byte) (h : Handler) (s : State) : State :=
  if getB fTRU_STAT_BUSY s ∨ getB fTRU_RSP_HDR_VALID s then setB fTRU_STAT_REJECTED_GO true s
  else if requestWaits ty s then setB fTRU_STAT_BUSY true { s with trust.waiting := some { type := ty, tag := tag, payload := payload } }
  else
    let r := serveWith ty h payload s
    mailboxReply ty tag r.1 r.2

/-- A mailbox message from the host: the payload and the header are written, then GO acts (R150). -/
def mailboxMessage (ty tag : Nat) (payload : List Byte) (h : Handler) (s : State) : State :=
  let p := payload.take 3072
  let s1 := setF fTRU_REQ_HDR_TYPE ty (setF fTRU_REQ_HDR_LEN p.length (setF fTRU_REQ_HDR_TAG tag (putWords rTRU_REQ p s)))
  mailboxGo ty (tag % 65536) p h s1

/-- The response is released by writing 1 to VALID (R150). -/
def execMailboxRspRelease (s : State) : Host.Outcome State Fault Refusal := .next (setB fTRU_RSP_HDR_VALID false s)

/-! ### Keys and signatures (R117, R409) -/

def roleStencil : Nat := 0
def roleTime : Nat := 1
def roleRebase : Nat := 2
def roleService : Nat := 3
def roleKeys : Nat := 4

/-- The key of an authority slot that holds a role. -/
def authKey (slot role : Nat) (s : State) : Option (List Byte) :=
  ((s.lc.auth.getD slot none).filter fun k => k.2.testBit role).map (·.1)

/-- A signed token of 128 bytes: its key's role and its signature over bytes 0 to 63; the status of the first check that fails. That
a token with several defects gets the status of the first in this order is a DESIGN CHOICE (log entry 198). -/
def tokenCheck (tok magic : List Byte) (slotAt role : Nat) (s : State) : Option Nat :=
  if tok.take 4 ≠ magic then some stFormat
  else match authKey (leAt tok slotAt 1) role s with
    | none => some stKeySlot
    | some k =>
      if Config.ecdsaVerify k (tok.take 64) (tok.drop 64) = false then some stSignature
      else if slice tok 4 16 ≠ deviceId s then some stWrongDevice
      else none

/-- A fresh nonce of 16 bytes. -/
def drawNonce (s : State) : List Byte × State :=
  (beBytes 16 (Config.random s.trust.rand).toNat, { s with trust.rand := s.trust.rand + 1 })

/-- A nonce is the one last issued, no more than 60 s ago, however the clock was set since (R126, R410). -/
def nonceFresh (issued : Option (List Byte × Nat)) (n : List Byte) (s : State) : Bool := match issued with
  | some (x, t) => decide (x = n) && decide (s.trust.upMs ≤ t + 60000)
  | none => false

/-! ### The secure clock (R126 to R130) -/

/-- A cause begins to hold; TRUSTED and CAUSE follow at the next millisecond of the clock (R130). -/
def addCause (c : TrustCause) (s : State) : State :=
  if s.trust.causes.contains c then s else { s with trust.causes := s.trust.causes ++ [c] }

/-- TIME_NONCE (R126). -/
def timeNonce : Handler := fun p s =>
  if p ≠ [] then refuse stBadLength s
  else
    let d := drawNonce s
    answer d.1 { d.2 with trust.nonce := some (d.1, d.2.trust.upMs) }

/-- TIME_TOKEN (R126, R127). The clock and the trust state change at the next millisecond of the clock (R130). Of several defects the first in
the order FORMAT, KEY_SLOT, SIGNATURE, WRONG_DEVICE, STALE_TOKEN gives the status (DESIGN CHOICE, log entry 198). An accepted token ends a slew
under way, the leap allowance and the run of failing hints (DESIGN CHOICE, log entry 199). -/
def timeToken : Handler := fun p s =>
  if p.length ≠ 128 then refuse stBadLength s
  else match tokenCheck p [0x53#8, 0x56#8, 0x54#8, 0x54#8] 48 roleTime s with
    | some st => refuse st s
    | none =>
      if !zeros p 49 15 || decide (leAt p 42 2 < 100) then refuse stFormat s
      else if nonceFresh s.trust.nonce (slice p 20 16) s = false ∨ leAt p 44 4 ≤ s.trust.tseq then refuse stStaleToken s
      else
        let old := secureTime s
        let issued := (s.trust.nonce.map (·.2)).getD s.trust.upMs
        let new := ((leAt p 36 6 : Int) + roundOpen ((s.trust.upMs : Int) - issued) 2).toNat % 2 ^ 48
        let keep := if s.trust.causes.contains .osc ∧ s.trust.oscGood < 10 then [TrustCause.osc] else []
        let s1 := setF fTRU_TSTAT_TOL (leAt p 42 2) { s with
          trust.tseq := leAt p 44 4, trust.hintRun := 0, trust.slew := 0, trust.leap := 0, trust.causes := keep, trust.timeDue := some new }
        let s2 := auditAppend { type := 6, serial := old, aux := new } (journalWrite s1)
        answer (leBytes 6 new ++ leBytes 2 (leAt p 42 2)) s2

/-- TIME_STATUS (R152). -/
def timeStatus : Handler := fun p s =>
  if p ≠ [] then refuse stBadLength s
  else answer (leBytes 6 (secureTime s) ++ leBytes 1 (if clockTrusted s then 1 else 0) ++ leBytes 1 (getF fTRU_TSTAT_CAUSE s) ++
    leBytes 4 (codeOf 32 s.trust.hintD) ++ leBytes 2 (getF fTRU_TSTAT_TOL s)) s

/-- The Svazar epoch in ms of Unix time, leap seconds not counted (R125). -/
def svazarEpoch : Int := 1577836800000

/-- A PTP hint in ms of PTP time with the UTC offset that PTP carries in s, and the leap second it announces: 1 inserted, −1 deleted, 0 none. The
offset converts it to UTC (R128, R363). -/
def ptpHint (hint : Nat) (utc leap : Int) (s : State) : State :=
  let sec := secureTime s / 1000
  if getB fTRU_TSTAT_HINT_EN s = false ∨ getB fLNP_PTP_LOCK s = false ∨ getB fTRU_STAT_RESTARTING s ∨ s.trust.hintLast = some sec then s
  else
    let d : Int := (hint : Int) - 1000 * utc - svazarEpoch - secureTime s
    let byOffset : Int := match s.trust.utcLast with
      | some u => if utc = u + 1 then 1 else if utc + 1 = u then -1 else 0
      | none => 0
    let news := if leap ≠ 0 ∧ leap ≠ s.trust.leapLast then leap else byOffset
    let l := if 0 < news then -1000 else if news < 0 then 1000 else s.trust.leap
    let s1 := setI fTRU_TSTAT_HINT_D d { s with
      trust.hintD := d, trust.hintLast := some sec, trust.utcLast := some utc, trust.leapLast := leap, trust.leap := l }
    if (d - l).natAbs ≤ getF fTRU_TSTAT_TOL s1 then { s1 with trust.slew := d, trust.hintRun := 0 }
    else
      let s2 := { s1 with trust.slew := 0, trust.hintRun := s1.trust.hintRun + 1 }
      if 8 ≤ s2.trust.hintRun then addCause .hint s2 else s2

def execPtpHint (hint : Nat) (utc leap : Int) (s : State) : Host.Outcome State Fault Refusal := .next (ptpHint hint utc leap s)

/-! ### Serial counters (R135 to R140) -/

/-- The COUNTER_ID of a stencil and its range. -/
def serialField (img : List Byte) : Option Nat := (fieldsOf img 3).head?
def serialId (img : List Byte) (i : Nat) : Nat := leAt (fieldParam img i) 0 4
def serialPre (img : List Byte) (i : Nat) : Nat := leAt (fieldParam img i) 16 1

/-- The counter slot of an ID. -/
def slotOfId (id : Nat) (s : State) : Option Nat := (List.range 64).find? fun k => (counter k s).any fun c => c.id == id

/-- Reserved numbers not yet handed out (R136). -/
def unassigned (c : Counter) : Nat := c.next - c.assign

/-- A block reservation starts whenever 128 or fewer reserved numbers are unassigned and END has not been reached; it waits while the trust
core restarts (R136, R147). -/
def reserveBlock (k : Nat) (s : State) : State :=
  match counter k s with
  | none => s
  | some c =>
    if c.writing.isSome ∨ c.state = .broken ∨ 128 < unassigned c ∨ c.stop < c.next then s
    else if getB fTRU_STAT_RESTARTING s then
      if s.trust.reserveWait.contains k then s else { s with trust.reserveWait := s.trust.reserveWait ++ [k] }
    else putCounter k { c with writing := some (min 256 (c.stop + 1 - c.next)) } s

/-- DRY or EXHAUSTED once no unassigned number remains; DRY also where the reservation waits for the trust core's restart (R136, R147). -/
def runState (k : Nat) (s : State) : State :=
  match counter k s with
  | none => s
  | some c =>
    if c.assign < c.next ∨ c.state = .broken ∨ c.state = .dry then s
    else if c.stop < c.next then putCounter k { c with state := .exhausted } s
    else if c.writing.isSome ∨ s.trust.reserveWait.contains k then flashFault (putCounter k { c with state := .dry } s)
    else s

/-- The stencil slots whose serial field names a counter, with the slot's PREISSUE. -/
def usersOf (id : Nat) (s : State) : List (Nat × Nat) := (List.range 32).filterMap fun sl =>
  match (s.trust.stencils.getD sl {}).image with
  | some img => match serialField img with
    | some i => if serialId img i = id then some (sl, serialPre img i) else none
    | none => none
  | none => none

/-- The pre-issue queue of a stencil slot. -/
def preQueue (sl : Nat) (s : State) : List Nat := (spFind s.trust.preissue sl).getD []

def setPreQueue (sl : Nat) (l : List Nat) (s : State) : State :=
  { s with trust.preissue := if l.isEmpty then spErase s.trust.preissue sl else spInsert s.trust.preissue sl l }

/-- A pre-issue queue is refilled from its counter slot (R137). -/
def refill (k sl pre : Nat) (s : State) : State :=
  match counter k s with
  | none => s
  | some c =>
    let q := preQueue sl s
    let n := min (pre - q.length) (unassigned c)
    if n = 0 ∨ c.state = .broken then s
    else setPreQueue sl (q ++ (List.range n).map (c.assign + ·)) (putCounter k { c with assign := c.assign + n } s)

/-- Every queue of a counter is refilled, and a block is reserved where the slot runs low. -/
def feedCounter (k : Nat) (s : State) : State :=
  match counter k s with
  | none => s
  | some c => runState k (reserveBlock k (forAll (usersOf c.id s) (fun u => refill k u.1 u.2) s))

/-- A block's flash write completes: ISSUED and RESERVED rise and its numbers may be assigned; one that fails leaves the slot DRY until a
write succeeds (R136). -/
def blockWriteDone (k : Nat) (ok : Bool) (s0 : State) : State :=
  let s := compareCounter k s0
  match counter k s with
  | none => s
  | some c =>
    match c.writing with
    | none => s
    | some n =>
      if ok then
        feedCounter k (putCounter k { c with
          writing := none, next := c.next + n, issued := c.issued + n, reserved := c.reserved + n,
          state := if c.state = .dry then .normal else c.state } (journalWrite s))
      else flashFault (putCounter k { c with state := if c.state = .broken then .broken else .dry } (journalWrite s))

def execBlockWriteDone (k : Nat) (ok : Bool) (s : State) : Host.Outcome State Fault Refusal := .next (blockWriteDone k ok s)

/-- A number put in its place in a rising list. -/
def insertNat (a : Nat) : List Nat → List Nat
  | [] => [a]
  | b :: t => if a < b then a :: b :: t else if a = b then b :: t else b :: insertNat a t

/-- The contiguous ranges of a rising list. -/
def rangesOf : List Nat → List (Nat × Nat)
  | [] => []
  | a :: t => match rangesOf t with
    | (b, e) :: r => if b = a + 1 then (a, e) :: r else (a, a) :: (b, e) :: r
    | [] => [(a, a)]

/-- The numbers of a slot that stand RESERVED: unassigned, pre-issued, left by an unloaded stencil, and those of products. -/
def reservedNumbers (k : Nat) (s : State) : List Nat :=
  match counter k s with
  | none => []
  | some c =>
    let held := (s.sch.ptab.filterMap fun p => (composeSerial p.2.compose).bind fun x =>
      if x.slot = k ∧ x.state = .reserved then some x.value else none) ++
      (s.sch.unsettled.filterMap fun u => if u.2.slot = k then some u.2.value else none)
    let l := (List.range (unassigned c)).map (c.assign + ·) ++ (usersOf c.id s).flatMap (fun u => preQueue u.1 s) ++ c.orphans ++ held
    l.foldl (fun a x => insertNat x a) []

/-- Every number of a slot still RESERVED becomes VOIDED, with one VOID_RANGE entry for each contiguous range (R31, R138, R140). -/
def voidReserved (k : Nat) (s : State) : State :=
  match counter k s with
  | none => s
  | some c =>
    let rs := rangesOf (reservedNumbers k s)
    let s1 := forAll rs (fun r => auditAppend { type := 3, slot := k, serial := r.1, aux := r.2 }) s
    let s2 := forAll (usersOf c.id s1) (fun u => setPreQueue u.1 []) s1
    let void (p : Product) : Product := match composeSerial p.compose with
      | some x => if x.slot = k ∧ x.state = .reserved then { p with compose := withSerial { x with state := .voided } p.compose } else p
      | none => p
    let s3 := { s2 with sch.ptab := s2.sch.ptab.map fun p => (p.1, void p.2)
                        sch.unsettled := s2.sch.unsettled.filter fun u => decide (u.2.slot ≠ k) }
    modCounter k (fun d => { d with voided := d.voided + d.reserved, reserved := 0, assign := d.next, orphans := [] }) s3

/-- State codes of a slot (R135). -/
def cstateCode : CState → Nat
  | .normal => 0
  | .dry => 1
  | .exhausted => 2
  | .broken => 3

/-- What a counter slot without a counter reads as. -/
def emptyCounter : Counter :=
  { id := 0, start := 0, stop := 0, next := 0, assign := 0, issued := 0, printed := 0, voided := 0, reserved := 0, state := .normal,
    writing := none, orphans := [] }

/-- SERIAL_LEDGER (R139). -/
def serialLedger : Handler := fun p s =>
  if p.length ≠ 1 then refuse stBadLength s
  else if 64 ≤ leNat p then refuse stBadHandle s
  else
    let c := (counter (leNat p) s).getD emptyCounter
    answer (leBytes 6 (now s).toNat ++ leBytes 6 c.issued ++ leBytes 6 c.printed ++ leBytes 6 c.voided ++
        leBytes 6 c.reserved ++ leBytes 6 c.next ++ leBytes 1 (cstateCode c.state) ++ leBytes 4 c.id) s

/-- A product IN_FLIGHT holds a number of the slot. -/
def slotHeld (k : Nat) (s : State) : Bool := s.sch.ptab.any fun p =>
  decide (p.2.state = .inFlight) && (composeSerial p.2.compose).any fun x => decide (x.slot = k)

/-- COUNTER_REBASE (R140). A token whose END lies below its START is refused with FORMAT (DESIGN CHOICE, log entry 164). Of several defects the
first in the order FORMAT, KEY_SLOT, SIGNATURE, WRONG_DEVICE, STALE_TOKEN, BAD_HANDLE, IN_USE, BUSY gives the status (DESIGN CHOICE, log entry
198). -/
def counterRebase : Handler := fun p s =>
  if p.length ≠ 128 then refuse stBadLength s
  else match tokenCheck p [0x53#8, 0x56#8, 0x52#8, 0x42#8] 40 roleRebase s with
    | some st => refuse st s
    | none =>
      if !zeros p 41 23 || decide (leAt p 34 6 < leAt p 28 6) then refuse stFormat s
      else if leAt p 24 4 ≤ s.trust.rseq then refuse stStaleToken s
      else match slotOfId (leAt p 20 4) s with
        | none => refuse stBadHandle s
        | some k =>
          if slotHeld k s then refuse stInUse s
          else if (counter k s).any fun c => c.writing.isSome then refuse stBusy s
          else
            let s1 := auditAppend { type := 4, slot := k } (voidReserved k s)
            let start := leAt p 28 6
            let s2 := journalWrite (modCounter k (fun c => { c with
              start := start, stop := leAt p 34 6, next := start, assign := start, issued := 0, printed := 0, voided := 0, reserved := 0,
              state := .normal }) { s1 with trust.rseq := leAt p 24 4, trust.savedCounters := spErase s1.trust.savedCounters k })
            answer (leBytes 1 k) (reserveBlock k s2)

/-! ### Restarts (R147, R434, R437) -/

/-- The ticks of the last ten minutes among a list. -/
def lastTenMinutes (l : List Word) (s : State) : List Word := l.filter fun t => decide ((now s - t).toNat < 120000000000)

/-- The 60 s checkpoint (R144). -/
def execCkptTimer (s : State) : Host.Outcome State Fault Refusal :=
  .next (if s.trust.ckptNew ∧ 12000000000 ≤ (now s - s.trust.ckptTick).toNat then checkpointDue (s.trust.auditNext - 1) s else s)

/-- The trust core starts a restart: RESTARTING is set and its recovery window opens; an injection or a second fault starts it again
(R147, R435). -/
def trustRestart (s : State) : State := setB fFLT_REC_TRUST true (setB fTRU_STAT_RESTARTING true s)

/-- Restarts that end the fault-free time of a trial (R427). -/
def trialFault (s : State) : State := { s with primer.trialFrom := now s }

/-- A trust-core fault: the core restarts; the fourth within ten minutes enters DEVICE_SAFE (R434, R437). -/
def trustCoreFault (s : State) : State :=
  let l := lastTenMinutes s.primer.trustRestarts s ++ [now s]
  let s1 := incSat fFLT_RESTART_TRUST_TOTAL (setF fFLT_RESTART_TRUST_10MIN (min 255 l.length) { s with primer.trustRestarts := l })
  let s2 := trialFault s1
  if 4 ≤ l.length then trustRestart (raiseDeviceSafe srcTrust true (min 255 l.length) s2)
  else trustRestart (raiseShared srcTrust clsNote (min 255 l.length) s2)

def execTrustCoreFault (s : State) : Host.Outcome State Fault Refusal := .next (trustCoreFault s)

end Sys2Proof.Machine
end

