-- ==== Sys2Proof/Machine/Compose.lean ====
section
/-! DEFINITION. The field generator: dates, batch codes, serial numbers, check codes and the composition of a product (R129 to R137, R141,
R148, R149). -/

namespace Sys2Proof.Machine

/-! ### Civil dates (R131) -/

/-- A civil date of the proleptic Gregorian calendar. -/
structure Civil where
  y : Int
  m : Nat
  d : Nat
  deriving DecidableEq, Repr

/-- The number of the day 2020-01-01 in the count of days from 0000-03-01. -/
def dayZero : Int := 737730

/-- The civil date of a number of days after 2020-01-01. -/
def civilOf (n : Int) : Civil :=
  let z := n + dayZero
  let era := z / 146097
  let doe : Int := z % 146097
  let yoe : Int := (doe - doe / 1460 + doe / 36524 - doe / 146096) / 365
  let doy : Int := doe - (365 * yoe + yoe / 4 - yoe / 100)
  let mp := (5 * doy + 2) / 153
  let d := doy - (153 * mp + 2) / 5 + 1
  let m := if mp < 10 then mp + 3 else mp - 9
  { y := yoe + era * 400 + if m ≤ 2 then 1 else 0, m := m.toNat, d := d.toNat }

/-- Days after 2020-01-01 of a civil date; the day number may run past its month. -/
def daysOf (y : Int) (m d : Nat) : Int :=
  let y1 : Int := if m ≤ 2 then y - 1 else y
  let era := y1 / 400
  let yoe : Int := y1 % 400
  let mp : Int := if 2 < m then (m : Int) - 3 else (m : Int) + 9
  let doy : Int := (153 * mp + 2) / 5 + (d : Int) - 1
  era * 146097 + yoe * 365 + yoe / 4 - yoe / 100 + doy - dayZero

/-- The days of a month. -/
def monthLength (y : Int) (m : Nat) : Nat :=
  (if m = 12 then daysOf (y + 1) 1 1 - daysOf y 12 1 else daysOf y (m + 1) 1 - daysOf y m 1).toNat

/-- Months added under MEND: 0 carries into the next month, 1 holds to the last day, 2 moves to it. -/
def addMonths (n : Int) (months mend : Nat) : Int :=
  let c := civilOf n
  let k := c.m - 1 + months
  let y := c.y + (k / 12 : Nat)
  let m := k % 12 + 1
  if mend = 0 then daysOf y m c.d
  else if mend = 1 then daysOf y m (min c.d (monthLength y m))
  else daysOf y m (monthLength y m)

/-- Day of the year, from 1. -/
def dayOfYear (n : Int) : Nat := (n - daysOf (civilOf n).y 1 1 + 1).toNat

/-- The ISO 8601 week: that of the Thursday of the day's week. 2020-01-01 is a Wednesday. -/
def isoWeek (n : Int) : Nat := (dayOfYear (n - (n + 2) % 7 + 3) - 1) / 7 + 1

/-- A number in decimal digits, zero-padded, its lowest places kept. -/
def decimal : Nat → Nat → List Byte
  | 0, _ => []
  | k + 1, x => decimal k (x / 10) ++ [BitVec.ofNat 8 (0x30 + x % 10)]

/-! ### The latch's local time (R118, R131) -/

/-- The zone offset in minutes at a secure time. -/
def zoneAt (img : List Byte) (t : Nat) : Int :=
  let pool := poolOf img
  let o := leAt img 36 2
  ((List.range (leAt img 38 1)).filter fun k => decide (leAt pool (o + 8 * k) 6 ≤ t)).getLast?.elim
    (leSigned img 22 2) (fun k => leSigned pool (o + 8 * k + 6) 2)

/-- The production day of a latch, in days after 2020-01-01. -/
def productionDay (img : List Byte) (t : Nat) : Int :=
  ((t : Int) + zoneAt img t * 60000 - (leAt img 24 2 : Int) * 60000) / 86400000

/-- The local minute of the day of a latch. -/
def localMinute (img : List Byte) (t : Nat) : Nat := ((((t : Int) + zoneAt img t * 60000) / 60000) % 1440).toNat

/-! ### Texts (R132, R133) -/

/-- What the tokens of a batch format stand for beside the date. -/
structure BatchText where
  shift : Byte := 0
  line : Nat := 0
  width : Nat := 0
  seq : Nat := 0

/-- The text of one token. -/
def tokenText (img : List Byte) (n : Int) (b : BatchText) : Token → List Byte
  | .yyyy => decimal 4 (civilOf n).y.toNat
  | .yy => decimal 2 (civilOf n).y.toNat
  | .y => decimal 1 (civilOf n).y.toNat
  | .mmm => slice (poolOf img) (leAt img 40 2 + 3 * ((civilOf n).m - 1)) 3
  | .mm => decimal 2 (civilOf n).m
  | .dd => decimal 2 (civilOf n).d
  | .jjj => decimal 3 (dayOfYear n)
  | .ww => decimal 2 (isoWeek n)
  | .shift => [b.shift]
  | .line => decimal 1 b.line
  | .seq => decimal b.width b.seq
  | .lit c => [c]

/-- A text by a field's format. -/
def formatted (img : List Byte) (i : Nat) (n : Int) (b : BatchText) : List Byte :=
  ((formatOf img i).getD []).flatMap (tokenText img n b)

/-- A DATE field of a latch (R131). -/
def dateText (img : List Byte) (i : Nat) (t : Nat) : List Byte :=
  let p := fieldParam img i
  formatted img i (addMonths (productionDay img t) (leAt p 4 1) (leAt p 5 1) + leSigned p 2 2) {}

/-- The entry of the shift table in force at a latch: the largest start at or before the local minute, else the last (R133). -/
def shiftAt (img : List Byte) (i : Nat) (t : Nat) : Option Nat :=
  let pool := poolOf img
  let p := fieldParam img i
  let o := leAt p 4 2
  let ks := List.range (leAt p 6 1)
  let best := (ks.filter fun k => decide (leAt pool (o + 3 * k) 2 ≤ localMinute img t)).foldl
    (fun (a : Option Nat) k => match a with
      | some j => if leAt pool (o + 3 * j) 2 < leAt pool (o + 3 * k) 2 then some k else a
      | none => some k) none
  if best.isSome then best else ks.getLast?

def shiftLetter (img : List Byte) (i : Nat) (k : Option Nat) : Byte := match k with
  | some j => (slice (poolOf img) (leAt (fieldParam img i) 4 2 + 3 * j + 2) 1).headD 0
  | none => Config.noShiftLetter

/-! ### Batch sequences (R133, R134) -/

/-- The batch sequence of a stencil on a line. -/
def batchOf (handle line : Nat) (s : State) : Batch :=
  (s.trust.batches.find? fun b => decide (b.handle = handle) && decide (b.line = line)).getD
    { handle := handle, line := line, seq := 1, lastDay := none, lastShift := none }

/-- A sequence raised by `k`, which wraps from 10^width − 1 to 1. -/
def raiseSeq (width seq k : Nat) : Nat := (seq - 1 + k) % (10 ^ width - 1) + 1

/-- The advances that have taken effect by a product number. -/
def dueAdvances (handle line pnum : Nat) (s : State) : Nat :=
  (s.trust.advances.filter fun a => decide (a.handle = handle) && decide (a.line = line) && decide (a.pnumAt.toNat ≤ pnum)).length

/-- The previous composed product on the line is the one of this stencil handle: each handle keeps its own sequence for each line (R133;
DESIGN CHOICE, log entry 162). The batch state that a product takes: reset by its production day or shift, which consumes its advances, or raised by them. -/
def nextBatch (img : List Byte) (i : Nat) (q : Product) (s : State) : Batch :=
  let b := batchOf q.stencil q.line s
  let p := fieldParam img i
  let day := productionDay img q.date.toNat
  let sh := shiftAt img i q.date.toNat
  let reset : Bool := match leAt p 3 1 with
    | 1 => b.lastDay.any fun d => decide (d ≠ day)
    | 2 => b.lastDay.isSome && decide (b.lastShift ≠ sh)
    | _ => false
  { b with seq := if reset then 1 else raiseSeq (leAt p 2 1) b.seq (dueAdvances q.stencil q.line q.pnum.toNat s)
           lastDay := some day, lastShift := sh }

/-- A BATCH field (R132). -/
def batchText (img : List Byte) (i : Nat) (q : Product) (s : State) : List Byte :=
  let b := nextBatch img i q s
  formatted img i (productionDay img q.date.toNat)
    { shift := shiftLetter img i b.lastShift, line := q.line, width := leAt (fieldParam img i) 2 1, seq := b.seq }

/-- The product's batch state is kept and the advances it has taken are gone. -/
def putBatch (b : Batch) (pnum : Nat) (s : State) : State :=
  { s with
    trust.batches := b :: s.trust.batches.filter fun x => !(decide (x.handle = b.handle) && decide (x.line = b.line))
    trust.advances := s.trust.advances.filter fun a =>
      !(decide (a.handle = b.handle) && decide (a.line = b.line) && decide (a.pnumAt.toNat ≤ pnum)) }

/-! ### Serials, open values and check codes (R123, R135, R141) -/

/-- A number in `k` digits of an alphabet, most significant first. -/
def inBase (cs : List Byte) : Nat → Nat → List Byte
  | 0, _ => []
  | k + 1, x => inBase cs k (x / cs.length) ++ [cs.getD (x % cs.length) 0]

/-- A serial text: the value in the alphabet's base, padded to MAXLEN with its first character; longer where it does not fit. -/
def serialText (img : List Byte) (i v : Nat) : List Byte :=
  let cs := fieldChars img i
  let k := fieldMax img i
  if v < cs.length ^ k then inBase cs k v else inBase cs (k + 1) v

/-- The number a composition would take: the head of the stencil's queue, or the lowest unassigned number of a slot that is not DRY or
EXHAUSTED; none in BREAK (R137, R149). -/
def nextSerial (handle k : Nat) (s : State) : Option Nat :=
  match counter k s with
  | none => none
  | some c =>
    if c.state = .broken then none
    else match preQueue (handle % 32) s with
      | v :: _ => some v
      | [] => if c.state = .normal ∧ c.assign < c.next then some c.assign else none

/-- The number is taken: from the queue, which is refilled, or from the slot (R136, R137). -/
def takeSerial (handle k : Nat) (s : State) : State :=
  let sl := handle % 32
  match preQueue sl s with
  | _ :: t => feedCounter k (setPreQueue sl t s)
  | [] => feedCounter k (modCounter k (fun c => { c with assign := c.assign + 1 }) s)

/-- The value of an OPEN field for a product: the latest accepted set that has reached it and names the field (R123). -/
def openValue (handle line pnum i : Nat) (s : State) : Option (List Byte) :=
  (s.trust.openVals.filter fun o => decide (o.handle = handle) && decide (o.line = line) && decide (o.pnumAt.toNat ≤ pnum)).findSome?
    fun o => (o.records.find? fun r => r.1 == i).map (·.2)

/-- A CHECK field over the composed fields it covers; none where its key slot is empty. -/
def checkText (img : List Byte) (i : Nat) (texts : List (Nat × List Byte)) (s : State) : Option (List Byte) :=
  let p := fieldParam img i
  let cover := leAt p 1 3
  let cs := fieldChars img i
  let k := fieldMax img i
  (s.lc.check.getD (leAt p 0 1) none).map fun key =>
    let m := [0x53#8, 0x56#8, 0x5A#8, 0x43#8] ++ slice img 12 4 ++ slice img 16 2 ++ slice p 0 1 ++
      encodeFields (texts.filter fun x => cover.testBit x.1)
    inBase cs k ((Config.aesCmac key m).toNat / 2 ^ 64 % cs.length ^ k)

/-- A composed text keeps its field rule: no longer than MAXLEN, every character of the alphabet (R132). -/
def textFits (img : List Byte) (x : Nat × List Byte) : Bool :=
  decide (x.2.length ≤ fieldMax img x.1) && x.2.all fun b => (fieldChars img x.1).contains b

/-! ### Composition (R148, R149) -/

/-- The text of every field but the CHECK fields; none where a value is missing. -/
def plainText (img : List Byte) (i : Nat) (q : Product) (serial : Option Nat) (s : State) : Option (List Byte) :=
  match fieldType img i with
  | 1 => some (dateText img i q.date.toNat)
  | 2 => some (batchText img i q s)
  | 3 => serial.map (serialText img i)
  | _ =>
    match openValue q.stencil q.line q.pnum.toNat i s with
    | some l => some l
    | none => if fieldMin img i = 0 then some [] else none

/-- Every element of a list of results, or none. -/
def allSome {α : Type} : List (Option α) → Option (List α)
  | [] => some []
  | x :: t => x.bind fun a => (allSome t).map (a :: ·)

/-- The composed texts by field index, ascending; none where the composition is refused (R149). -/
def composeTexts (img : List Byte) (q : Product) (serial : Option Nat) (s : State) : Option (List (Nat × List Byte)) :=
  let n := fieldCount img
  let plain := (List.range n).filter fun i => fieldType img i != 4
  (allSome (plain.map fun i => (plainText img i q serial s).map fun t => (i, t))).bind fun ts =>
    (allSome ((fieldsOf img 4).map fun i => (checkText img i ts s).map fun t => (i, t))).bind fun cs =>
      let all := (List.range n).filterMap fun i => (ts ++ cs).find? fun x => x.1 == i
      if all.all (textFits img) then some all else none

/-- The product whose composition is next: the earliest request, then ascending line, then the order of R84 (R137). -/
def nextAsked (s : State) : Option (Nat × Product) :=
  let key (p : Product) : List Nat := match p.compose with
    | .asked t => [2 ^ 48 - (now s - t).toNat, p.line, p.seq]
    | _ => []
  (s.sch.ptab.filter fun x => decide (x.2.state = .inFlight) && (match x.2.compose with
    | .asked _ => true
    | _ => false)).foldl
    (fun best x => match best with
      | none => some x
      | some y => if decide (key x.2 < key y.2) then some x else some y) none

/-- A refused composition: every job of the product becomes NOT_STARTED with cause NOT_ARMED, and the product closes (R100, R149). -/
def refuseComposition (i : Nat) (q : Product) (s : State) : State :=
  let s1 := modProduct i (fun p => { p with compose := .none }) s
  closeIfDone i (dropRenders (forAll (jobsOf q s1) (fun x => doIf (jobOpen x.2.state && decide (x.2.state ≠ .started))
    (notStarted x.1 .notArmed)) s1))

/-- A product's render takes its place behind the renders whose compositions completed before (R168). -/
def renderComposed (prod : Nat) (s : State) : State :=
  let due (r : RenderReq) : Bool := !r.composed && decide (r.prod = prod)
  { s with ren.queue := s.ren.queue.filter (·.composed) ++ ((s.ren.queue.filter due).map fun r => { r with composed := true }) ++
      s.ren.queue.filter fun r => !r.composed && !due r }

/-- The counter slot that the SERIAL field of a stencil takes its number from. -/
def serialSlot (img : List Byte) (s : State) : Option Nat := (serialField img).bind fun f => slotOfId (serialId img f) s

/-- The next requested composition completes: the field set is passed to the renderer, or refused (R148, R149). The copies of the counter slot
that it takes a number from are compared first (R37). -/
def fieldCompose (s0 : State) : State :=
  match nextAsked s0 with
  | none => s0
  | some (i, q) =>
    match stencilOf q.stencil s0 with
    | none => refuseComposition i q s0
    | some img =>
      let k := serialSlot img s0
      let s := (k.map fun c => compareCounter c s0).getD s0
      let v := k.bind fun c => nextSerial q.stencil c s
      let needs := (serialField img).isSome
      if getB fTRU_AUDIT_STAT_FULL s ∨ (needs ∧ v.isNone) then
        refuseComposition i q (if needs then (k.map fun c => runState c s).getD s else s)
      else match composeTexts img q v s with
        | none => refuseComposition i q s
        | some ts =>
          let serial : Option Serial := match k, v with
            | some c, some x => if needs then some { slot := c, value := x, state := .reserved } else none
            | _, _ => none
          let s1 := match (fieldsOf img 2).head? with
            | some f => putBatch (nextBatch img f q s) q.pnum.toNat s
            | none => s
          let s2 := match k with
            | some c => if needs then takeSerial q.stencil c s1 else s1
            | none => s1
          let s3 := modProduct i (fun p => { p with compose := .done { texts := ts, serial := serial } }) s2
          renderComposed q.seq s3

def execFieldCompose (s : State) : Host.Outcome State Fault Refusal := .next (fieldCompose s)

end Sys2Proof.Machine
end

