-- ==== Sys2Proof/Machine/Mailbox.lean ====
section
/-! DEFINITION. The trust mailbox's messages on stencils, open values, batches, time, counters, the audit chain and the identity (R121 to
R123, R126, R134, R139, R140, R144, R145, R152). -/

namespace Sys2Proof.Machine

/-! ### Loading stencils (R117, R121, R122) -/

/-- STENCIL_BEGIN discards an incomplete load. -/
def stencilBegin : Handler := fun p s =>
  if p.length ≠ 4 then refuse stBadLength s
  else if 16384 < leNat p then refuse stFormat s
  else answer [] { s with trust.load := some (leNat p, []) }

/-- STENCIL_DATA: bytes at an offset within TOTAL_LEN; a byte never supplied is zero. -/
def stencilData : Handler := fun p s =>
  if p.length < 5 then refuse stBadLength s
  else match s.trust.load with
    | none => refuse stBadLength s
    | some (total, l) =>
      let o := leAt p 0 4
      let x := p.drop 4
      if total < o + x.length then refuse stBadLength s
      else answer [] { s with trust.load := some (total, overlay (padTo (max l.length (o + x.length)) l) o x) }

/-- The lowest free storage slot that takes a further load. -/
def freeStorage (s : State) : Option Nat := (List.range 32).find? fun k =>
  let x := s.trust.stencils.getD k {}
  x.image.isNone && decide (x.gen < 2047)

/-- The handle of a storage slot. -/
def handleOf (slot : Nat) (s : State) : Nat := slot + 32 * (s.trust.stencils.getD slot {}).gen

/-- The storage slot that already holds an identity and revision. -/
def loadedSlot (img : List Byte) (s : State) : Option Nat := (List.range 32).find? fun k =>
  (s.trust.stencils.getD k {}).image.any fun x => decide (slice x 12 6 = slice img 12 6)

/-- The figures as the mailbox gives them (R122). -/
def figureBytes (f : Figures) : List Byte :=
  leBytes 1 f.fields ++ leBytes 1 f.checks ++ leBytes 2 f.glyphs ++ leBytes 1 f.dms ++ leBytes 4 f.modules ++ leBytes 1 f.tol

/-- A counter slot is allocated to a new COUNTER_ID, and its first block is reserved (R121, R136). -/
def allocateCounter (img : List Byte) (s : State) : State :=
  match serialField img with
  | none => s
  | some i =>
    let id := serialId img i
    if (slotOfId id s).isSome then s
    else match (List.range 64).find? fun k => (counter k s).isNone with
      | none => s
      | some k =>
        let p := fieldParam img i
        let start := leAt p 4 6
        reserveBlock k (putCounter k { id := id, start := start, stop := leAt p 10 6, next := start, assign := start, issued := 0, printed := 0,
                                       voided := 0, reserved := 0, state := .normal, writing := none, orphans := [] } s)

/-- The pre-issue queue of a stencil's storage slot is filled. -/
def fillQueue (img : List Byte) (s : State) : State :=
  match (serialField img).bind fun i => slotOfId (serialId img i) s with
  | some k => feedCounter k s
  | none => s

/-- A floor raised to a revision (R121). -/
def raiseFloor (id rev : Nat) (l : List (Nat × Nat)) : List (Nat × Nat) := (id, rev) :: l.filter fun f => decide (f.1 ≠ id)

/-- A stencil stored: its slot filled, its id's revision floor raised (R121). -/
def storeStencil (k id rev : Nat) (x : StencilSlot) (s : State) : State :=
  { s with trust.floors := raiseFloor id rev s.trust.floors, trust.stencils := s.trust.stencils.set k x }

/-- STENCIL_END: the checks of R121 in order, then the load. -/
def stencilEnd : Handler := fun p s =>
  if p ≠ [] then refuse stBadLength s
  else match s.trust.load with
    | none => refuse stFormat s
    | some (total, l) =>
      let img := padTo total l
      let s0 := { s with trust.load := none }
      let keyId := leAt img 18 1
      let id := leAt img 12 4
      let rev := leAt img 16 2
      let floor := (s.trust.floors.find? fun f => f.1 == id).map (·.2)
      let checkKeys := (fieldsOf img 4).all fun i => (s.lc.check.getD (leAt (fieldParam img i) 0 1) none).isSome
      if s.lc.state ≠ .deployed ∧ s.lc.state ≠ .service then refuse stState s0
      else if (structureOk img && layoutOk img s) = false then refuse stFormat s0
      else match authKey keyId roleStencil s with
        | none => refuse stKeySlot s0
        | some key =>
          if checkKeys = false then refuse stKeySlot s0
          else if Config.ecdsaVerify key (img.take (total - 64)) (img.drop (total - 64)) = false then refuse stSignature s0
          else if floor.any fun f => decide (rev < f) then refuse stRollback s0
          else match loadedSlot img s with
            | some k => answer (leBytes 2 (handleOf k s) ++ figureBytes (s.trust.stencils.getD k {}).figs) s0
            | none =>
              let newId := (serialField img).any fun i => (slotOfId (serialId img i) s).isNone
              let full := newId && (List.range 64).all fun k => (counter k s).isSome
              match freeStorage s with
              | none => refuse stNoRoom s0
              | some k =>
                if (floor.isNone ∧ 256 ≤ s.trust.floors.length) ∨ full then refuse stNoRoom s0
                else
                  let x : StencilSlot := { gen := (s.trust.stencils.getD k {}).gen + 1, image := some img, figs := figuresOf img s }
                  let s1 := allocateCounter img (storeStencil k id rev x (journalWrite s0))
                  let y := { x with counter := (serialField img).bind fun i => slotOfId (serialId img i) s1 }
                  let s2 := auditAppend { type := 8, revision := rev, stencilId := id }
                    { s1 with trust.stencils := s1.trust.stencils.set k y }
                  answer (leBytes 2 (handleOf k s1) ++ figureBytes x.figs) (if newId then s2 else fillQueue img s2)

/-- A VALID binding slot names a handle. -/
def handleBound (h : Nat) (s : State) : Bool :=
  s.sch.binds.any fun b => decide (b.2.stencil = h) && getB (fSCH_BIND_CTL_VALID b.1) s

/-- STENCIL_UNLOAD: the storage slot empties; numbers pre-issued to it stay RESERVED at their counter slot (R122, R137). -/
def stencilUnload : Handler := fun p s =>
  if p.length ≠ 2 then refuse stBadLength s
  else
    let h := leNat p
    match stencilOf h s with
    | none => refuse stBadHandle s
    | some img =>
      if handleBound h s then refuse stInUse s
      else
        let k := h % 32
        let s1 := match (serialField img).bind fun i => slotOfId (serialId img i) s with
          | some c => modCounter c (fun x => { x with orphans := x.orphans ++ preQueue k s }) s
          | none => s
        let s2 := setPreQueue k [] s1
        answer [] { s2 with
          trust.stencils := s2.trust.stencils.set k { gen := (s2.trust.stencils.getD k {}).gen }
          trust.openPend := s2.trust.openPend.filter fun o => decide (o.handle ≠ h)
          trust.openVals := s2.trust.openVals.filter fun o => decide (o.handle ≠ h)
          trust.batches := s2.trust.batches.filter fun o => decide (o.handle ≠ h)
          trust.advances := s2.trust.advances.filter fun o => decide (o.handle ≠ h) }

/-- The entry of a storage slot in STENCIL_INFO. -/
def infoOf (k : Nat) (s : State) : List Byte :=
  let x := s.trust.stencils.getD k {}
  match x.image with
  | some img => leBytes 2 (handleOf k s) ++ slice img 12 4 ++ slice img 16 2 ++ figureBytes x.figs
  | none => []

/-- STENCIL_INFO. -/
def stencilInfo : Handler := fun p s =>
  if p = [] then answer ((List.range 32).flatMap fun k => infoOf k s) s
  else if p.length ≠ 2 then refuse stBadLength s
  else match stencilOf (leNat p) s with
    | none => refuse stBadHandle s
    | some _ => answer (infoOf (leNat p % 32) s) s

/-! ### Open values and batch advances (R123, R134) -/

/-- The first product number that a setting of PNUM_AT applies to. -/
def firstPnum (line : Nat) (pnumAt : Word) (s : State) : Word :=
  let next := (ledger line s).nextPnum
  if pnumAt.toNat < next.toNat then next else pnumAt

/-- Value records: index, length and characters. -/
def parseRecords : Nat → List Byte → Option (List (Nat × List Byte))
  | 0, _ => none
  | fuel + 1, l => match l with
    | [] => some []
    | i :: n :: t =>
      if t.length < n.toNat then none
      else (parseRecords fuel (t.drop n.toNat)).map fun r => (i.toNat, t.take n.toNat) :: r
    | _ => none

/-- A value within the rule of its OPEN field. -/
def valueOk (img : List Byte) (r : Nat × List Byte) : Bool :=
  (fieldsOf img 5).contains r.1 && decide (fieldMin img r.1 ≤ r.2.length) && textFits img r

/-- OPEN_SET. -/
def openSet : Handler := fun p s =>
  match parseRecords p.length (p.drop 9) with
  | none => refuse stBadLength s
  | some rs =>
    if p.length < 9 ∨ rs = [] then refuse stBadLength s
    else
      let h := leAt p 0 2
      let n := leAt p 2 1
      match stencilOf h s with
      | none => refuse stBadHandle s
      | some img =>
        if 4 ≤ n ∨ rs.all (valueOk img) = false then refuse stFieldRule s
        else
          let first := firstPnum n (BitVec.ofNat 48 (leAt p 3 6)) s
          let o : OpenSet := { handle := h, line := n, pnumAt := first, records := rs }
          let others := s.trust.openPend.filter fun x => !(decide (x.handle = h) && decide (x.line = n))
          let s1 := { s with trust.openPend := others ++ [o] }
          let e : AuditEntry :=
            { type := 11, line := n, pnum := first.toNat, revision := leAt img 16 2, stencilId := leAt img 12 4,
              digest := (sha256 (p.drop 9)).take 16 }
          answer (leBytes 6 first.toNat) (auditAppend e s1)

/-- BATCH_ADVANCE (R134). For a stencil without a BATCH field it is refused with FIELD_RULE too (DESIGN CHOICE, log entry 163). -/
def batchAdvance : Handler := fun p s =>
  if p.length ≠ 9 then refuse stBadLength s
  else
    let h := leAt p 0 2
    let n := leAt p 2 1
    match stencilOf h s with
    | none => refuse stBadHandle s
    | some img => match (fieldsOf img 2).head? with
      | none => refuse stFieldRule s
      | some i =>
        if 4 ≤ n ∨ (leAt img 21 1).testBit 0 = false then refuse stFieldRule s
        else
          let first := firstPnum n (BitVec.ofNat 48 (leAt p 3 6)) s
          let s1 := { s with trust.advances := s.trust.advances ++ [{ handle := h, line := n, pnumAt := first }] }
          let seq := raiseSeq (leAt (fieldParam img i) 2 1) (batchOf h n s1).seq (dueAdvances h n first.toNat s1)
          answer (leBytes 6 first.toNat ++ leBytes 4 seq)
            (auditAppend { type := 10, line := n, pnum := first.toNat, revision := leAt img 16 2, stencilId := leAt img 12 4 } s1)

/-! ### The audit chain (R144, R145) -/

/-- AUDIT_READ: up to `count` entries held from a SEQ. -/
def auditRead : Handler := fun p s =>
  if p.length ≠ 7 then refuse stBadLength s
  else
    let n := leAt p 6 1
    if n = 0 ∨ 48 < n then refuse stBadLength s
    else if s.trust.ring.all fun e => decide (e.1 ≠ leAt p 0 6) then refuse stNotHeld s
    else answer (((s.trust.ring.filter fun e => decide (leAt p 0 6 ≤ e.1)).take n).flatMap (·.2)) s

/-- AUDIT_ACK frees every entry up to a SEQ; the first entry freed after a drop lets TAIL_LOST be appended. -/
def auditAck : Handler := fun p s =>
  if p.length ≠ 6 then refuse stBadLength s
  else
    let n := leNat p
    if n < s.trust.ackNext ∨ s.trust.auditNext ≤ n then refuse stNotHeld s
    else
      let held := s.trust.ring.filter fun e => decide (n < e.1)
      let s1 := auditLevels { s with trust.ackNext := n + 1, trust.ring := held }
      let s2 := match s.trust.dropped with
        | some (a, b) => if held.length < s.trust.ring.length then
            auditAppend { type := 9, serial := a, aux := b } { s1 with trust.dropped := none } else s1
        | none => s1
      answer (leBytes 4 (getF fTRU_AUDIT_STAT_UNDRAINED s2)) s2

/-- CKPT_READ: the first held checkpoint at or after a SEQ; NOT_HELD where there is none (DESIGN CHOICE, log entry 166). -/
def ckptRead : Handler := fun p s =>
  if p.length ≠ 6 then refuse stBadLength s
  else match s.trust.ckpts.reverse.find? fun c => decide (leNat p ≤ c.1) with
    | some c => answer c.2 s
    | none => refuse stNotHeld s

/-- IDENTITY: a blank device has no identity pair (R409). -/
def identityInfo : Handler := fun p s =>
  if p ≠ [] then refuse stBadLength s
  else if s.lc.state = .blank then refuse stState s
  else answer (deviceId s ++ identityPublic s) s

/-! ### The messages -/

def execStencilBegin (tag : Nat) (payload : List Byte) (s : State) : Host.Outcome State Fault Refusal :=
  .next (mailboxMessage 0x01 tag payload stencilBegin s)
def execStencilData (tag : Nat) (payload : List Byte) (s : State) : Host.Outcome State Fault Refusal :=
  .next (mailboxMessage 0x02 tag payload stencilData s)
def execStencilEnd (tag : Nat) (payload : List Byte) (s : State) : Host.Outcome State Fault Refusal :=
  .next (mailboxMessage 0x03 tag payload stencilEnd s)
def execStencilUnload (tag : Nat) (payload : List Byte) (s : State) : Host.Outcome State Fault Refusal :=
  .next (mailboxMessage 0x04 tag payload stencilUnload s)
def execStencilInfo (tag : Nat) (payload : List Byte) (s : State) : Host.Outcome State Fault Refusal :=
  .next (mailboxMessage 0x05 tag payload stencilInfo s)
def execOpenSet (tag : Nat) (payload : List Byte) (s : State) : Host.Outcome State Fault Refusal :=
  .next (mailboxMessage 0x10 tag payload openSet s)
def execBatchAdvance (tag : Nat) (payload : List Byte) (s : State) : Host.Outcome State Fault Refusal :=
  .next (mailboxMessage 0x11 tag payload batchAdvance s)
def execTimeNonce (tag : Nat) (payload : List Byte) (s : State) : Host.Outcome State Fault Refusal :=
  .next (mailboxMessage 0x20 tag payload timeNonce s)
def execTimeToken (tag : Nat) (payload : List Byte) (s : State) : Host.Outcome State Fault Refusal :=
  .next (mailboxMessage 0x21 tag payload timeToken s)
def execTimeStatus (tag : Nat) (payload : List Byte) (s : State) : Host.Outcome State Fault Refusal :=
  .next (mailboxMessage 0x22 tag payload timeStatus s)
def execSerialLedger (tag : Nat) (payload : List Byte) (s : State) : Host.Outcome State Fault Refusal :=
  .next (mailboxMessage 0x30 tag payload serialLedger s)
def execCounterRebase (tag : Nat) (payload : List Byte) (s : State) : Host.Outcome State Fault Refusal :=
  .next (mailboxMessage 0x31 tag payload counterRebase s)
def execAuditRead (tag : Nat) (payload : List Byte) (s : State) : Host.Outcome State Fault Refusal :=
  .next (mailboxMessage 0x40 tag payload auditRead s)
def execAuditAck (tag : Nat) (payload : List Byte) (s : State) : Host.Outcome State Fault Refusal :=
  .next (mailboxMessage 0x41 tag payload auditAck s)
def execCkptRead (tag : Nat) (payload : List Byte) (s : State) : Host.Outcome State Fault Refusal :=
  .next (mailboxMessage 0x42 tag payload ckptRead s)
def execIdentity (tag : Nat) (payload : List Byte) (s : State) : Host.Outcome State Fault Refusal :=
  .next (mailboxMessage 0x50 tag payload identityInfo s)

end Sys2Proof.Machine
end

