-- ==== Sys2Proof/Machine/Symbols.lean ====
section
/-! DEFINITION. The modules of Code 128 and Data Matrix symbols (R163, R164). What the two standards fix beside the rules (the symbol
character patterns, and of ECC 200 the error-correction lengths, the field of 256 elements, the pads and the placement) is PRESUMED from
ISO/IEC 15417 and ISO/IEC 16022 (log entry 177). -/

namespace Sys2Proof.Machine

/-! ### Code 128 (R164) -/

/-- A digit's character code. -/
def digitCode (c : Nat) : Bool := decide (0x30 ≤ c) && decide (c ≤ 0x39)

/-- Fewest symbol characters for the rest of a content, 256 standing for FNC1: where one character of it stands in code set B, and where its
front stands in code set C; the costs of the rest in B and C, and in C after one more character, are given. -/
def c128Costs (b c : Nat) (cNext : Option Nat) (x : Nat) (next : Option Nat) : Nat × Nat :=
  let inB := 1 + b
  let inC := if x = 256 then 1 + c else match cNext, next with
    | some k, some y => if digitCode x && digitCode y then 1 + k else 1000000
    | _, _ => 1000000
  (inB, inC)

/-- The fewest symbol characters of every suffix of a content, the suffix coded from set B and from set C, a change of set counted. -/
def c128Table : List Nat → List (Nat × Nat)
  | [] => [(0, 0)]
  | x :: t =>
    let r := c128Table t
    let k := c128Costs (r.getD 0 (0, 0)).1 (r.getD 0 (0, 0)).2 ((r[1]?).map (·.2)) x t.head?
    (min k.1 (1 + k.2), min k.2 (1 + k.1)) :: r

/-- The symbol values of a content from a code set, `inC` for set C: of equally short encodations the one that prefers C (R164). Every
character of the content stands in set B, so set A is never shorter. -/
def c128Encode : Nat → Bool → List Nat → List Nat
  | 0, _, _ => []
  | _ + 1, _, [] => []
  | fuel + 1, inC, x :: t =>
    let r := c128Table t
    let k := c128Costs (r.getD 0 (0, 0)).1 (r.getD 0 (0, 0)).2 ((r[1]?).map (·.2)) x t.head?
    let useC := if inC then decide (k.2 ≤ 1 + k.1) else decide (1 + k.2 ≤ k.1)
    let change := if useC = inC then [] else if useC then [99] else [100]
    if x = 256 then change ++ 102 :: c128Encode fuel useC t
    else if useC then change ++ (10 * (x - 0x30) + (t.headD 0x30 - 0x30)) :: c128Encode fuel true (t.drop 1)
    else change ++ (x - 32) :: c128Encode fuel false t

/-- The values of a symbol: start character, content and the modulo 103 check character. -/
def c128Values (l : List Nat) : List Nat :=
  let k := (c128Table l).getD 0 (0, 0)
  let inC := decide (k.2 ≤ k.1)
  let v := (if inC then 105 else 104) :: c128Encode (l.length + 1) inC l
  v ++ [((v.getD 0 0) + ((v.drop 1).zipIdx.map fun x => (x.2 + 1) * x.1).sum) % 103]

/-- Widths of the bars and spaces of the symbol characters, as decimal digits, by value; 106 is the stop pattern with its termination bar. -/
def c128Patterns : List Nat :=
  [212222, 222122, 222221, 121223, 121322, 131222, 122213, 122312, 132212, 221213, 221312, 231212] ++
  [112232, 122132, 122231, 113222, 123122, 123221, 223211, 221132, 221231, 213212, 223112, 312131] ++
  [311222, 321122, 321221, 312212, 322112, 322211, 212123, 212321, 232121, 111323, 131123, 131321] ++
  [112313, 132113, 132311, 211313, 231113, 231311, 112133, 112331, 132131, 113123, 113321, 133121] ++
  [313121, 211331, 231131, 213113, 213311, 213131, 311123, 311321, 331121, 312113, 312311, 332111] ++
  [314111, 221411, 431111, 111224, 111422, 121124, 121421, 141122, 141221, 112214, 112412, 122114] ++
  [122411, 142112, 142211, 241211, 221114, 413111, 241112, 134111, 111242, 121142, 121241, 114212] ++
  [124112, 124211, 411212, 421112, 421211, 212141, 214121, 412121, 111143, 111341, 131141, 114113] ++
  [114311, 411113, 411311, 113141, 114131, 311141, 411131, 211412, 211214, 211232] ++
  [2331112]

/-- The decimal digits of a number, highest first. -/
def decimals : Nat → Nat → List Nat
  | 0, _ => []
  | k + 1, n => decimals k (n / 10) ++ [n % 10]

/-- Modules of bars and spaces in turn. -/
def barModules : Bool → List Nat → List Bool
  | _, [] => []
  | b, w :: t => List.replicate w b ++ barModules (!b) t

/-- The modules of a symbol, from the left. -/
def c128Modules (l : List Nat) : List Bool :=
  ((c128Values l).flatMap fun v => barModules true (decimals 6 (c128Patterns.getD v 0))) ++ barModules true (decimals 7 (c128Patterns.getD 106 0))

/-! ### Data Matrix codewords (R163) -/

/-- Data Matrix codewords in ASCII encodation: two digits in a row always pack. -/
def dmCodewords : List Nat → List Nat
  | a :: b :: t =>
    if digitCode a && digitCode b then (10 * (a - 0x30) + (b - 0x30) + 130) :: dmCodewords t
    else (if a = 256 then 232 else a + 1) :: dmCodewords (b :: t)
  | [a] => [if a = 256 then 232 else a + 1]
  | [] => []

/-- A pad codeword after the first, at a place counted from one: 129 randomised by the 253-state algorithm. -/
def dmPad (place : Nat) : Nat := let x := 129 + (149 * place % 253 + 1); if 254 < x then x - 254 else x

/-- Codewords filled up to a symbol's capacity. -/
def dmFill (n : Nat) (l : List Nat) : List Nat :=
  let k := l.length
  if n ≤ k then l else l ++ 129 :: (List.range (n - k - 1)).map fun i => dmPad (k + 2 + i)

/-- One step of a product in the field of 256 elements with polynomial 0x12D: `p` is doubled. -/
def gfDouble (p : Nat) : Nat := if 128 ≤ p then (2 * p) ^^^ 0x12D else 2 * p

/-- A product in the field, over eight bits of the second factor. -/
def gfMul (a b : Nat) : Nat := ((List.range 8).foldl (fun (x : Nat × Nat) i => (if b.testBit i then x.1 ^^^ x.2 else x.1, gfDouble x.2)) (0, a)).1

/-- A polynomial times x + r, its leading one left out; the highest coefficient stands first. -/
def gfTimes (p : List Nat) (r : Nat) : List Nat :=
  let q := 1 :: p
  List.zipWith (fun a b => a ^^^ b) (p ++ [0]) (q.map fun c => gfMul c r)

/-- The generator polynomial of `n` check codewords: the product of x + 2^i for i from 1 to n. -/
def rsGenerator (n : Nat) : List Nat := ((List.range n).foldl (fun (x : List Nat × Nat) _ => (gfTimes x.1 x.2, gfDouble x.2)) ([], 2)).1

/-- The Reed-Solomon check codewords of a block: the remainder of its division by the generator. -/
def rsCheck (n : Nat) (data : List Nat) : List Nat :=
  let g := rsGenerator n
  data.foldl (fun r d =>
    let k := d ^^^ r.headD 0
    List.zipWith (fun a b => a ^^^ gfMul b k) (r.drop 1 ++ [0]) g) (List.replicate n 0)

/-- Check codewords of the sizes of a block, and blocks of a symbol. -/
def dmChecks : List Nat :=
  [5, 7, 10, 12, 14, 18, 20, 24, 28, 36, 42, 48, 56, 68, 42, 56, 36, 48, 56, 68, 56, 68, 62, 62] ++ [7, 11, 14, 18, 24, 28]

def dmBlocks : List Nat := List.replicate 14 1 ++ [2, 2, 4, 4, 4, 4, 6, 6, 8, 10] ++ List.replicate 6 1

/-- Every `b`-th codeword from the `k`-th on. -/
def everyNth (b k : Nat) (l : List Nat) : List Nat := (l.zipIdx.filter fun x => x.2 % b == k).map (·.1)

/-- The codewords of a symbol: its data filled up, then the check codewords of its blocks interleaved. -/
def dmSymbolWords (k : Nat) (words : List Nat) : List Nat :=
  let data := dmFill (dmCapacity.getD (k - 1) 0) words
  let b := dmBlocks.getD (k - 1) 1
  let n := dmChecks.getD (k - 1) 0
  let checks := (List.range b).map fun i => rsCheck n (everyNth b i data)
  data ++ (List.range n).flatMap fun i => checks.map fun c => c.getD i 0

/-! ### Data Matrix placement (R163) -/

/-- The mapping matrix: rows, columns, and by place the codeword, counted from one, and its bit, the highest first. -/
structure DmMap where
  rows : Nat
  cols : Nat
  at_ : Sparse (Nat × Nat) := []
  next : Nat := 1

/-- The place of a module, with the wrap at the upper and left edges. -/
def DmMap.place (m : DmMap) (r c : Int) : Nat :=
  let x : Int × Int := if r < 0 then (r + m.rows, c + 4 - ((m.rows + 4) % 8 : Nat)) else (r, c)
  let y : Int × Int := if x.2 < 0 then (x.1 + 4 - ((m.cols + 4) % 8 : Nat), x.2 + m.cols) else x
  (y.1 * m.cols + y.2).toNat

/-- The next codeword takes eight modules. -/
def DmMap.put (m : DmMap) (l : List (Int × Int)) : DmMap :=
  { m with at_ := l.zipIdx.foldl (fun a x => spInsert a (m.place x.1.1 x.1.2) (m.next, x.2)) m.at_, next := m.next + 1 }

/-- The usual shape of a codeword, its last bit at a place. -/
def dmShape (r c : Int) : List (Int × Int) :=
  [(r - 2, c - 2), (r - 2, c - 1), (r - 1, c - 2), (r - 1, c - 1), (r - 1, c), (r, c - 2), (r, c - 1), (r, c)]

/-- The four shapes at the corners. -/
def dmCorner (m : DmMap) (k : Nat) : List (Int × Int) :=
  let r : Int := m.rows
  let c : Int := m.cols
  match k with
  | 1 => [(r - 1, 0), (r - 1, 1), (r - 1, 2), (0, c - 2), (0, c - 1), (1, c - 1), (2, c - 1), (3, c - 1)]
  | 2 => [(r - 3, 0), (r - 2, 0), (r - 1, 0), (0, c - 4), (0, c - 3), (0, c - 2), (0, c - 1), (1, c - 1)]
  | 3 => [(r - 3, 0), (r - 2, 0), (r - 1, 0), (0, c - 2), (0, c - 1), (1, c - 1), (2, c - 1), (3, c - 1)]
  | _ => [(r - 1, 0), (r - 1, c - 1), (0, c - 3), (0, c - 2), (0, c - 1), (1, c - 3), (1, c - 2), (1, c - 1)]

/-- A codeword of the usual shape at a place inside the matrix that no codeword has taken. -/
def DmMap.usual (m : DmMap) (r c : Int) : DmMap :=
  if 0 ≤ r ∧ r < m.rows ∧ 0 ≤ c ∧ c < m.cols ∧ (spFind m.at_ (m.place r c)).isNone then m.put (dmShape r c) else m

/-- A run of codewords up and to the right, and its end. -/
def dmUp : Nat → Int → Int → DmMap → Int × Int × DmMap
  | 0, r, c, m => (r, c, m)
  | fuel + 1, r, c, m =>
    let m1 := m.usual r c
    if 0 ≤ r - 2 ∧ c + 2 < m.cols then dmUp fuel (r - 2) (c + 2) m1 else (r - 2, c + 2, m1)

/-- A run of codewords down and to the left, and its end. -/
def dmDown : Nat → Int → Int → DmMap → Int × Int × DmMap
  | 0, r, c, m => (r, c, m)
  | fuel + 1, r, c, m =>
    let m1 := m.usual r c
    if r + 2 < m.rows ∧ 0 ≤ c - 2 then dmDown fuel (r + 2) (c - 2) m1 else (r + 2, c - 2, m1)

/-- The corner that a place reaches, if any. -/
def dmCornerAt (m : DmMap) (r c : Int) : Option Nat :=
  if r = m.rows ∧ c = 0 then some 1
  else if r = m.rows - 2 ∧ c = 0 ∧ m.cols % 4 ≠ 0 then some 2
  else if r = m.rows - 2 ∧ c = 0 ∧ m.cols % 8 = 4 then some 3
  else if r = m.rows + 4 ∧ c = 2 ∧ m.cols % 8 = 0 then some 4
  else none

/-- The placement of ECC 200, run by run. -/
def dmRuns : Nat → Int → Int → DmMap → DmMap
  | 0, _, _, m => m
  | fuel + 1, r, c, m =>
    let m0 := match dmCornerAt m r c with
      | some k => m.put (dmCorner m k)
      | none => m
    let u := dmUp (m.rows + m.cols) r c m0
    let d := dmDown (m.rows + m.cols) (u.1 + 1) (u.2.1 + 3) u.2.2
    if d.1 + 3 < m.rows ∨ d.2.1 + 1 < m.cols then dmRuns fuel (d.1 + 3) (d.2.1 + 1) d.2.2 else d.2.2

/-- The dark modules of a mapping matrix: the bits of the codewords, and where no codeword reaches the lower right corner its two fixed
ones. -/
def dmDark (m : DmMap) (words : List Nat) (r c : Nat) : Bool :=
  match spFind m.at_ (r * m.cols + c) with
  | some (k, b) => (words.getD (k - 1) 0).testBit (7 - b)
  | none => (decide (r + 1 = m.rows) && decide (c + 1 = m.cols)) || (decide (r + 2 = m.rows) && decide (c + 2 = m.cols))

/-- Data regions down and across a symbol. -/
def dmRegions (k : Nat) : Nat × Nat :=
  if k ≤ 9 then (1, 1) else if k ≤ 15 then (2, 2) else if k ≤ 21 then (4, 4) else if k ≤ 24 then (6, 6)
  else if k = 25 ∨ k = 27 then (1, 1) else (1, 2)

/-- The modules of symbol size `k`, row by row: each data region stands between its finder pattern at the left and below and its timing
pattern above and at the right. -/
def dmModules (k : Nat) (words : List Nat) : List (List Bool) :=
  let size := dmSizes.getD (k - 1) (0, 0)
  let g := dmRegions k
  let h := size.1 / g.1
  let w := size.2 / g.2
  let m := dmRuns (size.1 + size.2) 4 0 { rows := size.1 - 2 * g.1, cols := size.2 - 2 * g.2 }
  let l := dmSymbolWords k words
  (List.range size.1).map fun r => (List.range size.2).map fun c =>
    if c % w = 0 ∨ r % h = h - 1 then true
    else if r % h = 0 then decide (c % w % 2 = 0)
    else if c % w = w - 1 then decide (r % h % 2 = 1)
    else dmDark m l (r / h * (h - 2) + (r % h - 1)) (c / w * (w - 2) + (c % w - 1))

end Sys2Proof.Machine
end

