-- ==== Sys2Proof/Machine/Trowel.lean ====
section
/-! DEFINITION. The Trowel format: what a decoder accepts (R176 to R178). -/

namespace Sys2Proof.Machine

/-- Copy `n` bytes from `d` bytes before the end of the output, one at a time; none where the distance reaches before its start. -/
def copyBack : Nat → Nat → List Byte → Option (List Byte)
  | 0, _, out => some out
  | n + 1, d, out => if d = 0 ∨ out.length < d then none else copyBack n d (out ++ [out.getD (out.length - d) 0])

/-- Decode a token sequence to exactly `len` bytes (R177, R178). -/
def decodeTokens : Nat → Nat → List Byte → List Byte → Option (List Byte)
  | 0, _, _, _ => none
  | fuel + 1, len, l, out =>
    if len < out.length then none
    else match l with
      | [] => if out.length = len then some out else none
      | c :: t =>
        let n := c.toNat
        if n < 0x80 then
          if t.length < n + 1 then none else decodeTokens fuel len (t.drop (n + 1)) (out ++ t.take (n + 1))
        else if n < 0xC0 then match t with
          | d0 :: d1 :: u =>
            let d := d0.toNat + 256 * d1.toNat
            if 4095 < d then none else (copyBack (n % 64 + 3) d out).bind fun o => decodeTokens fuel len u o
          | _ => none
        else if n < 0xE0 then match t with
          | d :: u => (copyBack (n % 32 + 3) (d.toNat + 1) out).bind fun o => decodeTokens fuel len u o
          | _ => none
        else if n < 0xF0 then match t with
          | k :: u => decodeTokens fuel len u (out ++ List.replicate (256 * (n % 16) + k.toNat + 1) 0)
          | _ => none
        else none

/-- The length of a block: its header and its payload. -/
def trowelLength (l : List Byte) : Nat := 8 + leAt l 2 2 % 8192

/-- The original data before its check (R176 to R178). -/
def trowelPayload (l : List Byte) : Option (List Byte) :=
  let orig := leAt l 0 2
  let word := leAt l 2 2
  let pay := word % 8192
  let body := slice l 8 pay
  if orig = 0 ∨ 4096 < orig ∨ word / 8192 % 4 ≠ 0 ∨ body.length ≠ pay then none
  else if word / 32768 = 1 then (if pay = orig then some body else none)
  else decodeTokens (pay + 1) orig body []

/-- A block decoded, or why not: its format, or its CRC. -/
inductive Decoded where
  | data (l : List Byte)
  | badFormat
  | badCrc
  deriving DecidableEq, Repr

def trowelDecode (l : List Byte) : Decoded :=
  match trowelPayload l with
  | none => .badFormat
  | some x => if crc32c x = leAt l 4 4 then .data x else .badCrc

end Sys2Proof.Machine
end

