-- ==== Sys2Proof/Machine/Render.lean ====
section
/-! DEFINITION. The renderer: fonts, host images, rasterisation, the images of the image store, staging and compression (R161 to R175,
R180, R225 to R230). -/

namespace Sys2Proof.Machine

/-! ### What items draw (R156 to R158, R163, R164) -/

/-- The characters of a template for a field set; 256 stands for FNC1. -/
def contentOf (texts : List (Nat × List Byte)) (l : List Elem) : List Nat := l.flatMap fun e => match e with
  | .field i => (((texts.find? fun x => x.1 == i).map (·.2)).getD []).map (·.toNat)
  | .fnc1 => [256]
  | .gs => [29]
  | .lit b => [b.toNat]

/-- The content of a Code 128 or GS1-128 item: a GS1 separator is FNC1, and GS1-128 begins with FNC1 (R164). -/
def c128Content (gs1 : Bool) (l : List Nat) : List Nat :=
  let m := l.map fun c => if c = 29 then 256 else c
  if gs1 && m.head? != some 256 then 256 :: m else m

/-- A dot of a text in a font, from the left: each character takes its advance times XMAG and the spacing (R157, R161). -/
def textDot (f : List Byte) (xm ym sp : Nat) : List Nat → Nat → Nat → Nat → Bool
  | [], _, _, _ => false
  | c :: t, at_, u, v =>
    match glyphOf f (BitVec.ofNat 8 c) with
    | none => textDot f xm ym sp t at_ u v
    | some (adv, ofs) =>
      let col := (u - at_) / xm
      let row := v / ym
      (decide (at_ ≤ u) && decide (col < fontW f) && decide (row < fontH f) &&
        (leAt f (ofs + col * ceilDiv (fontH f) 8 + row / 8) 1).testBit (row % 8)) ||
      textDot f xm ym sp t (at_ + adv * xm + sp) u v

/-- The width of a text. -/
def widthOf (f : List Byte) (xm sp : Nat) (l : List Nat) : Nat :=
  (l.map fun c => match glyphOf f (BitVec.ofNat 8 c) with
    | some (adv, _) => adv * xm + sp
    | none => 0).sum

/-- A drawn item: the corner of its rotated box, its box before rotation, its rotation and its dots. -/
structure Shape where
  x : Nat
  y : Nat
  w : Nat
  h : Nat
  rot : Nat
  dot : Nat → Nat → Bool

/-- The item marks a grid dot; the rotation is clockwise (R157). -/
def Shape.marks (q : Shape) (x y : Nat) : Bool :=
  let rw := if q.rot % 2 = 1 then q.h else q.w
  let rh := if q.rot % 2 = 1 then q.w else q.h
  if x < q.x ∨ y < q.y ∨ q.x + rw ≤ x ∨ q.y + rh ≤ y then false
  else
    let a := x - q.x
    let b := y - q.y
    match q.rot with
    | 0 => q.dot a b
    | 1 => q.dot b (q.h - 1 - a)
    | 2 => q.dot (q.w - 1 - a) (q.h - 1 - b)
    | _ => q.dot (q.w - 1 - b) a

/-- The image store bytes of a host image buffer (R171, R180). -/
def himgBase (slot buf : Nat) : Nat := 0x1FC0000 + (2 * slot + buf) * 0x2000

/-- A dot of a host image. -/
def himgDot (slot : Nat) (m : HostImage) (s : State) (u v : Nat) : Bool :=
  decide (u < m.w) && decide (v < m.h) &&
  (imgByte (himgBase slot m.buf + u * ceilDiv m.h 8 + v / 8) s).toNat.testBit (v % 8)

/-- What an item draws for a field set. -/
def shapeOf (img it : List Byte) (texts : List (Nat × List Byte)) (uses : List (Nat × HostImage)) (s : State) : Shape :=
  let content := ((templateAt img (leAt it 6 2)).map (contentOf texts)).getD []
  let none_ : Shape := { x := itemX it, y := itemY it, w := 0, h := 0, rot := itemRot it, dot := fun _ _ => false }
  match itemType it with
  | 1 => match fontRef img (leAt it 8 1) s with
    | none => none_
    | some f =>
      let xm := leAt it 10 1
      let ym := leAt it 11 1
      let sp := leAt it 9 1
      { none_ with w := widthOf f xm sp content, h := fontH f * ym, dot := textDot f xm ym sp content 0 }
  | 2 => match dmSymbol img it with
    | none => none_
    | some k =>
      let m := leAt it 8 1
      let r := dmSizes.getD (k - 1) (0, 0)
      let grid := dmModules k (dmCodewords content)
      { none_ with w := r.2 * m, h := r.1 * m, dot := fun u v => (grid.getD (v / m) []).getD (u / m) false }
  | 5 => match (uses.find? fun x => x.1 == leAt it 6 2).map (·.2) with
    | none => none_
    | some m => { none_ with w := leAt it 8 2, h := leAt it 10 2, dot := himgDot (leAt it 6 2) m s }
  | t =>
    let gs1 := t == 4
    let c := c128Content gs1 content
    let xd := leAt it 8 1
    let modules := c128Modules c
    let bar := leAt it 9 2
    let hri := if leAt it 14 2 = 0xFFFF then none else fontRef img (leAt it 12 1) s
    let text := ((templateAt img (leAt it 14 2)).map (contentOf texts)).getD []
    let bars (u v : Nat) : Bool := decide (v < bar) && modules.getD (u / xd) false
    match hri with
    | none => { none_ with w := modules.length * xd, h := bar, dot := bars }
    | some f =>
      let top := bar + leAt it 11 1
      { none_ with w := max (modules.length * xd) (widthOf f 1 0 text), h := top + fontH f,
                   dot := fun u v => bars u v || (decide (top ≤ v) && textDot f 1 1 0 text 0 u (v - top)) }

/-- The dots of a panel's grid, column by column (R159). -/
def gridOf (img : List Byte) (panel : Nat) (texts : List (Nat × List Byte)) (uses : List (Nat × HostImage)) (s : State) :
    List (List Bool) :=
  let l := layoutOf img
  let shapes := ((itemsOf img).filter fun it => itemPanel it == panel).map fun it => shapeOf img it texts uses s
  (List.range (leAt l 0 2)).map fun x => (List.range (leAt l 2 2)).map fun y => shapes.any fun q => q.marks x y

/-! ### Rasterisation (R166, R167) -/

/-- Bits of an element by personality and render settings (R167). -/
def bitsFor (pers : Nat) (cfg : Word) : Nat := match pers with
  | 1 => 2
  | 2 => 1
  | 3 => 1
  | 4 => 8
  | _ => 2 ^ (cfg.toNat % 4)

/-- The column length of an image. -/
def Made.columnBytes (m : Made) : Nat := ceilDiv (ceilDiv (m.elems * bitsFor m.pers m.cfg) 8) 32 * 32

/-- Columns of a block, and blocks of an image (R172). -/
def Made.perBlock (m : Made) : Nat := max 1 (4096 / m.columnBytes)
def Made.blocks (m : Made) : Nat := ceilDiv m.cols m.perBlock

/-- One column of an image. -/
def Made.column (m : Made) (grid : List (List Bool)) (c : Nat) : List Byte :=
  let cfg := m.cfg.toNat
  let b := bitsFor m.pers m.cfg
  let x := (if (cfg / 2 ^ 16) % 2 = 1 then m.cols - 1 - c else c) / (cfg / 2 ^ 10 % 8 + 1)
  let col := grid.getD x []
  let level := cfg / 4 % 256 % 2 ^ b
  let elems := (List.range m.elems).map fun e =>
    let y := (if (cfg / 2 ^ 17) % 2 = 1 then m.elems - 1 - e else e) / (cfg / 2 ^ 13 % 8 + 1)
    if col.getD y false then level else 0
  packElems b m.columnBytes elems

/-- Something of the grid is dropped. -/
def Made.crops (m : Made) (img : List Byte) : Bool :=
  let l := layoutOf img
  let cfg := m.cfg.toNat
  decide (m.cols < leAt l 0 2 * (cfg / 2 ^ 10 % 8 + 1)) || decide (m.elems < leAt l 2 2 * (cfg / 2 ^ 13 % 8 + 1))

/-! ### Granules (R171, R172) -/

/-- Granules of the render region. -/
def granuleCount : Nat := 129536

/-- The first place from `a` on where `n` granules in a row are free. -/
def firstGap : Nat → Sparse Nat → Nat → Nat
  | a, [], _ => a
  | a, (k, _) :: t, n => if a + n ≤ k then a else firstGap (max a (k + 1)) t n

/-- Take `n` granules in a row for the image whose header stands at `owner`, or at their own place. -/
def takeGranules (owner : Option Nat) (n : Nat) (s : State) : Option (Nat × State) :=
  let g := firstGap 0 s.ren.granules n
  if granuleCount < g + n then none
  else some (g, { s with ren.granules := (List.range n).foldl (fun a i => spInsert a (g + i) (owner.getD g)) s.ren.granules })

/-- Bytes of block `k` of an image. -/
def Made.blockLength (m : Made) (k : Nat) : Nat := min m.perBlock (m.cols - k * m.perBlock) * m.columnBytes

/-- Take the blocks of an image, in order; their store offsets. -/
def takeBlocks (m : Made) : List Nat → State → Option (List Nat × State)
  | [], s => some ([], s)
  | k :: t, s => (takeGranules (some m.header) (ceilDiv (m.blockLength k) 256) s).bind fun x =>
      (takeBlocks m t x.2).map fun y => (256 * x.1 :: y.1, y.2)

/-- The bytes of an image header with its block table (R172). -/
def Made.headerBytes (m : Made) (offsets : List Nat) : List Byte :=
  leBytes 2 m.cols ++ leBytes 2 m.columnBytes ++ leBytes 2 m.perBlock ++ leBytes 2 m.blocks ++ leBytes 1 m.pers ++ List.replicate 55 0 ++
  offsets.flatMap (leBytes 4)

/-- Allocate an image: its header and its blocks; the header is written with its table. -/
def allocImage (m : Made) (s : State) : Option (Made × State) :=
  let n := ceilDiv (64 + 4 * m.blocks) 256
  (takeGranules none n s).bind fun x =>
    let m1 := { m with header := x.1 }
    (takeBlocks m1 (List.range m1.blocks) x.2).map fun y =>
      (m1, imgWrite (256 * x.1) (padTo (256 * n) (m1.headerBytes y.1)) y.2)

/-- Allocate every image of a render, or none. -/
def allocAll : List Made → State → Option (List Made × State)
  | [], s => some ([], s)
  | m :: t, s => (allocImage m s).bind fun x => (allocAll t x.2).map fun y => (x.1 :: y.1, y.2)

/-! ### Rendering (R165, R168 to R170, R175) -/

/-- What a job needs: the combination of R165 with its head's settings as they stand. -/
def wanted (x : Job) (s : State) : Made :=
  { panel := x.panel, pers := getF (fHP_CFG_PERS x.head) s, elems := elements x.head s, cfg := s.reg (rREN_HEAD_CFG x.head),
    cols := x.cols, header := 0 }

/-- The jobs a render serves, on heads that have a personality. -/
def renderTargets (r : RenderReq) (s : State) : List (Nat × Job) :=
  s.sch.jobs.filter fun x => rendersFor r x && decide (getF (fHP_CFG_PERS x.2.head) s ≠ 0)

/-- Remove repeated combinations. -/
def distinctMade : List Made → List Made
  | [] => []
  | m :: t => if t.contains m then distinctMade t else m :: distinctMade t

/-- The field set of a product and its stencil. -/
def renderSource (r : RenderReq) (s : State) : Option (List (Nat × List Byte) × List Byte) :=
  (s.sch.ptab.find? fun p => decide (p.2.seq = r.prod)).bind fun p => match p.2.compose with
    | .done f => (stencilOf p.2.stencil s).map fun img => (f.texts, img)
    | _ => none

/-- The host image items of the panels a render draws. -/
def himgSlots (img : List Byte) (ms : List Made) : List Nat :=
  ((itemsOf img).filter fun it => itemType it == 5 && ms.any fun m => m.panel == itemPanel it).map fun it => leAt it 6 2

/-- A committed host image that the image store still holds whole. -/
def himgSound (slot : Nat) (s : State) : Bool := match s.ren.himg.getD slot none with
  | none => false
  | some m => (wordsOf (himgBase slot m.buf) (m.w * ceilDiv m.h 8)).all fun w => !wordBad w s

/-- The font slot of a font image's identity. -/
def fontSlot (id : Nat) (s : State) : Option Nat := (List.range 16).find? fun k => (s.ren.fonts.getD k none).any fun f => leAt f 12 4 == id

/-- The fonts of a layout, by identity. -/
def fontIds (img : List Byte) : List Nat := (List.range (leAt (layoutOf img) 5 1)).map fun r => leAt (layoutOf img) (8 + 12 * r) 4

/-- A font that the stencil names is damaged (R383). -/
def fontsDamaged (img : List Byte) (s : State) : Bool := (fontIds img).any fun id => (fontSlot id s).any fun k =>
  (getF fREN_FONT_STAT_DAMAGED s).testBit k

/-- A refused render: its product's jobs become NOT_STARTED with cause NOT_ARMED (R170). -/
def refuseRender (r : RenderReq) (s : State) : State :=
  let s1 := showRenders (incSat fREN_ERR_REFUSED { s with ren.queue := s.ren.queue.drop 1 })
  match s.sch.ptab.find? fun p => decide (p.2.seq = r.prod) with
  | some (i, q) => closeIfDone i (forAll (jobsOf q s1) (fun x => doIf (jobOpen x.2.state && decide (x.2.state ≠ .started))
      (notStarted x.1 .notArmed)) s1)
  | none => s1

/-- The renderer, idle, takes the next render whose field set is composed: it is refused, waits for granules, or begins (R168, R170, R172). -/
def renderStart (s : State) : State :=
  match s.ren.current, s.ren.queue with
  | none, r :: rest =>
    let ts := renderTargets r s
    if r.composed = false then s
    else if ts.isEmpty then showRenders { s with ren.queue := rest }
    else match renderSource r s with
      | none => refuseRender r s
      | some (_, img) =>
        let ms := distinctMade (ts.map fun x => wanted x.2 s)
        let slots := himgSlots img ms
        let s0 := forAll slots (fun k t => match t.ren.himg.getD k none with
          | some m => forAll (wordsOf (himgBase k m.buf) (m.w * ceilDiv m.h 8)) (fun w => readWord w 3) t
          | none => t) s
        if slots.any (fun k => !himgSound k s) || fontsDamaged img s then refuseRender r s0
        else match allocAll ms s0 with
          | none => if r.waited then s else incSat fREN_ALLOC_ALLOC_WAIT { s with ren.queue := { r with waited := true } :: rest }
          | some (made, s1) =>
            showAlloc (showRenders { s1 with
              ren.queue := rest, ren.current := some r, ren.made := made.map fun m => { m with
                jobs := (ts.filter fun x => decide ({ wanted x.2 s with header := m.header } = m)).map fun x => (x.1, x.2.head) }
              ren.uses := slots.filterMap fun k => (s.ren.himg.getD k none).map fun m => (k, m) })
  | _, _ => s

def execRenderStart (s : State) : Host.Outcome State Fault Refusal := .next (renderStart s)

/-- The store offset of block `k`, and whether it is compressed. -/
def blockEntry (header k : Nat) (s : State) : Nat × Bool :=
  let e := leNat (imgRead s (256 * header + 64 + 4 * k) 4)
  (e % 2 ^ 25, e.testBit 30)

/-- The blocks of an image are written. -/
def writeImage (m : Made) (grid : List (List Bool)) (s : State) : State :=
  forAll (List.range m.blocks) (fun k t =>
    let data := (List.range (min m.perBlock (m.cols - k * m.perBlock))).flatMap fun i => m.column grid (k * m.perBlock + i)
    imgWrite (blockEntry m.header k t).1 data t) s

/-- A complete image is given to the jobs it was made for, as their settings stood when the render began (R165, R175, R182). A job that has
moved to an alternate meanwhile takes it where the alternate's REN_HEADn_CFG equals the value it was rendered with (R110). -/
def giveImage (r : RenderReq) (m : Made) (s : State) : State :=
  let take (x : Nat × Job) : Bool :=
    jobOpen x.2.state && decide (x.2.prod = r.prod) && decide (getF (fHP_CFG_PERS x.2.head) s = m.pers) &&
    decide (elements x.2.head s = m.elems) &&
    m.jobs.any fun t => decide (t.1 = x.1) && (decide (t.2 = x.2.head) || decide (s.reg (rREN_HEAD_CFG x.2.head) = m.cfg))
  { s with sch.jobs := s.sch.jobs.map fun x => if take x then
      (x.1, { x.2 with image := imageAddr m.header, renCfg := m.cfg }) else x }

/-- Every image of the render in progress is complete (R168). A job that has moved meanwhile and can take none of them is rendered again
(R110). -/
def renderComplete (s : State) : State :=
  match s.ren.current with
  | none => s
  | some r =>
    let s1 := match renderSource r s with
      | none => s
      | some (texts, img) => forAll s.ren.made (fun m t =>
          giveImage r m (doIf (m.crops img) (incSat fREN_ERR_CROP) (writeImage m (gridOf img m.panel texts t.ren.uses t) t))) s
    let left := renderTargets { r with only := none } s1
    let s2 := addMod fREN_STAT_RENDERS 1 { s1 with ren.current := none, ren.made := [], ren.uses := [] }
    freeImages (dropRenders (forAll left (fun x => renderAgain x.1) s2))

def execRenderComplete (s : State) : Host.Outcome State Fault Refusal := .next (renderComplete s)

/-! ### Staging (R168, R173, R225 to R230, R436) -/

/-- The open jobs of a path in path order (R227). -/
def pathJobs (h : Nat) (s : State) : List (Nat × Job) :=
  (s.sch.jobs.filter fun x => decide (x.2.head = h) && jobOpen x.2.state).mergeSort fun a b => decide (a.2.seq ≤ b.2.seq)

/-- The stager begins the first buffer of the next job of a path, once its image is complete and its half of the line buffer is free. -/
def firstBufferStage (h : Nat) (s : State) : State :=
  match (pathJobs h s).find? fun x => x.2.half.isNone && !x.2.ended with
  | none => s
  | some (j, x) =>
    let p := path h s
    if x.image = 0 ∨ columnBytes h s = 0 ∨ (p.halves.getD p.nextHalf none).isSome ∨ p.restart then s
    else
      let p1 := { p with halves := p.halves.set p.nextHalf (some j), nextHalf := 1 - p.nextHalf }
      modJob j (fun y => { y with half := some p.nextHalf }) (setPath h p1 s)

def execFirstBufferStage (h : Nat) (s : State) : Host.Outcome State Fault Refusal := .next (if h < 16 then firstBufferStage h s else s)

/-- The columns of a job's first buffer (R226). -/
def firstBuffer (x : Job) (s : State) : Nat := min x.cols (halfSlots x.head s)

/-- The residency report of a job whose first buffer is staged; its image is compressed after that where REN_HEADn_CFG COMPRESS was
set as its render began (R168, R174, R182). -/
def jobResident (j : Nat) (s : State) : State :=
  match job j s with
  | none => s
  | some x =>
    if x.state ≠ .armed ∨ x.half.isNone ∨ x.image = 0 ∨ x.colsRes < firstBuffer x s then s
    else
      let hdr := (x.image - 0x1000000) / 256
      let n := leNat (imgRead s (256 * hdr + 6) 2)
      let s1 := modJob j (fun y => { y with state := .resident }) s
      if x.renCfg.getLsbD 18 ∧ s.ren.listed.contains hdr = false then
        { s1 with ren.toCompress := s1.ren.toCompress ++ (List.range n).map fun k => (hdr, k), ren.listed := s1.ren.listed ++ [hdr] }
      else s1

def execJobResident (j : Nat) (s : State) : Host.Outcome State Fault Refusal := .next (jobResident j s)

/-- An image is found damaged by a read of head `h`: IMAGE_DATA is raised, then the read's own errors, which stand after it in the collector's order,
and the job's image is rendered again ahead of the queue (R175, R437). -/
def imageDamage (h j header : Nat) (read : State → State) (s : State) : State :=
  if s.ren.damaged.contains header then read s
  else renderAgain j (read (raiseSimple srcImageData clsFlag false h { s with ren.damaged := s.ren.damaged ++ [header] }))

/-- The words of an image that a read of block `k`, `bytes` long, meets: its header, the block's table entry and the block. -/
def blockWords (header k bytes : Nat) (s : State) : List Nat :=
  wordsOf (256 * header) 64 ++ [(256 * header + 64 + 4 * k) / 8] ++ wordsOf (blockEntry header k s).1 bytes

/-- Bytes of a column and columns of a block of an image. -/
def imageColumn (header : Nat) (s : State) : Nat := leNat (imgRead s (256 * header + 2) 2)
def imageBlock (header : Nat) (s : State) : Nat := max 1 (leNat (imgRead s (256 * header + 4) 2))

/-- Bytes of block `k` of an image, uncompressed. -/
def blockBytes (header k : Nat) (s : State) : Nat :=
  min (imageBlock header s) (leNat (imgRead s (256 * header) 2) - k * imageBlock header s) * imageColumn header s

/-- The words that the stager reads for a column. -/
def stagedWords (header idx : Nat) (s : State) : List Nat :=
  let k := idx / imageBlock header s
  let e := blockEntry header k s
  blockWords header k (if e.2 then trowelLength (imgRead s e.1 4104) else blockBytes header k s) s

/-- The bytes of one column as the stager takes them from its block: none where a compressed block does not decode, which counts in TRW_ERR. A
damaged block is so found at its first column (R175). -/
def stageColumn (header idx : Nat) (s : State) : Option (List Byte) × State :=
  let cb := imageColumn header s
  let cpb := imageBlock header s
  let e := blockEntry header (idx / cpb) s
  let raw := imgRead s e.1 4104
  if e.2 then
    let s2 := doIf (decide (idx % cpb = 0)) (addMod fTRW_STAT_DECOMP 1) s
    match trowelDecode (raw.take (trowelLength raw)) with
    | .data l => (some (slice l ((idx % cpb) * cb) cb), s2)
    | .badFormat => (none, incSat fTRW_ERR_FMT_ERR s2)
    | .badCrc => (none, incSat fTRW_ERR_CRC_ERR s2)
  else (some (imgRead s (e.1 + (idx % cpb) * cb) cb), s)

/-- The job of a path that the stager serves: the first in path order that owns a half with a free slot and lacks a column. -/
def stagedJob (h : Nat) (s : State) : Option (Nat × Job) :=
  let p := path h s
  (pathJobs h s).find? fun x =>
    x.2.half.isSome && decide (x.2.colsRes < x.2.cols) && decide (x.2.image ≠ 0) && !x.2.ended &&
    !(s.ren.damaged.contains ((x.2.image - 0x1000000) / 256)) &&
    decide ((p.buf.filter fun c => decide (c.job = x.1)).length < halfSlots h s)

/-- A parity or protocol error on a stager path or its head-port switch: the path restarts, and one that restarts already starts again
(R435, R436). -/
def fabricError (h : Nat) (s : State) : State :=
  showWindows (modPath h (fun p => { p with restart := true })
    (raiseFault srcMarkFabric clsFlag h true [getF (fTRK_HLEAD_LINE h) s] s))

/-- A column delivered to a head's path: it is buffered, and counted for its job and as a credit granted (R173, R229). -/
def bufferColumn (h j idx : Nat) (data : List Byte) (s : State) : State :=
  let p := path h s
  let s1 := setPath h { p with
    buf := p.buf ++ [{ job := j, idx := idx, data := data }]
    lateSent := if p.cur = some j then false else p.lateSent } s
  let words := columnWords h (((job j s).bind (·.half)).getD 0) (idx % max 1 (halfSlots h s)) data.length
  let s2 := addMod (fSQ_CRED_GRANTED h) 1 (modJob j (fun y => { y with colsRes := y.colsRes + 1 }) (forAll words bankWrite s1))
  buAdvanceAll (doIf (decide (p.cur = some j)) (earlyLate h j) (showPath h s2))

/-- The stager delivers one column (R173). An error on the path, which may come with no column on it, restarts it; an uncorrectable error in
what is read damages the image (R175). -/
def columnDeliver (h : Nat) (fabric ue : Bool) (s : State) : State :=
  if fabric then fabricError h s
  else if (path h s).restart then s
  else match stagedJob h s with
  | none => s
  | some (j, x) =>
      let header := (x.image - 0x1000000) / 256
      let words := stagedWords header x.colsRes s
      if words.any fun w => wordBad w s then imageDamage h j header (readWords words 3) s
      else if ue then imageDamage h j header (memUe (wordBank (32 * header)) 3) s
      else match stageColumn header x.colsRes (readWords words 3 s) with
        | (none, s1) => imageDamage h j header id s1
        | (some data, s1) => bufferColumn h j x.colsRes data s1

def execColumnDeliver (h : Nat) (fabric ue : Bool) (s : State) : Host.Outcome State Fault Refusal :=
  .next (if h < 16 then columnDeliver h fabric ue s else s)

/-- A stager path restart ends: delivery resumes from the unchanged counts (R436). -/
def pathRestartDone (h : Nat) (s : State) : State :=
  if (path h s).restart then showWindows (modPath h (fun p => { p with restart := false }) s) else s

def execPathRestartDone (h : Nat) (s : State) : Host.Outcome State Fault Refusal := .next (if h < 16 then pathRestartDone h s else s)

/-! ### Compression (R174) -/

/-- A stager has delivered a part of a block and not yet the rest. -/
def blockStaged (header k cpb : Nat) (s : State) : Bool := s.sch.jobs.any fun x =>
  jobOpen x.2.state && decide (x.2.image = imageAddr header) && x.2.half.isSome && !x.2.ended && decide (k * cpb < x.2.colsRes) &&
  decide (x.2.colsRes < min x.2.cols ((k + 1) * cpb))

/-- The Trowel engine compresses the next block: `out` is what the encoder makes of it, which any decoder accepts. A block that does not
shrink stays as it is; one that is being staged is switched only after its read ends. An uncorrectable error in what the engine reads damages the
image (R175). -/
def trowelCompress (out : List Byte) (s : State) : State :=
  match s.ren.toCompress with
  | [] => s
  | (header, k) :: rest =>
    if blockStaged header k (imageBlock header s) s then s else
    let n := blockBytes header k s
    let words := blockWords header k n s
    if words.any fun w => wordBad w s then
      let s1 := { s with ren.toCompress := rest }
      match s.sch.jobs.find? fun x => decide (x.2.image = imageAddr header) with
      | some (j, x) => imageDamage x.head j header (readWords words 3) s1
      | none => readWords words 3 s1
    else
    let e := blockEntry header k s
    let raw := imgRead s e.1 n
    let s1 := readWords words 3 { s with ren.toCompress := rest }
    if trowelDecode out ≠ .data raw ∨ out.length ≠ trowelLength out then s
    else if getF fTRW_CFG_LEVEL s = 0 ∨ n ≤ out.length then incSat fTRW_ERR_STORED s1
    else match takeGranules (some header) (ceilDiv out.length 256) s1 with
      | none => s
      | some (g, s2) =>
        let s3 := imgWrite (256 * g) (padTo (ceilDiv out.length 256 * 256) out) s2
        let table := imgRead s3 (256 * header + (64 + 4 * k) / 8 * 8) 8
        let s4 := imgWrite (256 * header + (64 + 4 * k) / 8 * 8) (overlay table (4 * (k % 2)) (leBytes 4 (256 * g + 2 ^ 30))) s3
        let old := e.1 / 256
        addMod fTRW_STAT_COMP 1 (showAlloc { s4 with
          ren.granules := s4.ren.granules.filter fun x => !(decide (old ≤ x.1) && decide (x.1 < old + ceilDiv n 256)) })

def execTrowelCompress (out : List Byte) (s : State) : Host.Outcome State Fault Refusal := .next (trowelCompress out s)

/-! ### Fonts (R161, R162, R383) -/

/-- A loaded stencil names a font. -/
def fontNamed (id : Nat) (s : State) : Bool :=
  s.trust.stencils.any fun x => x.image.any fun img => (fontIds img).contains id

/-- REN_FONT_STAT LOADED and USED follow the glyph cache. -/
def showFonts (s : State) : State :=
  let bits := (List.range 16).foldl (fun a k => if (s.ren.fonts.getD k none).isSome then a + 2 ^ k else a) 0
  let total := (s.ren.fonts.map fun f => (f.getD []).length).sum
  setF fREN_FONT_STAT_LOADED bits (setF fREN_FONT_STAT_USED (ceilDiv total 1024) s)

/-- LOAD starts the verification; it has no effect while one runs. -/
def fontLoad (s : State) : State := if getB fREN_FONT_STAT_BUSY s then s else setB fREN_FONT_STAT_BUSY true s

def execFontLoad (s : State) : Host.Outcome State Fault Refusal := .next (hostAccess fontLoad s)

/-- The staged font image; bytes of a damaged word read as all ones (R383). -/
def stagedFont (s : State) : List Byte :=
  let rd (a n : Nat) : List Byte := (List.range n).map fun i => if wordBad ((a + i) / 8) s then 0xFF#8 else imgByte (a + i) s
  let n := leNat (rd 0x1FA0008 4)
  rd 0x1FA0000 (if 131072 < n then 32 else n)

/-- The result of a LOAD and what it loads. -/
def fontResult (f : List Byte) (s : State) : Nat × Option Nat :=
  let id := leAt f 12 4
  let old := fontSlot id s
  let oldImg := (old.bind fun k => s.ren.fonts.getD k none).getD []
  let repair := (old.any fun k => (getF fREN_FONT_STAT_DAMAGED s).testBit k) && decide (sha256 oldImg = sha256 f)
  let total := (s.ren.fonts.map fun x => (x.getD []).length).sum - oldImg.length + f.length
  if fontOk f = false then (1, none)
  else match authKey (leAt f 18 1) roleStencil s with
    | none => (3, none)
    | some key =>
      if Config.ecdsaVerify key (f.take (f.length - 64)) (f.drop (f.length - 64)) = false then (2, none)
      else if old.isSome && fontNamed id s && !repair then (5, none)
      else match old.orElse fun _ => (List.range 16).find? fun k => (s.ren.fonts.getD k none).isNone with
        | none => (4, none)
        | some k => if 1048576 < total then (4, none) else (0, some k)

/-- The verification ends: BUSY clears and RESULT is set. It waits while a supervisor switch runs (R425). -/
def fontVerifyDone (s : State) : State :=
  if getB fREN_FONT_STAT_BUSY s = false ∨ switching s then s
  else
    let f := stagedFont s
    let s0 := forAll (wordsOf 0x1FA0000 f.length) (fun w => readWord w 3) s
    let r := fontResult f s
    let s1 := setF fREN_FONT_STAT_RESULT r.1 (setB fREN_FONT_STAT_BUSY false s0)
    match r.2 with
    | none => s1
    | some k =>
      let dmg := getF fREN_FONT_STAT_DAMAGED s1
      showFonts (setF fREN_FONT_STAT_DAMAGED (if dmg.testBit k then dmg - 2 ^ k else dmg)
        { s1 with ren.fonts := s1.ren.fonts.set k (some f) })

def execFontVerifyDone (s : State) : Host.Outcome State Fault Refusal := .next (fontVerifyDone s)

/-- UNLOAD removes the font named in REN_FONT_ID, unless a loaded stencil names it (R162). -/
def fontUnload (s : State) : State :=
  let id := getF fREN_FONT_ID_FONT_ID s
  if getB fREN_FONT_STAT_BUSY s then s
  else if fontNamed id s then setF fREN_FONT_STAT_RESULT 5 s
  else match fontSlot id s with
    | none => setF fREN_FONT_STAT_RESULT 0 s
    | some k =>
      let dmg := getF fREN_FONT_STAT_DAMAGED s
      setF fREN_FONT_STAT_RESULT 0 (showFonts (setF fREN_FONT_STAT_DAMAGED (if dmg.testBit k then dmg - 2 ^ k else dmg)
        { s with ren.fonts := s.ren.fonts.set k none }))

def execFontUnload (s : State) : Host.Outcome State Fault Refusal := .next (hostAccess fontUnload s)

/-! ### Host images (R180) -/

/-- A bit of a register field set. -/
def setBit (f : Field) (k : Nat) (b : Bool) (s : State) : State :=
  let x := getF f s
  setF f (if x.testBit k = b then x else if b then x + 2 ^ k else x - 2 ^ k) s

/-- The render in progress uses a buffer of a slot. -/
def bufferUsed (slot buf : Nat) (s : State) : Bool := s.ren.uses.any fun u => decide (u.1 = slot) && decide (u.2.buf = buf)

/-- The slot's inactive buffer becomes writable, once no render uses it. -/
def himgBufferFree (k : Nat) (s : State) : State :=
  match s.ren.himg.getD k none with
  | none => if bufferUsed k 0 s ∨ bufferUsed k 1 s then s else setBit fREN_HIMG_STAT_INUSE k false s
  | some m =>
    if (getF fREN_HIMG_STAT_INUSE s).testBit k = false ∨ bufferUsed k (1 - m.buf) s then s
    else setBit fREN_HIMG_STAT_INUSE k false (setBit fREN_HIMG_WBUF_WBUF k (m.buf == 0) s)

def execHimgBufferFree (k : Nat) (s : State) : Host.Outcome State Fault Refusal := .next (if k < 16 then himgBufferFree k s else s)

/-- COMMIT makes the written buffer active; the other becomes writable once no render uses it. -/
def himgCommit (v : Nat) (s : State) : State :=
  let k := fieldOf fREN_HIMG_CMD_SLOT v
  let w := fieldOf fREN_HIMG_CMD_W_M1 v + 1
  let h := fieldOf fREN_HIMG_CMD_H_M1 v + 1
  if (getF fREN_HIMG_STAT_INUSE s).testBit k then setF fREN_HIMG_STAT_RESULT 1 s
  else if 8192 < ceilDiv h 8 * w then setF fREN_HIMG_STAT_RESULT 2 s
  else
    let buf := ((getF fREN_HIMG_WBUF_WBUF s).testBit k).toNat
    let s1 := { s with ren.himg := s.ren.himg.set k (some { buf := buf, w := w, h := h }) }
    himgBufferFree k (setF fREN_HIMG_STAT_RESULT 0 (setBit fREN_HIMG_STAT_VALID k true (setBit fREN_HIMG_STAT_INUSE k true s1)))

def execHimgCommit (value : Nat) (s : State) : Host.Outcome State Fault Refusal :=
  .next (hostAccess (fun t => himgCommit value (plainWrite rREN_HIMG_CMD value t)) s)

/-- CLEAR empties a slot. -/
def himgClear (v : Nat) (s : State) : State :=
  let k := fieldOf fREN_HIMG_CMD_SLOT v
  setBit fREN_HIMG_STAT_VALID k false { s with ren.himg := s.ren.himg.set k none }

def execHimgClear (value : Nat) (s : State) : Host.Outcome State Fault Refusal :=
  .next (hostAccess (fun t => himgClear value (plainWrite rREN_HIMG_CMD value t)) s)

end Sys2Proof.Machine
end

