-- ==== Sys2Proof/Machine/LifeCycle.lean ====
section
/-! DEFINITION. The life cycle, its tokens, and the key store (R115, R400 to R412); and the central service of waiting mailbox
requests (R150). -/

namespace Sys2Proof.Machine

/-! ### States (R400 to R407) -/

/-- Codes of R400. -/
def lcCode : LcState → Nat
  | .blank => 0
  | .provisioned => 1
  | .deployed => 2
  | .service => 3
  | .retired => 4

def modLc (f : Lifecycle → Lifecycle) (s : State) : State := { s with lc := f s.lc }

/-- The EXPIRY of the service record has passed; it counts as passed while the secure clock is not TRUSTED (R407). -/
def expiryPassed (s : State) : Bool := !clockTrusted s || s.lc.expiry.any fun t => decide (t ≤ secureTime s)

/-- SERVICE shows EXPIRED (R407). -/
def serviceExpired (s : State) : Bool := decide (s.lc.state = .service) && (s.lc.expired || expiryPassed s)

/-- JTAG, and fault injection with it, is open in SERVICE until its expiry (R400, R401). -/
def jtagOpen (s : State) : Bool := decide (s.lc.state = .service) && !serviceExpired s

/-- A change is refused: products in flight, a VALID binding slot, undrained audit entries, an update session or a pending activation
(R404). -/
def changeRefused (s : State) : Bool :=
  ((List.range 4).any fun n => decide ((ledger n s).inf ≠ 0)) ||
  (s.sch.binds.any fun b => getB (fSCH_BIND_CTL_VALID b.1) s) ||
  decide (getF fTRU_AUDIT_STAT_UNDRAINED s ≠ 0) || s.primer.session.isSome || s.primer.pend.isSome

/-- The records that every change erases, and the zero ledger record (R405). -/
def changeRecords (s : State) : State :=
  let s1 := persist s
  { s1 with
    sch.saved := some (List.replicate 4 {})
    ports := s1.ports.map fun p => { p with stored := none, nozSaved := [], nozOlder := [] } }

/-- A change to a state is accepted: its fuse burns, where the fuses hold the state, and the reset falls due (R400, R404). -/
def enterState (x : LcState) (fuse : Bool) (s : State) : State :=
  changeRecords (modLc (fun l => { l with
    state := x, fuses := if fuse then l.fuses + 1 else l.fuses, resetDue := true,
    expiry := if x = .service then l.expiry else none, expired := false }) s)

/-! ### Tokens (R410) -/

def actEnter : Nat := 1
def actAuth : Nat := 2
def actCheck : Nat := 3
def actCosign : Nat := 4
def actClear : Nat := 5
def actRetire : Nat := 6

/-- What a token has to say: its action, role, and the slot, roles and key material of the message where it has them. -/
structure TokenFor where
  action : Nat
  role : Nat
  slot : Option Nat := none
  roles : Option Nat := none
  subject : List Byte := []

/-- SUBJECT: the digest of the key material, zero where there is none. -/
def subjectOf (l : List Byte) : List Byte := if l = [] then List.replicate 16 0 else (sha256 l).take 16

/-- The status of the first check of a life-cycle token that fails. -/
def lcToken (t : TokenFor) (tok : List Byte) (s : State) : Option Nat :=
  match tokenCheck tok [0x53#8, 0x56#8, 0x4C#8, 0x43#8] 37 t.role s with
  | some st => some st
  | none =>
    if leAt tok 36 1 ≠ t.action ∨ (t.slot.any fun k => decide (leAt tok 38 1 ≠ k)) ∨ (t.roles.any fun r => decide (leAt tok 39 1 ≠ r)) ∨
        slice tok 46 16 ≠ subjectOf t.subject ∨ zeros tok 62 2 = false then some stFormat
    else if nonceFresh s.lc.nonce (slice tok 20 16) s = false then some stStaleToken
    else none

/-! ### Life-cycle messages (R403 to R408, R412) -/

/-- LC_STATUS. -/
def lcStatus : Handler := fun p s =>
  if p ≠ [] then refuse stBadLength s
  else answer (leBytes 1 (lcCode s.lc.state) ++ leBytes 1 (if serviceExpired s then 1 else 0) ++ leBytes 6 (s.lc.expiry.getD 0) ++
    leBytes 1 s.lc.fuses) s

/-- LC_NONCE: each nonce replaces the one before. -/
def lcNonce : Handler := fun p s =>
  if p ≠ [] then refuse stBadLength s
  else
    let d := drawNonce s
    answer d.1 (modLc (fun l => { l with nonce := some (d.1, s.trust.upMs) }) d.2)

/-- LC_PROVISION: the identity pair is generated, the key store, the counter records and the chain are created (R143, R403, R405). -/
def lcProvision : Handler := fun p s =>
  if s.lc.state ≠ .blank ∨ s.pwr.straps.bootsel ≠ 3 then refuse stState s
  else if p ≠ [] then refuse stBadLength s
  else if changeRefused s then refuse stInUse s
  else
    let s1 := modLc (fun l => { l with
      identity := l.identity + 1, auth := List.replicate 8 none, check := List.replicate 16 none, cosign := none }) s
    let s2 := { s1 with
      trust.counters := [], trust.mirror := [], trust.floors := [], trust.tseq := 0, trust.rseq := 0
      trust.chain := [], trust.auditNext := 0, trust.ackNext := 0, trust.ckpts := [] }
    let s3 := enterState .provisioned true (auditAppend { type := 1 } s2)
    answer (deviceId s3 ++ identityPublic s3) s3

/-- LC_DEPLOY. -/
def lcDeploy : Handler := fun p s =>
  if s.lc.state ≠ .provisioned then refuse stState s
  else if p ≠ [] then refuse stBadLength s
  else if s.lc.auth.all fun k => !(k.any fun x => x.2.testBit roleStencil) then refuse stKeySlot s
  else if changeRefused s then refuse stInUse s
  else answer [] (enterState .deployed true s)

/-- LC_SERVICE_ENTER. -/
def lcServiceEnter : Handler := fun p s =>
  if s.lc.state ≠ .deployed then refuse stState s
  else if p.length ≠ 128 then refuse stBadLength s
  else match lcToken { action := actEnter, role := roleService } p s with
    | some st => refuse st s
    | none =>
      if changeRefused s then refuse stInUse s
      else answer [] (enterState .service false (modLc (fun l => { l with expiry := some (leAt p 40 6) }) s))

/-- LC_SERVICE_EXIT. -/
def lcServiceExit : Handler := fun p s =>
  if s.lc.state ≠ .service then refuse stState s
  else if p ≠ [] then refuse stBadLength s
  else if changeRefused s then refuse stInUse s
  else answer [] (enterState .deployed false s)

/-- What retirement erases: keys, counters, floors, sequence numbers, ledger record and chain (R405). -/
def eraseAll (s : State) : State :=
  { s with
    lc.auth := List.replicate 8 none, lc.check := List.replicate 16 none, lc.cosign := none
    sch.saved := none
    trust.counters := [], trust.mirror := [], trust.savedCounters := [], trust.floors := [], trust.tseq := 0, trust.rseq := 0
    trust.chain := [], trust.auditNext := 0, trust.ackNext := 0, trust.ring := [], trust.ckpts := [], trust.savedHead := none
    trust.savedCkpt := none }

/-- The change to RETIRED, with the final checkpoint in the response. -/
def retire (s : State) : Reply × State :=
  let s1 := signCheckpoint (s.trust.auditNext - 1) s.trust.chain s
  answer ((s1.trust.ckpts.head?.map (·.2)).getD []) (eraseAll (enterState .retired true s1))

/-- LC_RETIRE: without a token from PROVISIONED, with one from DEPLOYED and SERVICE. -/
def lcRetire : Handler := fun p s =>
  if s.lc.state = .provisioned then
    if p ≠ [] then refuse stBadLength s else if changeRefused s then refuse stInUse s else retire s
  else if s.lc.state = .deployed ∨ s.lc.state = .service then
    if p.length ≠ 128 then refuse stBadLength s
    else match lcToken { action := actRetire, role := roleKeys } p s with
      | some st => refuse st s
      | none => if changeRefused s then refuse stInUse s else retire s
  else refuse stState s

/-- The service EXPIRY passes: EXPIRED is set (R407). -/
def execServiceExpiry (s : State) : Host.Outcome State Fault Refusal :=
  .next (if serviceExpired s then modLc (fun l => { l with expired := true }) s else s)

/-! ### Keys (R409 to R412) -/

/-- The entry of a key slot in KEY_STATUS: whether it holds a key, its roles, and the digest of a public key. -/
def keyEntry (held : Bool) (roles : Nat) (pub : List Byte) : List Byte :=
  leBytes 1 (if held then 1 else 0) ++ leBytes 1 roles ++ subjectOf pub

/-- The device holds an identity pair. -/
def hasIdentity (s : State) : Bool := decide (s.lc.state ≠ .blank) && decide (s.lc.state ≠ .retired)

/-- KEY_STATUS: the slots of every class in the order of R409. -/
def keyStatus : Handler := fun p s =>
  if p ≠ [] then refuse stBadLength s
  else answer (keyEntry true 0 [] ++ keyEntry (hasIdentity s) 0 (if hasIdentity s then identityPublic s else []) ++
    keyEntry true 0 Config.updateRoot ++ keyEntry s.lc.cosign.isSome 0 (s.lc.cosign.getD []) ++
    (s.lc.auth.flatMap fun k => keyEntry k.isSome ((k.map (·.2)).getD 0) ((k.map (·.1)).getD [])) ++
    (s.lc.check.flatMap fun k => keyEntry k.isSome 0 []) ++ (s.ocl.ports.flatMap fun x => keyEntry x.auth 0 [])) s

/-- A key message of `n` bytes: in PROVISIONED without a token, in SERVICE with one; `bad` is a breach of the message's own structure
and `used` a reason of R410 to refuse it. -/
def keyMessage (n : Nat) (tok : TokenFor) (bad used : Bool) (p : List Byte) (s : State) (f : State → Reply × State) : Reply × State :=
  if s.lc.state ≠ .provisioned ∧ s.lc.state ≠ .service then refuse stState s
  else if p.length ≠ (if s.lc.state = .service then n + 128 else n) then refuse stBadLength s
  else if bad then refuse stFormat s
  else match (if s.lc.state = .service then lcToken tok (p.drop n) s else none) with
    | some st => refuse st s
    | none => if used then refuse stInUse s else f s

/-- A loaded stencil or font names an authority slot. -/
def authNamed (k : Nat) (s : State) : Bool :=
  (s.trust.stencils.any fun x => x.image.any fun img => decide (leAt img 18 1 = k)) ||
  s.ren.fonts.any fun f => f.any fun l => decide (leAt l 18 1 = k)

/-- A loaded stencil names a check-code slot. -/
def checkNamed (k : Nat) (s : State) : Bool :=
  s.trust.stencils.any fun x => x.image.any fun img => (fieldsOf img 4).any fun i => decide (leAt (fieldParam img i) 0 1 = k)

/-- Authority slots with one set to a key, or cleared, leave none with the KEYS role while the state is SERVICE. -/
def keysGone (k : Nat) (x : Option (List Byte × Nat)) (s : State) : Bool :=
  decide (s.lc.state = .service) && (s.lc.auth.set k x).all fun y => !(y.any fun z => z.2.testBit roleKeys)

/-- KEY_AUTH_SET. -/
def keyAuthSet : Handler := fun p s =>
  let k := leAt p 0 1
  let roles := leAt p 1 1
  let pub := slice p 2 64
  let tok : TokenFor := { action := actAuth, role := roleKeys, slot := some k, roles := some roles, subject := pub }
  keyMessage 66 tok (decide (8 ≤ k) || decide (32 ≤ roles)) (keysGone k (some (pub, roles)) s || authNamed k s) p s fun s =>
    answer [] (modLc (fun l => { l with auth := l.auth.set k (some (pub, roles)) }) s)

/-- The check-code key in a message, unwrapped under the key agreed with the sender (R411). -/
def unwrapKey (p : List Byte) (s : State) : Option (List Byte) :=
  let x := beBytes 32 (Config.ecdhX s.lc.identity (slice p 1 64)).toNat
  let kek := sha256 (x ++ [0x53#8, 0x56#8, 0x5A#8, 0x4B#8] ++ deviceId s)
  (Config.aesUnwrap kek (slice p 65 40)).map (padTo 32)

/-- KEY_CHECK_SET. -/
def keyCheckSet : Handler := fun p s =>
  let k := leAt p 0 1
  let tok : TokenFor := { action := actCheck, role := roleKeys, slot := some k, subject := slice p 1 104 }
  keyMessage 105 tok (decide (16 ≤ k)) (keysGone 8 none s || checkNamed k s) p s fun s =>
    match unwrapKey p s with
    | none => refuse stFormat s
    | some key => answer [] (modLc (fun l => { l with check := l.check.set k (some key) }) s)

/-- KEY_COSIGN_SET. -/
def keyCosignSet : Handler := fun p s =>
  let tok : TokenFor := { action := actCosign, role := roleKeys, subject := p.take 64 }
  keyMessage 64 tok false (keysGone 8 none s) p s fun s => answer [] (modLc (fun l => { l with cosign := some (p.take 64) }) s)

/-- KEY_CLEAR. -/
def keyClear : Handler := fun p s =>
  let cls := leAt p 0 1
  let k := leAt p 1 1
  let tok : TokenFor := { action := actClear, role := roleKeys, slot := some k }
  let size := if cls = 0 then 8 else if cls = 1 then 16 else if cls = 2 then 1 else 0
  let used := keysGone (if cls = 0 then k else 8) none s || (decide (cls = 0) && authNamed k s) || (decide (cls = 1) && checkNamed k s)
  keyMessage 2 tok (decide (size ≤ k)) used p s fun s =>
    answer [] (modLc (fun l => match cls with
      | 0 => { l with auth := l.auth.set k none }
      | 1 => { l with check := l.check.set k none }
      | _ => { l with cosign := none }) s)

def execLcStatus (tag : Nat) (payload : List Byte) (s : State) : Host.Outcome State Fault Refusal :=
  .next (mailboxMessage 0x60 tag payload lcStatus s)
def execLcNonce (tag : Nat) (payload : List Byte) (s : State) : Host.Outcome State Fault Refusal :=
  .next (mailboxMessage 0x61 tag payload lcNonce s)
def execLcProvision (tag : Nat) (payload : List Byte) (s : State) : Host.Outcome State Fault Refusal :=
  .next (mailboxMessage 0x62 tag payload lcProvision s)
def execLcDeploy (tag : Nat) (payload : List Byte) (s : State) : Host.Outcome State Fault Refusal :=
  .next (mailboxMessage 0x63 tag payload lcDeploy s)
def execLcServiceEnter (tag : Nat) (payload : List Byte) (s : State) : Host.Outcome State Fault Refusal :=
  .next (mailboxMessage 0x64 tag payload lcServiceEnter s)
def execLcServiceExit (tag : Nat) (payload : List Byte) (s : State) : Host.Outcome State Fault Refusal :=
  .next (mailboxMessage 0x65 tag payload lcServiceExit s)
def execLcRetire (tag : Nat) (payload : List Byte) (s : State) : Host.Outcome State Fault Refusal :=
  .next (mailboxMessage 0x66 tag payload lcRetire s)
def execKeyStatus (tag : Nat) (payload : List Byte) (s : State) : Host.Outcome State Fault Refusal :=
  .next (mailboxMessage 0x68 tag payload keyStatus s)
def execKeyAuthSet (tag : Nat) (payload : List Byte) (s : State) : Host.Outcome State Fault Refusal :=
  .next (mailboxMessage 0x69 tag payload keyAuthSet s)
def execKeyCheckSet (tag : Nat) (payload : List Byte) (s : State) : Host.Outcome State Fault Refusal :=
  .next (mailboxMessage 0x6A tag payload keyCheckSet s)
def execKeyCosignSet (tag : Nat) (payload : List Byte) (s : State) : Host.Outcome State Fault Refusal :=
  .next (mailboxMessage 0x6B tag payload keyCosignSet s)
def execKeyClear (tag : Nat) (payload : List Byte) (s : State) : Host.Outcome State Fault Refusal :=
  .next (mailboxMessage 0x6C tag payload keyClear s)

/-! ### The request that waits (R150, R425) -/

/-- What serves a mailbox type; an unknown type is answered with BAD_TYPE (R153). -/
def handlerOf (ty : Nat) : Handler := match ty with
  | 0x01 => stencilBegin
  | 0x02 => stencilData
  | 0x03 => stencilEnd
  | 0x04 => stencilUnload
  | 0x05 => stencilInfo
  | 0x10 => openSet
  | 0x11 => batchAdvance
  | 0x20 => timeNonce
  | 0x21 => timeToken
  | 0x22 => timeStatus
  | 0x30 => serialLedger
  | 0x31 => counterRebase
  | 0x40 => auditRead
  | 0x41 => auditAck
  | 0x42 => ckptRead
  | 0x50 => identityInfo
  | 0x60 => lcStatus
  | 0x61 => lcNonce
  | 0x62 => lcProvision
  | 0x63 => lcDeploy
  | 0x64 => lcServiceEnter
  | 0x65 => lcServiceExit
  | 0x66 => lcRetire
  | 0x68 => keyStatus
  | 0x69 => keyAuthSet
  | 0x6A => keyCheckSet
  | 0x6B => keyCosignSet
  | 0x6C => keyClear
  | _ => fun _ s => refuse stBadType s

/-- The request in the mailbox is taken at GO: a payload longer than the buffer is cut (R150, R151). -/
def mailboxTake (s : State) : State :=
  let ty := getF fTRU_REQ_HDR_TYPE s
  mailboxGo ty (getF fTRU_REQ_HDR_TAG s) (getWords rTRU_REQ (min 3072 (getF fTRU_REQ_HDR_LEN s)) s) (handlerOf ty) s

/-- The waiting request is served once nothing holds it back any more. -/
def serveWaiting (s : State) : State := match s.trust.waiting with
  | none => s
  | some r =>
    if requestWaits r.type s then s
    else
      let x := serveWith r.type (handlerOf r.type) r.payload { s with trust.waiting := none }
      mailboxReply r.type r.tag x.1 x.2

end Sys2Proof.Machine
end

