-- ==== Sys2Proof/Machine/Schedule.lean ====
section
/-! DEFINITION. The meanings of the scheduler commands: events of jobs and gates, host-inserted events, binding slots, settings,
snapshots (R80 to R116, R520). -/

namespace Sys2Proof.Machine

/-! ### Events -/

/-- A READY_BY that comes due ends a burst of its head (R278). -/
def burstDue (e : Event) (s : State) : State := match job e.job s with
  | some x => abortBurst x.head s
  | none => s

def execReadyBy (i : Nat) (s : State) : Host.Outcome State Fault Refusal :=
  .next (dispatch i .readyBy (fun e t => tidy (readyBy e (burstDue e (petErase i t)))) s)

def execStartChk (i : Nat) (s : State) : Host.Outcome State Fault Refusal :=
  .next (dispatch i .startChk (fun e t => if heldCheck e t then { t with sch.pet := spMod t.sch.pet i fun x => { x with due := none } }
    else tidy (startChk e (petErase i t))) s)

def execEndChk (i : Nat) (s : State) : Host.Outcome State Fault Refusal :=
  .next (dispatch i .endChk (fun e t => tidy (endChk e (petErase i t))) s)

def execRejDecide (i : Nat) (s : State) : Host.Outcome State Fault Refusal :=
  .next (dispatch i .rejDecide (fun e t => rejDecide e (petErase i t)) s)

def execRejGate (i : Nat) (s : State) : Host.Outcome State Fault Refusal := .next (dispatch i .rejGate (rejGate i) s)

def execRejOff (i : Nat) (s : State) : Host.Outcome State Fault Refusal :=
  .next (dispatch i .rejOff (fun e t => rejOff e (petErase i t)) s)

/-- The pulses of WMODE 1 that have lasted WIDTH × 10 µs, counted in ticks, end (R105). -/
def execRejPulseTimer (r : Nat) (s : State) : Host.Outcome State Fault Refusal :=
  .next (if r < 8 then showRej r (s.setRej r 
    { s.rej r with timed := (s.rej r).timed.filter fun x => decide ((now s - x.1).toNat < x.2) }) else s)

/-! ### Host-inserted events (R85, R86) -/

/-- ARG names an engine of the kind its type uses, and sets no other bit (R86). -/
def argValid (type arg : Nat) : Bool :=
  match type with
  | 7 => decide (arg < 20)
  | 8 =>
    let idx := arg % 64
    match arg / 64 with
    | 0 => decide (idx < 20)
    | 1 => decide (idx < 8)
    | 2 => decide (idx < 8)
    | _ => false
  | _ => true

/-- SCH_INS_CMD written with GO (R85): the first test that holds gives the result. -/
def petHostInsert (v : Nat) (s : State) : State :=
  let type := fieldOf fSCH_INS_CMD_TYPE v
  let arg := fieldOf fSCH_INS_CMD_ARG v
  let e : Event :=
    { pos := s.reg rSCH_INS_POS, type := if type = 7 then .handover else if type = 8 then .signal else .activate,
      line := fieldOf fSCH_INS_CMD_LINE v, headrel := fieldOf fSCH_INS_CMD_HEADREL v == 1, head := fieldOf fSCH_INS_CMD_HEAD v,
      job := 0, ptab := 0, noent := false, rej := 0, host := true, arg := arg, width := 0, wmode := false, hasRej := false,
      pulse := false, seq := 0, due := none }
  let held := (s.sch.pet.filter fun x => x.2.host).length
  if fieldOf fSCH_INS_CMD_GO v = 0 then s
  else if type < 7 ∨ 9 < type then setF fSCH_INS_STAT_RESULT 3 s
  else if argValid type arg = false then setF fSCH_INS_STAT_RESULT 4 s
  else if petFree s = 0 ∨ getF fSCH_PET_HOSTMAX_HOSTMAX s ≤ held then setF fSCH_INS_STAT_RESULT 1 s
  else if atOrBeyond (reference e s) e.pos then setF fSCH_INS_STAT_RESULT 2 s
  else setF fSCH_INS_STAT_RESULT 0 (setF fSCH_INS_STAT_ENTRY ((spFree s.sch.pet petSize 0).getD 0) (petInsert e s))

def execPetInsert (value : Nat) (s : State) : Host.Outcome State Fault Refusal := .next (hostAccess (petHostInsert value) s)

/-! ### Binding slots (R88 to R90, R520) -/

/-- A slot is in use: an input names it, or it is bound to a product IN_FLIGHT (R90). -/
def slotInUse (b : Nat) (s : State) : Bool :=
  ((List.range 16).any fun p =>
    (getB (fSCH_PD_BIND_EN p) s && decide (getF (fSCH_PD_BIND_SLOT p) s = b)) ||
    (getB (fSCH_PD_NEXT_PEND p) s && decide (getF (fSCH_PD_NEXT_SLOT p) s = b))) ||
  s.sch.ptab.any fun x => decide (x.2.slot = b) && decide (x.2.state = .inFlight)

/-- The enabled mark entries of a slot within NMARK (R87). -/
def markSets (b : Nat) (s : State) : List MarkSet :=
  ((List.range (getF (fSCH_BIND_CTL_NMARK b) s + 1)).filter fun m => getB (fSCH_BIND_MK_CFG_EN b m) s).map fun m =>
    { idx := m, head := getF (fSCH_BIND_MK_CFG_HEAD b m) s,
      alt := if getB (fSCH_BIND_MK_CFG_ALT_EN b m) s then some (getF (fSCH_BIND_MK_CFG_ALT b m) s) else none,
      pair := getB (fSCH_BIND_MK_CFG_PAIR b m) s, ofs := getF (fSCH_BIND_MK_OFS_OFS b m) s,
      len := getF (fSCH_BIND_MK_LEN_LEN b m) s, cols := getF (fSCH_BIND_MK_LEN_COLS b m) s,
      pitch := getF (fSCH_BIND_MK_PITCH_PITCH b m) s }

/-- The heads a mark entry names: its head and its declared alternate. -/
def markHeads (m : MarkSet) : List Nat := m.head :: m.alt.toList

/-- ALIGN_X of a head port as R89 takes it: the larger of its active and shadow values, in sub-counts. -/
def alignMax (h : Nat) (s : State) : Int :=
  max (getI (fHP_ALIGN_ALIGN_X h) s) (signedOf (fHP_ALIGN_ALIGN_X h).width (getShadowF (fHP_ALIGN_ALIGN_X h) s))

/-- The test of error 3: the reject decision lies at or after the END_CHK of every enabled mark, for each head it names (R89). -/
def orderOk (x : Binding) (s : State) : Bool :=
  match x.rej with
  | none => true
  | some r => x.marks.all fun m => (markHeads m).all fun h =>
      decide ((m.ofs + stretched m.len h s + getF (fSCH_LINE_CTL_END_SLIP x.line) s + ceilDiv (max (alignMax h s) 0).toNat 256 : Nat) ≤
        (getF (fSCH_REJ_GATE_GATE_OFS r) s : Int) - (getF (fSCH_REJ_CFG_DEC_LEAD r) s : Int))

/-- The settings a LOAD would validate. -/
def readSlot (b : Nat) (figs : Figures) (s : State) : Binding :=
  { stencil := getF (fSCH_BIND_CTL_STENCIL b) s, line := getF (fSCH_BIND_CTL_LINE b) s,
    rej := if getB (fSCH_BIND_CTL_REJ_EN b) s then some (getF (fSCH_BIND_CTL_REJ b) s) else none,
    marks := markSets b s, tGuard := getF (fSCH_BIND_ARM1_T_GUARD b) s, figs := figs, dArm := 0 }

/-- The error of a slot that is not in use, 0 for none (R88). Of several that hold the lowest shows (DESIGN CHOICE, log entry 192). -/
def loadError (x : Binding) (s : State) : Nat :=
  let differs (h a : Nat) : Bool :=
    decide (getF (fHP_CFG_PERS h) s ≠ getF (fHP_CFG_PERS a) s) || decide (getF (fHP_CFG_E_M1 h) s ≠ getF (fHP_CFG_E_M1 a) s)
  if (stencilOf x.stencil s).isNone then 1
  else if x.marks.any fun m => m.alt.any fun a => differs m.head a then 2
  else if orderOk x s = false then 3
  else if x.marks.any fun m => (markHeads m).any fun h => decide (getF (fHP_CFG_PERS h) s = 0) then 4
  else if x.marks.isEmpty then 6
  else 0

/-- LOAD of a slot that is not in use (R88, R520). -/
def loadSlot (b : Nat) (s : State) : State :=
  let figs := (s.trust.stencils.getD (getF (fSCH_BIND_CTL_STENCIL b) s % 32) {}).figs
  let x := readSlot b figs s
  let err := loadError x s
  let s1 := setF (fSCH_BIND_BSTAT_ERR b) err (setB (fSCH_BIND_CTL_VALID b) (err == 0) s)
  if err = 0 then
    let s2 := forAll (List.range 4) (fun m => setF (fSCH_BIND_MK_PITCH_TOL b m) figs.tol) s1
    publishTerms b x (setB (fSCH_BIND_BSTAT_MODIFIED b) false s2)
  else { s1 with sch.binds := spErase s1.sch.binds b }

/-- UNLOAD clears VALID (R520). -/
def unloadSlot (b : Nat) (s : State) : State :=
  setB (fSCH_BIND_CTL_VALID b) false { s with sch.binds := spErase s.sch.binds b }

/-- A write of SCH_BINDs_CTL, with its LOAD and UNLOAD (R88, R90, R520). A write with UNLOAD, or with a LOAD that fails, leaves MODIFIED as
it was whatever other fields it changes (DESIGN CHOICE, log entry 168). -/
def bindCtlWrite (b v : Nat) (s : State) : State :=
  if 64 ≤ b then s else
  let load := fieldOf (fSCH_BIND_CTL_LOAD b) v = 1
  let unload := fieldOf (fSCH_BIND_CTL_UNLOAD b) v = 1
  let valid := getB (fSCH_BIND_CTL_VALID b) s
  if valid ∧ slotInUse b s then
    let s1 := setB (fSCH_BIND_BSTAT_REFUSED b) true s
    if load ∧ ¬ unload then setF (fSCH_BIND_BSTAT_ERR b) 5 s1 else s1
  else
    let s1 := plainWrite (rSCH_BIND_CTL b) v s
    if load ∧ unload then setB (fSCH_BIND_BSTAT_REFUSED b) true s1
    else if load then
      if slotInUse b s then setF (fSCH_BIND_BSTAT_ERR b) 5 (setB (fSCH_BIND_BSTAT_REFUSED b) true s1) else loadSlot b s1
    else if unload then unloadSlot b s1
    else doIf valid (setB (fSCH_BIND_BSTAT_MODIFIED b) true) s1

/-- The binding slot a register belongs to. -/
def slotOfAddr (a : Nat) : Option Nat := if 0x130000 ≤ a ∧ a < 0x134000 then some ((a - 0x130000) / 0x100) else none

/-- A write of a binding slot register other than CTL's commands (R90, R520). Writes to BSTAT are always accepted; ARM0 holds
nothing that a write changes. -/
def bindRegWrite (a v : Nat) (s : State) : State :=
  match slotOfAddr a with
  | none => s
  | some b =>
    if a = rSCH_BIND_CTL b then bindCtlWrite b v s
    else if a = rSCH_BIND_BSTAT b then plainWrite a v s
    else if (regSpecAt a).isNone then s
    else
      let valid := getB (fSCH_BIND_CTL_VALID b) s
      if valid ∧ slotInUse b s then setB (fSCH_BIND_BSTAT_REFUSED b) true s
      else doIf (valid && decide (a ≠ rSCH_BIND_ARM0 b)) (setB (fSCH_BIND_BSTAT_MODIFIED b) true) (plainWrite a v s)

def execBindLoad (b value : Nat) (s : State) : Host.Outcome State Fault Refusal :=
  .next (hostAccess (bindCtlWrite b (withField (fSCH_BIND_CTL_LOAD b) 1 value)) s)

def execBindUnload (b value : Nat) (s : State) : Host.Outcome State Fault Refusal :=
  .next (hostAccess (bindCtlWrite b (withField (fSCH_BIND_CTL_UNLOAD b) 1 value)) s)

def execBindRegWrite (addr value : Nat) (s : State) : Host.Outcome State Fault Refusal := .next (hostAccess (bindRegWrite addr value) s)

/-! ### Settings (R89, R93, R103) -/

/-- A write under which a VALID slot would fail the reject-decision test is ignored as a whole and sets CFG_REFUSED on that slot's
line (R89). -/
def retested (w : State → State) (s : State) : State :=
  let t := w s
  let bad := t.sch.binds.filter fun x => !orderOk x.2 t
  if bad.isEmpty then t else forAll bad (fun x => setB (fSCH_LINE_STAT_CFG_REFUSED x.2.line) true) s

/-- A write of SCH_LINEn_CTL: END_SLIP is re-tested (R89); LATE_MODE 1 without REV_CMD_EN and L_BU is refused by itself (R103).
MC 6 and 7 are stored as written (DESIGN CHOICE, log entry 196). -/
def schLineCtlWrite (n v : Nat) (s : State) : State :=
  if 4 ≤ n then s else
  let bad := decide (fieldOf (fSCH_LINE_CTL_LATE_MODE n) v = 1) &&
    (!getB (fTRK_LINE_CTL_REV_CMD_EN n) s || decide (getF (fTRK_LINE_REVLIM_L_BU n) s = 0))
  let w := if bad then withField (fSCH_LINE_CTL_LATE_MODE n) 0 v else v
  retested (fun t => doIf bad (setB (fSCH_LINE_STAT_CFG_REFUSED n) true) (plainWrite (rSCH_LINE_CTL n) w t)) s

/-- The registers whose write is re-tested under R89, beside SCH_LINEn_CTL. -/
def isRetested (a : Nat) : Bool :=
  ((List.range 16).any fun h => decide (a = rSCH_HEAD_CFG h) || decide (a = rHP_ALIGN h)) ||
  (List.range 8).any fun r => decide (a = rSCH_REJ_CFG r) || decide (a = rSCH_REJ_GATE r)

/-- A write of S, END_SLIP, DEC_LEAD, GATE_OFS or ALIGN_X (R89). A reject output's settings act on it at once (R116). -/
def settingWrite (a v : Nat) (s : State) : State :=
  if (List.range 4).any fun n => decide (a = rSCH_LINE_CTL n) then schLineCtlWrite ((a - rSCH_LINE_CTL 0) / 0x100) v s
  else if isRetested a then trackRejs (retested (fun t => shadowLate a (plainWrite a v t)) s)
  else s

def execSettingRetestWrite (addr value : Nat) (s : State) : Host.Outcome State Fault Refusal := .next (hostAccess (settingWrite addr value) s)

def execSchLineCtlWrite (line value : Nat) (s : State) : Host.Outcome State Fault Refusal := .next (hostAccess (schLineCtlWrite line value) s)

/-- A write of SCH_LINEn_VMAX recomputes the terms and D_ARM of every VALID slot of the line (R93). -/
def vmaxWrite (n v : Nat) (s : State) : State :=
  if 4 ≤ n then s else republish (fun x => x.line == n) (plainWrite (rSCH_LINE_VMAX n) v s)

def execVmaxWrite (line value : Nat) (s : State) : Host.Outcome State Fault Refusal := .next (hostAccess (vmaxWrite line value) s)

/-- A write of 1 to LINE_SAFE leaves the state, unless a fault that caused it is still set (R108) or the device is in DEVICE_SAFE
(R434). -/
def lineSafeExit (n : Nat) (s : State) : State :=
  if 4 ≤ n ∨ !getB (fSCH_LINE_STAT_LINE_SAFE n) s ∨ getB fFLT_REC_DEVICE_SAFE s ∨
      (s.sch.safeSrc.getD n []).any (fun k => (getF fFLT_STATUS_STATUS s).testBit k) then s
  else
    let old := reportedState n s
    let s1 := setB (fSCH_LINE_STAT_LINE_SAFE n) false { s with sch.safeSrc := s.sch.safeSrc.set n [] }
    let s2 := setF fFLT_REC_LINES_SAFE (getF fFLT_REC_LINES_SAFE s1 &&& (0xF ^^^ 2 ^ n)) s1
    showArming n (trackRejs (lineStateChanged n old s2))

def execLineSafeExit (line : Nat) (s : State) : Host.Outcome State Fault Refusal := .next (hostAccess (lineSafeExit line) s)

/-! ### Snapshots (R28, R113) -/

/-- A snapshot is requested; a second request before the copy joins the first. -/
def snapReq (n : Nat) (s : State) : State :=
  if 4 ≤ n ∨ s.sch.snapPend.any (fun x => decide (x.1 = n)) then s
  else { s with sch.snapPend := s.sch.snapPend ++ [(n, now s)] }

def execSnapReq (line : Nat) (s : State) : Host.Outcome State Fault Refusal := .next (hostAccess (snapReq line) s)

/-- The twelve counters and the tick are copied in one tick and SNAP_SEQ counts on. -/
def snapCopy (n : Nat) (s : State) : State :=
  let l := ledger n s
  let s1 := forAll [(rSCH_LINE_SNAP_TICK n, now s), (rSCH_LINE_SNAP_DET n, l.det), (rSCH_LINE_SNAP_OK n, l.ok),
    (rSCH_LINE_SNAP_FLAG n, l.flag), (rSCH_LINE_SNAP_REJ n, l.rej), (rSCH_LINE_SNAP_INF n, l.inf),
    (rSCH_LINE_SNAP_CAUSE n 0, l.c1), (rSCH_LINE_SNAP_CAUSE n 1, l.c2), (rSCH_LINE_SNAP_CAUSE n 2, l.c3),
    (rSCH_LINE_SNAP_CAUSE n 3, l.c4), (rSCH_LINE_SNAP_CAUSE n 4, l.c5), (rSCH_LINE_SNAP_CAUSE n 5, l.c6),
    (rSCH_LINE_SNAP_CAUSE n 6, l.c7)] (fun x t => t.setReg x.1 x.2) s
  addMod (fSCH_LINE_STAT_SNAP_SEQ n) 1 s1

/-- The copy of a requested snapshot, in a tick after the request's. -/
def snapshotCopy (n : Nat) (s : State) : State :=
  if s.sch.snapPend.any fun x => decide (x.1 = n) && decide (x.2 ≠ now s) then
    snapCopy n { s with sch.snapPend := s.sch.snapPend.filter fun x => decide (x.1 ≠ n) }
  else s

end Sys2Proof.Machine
end

