-- ==== Sys2Proof/Machine/Host.lean ====
section
/-! DEFINITION. The host port's rings, messages and events, and the line ports (R33, R349 to R365, R408, R425, R434, R437). -/

namespace Sys2Proof.Machine

/-! ### Rings (R353 to R355) -/

/-- Entries of a queue pair's rings. -/
def pairSize (q : Nat) (s : State) : Nat := ringSize (getF (fHST_QP_CFG_LOG2N q) s)

/-- Messages the host has made visible and the device has not taken: the device credits of a request ring (R354). -/
def requestsWaiting (q : Nat) (s : State) : Nat := (getF (fHST_QP_RQ_PI_INDEX q) s + 65536 - getF (fHST_QP_RQ_CI_INDEX q) s) % 65536

/-- The device credits of a response ring (R354). -/
def responseCredits (q : Nat) (s : State) : Nat :=
  producerCredits (pairSize q s) (getF (fHST_QP_RS_PI_INDEX q) s) (getF (fHST_QP_RS_CI_INDEX q) s)

/-- An entry of a response or event ring (R355). -/
def entryBytes (phase : Bool) (type status tag : Nat) (payload : List Byte) : List Byte :=
  let p := payload.take 112
  leBytes 2 type ++ leBytes 2 status ++ leBytes 4 tag ++ leBytes 2 p.length ++ leBytes 1 (if phase then 1 else 0) ++ leBytes 5 0 ++ padTo 112 p

/-- Where entry `i` of a ring lies (R353). -/
def entryAddress (base n i : Nat) : Nat := (base + i % n * 128) % 2 ^ 48

/-- PHASE of the pass that runs on ring `k`: a pair's response ring, or 4 the event ring. -/
def ringPhase (k : Nat) (s : State) : Bool := s.host.phase.getD k true

def setPhaseBit (k : Nat) (b : Bool) (s : State) : State := { s with host.phase := s.host.phase.set k b }

/-- An entry written to ring `k` in host memory; PHASE alternates where the pass through the ring ends with it (R355). -/
def writeEntry (k base n pi type status tag : Nat) (payload : List Byte) (s : State) : State :=
  doIf ((pi + 1) % n == 0) (setPhaseBit k !(ringPhase k s))
    { s with host.mem := cellWrite s.host.mem (entryAddress base n pi) (entryBytes (ringPhase k s) type status tag payload) }

/-- A response is written to its ring, and its vector signalled (R351, R355); a message with NORESP gets none. -/
def respond (q type tag : Nat) (noResp : Bool) (r : Nat × List Byte) (s : State) : State :=
  if noResp then s
  else
    let pi := getF (fHST_QP_RS_PI_INDEX q) s
    let s1 := writeEntry q (getF (fHST_QP_RS_BASE_BASE q) s) (pairSize q s) pi type r.1 tag r.2 s
    signalVector q (addMod (fHST_QP_RS_PI_INDEX q) 1 s1)

/-! ### Statuses and what a message meets (R361) -/

def hsOk : Nat := 0x00
def hsBadType : Nat := 0x01
def hsBadLength : Nat := 0x02
def hsBadArg : Nat := 0x03
def hsState : Nat := 0x04
def hsBusy : Nat := 0x05
/-- No table space: no message of R360 or R420 meets it. -/
def hsNoRoom : Nat := 0x06
def hsUpdateBusy : Nat := 0x07
def hsAuditUndrained : Nat := 0x08
def hsNotInChain : Nat := 0x09

/-- What carries a message out: from queue pair, tag, no-response flag and payload, the status and payload of the response, or none where
the answer comes later, and the state after. -/
abbrev Serve := Nat → Nat → Bool → List Byte → State → Option (Nat × List Byte) × State

/-- A message answered at once. -/
def reply (status : Nat) (payload : List Byte) (s : State) : Option (Nat × List Byte) × State := (some (status, payload), s)

/-- A message of the pair has been taken and not yet answered: a LEDGER_SNAPSHOT, an OCL_BARRIER, an UPDATE_BEGIN in the arbitration window
or an UPDATE_FORWARD. -/
def pairServing (q : Nat) (s : State) : Bool :=
  (s.host.snapWaits.any fun w => decide (w.q.val = q)) || (s.ocl.waits.any fun w => decide (w.q = q)) ||
  (s.primer.window.any fun w => w.2.any fun c => c.reply.any fun r => decide (r.1 = q)) ||
  s.primer.forward.any fun f => decide (f.q = q)

/-- The messages that Primer serves on queue pair 0 while it serves a push: PING, VERSION and the update set (R416). -/
def pushServes (q type : Nat) (s : State) : Bool :=
  decide (s.primer.push ≠ .none) && decide (q = 0) && (decide (type = 1) || decide (type = 2) || decide (type / 16 = 3))

/-- The device can take the message at the front of a request ring (R356): the pair is enabled and not resetting, it serves no other
message, the supervisor runs, and a response slot is free unless NORESP is set. -/
def ringReady (q type : Nat) (noResp : Bool) (s : State) : Bool :=
  decide (q < 4) && getB (fHST_QP_CFG_EN q) s && !getB (fHST_QP_CFG_RESET_BUSY q) s && decide (0 < requestsWaiting q s) &&
  (noResp || decide (0 < responseCredits q s)) && !pairServing q s && (!getB fHST_STAT_SUP_BUSY s || pushServes q type s)

/-- Where the entry at the front of a request ring lies (R353). -/
def requestAddress (q : Nat) (s : State) : Nat :=
  entryAddress (getF (fHST_QP_RQ_BASE_BASE q) s) (pairSize q s) (getF (fHST_QP_RQ_CI_INDEX q) s)

/-- The entry at the front of a request ring. -/
def requestEntry (q : Nat) (s : State) : List Byte := cellRead s.host.mem (requestAddress q s) 128

/-- The message at the front of a request ring, as it lies in the host's memory, can be taken. -/
def frontReady (q : Nat) (s : State) : Bool :=
  let e := requestEntry q s
  ringReady q (leAt e 0 2) ((leAt e 8 2).testBit 0) s

/-- The turn has come to a request ring: no ring between the turn's and it has a message that can be taken (R356). A ring whose front message
wants a response that has no credit is passed over. -/
def turnReached (q : Nat) (s : State) : Bool :=
  (List.range 4).all fun k => decide ((q + 4 - s.host.turn) % 4 ≤ k) || !frontReady ((s.host.turn + k) % 4) s

/-- The device takes the message at the front of a request ring when its turn comes. -/
def mayTake (q type : Nat) (noResp : Bool) (s : State) : Bool := ringReady q type noResp s && turnReached q s

/-- DEVICE_SAFE refuses every message, and a retired device every one but PING, VERSION and UPDATE_STATUS (R408, R434). -/
def stateForbids (type : Nat) (s : State) : Bool :=
  getB fFLT_REC_DEVICE_SAFE s || (decide (s.lc.state = .retired) && !([1, 2, 0x35].contains type))

/-- The consumer index counts on and is written to CI_ADDR (R354), and the turn passes on (R356). -/
def countTaken (q tag : Nat) (s : State) : State :=
  let s1 := addMod (fHST_QP_RQ_CI_INDEX q) 1 { s with host.lastTag := s.host.lastTag.set q tag, host.turn := (q + 1) % 4 }
  let a := getF (fHST_QP_CI_ADDR_ADDR q) s1
  if a = 0 then s1 else { s1 with host.mem := cellWrite s1.host.mem a (leBytes 2 (getF (fHST_QP_RQ_CI_INDEX q) s1)) }

/-- The request types of R360 and R420; every other type is answered with BAD_TYPE. -/
def knownTypes : List Nat := [0x01, 0x02, 0x10, 0x11, 0x20, 0x30, 0x31, 0x32, 0x33, 0x34, 0x35, 0x36, 0x37, 0x38, 0x39, 0x40]

/-- The host has put an entry at the front of a request ring, and the payload it points to in its memory. -/
def placeRequest (q : Nat) (entry : List Byte) (readable : Bool) (payload : List Byte) (s : State) : State :=
  let m := cellWrite s.host.mem (requestAddress q s) (padTo 128 entry)
  { s with host.mem :=
      if readable ∧ (leAt entry 8 2).testBit 1 = true then cellWrite m (leAt entry 16 8) (padTo (leAt entry 24 4 % 65537) payload) else m }

/-- The payload of a request entry, or the status that answers a LEN or an indirect payload which R355 does not allow; `readable` tells
whether its indirect address can be read (R361). -/
def requestPayload (e : List Byte) (readable : Bool) (s : State) : Except Nat (List Byte) :=
  if (leAt e 8 2).testBit 1 then
    if leAt e 2 2 ≠ 12 then .error hsBadLength
    else if leAt e 24 4 = 0 ∨ 65536 < leAt e 24 4 ∨ 2 ^ 48 ≤ leAt e 16 8 ∨ !readable then .error hsBadArg
    else .ok (cellRead s.host.mem (leAt e 16 8) (leAt e 24 4))
  else if 112 < leAt e 2 2 then .error hsBadLength
  else .ok (slice e 16 (leAt e 2 2))

/-- What a message meets before it is carried out: a state that forbids it, an unknown type, a payload that R355 does not allow. -/
def serveRequest (q : Nat) (e : List Byte) (readable : Bool) (serve : Serve) (s : State) : Option (Nat × List Byte) × State :=
  if stateForbids (leAt e 0 2) s then reply hsState [] s
  else if knownTypes.contains (leAt e 0 2) = false then reply hsBadType [] s
  else match requestPayload e readable s with
    | .error r => reply r [] s
    | .ok p => serve q (leAt e 4 4) ((leAt e 8 2).testBit 0) p s

/-- The message at the front of a request ring is taken, carried out and answered (R356, R360): one of the row's own type, or one of an
unknown type, which any row's command may carry. `readable` tells whether its indirect address can be read (R361). -/
def takeMessage (type q : Nat) (entry : List Byte) (readable : Bool) (payload : List Byte) (serve : Serve) (s : State) : State :=
  let s0 := placeRequest q entry readable payload s
  let e := requestEntry q s0
  let t := leAt e 0 2
  let noResp := (leAt e 8 2).testBit 0
  if mayTake q t noResp s ∧ (t = type ∨ knownTypes.contains t = false) then
    let r := serveRequest q e readable serve (countTaken q (leAt e 4 4) s0)
    match r.1 with
    | some x => respond q t (leAt e 4 4) noResp x r.2
    | none => r.2
  else s

/-! ### Ring resets (R350, R357) -/

/-- Steps 3 to 5 of R357, `done` messages having been completed since the write. -/
def finishReset (q done : Nat) (s : State) : State :=
  let s1 := postEvent 0x85 (leBytes 1 q ++ leBytes 2 done ++ leBytes 2 (requestsWaiting q s) ++ leBytes 4 (s.host.lastTag.getD q 0)) s
  let s2 := setF (fHST_QP_RQ_PI_INDEX q) 0 (setF (fHST_QP_RQ_CI_INDEX q) 0 (setF (fHST_QP_RS_PI_INDEX q) 0 (setF (fHST_QP_RS_CI_INDEX q) 0 s1)))
  setB (fHST_QP_CFG_EN q) false (setB (fHST_QP_CFG_RESET_BUSY q) false s2)

/-- A message answered later: its response is written, or discarded where its pair is being reset (R357). -/
def respondLater (q type tag : Nat) (noResp : Bool) (r : Nat × List Byte) (s : State) : State :=
  if getB (fHST_QP_CFG_RESET_BUSY q) s then finishReset q 1 s else respond q type tag noResp r s

/-- RESET of a queue pair: a message already taken is completed first (R357). -/
def pairReset (q : Nat) (s : State) : State :=
  if 4 ≤ q ∨ getB (fHST_QP_CFG_RESET_BUSY q) s then s
  else if pairServing q s then setB (fHST_QP_CFG_RESET_BUSY q) true s
  else finishReset q 0 s

def execQueuePairReset (q : Nat) (s : State) : Host.Outcome State Fault Refusal := .next (hostAccess (pairReset q) s)

/-- RESET of the event ring drops its undelivered events and counts them in LOST_OTHER (R357). -/
def eventRingReset (s : State) : State :=
  let n := s.host.events.length
  let s1 := addSat fHST_EVQ_STAT_LOST_OTHER n { s with host.events := [], host.lossDue := s.host.lossDue || decide (0 < n) }
  setF fHST_EVQ_PI_INDEX 0 (setF fHST_EVQ_CI_INDEX 0 (setB fHST_EVQ_CFG_EN false s1))

def execEventRingReset (s : State) : Host.Outcome State Fault Refusal := .next (hostAccess eventRingReset s)

/-- The HST_ registers. -/
def hstRegisters : List Nat :=
  [rHST_STAT, rHST_BADADDR, rHST_EVQ_BASE, rHST_EVQ_CFG, rHST_EVQ_PI, rHST_EVQ_CI, rHST_EVQ_STAT] ++
  (List.range 4).flatMap fun q => [rHST_QP_RQ_BASE q, rHST_QP_RS_BASE q, rHST_QP_CFG q, rHST_QP_RQ_PI q, rHST_QP_RQ_CI q, rHST_QP_RS_PI q,
    rHST_QP_RS_CI q, rHST_QP_CI_ADDR q]

/-- A message whose response nobody waits for any more. -/
def muteWaits (s : State) : State :=
  { s with
    host.snapWaits := s.host.snapWaits.map fun w => { w with noResp := true }
    ocl.waits := s.ocl.waits.map fun w => { w with noResp := true }
    primer.window := s.primer.window.map fun w => (w.1, w.2.map fun c => { c with reply := c.reply.map fun r => (r.1, r.2.1, true) })
    primer.forward := s.primer.forward.map fun f => { f with noResp := true } }

/-- Loss of link or a reset of the host port: every ring is reset, the HST_ registers take their reset values, and every vector is masked
(R350). -/
def hostLinkReset (s : State) : State :=
  let s1 := raiseSimple srcHostLink clsNote false 0 (setB fHST_STAT_LINK_UP false s)
  let s2 := eventRingReset (forAll (List.range 4) (fun q => finishReset q (if pairServing q s then 1 else 0)) (muteWaits s1))
  let s3 := forAll hstRegisters (fun a t => t.setReg a (regReset a)) s2
  { s3 with host.msixMask := 2 ^ 64 - 1, host.lossDue := false }

def execHostLinkReset (s : State) : Host.Outcome State Fault Refusal := .next (hostLinkReset s)

/-! ### Ring indices (R354) -/

/-- RQ_PI written: ignored with DB_ERR where it would make a credit negative. -/
def ringDoorbell (q v : Nat) (s : State) : State :=
  if 4 ≤ q then s
  else if pairSize q s < (v % 65536 + 65536 - getF (fHST_QP_RQ_CI_INDEX q) s) % 65536 then setB (fHST_QP_CFG_DB_ERR q) true s
  else setF (fHST_QP_RQ_PI_INDEX q) (v % 65536) s

def execRingDoorbell (q value : Nat) (s : State) : Host.Outcome State Fault Refusal := .next (hostAccess (ringDoorbell q value) s)

/-- The consumer index of a response ring, or of the event ring (q = 4), written: ignored where it would make a credit negative, with
DB_ERR on a queue pair. Credit that returns to the event ring lets a loss be reported first (R354, R359). -/
def ringConsumer (q v : Nat) (s : State) : State :=
  if q = 4 then
    if ringSize (getF fHST_EVQ_CFG_LOG2N s) < (getF fHST_EVQ_PI_INDEX s + 65536 - v % 65536) % 65536 then s
    else reportLoss (setF fHST_EVQ_CI_INDEX (v % 65536) s)
  else if 4 ≤ q then s
  else if pairSize q s < (getF (fHST_QP_RS_PI_INDEX q) s + 65536 - v % 65536) % 65536 then setB (fHST_QP_CFG_DB_ERR q) true s
  else setF (fHST_QP_RS_CI_INDEX q) (v % 65536) s

def execRingConsumerWrite (q value : Nat) (s : State) : Host.Outcome State Fault Refusal := .next (hostAccess (ringConsumer q value) s)

/-- A write of HST_QPq_CFG: LOG2N only while EN is clear, then RESET; the first pass after EN is set has PHASE 1 (R353, R355, R357). -/
def pairCfgWrite (q v : Nat) (s : State) : State :=
  let w := if getB (fHST_QP_CFG_EN q) s then withField (fHST_QP_CFG_LOG2N q) (getF (fHST_QP_CFG_LOG2N q) s) v else v
  let s1 := doIf (!getB (fHST_QP_CFG_EN q) s) (setPhaseBit q true) (plainWrite (rHST_QP_CFG q) w s)
  if fieldOf (fHST_QP_CFG_RESET q) v = 1 then pairReset q s1 else s1

/-- A write of HST_EVQ_CFG. -/
def eventCfgWrite (v : Nat) (s : State) : State :=
  let w := if getB fHST_EVQ_CFG_EN s then withField fHST_EVQ_CFG_LOG2N (getF fHST_EVQ_CFG_LOG2N s) v else v
  let s1 := doIf (!getB fHST_EVQ_CFG_EN s) (setPhaseBit 4 true) (plainWrite rHST_EVQ_CFG w s)
  if fieldOf fHST_EVQ_CFG_RESET v = 1 then eventRingReset s1 else s1

/-- A write of a register that holds a base or CI_ADDR, taken only while EN is clear; a base is aligned to 128 bytes, CI_ADDR to 8 (R353,
R376). -/
def ringAddressWrite (a align v : Nat) (enabled : Bool) (s : State) : State := if enabled then s else plainWrite a (v / align * align) s

/-! ### Events (R359, R360) -/

/-- An event entry is written to the event ring, and vector 4 signalled. -/
def writeEvent (type : Nat) (payload : List Byte) (s : State) : State :=
  let pi := getF fHST_EVQ_PI_INDEX s
  let s1 := writeEntry 4 (getF fHST_EVQ_BASE_BASE s) (ringSize (getF fHST_EVQ_CFG_LOG2N s)) pi type 0 s.host.evSeq payload s
  signalVector 4 (addMod fHST_EVQ_PI_INDEX 1 { s1 with host.evSeq := (s.host.evSeq + 1) % 2 ^ 32 })

/-- The depth field of an engine's event queue, and an engine's kind and index in ENGINE_EVENT. -/
def engineKind : Engine → Nat × Nat
  | .sq n => (0, n)
  | .ce n => (1, n)
  | .mv n => (2, n)

/-- The head of an engine's event queue leaves the queue. -/
def takeEvent (e : Engine) (s : State) : State :=
  let c := coreOf e s
  setF (evtDepth e) (c.evq.length - 1) (setCore e { c with evq := c.evq.drop 1 } s)

/-- The device writes the event at the head of the line, or the head of an engine's event queue, where the ring has a credit for it
(R198, R359). An event in line whose type is disabled is not written. -/
def eventDeliver (src : Option Engine) (s : State) : State :=
  if getB fHST_STAT_SUP_BUSY s then s
  else
    let s1 := reportLoss s
    match src with
    | none => match eventsEnabled s1 with
      | [] => { s1 with host.events := [] }
      | e :: t => if getB fHST_EVQ_CFG_EN s1 ∧ 0 < eventCredits s1 then writeEvent e.type e.payload { s1 with host.events := t } else s1
    | some e => if e.exists_ then match (coreOf e s1).evq with
        | [] => s1
        | (code, tick) :: _ =>
          if eventEnabled 0x81 s1 = false then takeEvent e s1
          else if !s1.host.lossDue && eventRoom s1 then
            writeEvent 0x81 (leBytes 1 (engineKind e).1 ++ leBytes 1 (engineKind e).2 ++ leBytes 2 code ++ leBytes 6 tick.toNat) (takeEvent e s1)
          else s1
      else s1

def execEventDeliver (src : Option Engine) (s : State) : Host.Outcome State Fault Refusal := .next (eventDeliver src s)

/-! ### Messages (R360) -/

/-- PING. -/
def servePing : Serve := fun _ _ _ p s => if 112 < p.length then reply hsBadLength [] s else reply hsOk p s

/-- The slot whose firmware runs: the TRIAL slot where one exists, otherwise the ACTIVE slot. -/
def runningSlot (s : State) : Nat := if s.primer.slots.any fun x => decide (x.state = 4) then 1 - s.primer.active else s.primer.active

/-- The descriptor of a firmware slot. -/
def fwSlot (k : Nat) (s : State) : FwSlot := s.primer.slots.getD k {}

/-- VERSION. -/
def serveVersion : Serve := fun _ _ _ p s =>
  if p ≠ [] then reply hsBadLength [] s
  else
    let k := runningSlot s
    reply hsOk (leBytes 4 (fwSlot k s).version ++ leBytes 4 Config.primerVersion ++ leBytes 4 s.primer.arbFloor ++ leBytes 1 k) s

/-- LEDGER_SNAPSHOT: the answer comes with the copy at the end of the following tick (R113). -/
def serveLedger : Serve := fun q tag noResp p s =>
  if p.length ≠ 1 then reply hsBadLength [] s
  else if 4 ≤ leNat p then reply hsBadArg [] s
  else (none, { s with host.snapWaits := s.host.snapWaits ++ [{ q := Fin.ofNat 4 q, tag, noResp, line := leNat p, tick := now s }] })

/-- The twelve counters of a line and their tick, as LEDGER_SNAPSHOT answers them (R28, R113, R360). -/
def snapshotPayload (n : Nat) (s : State) : List Byte :=
  let l := ledger n s
  leBytes 6 (now s).toNat ++ [l.det, l.ok, l.flag, l.rej, l.inf, l.c1, l.c2, l.c3, l.c4, l.c5, l.c6, l.c7].flatMap fun w => leBytes 6 w.toNat

/-- The messages that wait for a snapshot of a line and were taken in an earlier tick are answered, unless the supervisor is down. -/
def answerSnapshots (n : Nat) (s : State) : State :=
  if getB fHST_STAT_SUP_BUSY s then s
  else
    let due (w : SnapWait) : Bool := decide (w.line = n) && decide (w.tick ≠ now s)
    forAll (s.host.snapWaits.filter due) (fun w => respondLater w.q.val 0x10 w.tag w.noResp (hsOk, snapshotPayload n s))
      { s with host.snapWaits := s.host.snapWaits.filter fun w => !due w }

def execSnapshotCopy (line : Nat) (s : State) : Host.Outcome State Fault Refusal := .next (answerSnapshots line (snapshotCopy line s))

/-- LINE_SPEED, refused unless the line has SRC 2. -/
def serveSpeed : Serve := fun _ _ _ p s =>
  if p.length ≠ 7 then reply hsBadLength [] s
  else if 4 ≤ leAt p 0 1 then reply hsBadArg [] s
  else if getF (fTRK_LINE_CTL_SRC (leAt p 0 1)) s ≠ 2 then reply hsState [] s
  else reply hsOk [] (virtualSpeed (leAt p 0 1) (BitVec.ofNat 48 (leAt p 1 6)) s)

def execPing (q : Nat) (entry : List Byte) (readable : Bool) (payload : List Byte) (s : State) : Host.Outcome State Fault Refusal :=
  .next (takeMessage 0x01 q entry readable payload servePing s)
def execVersion (q : Nat) (entry : List Byte) (readable : Bool) (payload : List Byte) (s : State) : Host.Outcome State Fault Refusal :=
  .next (takeMessage 0x02 q entry readable payload serveVersion s)
def execLedgerSnapshot (q : Nat) (entry : List Byte) (readable : Bool) (payload : List Byte) (s : State) : Host.Outcome State Fault Refusal :=
  .next (takeMessage 0x10 q entry readable payload serveLedger s)
def execLineSpeed (q : Nat) (entry : List Byte) (readable : Bool) (payload : List Byte) (s : State) : Host.Outcome State Fault Refusal :=
  .next (takeMessage 0x11 q entry readable payload serveSpeed s)

/-! ### Line ports (R362 to R365) -/

/-- A frame arrives at a line port: nothing while the port is disabled; a fragment, a frame above 1,522 bytes or with more than one 802.1Q
tag is discarded and counted. -/
def lineArrival (p : Nat) (x : RxFrame) (f : State → State) (s : State) : State :=
  if 2 ≤ p ∨ !getB (fLNP_CFG_EN p) s then s
  else if x.frag ∨ 1 < x.tags ∨ 1522 < x.len then incSat (fLNP_CNT_RX_DROP p) s else f s

/-- A line-protocol message of type SPEED with a good header and a payload of six bytes. -/
def isSpeed (m : List Byte) : Bool :=
  decide (m.length = 22) && decide (m.take 6 = [0x53#8, 0x56#8, 0x4C#8, 0x4E#8, 0x01#8, 0x01#8]) && decide (leAt m 12 2 = 6)

/-- SEQ lies within 1 to 2^31 − 1 after the last SEQ applied (R365). -/
def seqFollows (last : Option Nat) (n : Nat) : Bool := match last with
  | none => true
  | some l =>
    let d := (n + 2 ^ 32 - l) % 2 ^ 32
    decide (1 ≤ d) && decide (d < 2 ^ 31)

/-- SPEED is applied where all four conditions of R365 hold, and otherwise counted in SPD_REJ. -/
def lineSpeedMessage (p srcIp : Nat) (m : List Byte) (s : State) : State :=
  if isSpeed m = false then incSat (fLNP_CNT_RX_DROP p) s
  else
    let n := leAt m 6 1
    let seq := leAt m 8 4
    let bound := decide (n < 4) && (getF fLNP_SPD_EN s).testBit n && decide ((getF fLNP_SPD_PORT s).testBit n = decide (p = 1))
    let peer := decide (srcIp ≠ 0) && decide (getF (fLNP_PEER_PEER_IP p) s = srcIp)
    if bound && peer && decide (getF (fTRK_LINE_CTL_SRC n) s = 2) && seqFollows (s.lnp.rxSeq.getD n none) seq then
      virtualSpeed n (BitVec.ofNat 48 (leAt m 16 6)) { s with lnp.rxSeq := s.lnp.rxSeq.set n (some seq) }
    else incSat (fLNP_CNT_SPD_REJ p) s

/-- A UDP datagram for the port's address at UDP_PORT carries the line protocol; any other is no message of this device (R364; log entry
211). -/
def lineDatagram (p : Nat) (route : UdpRoute) (m : List Byte) (s : State) : State :=
  if route.dst = getF (fLNP_IP_IP p) s ∧ route.port = getF (fLNP_CFG_UDP_PORT p) s then lineSpeedMessage p route.src m s else s

def execSpeed (p : Nat) (route : UdpRoute) (x : RxFrame) (msg : List Byte) (s : State) : Host.Outcome State Fault Refusal :=
  .next (lineArrival p x (lineDatagram p route msg) s)

/-- LEDGER, sent every PER ms: T_S and the five ledger counters of one tick (R28, R364). -/
def ledgerMessage (n : Nat) (s : State) : State :=
  if 4 ≤ n ∨ getF fLNP_STATPER_PER s = 0 then s
  else
    let l := ledger n s
    sendLineMessage 3 n (leBytes 6 (now s).toNat ++ [l.det, l.ok, l.flag, l.rej, l.inf].flatMap fun w => leBytes 6 w.toNat) s

def execLedger (line : Nat) (s : State) : Host.Outcome State Fault Refusal := .next (ledgerMessage line s)

/-- An ARP request for the port's address is answered with its station address, to the station that asked (R362). -/
def arpReply (p mac ip target : Nat) (s : State) : State :=
  if target % 2 ^ 32 = getF (fLNP_IP_IP p) s then
    send (.lineFrame p (ethernetFrame p mac 0x0806 ([0x00#8, 0x01#8, 0x08#8, 0x00#8, 0x06#8, 0x04#8, 0x00#8, 0x02#8] ++
      beBytes 6 (getF (fLNP_MAC_MAC p) s) ++ beBytes 4 (getF (fLNP_IP_IP p) s) ++ beBytes 6 mac ++ beBytes 4 ip) s)) s
  else s

def execArpRequest (p : Nat) (sender : Station) (target : Nat) (x : RxFrame) (s : State) : Host.Outcome State Fault Refusal :=
  .next (lineArrival p x (arpReply p sender.mac sender.ip target) s)

/-- An ICMP echo request to the port's address is answered with an echo reply of the same data, to the station and address that it came from
(R362). -/
def icmpReply (p mac src dst : Nat) (m : List Byte) (s : State) : State :=
  if 1480 < m.length then incSat (fLNP_CNT_RX_DROP p) s
  else if dst % 2 ^ 32 = getF (fLNP_IP_IP p) s ∧ 8 ≤ m.length ∧ m.take 2 = [0x08#8, 0x00#8] then
    let answer (sum : Nat) : List Byte := [0#8, 0#8] ++ beBytes 2 sum ++ m.drop 4
    send (.lineFrame p (ethernetFrame p mac 0x0800 (ipv4Packet p 1 src (answer (inetChecksum (answer 0))) s) s)) s
  else s

def execIcmpEcho (p : Nat) (route : Route) (x : RxFrame) (msg : List Byte) (s : State) : Host.Outcome State Fault Refusal :=
  .next (lineArrival p x (icmpReply p route.sender.mac route.sender.ip route.dst msg) s)

/-! ### The PTP slave (R363) -/

def modPtp (f : PtpClock → PtpClock) (s : State) : State := { s with lnp.ptp := f s.lnp.ptp }

/-- An offset from the master is formed: LNP_PTP shows it, and whether the servo has converged. -/
def ptpOffset (o : Int) (lock : Bool) (s : State) : State := setB fLNP_PTP_LOCK lock (setI fLNP_PTP_OFFSET o s)

/-- A Sync's departure and arrival are known: the offset follows where the path delay has been measured. -/
def ptpSync (t1 t2 : Int) (lock : Bool) (s : State) : State :=
  let s1 := modPtp (fun x => { x with waiting := none, sync := some (t1, t2) }) s
  match s.lnp.ptp.delay with
  | some d => ptpOffset (t2 - t1 - d) lock s1
  | none => s1

/-- The device sends a Delay_Req, whose departure the MAC stamps. -/
def ptpRequest (p : Nat) (tx : Option Int) (s : State) : State := match tx with
  | some t =>
    let k := s.lnp.ptp.reqSeq
    send (.delayReq p k (getF fLNP_PTP_DOMAIN s)) (modPtp (fun x => { x with request := some (k, 5 * t), reqSeq := (k + 1) % 65536 }) s)
  | none => s

/-- The Delay_Resp to the last Delay_Req ends the end-to-end exchange: the path delay is half the sum of both ways. -/
def ptpResponse (seq : Nat) (t4 : Int) (lock : Bool) (s : State) : State :=
  match s.lnp.ptp.request, s.lnp.ptp.sync with
  | some (k, t3), some (t1, t2) =>
    if k = seq then
      let d := roundOpen ((t2 - t1) + (t4 - t3)) 2
      ptpOffset (t2 - t1 - d) lock (modPtp (fun x => { x with request := none, delay := some d }) s)
    else s
  | _, _ => s

/-- A PTP message on the port named in LNP_PTP, in its domain and on its transport (R363). -/
def ptpMessage (p : Nat) (m : PtpMsg) (lock : Bool) (s : State) : State :=
  if getB fLNP_PTP_EN s = false ∨ getF fLNP_PTP_PORT s ≠ p ∨ getF fLNP_PTP_DOMAIN s ≠ m.domain ∨ getB fLNP_PTP_TRANSPORT s ≠ m.ethernet then s
  else match m.kind with
    | .sync false => ptpRequest p m.tx (ptpSync m.time (5 * m.rx) lock s)
    | .sync true => modPtp (fun x => { x with waiting := some (m.seq, 5 * m.rx) }) s
    | .followUp => match s.lnp.ptp.waiting with
      | some (k, t2) => if k = m.seq then ptpRequest p m.tx (ptpSync m.time t2 lock s) else s
      | none => s
    | .delayResp => ptpResponse m.seq m.time lock s
    | .other => s

def execPtpMessage (p : Nat) (m : PtpMsg) (lock : Bool) (s : State) : Host.Outcome State Fault Refusal :=
  .next (lineArrival p { frag := false, tags := 0, len := 0 } (ptpMessage p m lock) s)

/-- A line port's link comes up at a rate, or is lost (R362, R430). -/
def execLinePortLinkChange (p : Nat) (up : Bool) (rate : Nat) (s : State) : Host.Outcome State Fault Refusal :=
  .next (if 2 ≤ p ∨ 2 < rate then s
    else
      let s1 := setF (fLNP_STAT_RATE p) rate (setB (fLNP_STAT_LINK p) up s)
      if getB (fLNP_STAT_LINK p) s ∧ !up then raiseSimple srcHostLink clsNote false (1 + p) s1 else s1)

end Sys2Proof.Machine
end

