-- ==== Sys2Proof/Machine/Ocing.lean ====
section
/-! DEFINITION. The Ocing link: frames and their acknowledgement, membership, hop delay and position broadcasts (R44, R366 to R370). -/

namespace Sys2Proof.Machine

/-! ### Membership (R368, R369) -/

def unitId (s : State) : Nat := getF fOCL_CFG_UNIT_ID s

/-- The set of units as a mask. -/
def unitMask (l : List Nat) : Nat := l.foldl (fun a u => a ||| 2 ^ (u % 8)) 0

/-- Units beyond an ACTIVE port: the peer, and those whose frames have come in. -/
def beyond (p : Nat) (s : State) : List Nat :=
  if oclState p s = 3 then ((oclPort p s).peer.map (·.1)).toList ++ (oclPort p s).heard else []

/-- This unit is the head of a chain: its ports are enabled and its upstream port is not ACTIVE (R369). -/
def isHead (s : State) : Bool := getB fOCL_CFG_EN s && decide (oclState 0 s ≠ 3)

/-- The peer of an ACTIVE port. -/
def neighbour (p : Nat) (s : State) : List Nat := if oclState p s = 3 then ((oclPort p s).peer.map (·.1)).toList else []

/-- The units on the chain: this unit and the peers of its ACTIVE ports; beyond them the head counts the units whose frames have come in
through an ACTIVE port and that have not left since, and every other unit those that the last EPOCH named (DESIGN CHOICE, log entry 172). -/
def presentMask (s : State) : Nat :=
  if getB fOCL_CFG_EN s = false then 0
  else if isHead s then unitMask ([unitId s] ++ beyond 0 s ++ beyond 1 s)
  else unitMask ([unitId s] ++ neighbour 0 s ++ neighbour 1 s) ||| s.ocl.mask

/-- Lines this unit broadcasts. -/
def ownBroadcasts (s : State) : Nat := ((List.range 4).filter fun n => (getF fOCL_BCAST_EN s).testBit n).length

/-- Lines that other units broadcast: a POS frame reaches every unit of the chain (R370). -/
def otherBroadcasts (s : State) : Nat :=
  ([0, 1].map fun p => if oclState p s = 3 then (oclPort p s).lines.length else 0).foldl (· + ·) 0

/-- What a boundary makes of the units and lines beyond a port: a line not broadcast since the last boundary, which is 1,000 times its
interval, is broadcast no more (R370). Whether a unit that has been silent since then has left the chain no rule tells: it is a free value
of this model (log entry 172). -/
def forgetSilent (p : Nat) (s : State) : State :=
  let x := oclPort p s
  let f : Nat × State := if x.heard.all fun u => x.heardNow.contains u then (0, s) else drawFree s
  modOclPort p (fun y => { y with
    heard := y.heard.filter fun u => y.heardNow.contains u || !f.1.testBit u
    lines := y.lines.filter fun l => y.linesNow.contains l
    heardNow := [], linesNow := [] }) f.2

/-- OCL_STAT shows head, members and broadcast lines; a change of membership or head raises vector 8 and an OCING_CHAIN event (R351,
R369). -/
def showChain (s : State) : State :=
  let hd := if isHead s then unitId s else if getB fOCL_CFG_EN s then s.ocl.head else 0
  let m := presentMask s
  let s1 := setB fOCL_STAT_HEAD (isHead s) (setF fOCL_STAT_HEAD_ID hd (setF fOCL_STAT_PRESENT m s))
  let s2 := if isHead s1 then
      setF fOCL_STAT_BCAST_CNT (min 7 (ownBroadcasts s1 + otherBroadcasts s1)) s1
    else s1
  if (m, hd) = s2.ocl.chain then s2
  else postEvent 0x86 (leBytes 1 m ++ leBytes 1 hd ++ leBytes 4 (getF fOCL_EPOCH_EPOCH s2))
    (signalVector 8 { s2 with ocl.chain := (m, hd) })

/-- A port goes DOWN: what it had under way is lost, and the hand-offs over it are resolved at the next boundary (R373). -/
def portClosed (p : Nat) (s : State) : State :=
  let was := oclState p s
  let gone := unitMask (beyond p s)
  let s1 := modOclPort p (fun x => { link := x.link, lseq := x.lseq }) (setF (oclStateField p) 0 { s with
    ocl.mask := s.ocl.mask &&& (0xFF ^^^ gone) })
  showChain (if was = 3 then { s1 with ocl.downs := s1.ocl.downs ++ [p] } else s1)

/-- A port goes DOWN on a fourth failure or on loss of symbol lock: it is counted, and OCING is raised (R367, R430). -/
def portDown (p : Nat) (s : State) : State :=
  raiseSimple srcOcing clsNote false p (incSat fOCL_ERR_LINK_DROPS (portClosed p s))

/-- A write of OCL_CFG: UNIT_ID only while EN is clear; clearing EN takes both ports DOWN, and setting it starts the epoch count. -/
def oclCfgWrite (v : Nat) (s : State) : State :=
  let was := getB fOCL_CFG_EN s
  let s1 := plainWrite rOCL_CFG (if was then withField fOCL_CFG_UNIT_ID (unitId s) v else v) s
  if was ∧ !getB fOCL_CFG_EN s1 then showChain (portClosed 1 (portClosed 0 s1))
  else if !was ∧ getB fOCL_CFG_EN s1 then showChain { s1 with ocl.boundary := now s1 }
  else s1

/-- A write of OCL_BCAST that would exceed four lines on the chain is refused (R370). -/
def bcastWrite (v : Nat) (s : State) : State :=
  let mine := ((List.range 4).filter fun n => (fieldOf fOCL_BCAST_EN v).testBit n).length
  if 4 < otherBroadcasts s + mine then setB fOCL_STAT_BCAST_REFUSED true s else showChain (plainWrite rOCL_BCAST v s)

/-! ### Frames (R366, R367) -/

def frameType (b : List Byte) : Nat := leAt b 0 1
def frameSrc (b : List Byte) : Nat := leAt b 1 1 % 8
def frameDst (b : List Byte) : Nat := leAt b 2 1
def frameLseq (b : List Byte) : Nat := leAt b 3 1

/-- The payload, between the header and the CRC. -/
def framePayload (b : List Byte) : List Byte := (b.drop 4).take (b.length - 8)

/-- A body of legal length whose CRC-32C is right. -/
def frameGood (b : List Byte) : Bool :=
  decide (8 ≤ b.length) && decide (b.length ≤ 136) && decide (crc32c (b.take (b.length - 4)) = leNat (b.drop (b.length - 4)))

/-- The port to which a frame that came in by the other is forwarded. -/
def otherPort (p : Nat) : Nat := 1 - p

/-- A payload with CORR, at an offset, raised by the hop delay of arrival and the residence (R370). -/
def addCorr (ofs d : Nat) (l : List Byte) : List Byte := overlay l ofs (leBytes 2 (leAt l ofs 2 + d))

/-- The hop delay of a port in ticks. -/
def hopDelay (p : Nat) (s : State) : Nat := if p = 0 then getF fOCL_LAT_UP_LAT s else getF fOCL_LAT_DN_LAT s

/-- A number put into a list that does not hold it. -/
def addNew {α : Type} [DecidableEq α] (a : α) (l : List α) : List α := if a ∈ l then l else a :: l

/-- A frame of a type arrives at a port that has symbol lock. One with a bad CRC is discarded and counted. HELLO, ECHO and ACK run between the two units of a
link; every other frame crosses ACTIVE ports only. A reliable frame is acknowledged, and acted on once. A frame for another unit, or for
every unit, is forwarded out of the other port as `fwd` leaves its payload (R366 to R368). -/
def receiveFrame (p type : Nat) (b : List Byte) (fwd : List Byte → State → List Byte) (act : List Byte → State → State) (s : State) :
    State :=
  if 2 ≤ p ∨ oclState p s = 0 then s
  else if frameGood b = false then incSat fOCL_ERR_CRC_ERR s
  else if frameType b ≠ type ∨ !(oclState p s == 3 || (oclState p s == 1 && decide (type ≤ 3))) then s
  else
    let again := oclReliable type && (oclPort p s).seen.contains (frameLseq b)
    let s1 := doIf (oclReliable type) (fun t =>
      modOclPort p (fun x => { x with seen := (frameLseq b :: x.seen).take 128 }) (sendOcing p 0x01 0xFF (leBytes 1 (frameLseq b)) t)) s
    if again then s1
    else if type ≤ 3 then act (framePayload b) s1
    else
      let s2 := showChain (modOclPort p (fun x => { x with heard := addNew (frameSrc b) x.heard, heardNow := addNew (frameSrc b) x.heardNow }) s1)
      let s3 := doIf (decide (frameDst b ≠ unitId s2))
        (sendFrom (otherPort p) type (frameSrc b) (frameDst b) (fwd (framePayload b) s2)) s2
      if frameDst b = unitId s3 ∨ frameDst b = 0xFF then act (framePayload b) s3 else s3

/-- A payload forwarded as it came. -/
def unchanged (l : List Byte) (_ : State) : List Byte := l

/-- ACK ends the wait for a reliable frame. -/
def ackFrame (p : Nat) (l : List Byte) (s : State) : State :=
  modOclPort p (fun x => { x with unacked := x.unacked.filter fun u => decide (u.lseq ≠ leAt l 0 1) }) s

def execAck (p : Nat) (body : List Byte) (s : State) : Host.Outcome State Fault Refusal :=
  .next (receiveFrame p 0x01 body unchanged (ackFrame p) s)

/-- A reliable frame is not acknowledged in time: it is sent again up to three times, and the fourth failure takes the port DOWN (R367). -/
def retryTimeout (p lseq : Nat) (s : State) : State :=
  match (oclPort p s).unacked.find? fun u => decide (u.lseq = lseq) with
  | none => s
  | some u =>
    if 3 ≤ u.tries then portDown p s
    else sendBody p u.body (incSat fOCL_ERR_RETRIES (modOclPort p (fun x => { x with
      unacked := x.unacked.map fun v => if v.lseq = lseq then { v with tries := v.tries + 1 } else v }) s))

def execOcingRetryTimeout (p lseq : Nat) (s : State) : Host.Outcome State Fault Refusal :=
  .next (if p < 2 then retryTimeout p lseq s else s)

def execOcingLockLoss (p : Nat) (s : State) : Host.Outcome State Fault Refusal :=
  .next (if p < 2 ∧ oclState p s ≠ 0 then portDown p s else s)

/-! ### Training and hop delay (R368) -/

/-- A port that gains symbol lock goes to TRAINING and sends HELLO. -/
def symbolLock (p : Nat) (s : State) : State :=
  if 2 ≤ p ∨ !getB fOCL_CFG_EN s ∨ oclState p s ≠ 0 then s
  else sendOcing p 0x02 0xFF (leBytes 1 (unitId s) ++ deviceId s ++ leBytes 4 (fwSlot (runningSlot s) s).version)
    (setF (oclStateField p) 1 s)

def execOcingSymbolLock (p : Nat) (s : State) : Host.Outcome State Fault Refusal := .next (symbolLock p s)

/-- An ECHO: 0 a request, 1 the reply, with the requester's tick. -/
def sendEcho (p kind : Nat) (tick : Word) (s : State) : State := sendOcing p 0x03 0xFF (leBytes 1 kind ++ leBytes 6 tick.toNat) s

/-- A measurement of the hop delay begins. -/
def hopMeasure (p : Nat) (s : State) : State :=
  if 2 ≤ p ∨ !(oclState p s == 3 || (oclState p s == 1 && (oclPort p s).auth)) then s
  else sendEcho p 0 (now s) (modOclPort p (fun x => { x with echoes := [] }) s)

def execHopDelayMeasure (p : Nat) (s : State) : Host.Outcome State Fault Refusal := .next (hopMeasure p s)

/-- HELLO names the peer. Equal UNIT_IDs isolate the port; otherwise the trust domains authenticate each other, `auth` telling whether the
peer proved its identity, and the hop delay is measured. -/
def helloFrame (p : Nat) (auth : Bool) (l : List Byte) (s : State) : State :=
  if oclState p s ≠ 1 then s
  else
    let s1 := modOclPort p (fun x => { x with peer := some (leAt l 0 1 % 8, slice l 1 16, leAt l 17 4) }) s
    if leAt l 0 1 % 8 = unitId s then
      raiseSimple srcOcing clsNote false p (setB fOCL_STAT_DUP_ID true (setF (oclStateField p) 2 (modOclPort p (fun x => { x with unacked := [] }) s1)))
    else if auth then hopMeasure p (modOclPort p (fun x => { x with auth := true, link := x.link + 1 }) s1)
    else s1

def execHello (p : Nat) (body : List Byte) (auth : Bool) (s : State) : Host.Outcome State Fault Refusal :=
  .next (receiveFrame p 0x02 body unchanged (helloFrame p auth) s)

/-- A number put into a rising list, equal numbers kept. -/
def insertSorted (a : Nat) : List Nat → List Nat
  | [] => [a]
  | b :: t => if a ≤ b then a :: b :: t else b :: insertSorted a t

/-- The hop delay from 16 round trips: their median, halved. -/
def medianHop (l : List Nat) : Nat :=
  let x := l.foldl (fun a b => insertSorted b a) []
  (roundOpen ((x.getD 7 0 + x.getD 8 0 : Nat)) 4).toNat

/-- An ECHO request is answered with its tick; a reply gives a round trip, and the sixteenth the hop delay. -/
def echoFrame (p : Nat) (l : List Byte) (s : State) : State :=
  let tick := BitVec.ofNat 48 (leAt l 1 6)
  if leAt l 0 1 = 0 then sendEcho p 1 tick s
  else
    let x := oclPort p s
    let rs := (now s - tick).toNat :: x.echoes
    if rs.length < 16 then sendEcho p 0 (now s) (modOclPort p (fun y => { y with echoes := rs }) s)
    else
      let s1 := setF (if p = 0 then fOCL_LAT_UP_LAT else fOCL_LAT_DN_LAT) (satTo 16 (medianHop rs)) s
      modOclPort p (fun y => { y with echoes := [], ready := y.ready || decide (oclState p s = 1) }) s1

def execEcho (p : Nat) (body : List Byte) (s : State) : Host.Outcome State Fault Refusal :=
  .next (receiveFrame p 0x03 body unchanged (echoFrame p) s)

/-! ### Position broadcasts (R44, R63, R66, R370) -/

/-- A POS frame for an enabled line leaves in both directions. -/
def posBroadcast (n : Nat) (s : State) : State :=
  if 4 ≤ n ∨ !getB fOCL_CFG_EN s ∨ !(getF fOCL_BCAST_EN s).testBit n then s
  else
    let k := s.ocl.posSeq.getD n 0
    let l := leBytes 1 (n + 4 * lineState n s) ++ leBytes 1 k ++ leBytes 6 (pM n s).toNat ++ leBytes 6 (codeOf 48 (velocity n s)) ++ leBytes 2 0
    sendOcing 1 0x10 0xFF l (sendOcing 0 0x10 0xFF l { s with ocl.posSeq := s.ocl.posSeq.set n ((k + 1) % 256) })

def execPosBroadcast (line : Nat) (s : State) : Host.Outcome State Fault Refusal := .next (posBroadcast line s)

/-- A line takes a broadcast position and speed, the latency added; the first broadcast after a fresh start that finds the line lost is the
first update after the loss (R44, R66, R519). -/
def lineBroadcast (n : Nat) (p : Word) (v : Int) (latency : Nat) (s : State) : State :=
  let st := lineState n s
  let x := s.line n
  let c := p + subs (roundOpen (v * (latency : Int)) ticksPerSecond) + x.bOff
  if st = 0 then s
  else if x.bWait then
    let s1 := presetLine n c s
    let s2 := bringDue (s1.setLine n { s1.line n with bSpeed := v, tk := now s })
    if 3 ≤ st then updateRun n false s2 else s2
  else if 3 ≤ st then
    updateRun n (decide (1600 < (now s - x.tk).toNat)) (s.setLine n { x with ck := c, bSpeed := v })
  else
    let s1 := s.setLine n { x with ck := c, bSpeed := v, tk := now s, frac := 0 }
    afterMotion n (setI (fTRK_LINE_VEL_V n) v (s1.setReg (rTRK_LINE_RAWPOS n) c))

/-- The lines with SRC 1 that follow a line of a unit. -/
def followers (unit line : Nat) (s : State) : List Nat := (List.range 4).filter fun n =>
  decide (getF (fTRK_LINE_CTL_SRC n) s = 1) && decide (getF (fTRK_LINE_CTL_OC_UNIT n) s = unit) &&
  decide (getF (fTRK_LINE_CTL_OC_LINE n) s = line)

/-- POS as it arrives: the one-way latency is CORR and the hop delay of arrival. -/
def posFrame (p unit : Nat) (l : List Byte) (s : State) : State :=
  let line := leAt l 0 1 % 4
  let s1 := showChain (modOclPort p (fun x => { x with lines := addNew (unit, line) x.lines, linesNow := addNew (unit, line) x.linesNow }) s)
  forAll (followers unit line s1) (fun n =>
    lineBroadcast n (BitVec.ofNat 48 (leAt l 2 6)) (signedOf 48 (leAt l 8 6)) (leAt l 14 2 + hopDelay p s1)) s1

def execPos (p : Nat) (body : List Byte) (resid : Nat) (s : State) : Host.Outcome State Fault Refusal :=
  .next (receiveFrame p 0x10 body (fun l t => addCorr 14 (hopDelay p t + resid) l) (posFrame p (frameSrc body)) s)

/-! ### Barriers and routes -/

/-- The present epoch has come to an epoch, modulo 2^32. -/
def epochReached (e : Nat) (s : State) : Bool := decide ((getF fOCL_EPOCH_EPOCH s + 2 ^ 32 - e % 2 ^ 32) % 2 ^ 32 < 2 ^ 31)

/-- OCL_BARRIER messages are answered with the ack mask once every present unit has acknowledged or the epoch has begun (R360). -/
def answerBarriers (s : State) : State :=
  if getB fHST_STAT_SUP_BUSY s then s
  else
    let acks := getF fOCL_BARRIER_STAT_ACKS s
    let ready (w : BarrierWait) : Bool := epochReached w.epoch s || decide (presentMask s &&& acks = presentMask s)
    forAll (s.ocl.waits.filter ready) (fun w => respondLater w.q 0x20 w.tag w.noResp (hsOk, leBytes 1 acks))
      { s with ocl.waits := s.ocl.waits.filter fun w => !ready w }

/-- The port beyond which a unit lies. -/
def portTo (u : Nat) (s : State) : Option Nat := [0, 1].find? fun p => (beyond p s).contains u

end Sys2Proof.Machine
end

