-- ==== Sys2Proof/Machine/Update.lean ====
section
/-! DEFINITION. Firmware update: images, sessions and their arbitration, peer sessions, activation, the supervisor switch, trial and
fall-back (R374, R413 to R429). -/

namespace Sys2Proof.Machine

/-! ### Results and images (R413, R414, R420) -/

def upOk : Nat := 0
def upCrc : Nat := 1
def upSignature : Nat := 2
def upRollback : Nat := 3
def upDigest : Nat := 4
def upFormat : Nat := 5
def upFlashFail : Nat := 6
def upNoSession : Nat := 7
def upIncomplete : Nat := 8
def upNotStaged : Nat := 9
def upNotTrial : Nat := 10
def upPending : Nat := 11
def upBusy : Nat := 12
def upState : Nat := 13

/-- States of a slot descriptor (R413). -/
def slotEmpty : Nat := 0
def slotWriting : Nat := 1
def slotStaged : Nat := 2
def slotActive : Nat := 3
def slotTrial : Nat := 4
def slotPrevious : Nat := 5
def slotBad : Nat := 6

/-- IMAGE_LEN, VERSION, ARB and SET_FMT of an image header, and its blocks of 4,096 bytes. -/
def hdrLen (h : List Byte) : Nat := leAt h 8 4
def hdrVersion (h : List Byte) : Nat := leAt h 12 4
def hdrArb (h : List Byte) : Nat := leAt h 16 4
def hdrSetFmt (h : List Byte) : Nat := leAt h 20 2
def hdrDigest (h : List Byte) : List Byte := slice h 40 32
def hdrBlocks (h : List Byte) : Nat := ceilDiv (hdrLen h) 4096

/-- The fields of a header meet the table of R414. -/
def headerFields (h : List Byte) (cosign : Bool) : Bool :=
  decide (h.length = 256) && decide (h.take 4 = [0x53#8, 0x56#8, 0x46#8, 0x57#8]) && decide (leAt h 4 2 = 1) && decide (leAt h 6 2 = 256) &&
  decide (4352 ≤ hdrLen h) && decide (hdrLen h ≤ 12582912) && zeros h 22 2 && zeros h 72 56 && (cosign || zeros h 192 64)

/-- A header verifies, or fails with a RESULT (R414). -/
def headerResult (h : List Byte) (s : State) : Nat :=
  if headerFields h s.lc.cosign.isSome = false then upFormat
  else if Config.ecdsaVerify Config.updateRoot (h.take 128) (slice h 128 64) = false then upSignature
  else if (s.lc.cosign.any fun k => !Config.ecdsaVerify k (h.take 128) (slice h 192 64)) then upSignature
  else if hdrArb h < s.primer.arbFloor then upRollback
  else upOk

/-- The image in a slot, from its blocks. -/
def slotImage (k : Nat) (s : State) : List Byte := (fwSlot k s).blocks.flatMap (·.2)

/-- An image verifies (R414). -/
def imageVerifies (k : Nat) (s : State) : Bool :=
  let img := slotImage k s
  let h := img.take 256
  decide (headerResult h s = upOk) && decide (img.length = hdrLen h) && decide (sha256 (img.drop 256) = hdrDigest h)

def modPrimer (f : Primer → Primer) (s : State) : State := { s with primer := f s.primer }

def setSlot (k : Nat) (x : FwSlot) (s : State) : State := modPrimer (fun p => { p with slots := p.slots.set k x }) s

def setSlotState (k st : Nat) (s : State) : State := setSlot k { fwSlot k s with state := st } s

/-! ### The boot header (R390, R413) -/

/-- A slot descriptor's 48 bytes (R413). -/
def descriptor (x : FwSlot) : List Byte :=
  leBytes 1 x.state ++ leBytes 3 0 ++ leBytes 4 x.version ++ leBytes 4 x.arb ++ leBytes 2 x.setFmt ++ leBytes 2 0 ++ padTo 32 x.digest

/-- The 12 bytes of the pending activation and the zero bytes after it. -/
def pendBytes (x : Option (Nat × Nat × Nat)) : List Byte :=
  let y := x.getD (0, 0, 0)
  leBytes 1 y.1 ++ leBytes 1 y.2.1 ++ leBytes 6 y.2.2

/-- Bytes 0 to 32,735 of a copy of the boot header. -/
def headerBytes (gen : Nat) (x : HeaderFields) : List Byte :=
  [0x53#8, 0x56#8, 0x42#8, 0x48#8] ++ leBytes 4 gen ++ leBytes 4 x.arbFloor ++ leBytes 1 x.active ++ leBytes 1 x.trialBoots ++
  leBytes 2 x.confirmMin ++ x.slots.flatMap descriptor ++ pendBytes x.pend ++ leBytes 8 0 ++
  padTo 4096 (Config.wrapStore x.auth x.check x.cosign) ++ List.replicate 28512 0#8

/-- The boot header's fields as they stand. -/
def headerNow (s : State) : HeaderFields :=
  { arbFloor := s.primer.arbFloor, active := s.primer.active, trialBoots := s.primer.trialBoots, confirmMin := s.primer.confirmMin
    slots := s.primer.slots.map fun x => { x with blocks := [], crcs := [] }
    pend := s.primer.pend, auth := s.lc.auth, check := s.lc.check, cosign := s.lc.cosign }

/-- The copy that Primer uses: of those whose MAC verifies, all but the `bad` ones, the one with the higher GEN. -/
def headerCopy (bad : List Nat) (s : State) : Option (Nat × HeaderCopy) :=
  let l := (s.primer.copies.zipIdx.filter fun x => !bad.contains x.2).filterMap fun x => x.1.map fun c => (x.2, c)
  (l.filter fun x => decide (x.2.mac = Config.headerMac (headerBytes x.2.gen x.2.fields))).foldl
    (fun b x => if b.all fun y => decide (y.2.gen < x.2.gen) then some x else b) none

/-- A change of the header is written to the other copy, with GEN + 1 (R413). -/
def commitHeader (s : State) : State :=
  let new := headerNow s
  let use := headerCopy [] s
  if ((use.map fun x => x.2.fields).getD {}) = new then s
  else
    let k := (use.map fun x => 1 - x.1).getD 0
    let gen := ((use.map fun x => x.2.gen).getD 0 + 1) % 2 ^ 32
    modPrimer (fun p => { p with copies := p.copies.set k (some { gen := gen, fields := new, mac := Config.headerMac (headerBytes gen new) }) }) s

/-- A start reads the header from the copy that verifies with the higher GEN. Where copies are written and none verifies, no slot has a
descriptor (log entry 212). -/
def readHeader (bad : List Nat) (s : State) : State :=
  if s.primer.copies.all (·.isNone) then s
  else
    let x : HeaderFields := ((headerCopy bad s).map fun y => y.2.fields).getD { slots := [{}, {}] }
    let slot (k : Nat) : FwSlot := { x.slots.getD k {} with blocks := (fwSlot k s).blocks, crcs := (fwSlot k s).crcs }
    let t := modPrimer (fun p => { p with
      arbFloor := x.arbFloor, active := x.active, trialBoots := x.trialBoots, confirmMin := x.confirmMin, slots := [slot 0, slot 1], pend := x.pend }) s
    { t with lc.auth := x.auth, lc.check := x.check, lc.cosign := x.cosign }

/-- The slot that is neither ACTIVE nor TRIAL, for a session (R417). -/
def sessionSlot (s : State) : Nat := 1 - s.primer.active

/-- A trial runs: a slot is TRIAL (R426). -/
def inTrial (s : State) : Bool := s.primer.slots.any fun x => decide (x.state = slotTrial)

/-- The TRIAL slot. -/
def trialSlot (s : State) : Nat := 1 - s.primer.active

/-! ### The supervisor switch (R422 to R425) -/

/-- SUP_BUSY is set and the trust core restarts on the firmware of the other slot (R424 steps 1 to 3). -/
def beginSwitch (w : Switch) (s : State) : State :=
  setB fTRU_STAT_RESTARTING true (setB fHST_STAT_SUP_BUSY true (modPrimer (fun p => { p with switch := w }) s))

/-- The STAGED slot becomes TRIAL and the switch begins (R424, R426). -/
def startTrial (s : State) : State :=
  let k := sessionSlot s
  let s1 := setSlotState k slotTrial s
  beginSwitch .toTrial (modPrimer (fun p => { p with
    trialBoots := 0, pend := none, deferred := false, trialFrom := now s, trialRestarts := 0, trialWrites := 0 }) s1)

/-- What defers a release: arming stopped at the warning level, a supervisor restart, a trust-core restart (R423). -/
def releaseHeldBack (s : State) : Bool :=
  (List.range 4).any (fun n => getB (fSCH_LINE_STAT_BROWNOUT n) s) || s.primer.switch != .none || getB fTRU_STAT_RESTARTING s

/-- A pending activation is released, or its release deferred (R422, R423). -/
def releaseActivation (s : State) : State :=
  match s.primer.pend with
  | none => s
  | some _ => if releaseHeldBack s then modPrimer (fun p => { p with deferred := true }) s else startTrial s

/-- A deferred release runs as soon as the cause has ended (R423). -/
def runDeferred (s : State) : State := if s.primer.deferred then releaseActivation s else s

/-- A ticket releases the activation that waits for it; a second release has no effect (R422). -/
def releaseTicket (t : Nat) (s : State) : State :=
  match s.primer.pend with
  | some (2, k, _) => if k = t then releaseActivation s else s
  | _ => s

/-- MODE 0 releases at once, MODE 1 once the TRUSTED secure clock reaches TIME (R422). -/
def activationDue (s : State) : Bool :=
  s.primer.deferred || match s.primer.pend with
  | some (0, _, _) => true
  | some (1, _, t) => clockTrusted s && decide (t ≤ secureTime s)
  | _ => false

def execActivationRelease (s : State) : Host.Outcome State Fault Refusal := .next (if activationDue s then releaseActivation s else s)

/-- ACTIVATE: a position event with the ticket in its ARG (R86, R422). -/
def execActivate (i : Nat) (s : State) : Host.Outcome State Fault Refusal :=
  .next (dispatch i .activate (fun e t => releaseTicket e.arg (petErase i t)) s)

/-- A trial falls back: the trial slot becomes STAGED or BAD, and the firmware of the ACTIVE slot starts again by the switch (R428). -/
def fallBack (st : Nat) (s : State) : State :=
  beginSwitch .toActive (modPrimer (fun p => { p with trialBoots := 0, trialRestarts := 0 }) (setSlotState (trialSlot s) st s))

/-- A starting firmware finds its settings set, converts the newest older one, or starts from defaults (R429). -/
def readSettings (s : State) : State :=
  let f := (fwSlot (runningSlot s) s).setFmt
  let l := s.primer.settings
  if (spFind l f).isSome then modPrimer (fun p => { p with settingsDefault := false }) s
  else match (l.filter fun x => decide (x.1 < f)).getLast? with
  | some x =>
    modPrimer (fun p => { p with
      settings := spInsert l f (Config.convertSettings x.1 f x.2), settingsDefault := false
      trialWrites := if inTrial s then min 65535 (p.trialWrites + 1) else p.trialWrites }) s
  | none => modPrimer (fun p => { p with settingsDefault := true }) s

/-- The supervisor runs: SUP_BUSY clears, the held events are written and deferred answers and releases follow (R423, R425, R437). -/
def supervisorUp (s : State) : State :=
  let s1 := modPrimer (fun p => { p with switch := .none }) (setB fFLT_REC_SUP false (setB fHST_STAT_SUP_BUSY false s))
  runDeferred (serveWaiting (answerBarriers (releaseHeld s1)))

/-- The supervisor runs: the start has ended, and neither a restart nor a switch is in progress (R437, R463). -/
def supervisorRuns (s : State) : Bool := getB fPWR_STAT_READY s && decide (s.primer.switch = .none) && !getB fFLT_REC_SUP s

/-- The PCI Express link has trained at a speed and width (R349, R376). After a reset of the host port SUP_BUSY shows its reset value until
then; a supervisor that runs clears it (log entry 74). -/
def linkTrained (speed width : Nat) (s : State) : State :=
  if 1 ≤ speed ∧ speed ≤ 3 ∧ 1 ≤ width ∧ width ≤ 2 then
    let s1 := setB fHST_STAT_LINK_UP true (setF fHST_STAT_WIDTH width (setF fHST_STAT_SPEED speed s))
    if supervisorRuns s1 ∧ getB fHST_STAT_SUP_BUSY s1 then answerBarriers (releaseHeld (setB fHST_STAT_SUP_BUSY false s1)) else s1
  else s

def execPcieLinkTrained (speed width : Nat) (s : State) : Host.Outcome State Fault Refusal := .next (linkTrained speed width s)

/-- Steps 4 and 5 of a switch: the slot is verified; where the TRIAL slot fails it becomes BAD and the ACTIVE slot's firmware starts in the
same way (R424). A trial boot ends here too, with READY (R463). -/
def switchDone (s : State) : State :=
  if switching s = false ∨ getB fTRU_STAT_RESTARTING s then s
  else if s.primer.switch = .toTrial ∧ imageVerifies (trialSlot s) s = false then fallBack slotBad s
  else setB fPWR_STAT_READY true (supervisorUp (readSettings s))

/-- A new supervisor that is not ready in time makes the trial fall back (R428). -/
def execSupervisorReadyTimeout (s : State) : Host.Outcome State Fault Refusal :=
  .next (if s.primer.switch = .toTrial then fallBack slotBad s else s)

/-- Confirmation: the TRIAL slot becomes ACTIVE, ARB_FLOOR rises, and the settings sets of other formats are erased (R427). -/
def confirmTrial (s : State) : State :=
  let k := trialSlot s
  let s1 := setSlotState s.primer.active slotPrevious (setSlotState k slotActive s)
  modPrimer (fun p => { p with
    active := k, trialBoots := 0, trialRestarts := 0, arbFloor := max p.arbFloor (fwSlot k s).arb,
    settings := p.settings.filter fun x => decide (x.1 = (fwSlot k s).setFmt) }) s1

/-- Ticks of fault-free operation in the trial. -/
def trialTicks (s : State) : Nat := (now s - s.primer.trialFrom).toNat

/-- CONFIRM_MIN minutes in ticks. -/
def confirmTicks (s : State) : Nat := s.primer.confirmMin * 60 * ticksPerSecond

def execConfirmTimer (s : State) : Host.Outcome State Fault Refusal :=
  .next (if inTrial s ∧ s.primer.switch = .none ∧ s.primer.confirmMin ≠ 0 ∧ confirmTicks s ≤ trialTicks s then confirmTrial s else s)

/-! ### Sessions (R416 to R419) -/

/-- A trial runs or an activation is pending: no session begins (R417). -/
def updateLocked (s : State) : Bool := inTrial s || s.primer.pend.isSome

/-- A PU_RESULT to a peer. -/
def puResult (unit session block r : Nat) (s : State) : State :=
  match portTo unit s with
  | some p => sendOcing p 0x44 unit (leBytes 1 session ++ leBytes 2 block ++ leBytes 1 r) s
  | none => s

/-- A candidate is told its RESULT; one that has lost, or comes too late, is told that Primer is busy (R418). -/
def tellCandidate (c : Session) (r : Nat) (s : State) : State :=
  match c.sender, c.reply with
  | .peer u n, _ => puResult u n 0xFFFF r s
  | .host, some (q, tag, noResp) =>
    respondLater q 0x30 tag noResp (if r = upBusy then (hsUpdateBusy, []) else (hsOk, leBytes 1 r ++ leBytes 2 c.id ++ leBytes 2 (hdrBlocks c.header))) s
  | .host, none => s

/-- Order of candidates: ARB first, then the host, then the lower unit (R418). -/
def senderRank : Sender → Nat
  | .host => 0
  | .peer u _ => u + 1

def beats (a b : Session) : Bool :=
  decide (hdrArb b.header < hdrArb a.header) || (decide (hdrArb b.header = hdrArb a.header) && decide (senderRank a.sender < senderRank b.sender))

/-- The winning candidate. -/
def winner (l : List Session) : Option Session :=
  l.foldl (fun best c => match best with
    | none => some c
    | some b => if beats c b then some c else some b) none

/-- The window ends: failing candidates are told why, the winner takes the session, the others are told that Primer is busy (R418). Where an
activation has come in the window no session opens (R417; log entry 213). -/
def arbitrationEnd (s : State) : State :=
  match s.primer.window with
  | none => s
  | some (_, l) =>
    if updateLocked s then
      forAll l (fun c => tellCandidate { c with id := 0, header := [] } upState) (modPrimer (fun p => { p with window := none, peerIn := [] }) s)
    else
    let s0 := modPrimer (fun p => { p with window := none }) s
    let good := l.filter fun c => decide (headerResult c.header s = upOk)
    let s1 := forAll (l.filter fun c => decide (headerResult c.header s ≠ upOk)) (fun c t => tellCandidate { c with id := 0, header := [] } (headerResult c.header s) t) s0
    let late := s.primer.peerIn.filter fun x => l.all fun c => decide (c.sender ≠ .peer x.unit x.session)
    let s2 := forAll late (fun x => puResult x.unit x.session 0xFFFF upBusy) s1
    match winner good with
    | none => modPrimer (fun p => { p with peerIn := [] }) s2
    | some w =>
      let id := s.primer.nextSession
      let w1 := { w with id := id, last := now s, reply := none }
      let s3 := forAll (good.filter fun c => decide (c ≠ w)) (fun c => tellCandidate c upBusy) s2
      let s4 := setSlot (sessionSlot s3) { state := slotWriting } (modPrimer (fun p => { p with
        session := some w1, nextSession := (id + 1) % 65535
        peerIn := p.peerIn.filter fun x => decide (w.sender = .peer x.unit x.session) }) s3)
      tellCandidate { w with id := id } upOk s4

def execUpdateArbitrationEnd (s : State) : Host.Outcome State Fault Refusal := .next (arbitrationEnd s)

/-- The session ends, and its slot takes a state. -/
def endSession (st : Nat) (s : State) : State :=
  setSlotState (sessionSlot s) st (modPrimer (fun p => { p with session := none, peerIn := [] }) s)

/-- A session without a message for 10 s ends (R417). -/
def execUpdateSessionTimeout (s : State) : Host.Outcome State Fault Refusal :=
  .next (match s.primer.session with
    | some x => if 2000000000 ≤ (now s - x.last).toNat then setSlot (sessionSlot s) {} (endSession slotEmpty s) else s
    | none => s)

/-- A message of the session restarts its 10 s. -/
def touchSession (s : State) : State :=
  modPrimer (fun p => { p with session := p.session.map fun x => { x with last := now s } }) s

/-- Bytes of block `b` of an image. -/
def blockLen (h : List Byte) (b : Nat) : Nat := min 4096 (hdrLen h - 4096 * b)

/-- A block with one of its bits flipped. -/
def flipBit (bit : Nat) (data : List Byte) : List Byte :=
  data.zipIdx.map fun y => if y.2 = bit / 8 then y.1 ^^^ BitVec.ofNat 8 (2 ^ (bit % 8)) else y.1

/-- A block is checked and written, `flash` telling how the flash takes it (R419). -/
def writeBlock (x : Session) (b crc : Nat) (data : List Byte) (flash : FlashWrite) (s : State) : Nat × State :=
  if hdrBlocks x.header ≤ b ∨ data.length ≠ blockLen x.header b then (upFormat, s)
  else if crc32c data ≠ crc then (upCrc, s)
  else
    let k := sessionSlot s
    let put (l : List Byte) : State :=
      setSlot k { fwSlot k s with blocks := spInsert (fwSlot k s).blocks b l, crcs := spInsert (fwSlot k s).crcs b crc } s
    match flash with
    | .failed => (upFlashFail, s)
    | .taken => (upOk, put data)
    | .flawed bit => (upOk, put (flipBit bit data))

/-- The block in flash at the read-back still has its CRC (R419). -/
def blockGood (x : FwSlot) (b : Nat) : Bool := decide ((spFind x.blocks b).map crc32c = spFind x.crcs b)

/-- The end of a session: INCOMPLETE until every block is written; then the slot is read back, block by block, and becomes STAGED, or BAD (R419).
After a push the image is activated at once (R415). -/
def finishImage (x : Session) (s : State) : Nat × State :=
  let k := sessionSlot s
  if (fwSlot k s).blocks.length < hdrBlocks x.header then (upIncomplete, s)
  else if (List.range (hdrBlocks x.header)).all (blockGood (fwSlot k s)) = false then (upCrc, endSession slotBad s)
  else if sha256 ((slotImage k s).drop 256) ≠ hdrDigest x.header then (upDigest, endSession slotBad s)
  else
    let s1 := endSession slotStaged s
    let s2 := setSlot k { fwSlot k s1 with
      version := hdrVersion x.header, arb := hdrArb x.header, setFmt := hdrSetFmt x.header, digest := hdrDigest x.header } s1
    (upOk, if s.primer.push ≠ .none then modPrimer (fun p => { p with push := .none, bootFail := false, trialBoots := 1 }) (startTrial s2) else s2)

/-- The host's session of a number. -/
def hostSession (n : Nat) (s : State) : Option Session := s.primer.session.filter fun x => decide (x.sender = .host) && decide (x.id = n)

/-! ### Host messages (R420) -/

def upReply (r : Nat) (l : List Byte) (s : State) : Option (Nat × List Byte) × State := reply hsOk (leBytes 1 r ++ l) s

/-- UPDATE_BEGIN opens or joins the arbitration window; its answer comes at the window's end. In a push from a peer the host begins no session
(R415; log entry 214). -/
def serveBegin : Serve := fun q tag noResp p s =>
  if p.length ≠ 256 then reply hsBadLength [] s
  else if updateLocked s ∨ s.primer.push = .peer then upReply upState (leBytes 4 0) s
  else if s.primer.session.isSome then reply hsUpdateBusy [] s
  else
    let c : Session := { sender := .host, id := 0, header := p, last := now s, reply := some (q, tag, noResp) }
    (none, modPrimer (fun r => { r with window := some ((r.window.map (·.1)).getD (now s), ((r.window.map (·.2)).getD []) ++ [c]) }) s)

/-- UPDATE_DATA. -/
def serveData (flash : FlashWrite) : Serve := fun _ _ _ p s =>
  if p.length < 9 ∨ 4104 < p.length then reply hsBadLength [] s
  else match hostSession (leAt p 0 2) s with
    | none => upReply upNoSession (leBytes 2 0) s
    | some x =>
      let r := writeBlock x (leAt p 2 2) (leAt p 4 4) (p.drop 8) flash (touchSession s)
      upReply r.1 (leBytes 2 (fwSlot (sessionSlot r.2) r.2).blocks.length) r.2

/-- UPDATE_END. -/
def serveEnd : Serve := fun _ _ _ p s =>
  if p.length ≠ 2 then reply hsBadLength [] s
  else match hostSession (leNat p) s with
    | none => upReply upNoSession (leBytes 8 0) s
    | some x =>
      let r := finishImage x (touchSession s)
      upReply r.1 (leBytes 4 (hdrVersion x.header) ++ leBytes 4 (hdrArb x.header)) r.2

/-- UPDATE_ACTIVATE. -/
def serveActivate : Serve := fun _ _ _ p s =>
  if p.length ≠ 8 then reply hsBadLength [] s
  else if 2 < leAt p 0 1 then reply hsBadArg [] s
  else if (fwSlot (sessionSlot s) s).state ≠ slotStaged then upReply upNotStaged [] s
  else if s.primer.pend.isSome then upReply upPending [] s
  else
    let s1 := modPrimer (fun r => { r with pend := some (leAt p 0 1, leAt p 1 1, leAt p 2 6) }) s
    upReply upOk [] (if leAt p 0 1 = 0 then releaseActivation s1 else s1)

/-- UPDATE_ABORT ends the session, or with 0xFFFF cancels the pending activation. -/
def serveAbort : Serve := fun _ _ _ p s =>
  if p.length ≠ 2 then reply hsBadLength [] s
  else if leNat p = 0xFFFF then
    if s.primer.pend.isSome then upReply upOk [] (modPrimer (fun r => { r with pend := none, deferred := false }) s) else upReply upNoSession [] s
  else match hostSession (leNat p) s with
    | none => upReply upNoSession [] s
    | some _ => upReply upOk [] (setSlot (sessionSlot s) {} (endSession slotEmpty s))

/-- UPDATE_STATUS: the confirm timer is what is left of CONFIRM_MIN. -/
def serveStatus : Serve := fun _ _ _ p s =>
  if p ≠ [] then reply hsBadLength [] s
  else
    let r := s.primer
    let timer := if inTrial s then (confirmTicks s - trialTicks s) / ticksPerSecond else 0
    reply hsOk (descriptor (fwSlot 0 s) ++ descriptor (fwSlot 1 s) ++ leBytes 1 r.active ++ leBytes 1 r.trialBoots ++ leBytes 4 r.arbFloor ++
      pendBytes r.pend ++ leBytes 4 timer ++ leBytes 2 r.trialWrites ++
      leBytes 1 ((if r.bootFail then 1 else 0) + if r.settingsDefault then 2 else 0)) s

/-- UPDATE_CONFIRM. -/
def serveConfirm : Serve := fun _ _ _ p s =>
  if p ≠ [] then reply hsBadLength [] s
  else if inTrial s then upReply upOk [] (confirmTrial s) else upReply upNotTrial [] s

/-- UPDATE_FALLBACK: answered, then the switch. -/
def serveFallback : Serve := fun _ _ _ p s =>
  if p ≠ [] then reply hsBadLength [] s
  else if inTrial s then upReply upOk [] (fallBack slotStaged s) else upReply upNotTrial [] s

/-- UPDATE_CFG. -/
def serveCfg : Serve := fun _ _ _ p s =>
  if p.length ≠ 2 then reply hsBadLength [] s
  else if 1440 < leNat p then reply hsBadArg [] s
  else reply hsOk [] (modPrimer (fun r => { r with confirmMin := leNat p }) s)

/-- PU_DATA frames with chunks of a block. -/
def sendChunks (port unit session b : Nat) (data : List Byte) (ks : List Nat) (s : State) : State :=
  forAll ks (fun k => sendOcing port 0x41 unit (leBytes 1 session ++ leBytes 2 b ++ leBytes 1 k ++ padTo 64 (slice data (64 * k) 64))) s

/-- UPDATE_FORWARD: a peer session to the unit begins, with the chunks that hold the header first (R421). -/
def serveForward : Serve := fun q tag noResp p s =>
  if p.length ≠ 2 then reply hsBadLength [] s
  else
    let u := leAt p 0 1
    let k := leAt p 1 1
    match portTo u s with
    | none => reply hsBadArg [] s
    | some port =>
      if 2 ≤ k then reply hsBadArg [] s
      else if (fwSlot k s).state ≠ slotStaged ∧ (fwSlot k s).state ≠ slotActive then upReply upNotStaged [] s
      else if s.primer.forward.isSome then upReply upBusy [] s
      else
        let n := s.primer.nextSession % 256
        let f : Forward := { q := q, tag := tag, noResp := noResp, unit := u, slot := k, next := 0, ended := false, session := n }
        let s1 := modPrimer (fun r => { r with forward := some f, nextSession := (r.nextSession + 1) % 65535 }) s
        let img := slotImage k s
        (none, sendChunks port u n 0 (img.take 4096) [0, 1, 2, 3] (sendOcing port 0x40 u (leBytes 1 n ++ leBytes 4 (hdrLen img)) s1))

def execUpdateBegin (q : Nat) (entry : List Byte) (readable : Bool) (payload : List Byte) (s : State) : Host.Outcome State Fault Refusal :=
  .next (takeMessage 0x30 q entry readable payload serveBegin s)
def execUpdateData (q : Nat) (entry : List Byte) (readable : Bool) (payload : List Byte) (flash : FlashWrite) (s : State) :
    Host.Outcome State Fault Refusal := .next (takeMessage 0x31 q entry readable payload (serveData flash) s)
def execUpdateEnd (q : Nat) (entry : List Byte) (readable : Bool) (payload : List Byte) (s : State) : Host.Outcome State Fault Refusal :=
  .next (takeMessage 0x32 q entry readable payload serveEnd s)
def execUpdateActivate (q : Nat) (entry : List Byte) (readable : Bool) (payload : List Byte) (s : State) : Host.Outcome State Fault Refusal :=
  .next (takeMessage 0x33 q entry readable payload serveActivate s)
def execUpdateAbort (q : Nat) (entry : List Byte) (readable : Bool) (payload : List Byte) (s : State) : Host.Outcome State Fault Refusal :=
  .next (takeMessage 0x34 q entry readable payload serveAbort s)
def execUpdateStatus (q : Nat) (entry : List Byte) (readable : Bool) (payload : List Byte) (s : State) : Host.Outcome State Fault Refusal :=
  .next (takeMessage 0x35 q entry readable payload serveStatus s)
def execUpdateConfirm (q : Nat) (entry : List Byte) (readable : Bool) (payload : List Byte) (s : State) : Host.Outcome State Fault Refusal :=
  .next (takeMessage 0x36 q entry readable payload serveConfirm s)
def execUpdateFallback (q : Nat) (entry : List Byte) (readable : Bool) (payload : List Byte) (s : State) : Host.Outcome State Fault Refusal :=
  .next (takeMessage 0x37 q entry readable payload serveFallback s)
def execUpdateForward (q : Nat) (entry : List Byte) (readable : Bool) (payload : List Byte) (s : State) : Host.Outcome State Fault Refusal :=
  .next (takeMessage 0x38 q entry readable payload serveForward s)
def execUpdateCfg (q : Nat) (entry : List Byte) (readable : Bool) (payload : List Byte) (s : State) : Host.Outcome State Fault Refusal :=
  .next (takeMessage 0x39 q entry readable payload serveCfg s)

/-! ### Peer frames (R421) -/

/-- The peer's session as it arrives. -/
def peerInOf (u n : Nat) (s : State) : Option PeerIn := s.primer.peerIn.find? fun x => decide (x.unit = u) && decide (x.session = n)

def putPeerIn (x : PeerIn) (s : State) : State :=
  modPrimer (fun p => { p with peerIn := (p.peerIn.filter fun y => !(decide (y.unit = x.unit) && decide (y.session = x.session))) ++ [x] }) s

/-- The session is this peer's. -/
def peerSession (u n : Nat) (s : State) : Option Session := s.primer.session.filter fun x => decide (x.sender = .peer u n)

/-- PU_BEGIN. In a push from the host a peer begins no session (R415; log entry 214). -/
def puBegin (u : Nat) (l : List Byte) (s : State) : State :=
  let n := leAt l 0 1
  if updateLocked s ∨ s.primer.push = .host then puResult u n 0xFFFF upState s
  else if s.primer.session.isSome then puResult u n 0xFFFF upBusy s
  else putPeerIn { unit := u, session := n, len := leAt l 1 4, chunks := [] }
    (modPrimer (fun p => { p with window := some (p.window.getD (now s, [])) }) s)

/-- The first `n` chunks of a block, in order. -/
def chunksOf (x : PeerIn) (b n : Nat) : List Byte := (List.range n).flatMap fun k => (spFind x.chunks (64 * b + k)).getD []

/-- PU_DATA: a chunk of a block; with the first four chunks of block 0 the header has arrived and the peer joins the window. -/
def puData (u : Nat) (l : List Byte) (s : State) : State :=
  let n := leAt l 0 1
  match peerInOf u n s with
  | none => s
  | some x =>
    let y := { x with chunks := spInsert x.chunks (64 * leAt l 1 2 + leAt l 3 1 % 64) (slice l 4 64) }
    let s1 := touchIf (putPeerIn y s)
    let header := chunksOf y 0 4
    match s1.primer.window with
    | some (t, cs) =>
      if header.length = 256 ∧ cs.all (fun c => decide (c.sender ≠ .peer u n)) then
        let c : Session := { sender := .peer u n, id := 0, header := header, last := now s, reply := none }
        modPrimer (fun p => { p with window := some (t, cs ++ [c]) }) s1
      else s1
    | none => s1
where
  touchIf (t : State) : State := if (peerSession u (leAt l 0 1) t).isSome then touchSession t else t

/-- PU_BLOCK ends a block with its CRC. -/
def puBlock (u : Nat) (flash : FlashWrite) (l : List Byte) (s : State) : State :=
  let n := leAt l 0 1
  let b := leAt l 1 2
  match peerSession u n s, peerInOf u n s with
  | some x, some y =>
    let data := (chunksOf y b 64).take (blockLen x.header b)
    let r := writeBlock x b (leAt l 3 4) data flash (touchSession s)
    puResult u n b r.1 (putPeerIn { y with chunks := y.chunks.filter fun z => decide (z.1 / 64 ≠ b) } r.2)
  | _, _ => puResult u n b upNoSession s

/-- PU_END. -/
def puEnd (u : Nat) (l : List Byte) (s : State) : State :=
  let n := leAt l 0 1
  match peerSession u n s with
  | some x =>
    let r := finishImage x (touchSession s)
    puResult u n 0xFFFF r.1 r.2
  | none => puResult u n 0xFFFF upNoSession s

/-- PU_ABORT ends the peer's session or takes it out of the window. -/
def puAbort (u : Nat) (l : List Byte) (s : State) : State :=
  let n := leAt l 0 1
  if (peerSession u n s).isSome then setSlot (sessionSlot s) {} (endSession slotEmpty s)
  else modPrimer (fun p => { p with
    peerIn := p.peerIn.filter fun x => !(decide (x.unit = u) && decide (x.session = n))
    window := p.window.map fun w => (w.1, w.2.filter fun c => decide (c.sender ≠ .peer u n)) }) s

/-- The forward ends, and the host's message is answered. -/
def endForward (f : Forward) (r : Nat) (s : State) : State :=
  respondLater f.q 0x38 f.tag f.noResp (hsOk, leBytes 1 r) (modPrimer (fun p => { p with forward := none }) s)

/-- The next block of a forward, or PU_END after the last. -/
def forwardNext (f : Forward) (s : State) : State :=
  match portTo f.unit s with
  | none => endForward f upState s
  | some port =>
    let img := slotImage f.slot s
    if hdrBlocks img ≤ f.next then
      sendOcing port 0x43 f.unit (leBytes 1 f.session) (modPrimer (fun p => { p with forward := some { f with ended := true } }) s)
    else
      let data := slice img (4096 * f.next) 4096
      let ks := (List.range (ceilDiv data.length 64)).drop (if f.next = 0 then 4 else 0)
      let s1 := sendChunks port f.unit f.session f.next data ks (modPrimer (fun p => { p with forward := some { f with next := f.next + 1 } }) s)
      sendOcing port 0x42 f.unit (leBytes 1 f.session ++ leBytes 2 f.next ++ leBytes 4 (crc32c data)) s1

/-- PU_RESULT moves the forward on; a RESULT other than OK ends it (R420). -/
def puResultFrame (u : Nat) (l : List Byte) (s : State) : State :=
  match s.primer.forward with
  | none => s
  | some f =>
    if f.unit ≠ u ∨ f.session ≠ leAt l 0 1 then s
    else if leAt l 3 1 ≠ upOk ∨ f.ended then endForward f (leAt l 3 1) s
    else forwardNext f s

def execPuBegin (p : Nat) (body : List Byte) (s : State) : Host.Outcome State Fault Refusal :=
  .next (receiveFrame p 0x40 body unchanged (puBegin (frameSrc body)) s)
def execPuData (p : Nat) (body : List Byte) (s : State) : Host.Outcome State Fault Refusal :=
  .next (receiveFrame p 0x41 body unchanged (puData (frameSrc body)) s)
def execPuBlock (p : Nat) (body : List Byte) (flash : FlashWrite) (s : State) : Host.Outcome State Fault Refusal :=
  .next (receiveFrame p 0x42 body unchanged (puBlock (frameSrc body) flash) s)
def execPuEnd (p : Nat) (body : List Byte) (s : State) : Host.Outcome State Fault Refusal :=
  .next (receiveFrame p 0x43 body unchanged (puEnd (frameSrc body)) s)
def execPuResult (p : Nat) (body : List Byte) (s : State) : Host.Outcome State Fault Refusal :=
  .next (receiveFrame p 0x44 body unchanged (puResultFrame (frameSrc body)) s)
def execPuAbort (p : Nat) (body : List Byte) (s : State) : Host.Outcome State Fault Refusal :=
  .next (receiveFrame p 0x45 body unchanged (puAbort (frameSrc body)) s)

end Sys2Proof.Machine
end

