-- ==== Sys2Proof/Machine/Recovery.lean ====
section
/-! DEFINITION. The fault collector's registers, restarts of the supervisor and the trust core, clock faults, and Skim (R37, R39, R147,
R382 to R384, R399, R430 to R440). -/

namespace Sys2Proof.Machine

/-! ### The collector's registers (R431, R439, R440) -/

/-- A write of 1 to FLT_STATUS bits clears those whose source is inactive. -/
def statusClear (v : Nat) (s : State) : State :=
  let x := clearable fFLT_STATUS_STATUS s v
  let keep := (List.range 48).foldl (fun a k => if x.testBit k && !sourceActive k s then a else a + 2 ^ k) 0
  setF fFLT_STATUS_STATUS (getF fFLT_STATUS_STATUS s &&& keep) s

def execFltStatusClear (value : Nat) (s : State) : Host.Outcome State Fault Refusal := .next (hostAccess (statusClear value) s)

/-- The pulse of at least 10 µs on FAULT_L ends. -/
def execFaultPinPulseEnd (s : State) : Host.Outcome State Fault Refusal := .next (showPin { s with flt.pulse := false })

/-- A write of FLT_PIN_HOLD; HOLD keeps its value in DEVICE_SAFE (R440). -/
def holdWrite (v : Nat) (s : State) : State :=
  let w := if getB fFLT_REC_DEVICE_SAFE s then withField fFLT_PIN_HOLD_HOLD (getF fFLT_PIN_HOLD_HOLD s) v else v
  showPin (plainWrite rFLT_PIN_HOLD w s)

def execHoldWrite (value : Nat) (s : State) : Host.Outcome State Fault Refusal := .next (hostAccess (holdWrite value) s)

/-- POP removes the oldest entry of the fault history. -/
def histPop (s : State) : State := showHist { s with flt.hist := s.flt.hist.drop 1 }

def execHistPop (s : State) : Host.Outcome State Fault Refusal := .next (hostAccess histPop s)

/-! ### Clocks (R430, R432, R434) -/

/-- A PLL loses lock and its duplicate drives its clock: PLLs in the order of R472. -/
def pllLockLoss (p : Nat) (s : State) : State :=
  if 6 ≤ p ∨ (getF fCLK_STAT_DUP s).testBit p then s
  else
    let lock := getF fCLK_STAT_LOCK s
    raiseSimple srcClock clsNote false 1 (setF fCLK_STAT_DUP (getF fCLK_STAT_DUP s + 2 ^ p)
      (setF fCLK_STAT_LOCK (if lock.testBit p then lock - 2 ^ p else lock) s))

def execPllLockLoss (pll : Nat) (s : State) : Host.Outcome State Fault Refusal := .next (pllLockLoss pll s)
def execReferenceLost (s : State) : Host.Outcome State Fault Refusal := .next (raiseDeviceSafe srcClock false 2 s)
/-- The 32.768 kHz crystal stops, and the secure clock with it (R20, R125, R430). -/
def execCrystal32kLost (s : State) : Host.Outcome State Fault Refusal := .next (raiseSimple srcClock clsNote false 3 { s with trust.oscStopped := true })

/-! ### The supervisor's restart (R428, R434, R437) -/

/-- The pair stops and restarts: SUP_BUSY is set and the recovery window opens. A switch that runs goes on. -/
def supervisorDown (s : State) : State :=
  setB fFLT_REC_SUP true (setB fHST_STAT_SUP_BUSY true
    (modPrimer (fun p => { p with switch := if p.switch = .none then .restart else p.switch }) s))

/-- A lockstep miscompare: the restart is counted; the fourth within ten minutes enters DEVICE_SAFE, and the third within a trial makes
the trial fall back. -/
def supervisorMiscompare (s : State) : State :=
  let l := lastTenMinutes s.primer.supRestarts s ++ [now s]
  let s1 := incSat fFLT_RESTART_SUP_TOTAL (setF fFLT_RESTART_SUP_10MIN (min 255 l.length)
    (modPrimer (fun p => { p with supRestarts := l, trialRestarts := p.trialRestarts + 1 }) (trialFault s)))
  let s2 := if 4 ≤ l.length then raiseDeviceSafe srcSupervisor true (min 255 l.length) s1
    else raiseShared srcSupervisor clsNote (min 255 l.length) s1
  let s3 := supervisorDown s2
  if inTrial s ∧ 3 ≤ s3.primer.trialRestarts then fallBack slotBad s3 else s3

def execSupervisorMiscompare (s : State) : Host.Outcome State Fault Refusal := .next (supervisorMiscompare s)

/-- Every message that was taken and not completed is answered BUSY. -/
def answerTaken (s : State) : State :=
  let s1 := forAll s.ocl.waits (fun w => respondLater w.q 0x20 w.tag w.noResp (hsBusy, [])) { s with ocl.waits := [] }
  let mine := ((s.primer.window.map (·.2)).getD []).filterMap (·.reply)
  let s2 := modPrimer (fun p => { p with
    window := p.window.map fun w => (w.1, w.2.filter fun c => c.reply.isNone), forward := none }) s1
  let s3 := forAll mine (fun r => respondLater r.1 0x30 r.2.1 r.2.2 (hsBusy, [])) s2
  match s.primer.forward with
  | some f => respondLater f.q 0x38 f.tag f.noResp (hsBusy, []) s3
  | none => s3

def execSupervisorRestartDone (s : State) : Host.Outcome State Fault Refusal :=
  .next (if s.primer.switch = .restart then supervisorUp (answerTaken s) else s)

/-! ### The trust core's restart (R147) -/

/-- The restart ends: the checkpoints that fell due are signed, block reservations begin, and the waiting request is served. -/
def trustRestartDone (s : State) : State :=
  if getB fTRU_STAT_RESTARTING s = false then s
  else
    let s1 := setB fFLT_REC_TRUST false (setB fTRU_STAT_RESTARTING false s)
    let s2 := forAll s1.trust.ckptDue (fun c => signCheckpoint c.1 c.2) { s1 with trust.ckptDue := [] }
    let s3 := forAll s2.trust.reserveWait reserveBlock { s2 with trust.reserveWait := [] }
    runDeferred (serveWaiting s3)

def execTrustRestartDone (s : State) : Host.Outcome State Fault Refusal := .next (trustRestartDone s)

/-! ### Broken laws and lost copies (R37, R39) -/

/-- The first loss of a copy opens the rebuild window (R435). -/
def openRebuild (s : State) : State := setB fFLT_REC_REBUILD true s

/-- An uncorrectable error in a copy, with the NOTE class that R37 gives it. -/
def copyError (bank : Nat) (s : State) : State :=
  raiseFault srcMemUe clsNote bank true (enabledLines s) (incSat fMEM_ERRCNT_UE (logError bank 4 true s))

/-- A ledger copy is lost: the other one stands; where both are lost, every line's ledger breaks, before anything else is appended to the
chain (R39). -/
def loseLedgerCopy (c : Nat) (s : State) : State := match s.sch.copyLost with
  | none => openRebuild (copyError (95 + c) { s with sch.copyLost := some c })
  | some d => if d = c then copyError (95 + c) s else openRebuild (copyError (95 + c) (forAll (List.range 4) ledgerBreak s))

/-- A counter copy is lost. -/
def loseCounterCopy (c : Nat) (s : State) : State := match s.trust.copyLost with
  | none => openRebuild (copyError (98 + c) { s with trust.copyLost := some c })
  | some d => if d = c then copyError (98 + c) s
      else openRebuild (copyError (98 + c) (forAll (((List.range 64).filter fun k => (counter k s).isSome)) counterBreak s))

/-- The lost copies are rebuilt from the ones that stand, and the recovery window closes. -/
def copyRebuilt (s : State) : State :=
  let l := (List.range 4).map fun n => ledger n s
  let c := if s.trust.copyLost = some 0 then s.trust.mirror else s.trust.counters
  setB fFLT_REC_REBUILD false { s with
    sch.ledgers := l, sch.mirror := l, sch.copyLost := none, trust.counters := c, trust.mirror := c, trust.copyLost := none }

def execCopyRebuildDone (s : State) : Host.Outcome State Fault Refusal := .next (copyRebuilt s)

/-! ### Skim (R378, R382 to R384) -/

/-- A damaged PET entry: every event of its product is placed again, and one whose position has been reached is dispatched at once. An
entry the host inserted belongs to no product and is lost. -/
def replaceEvents (i : Nat) (s : State) : State := match spFind s.sch.pet i with
  | none => s
  | some e =>
    if e.host then petErase i s
    else
      let same (x : Event) : Bool := !x.host && decide (x.ptab = e.ptab) && decide (x.noent = e.noent)
      let ks := (s.sch.pet.filter fun x => same x.2).map (·.1)
      bringDue (forAll ks (fun k t => { t with sch.pet := spMod t.sch.pet k (fun x => { x with seq := t.sch.seq }), sch.seq := t.sch.seq + 1 }) s)

/-- A damaged product table entry: its jobs that have not started end, started ones run on, and the product closes under R100. Its reject
decision is fixed as for an entry that the table does not hold. -/
def damageProduct (i : Nat) (s : State) : State := match product i s with
  | none => s
  | some p =>
    let s1 := forAll (jobsOf p s) (fun x => notStarted x.1 .notArmed) s
    let flagRej := (p.plan.map (·.flagRej)).getD false
    let pulse := p.state == .rejected || p.state == .inFlight || (p.state == .markedFlagged && flagRej)
    tidy (closeIfDone i (modProduct i (fun q => { q with decision := some (p.decision.getD pulse) }) s1))

/-- A damaged glyph cache entry: its font is shown as damaged. -/
def damageFont (k : Nat) (s : State) : State :=
  if (s.ren.fonts.getD k none).isSome then setBit fREN_FONT_STAT_DAMAGED k true s else s

/-- A damaged nozzle entry becomes DISABLED and is hidden. -/
def damageNozzle (h e : Nat) (s : State) : State :=
  if h < 16 ∧ e < 4096 then tableChanged h (setNozzle h e (nozEntry 3 0 0) s) else s

/-- A parity error in the scheduler's arrays acts as damage to the structure it belongs to. -/
def parityError (structure_ i : Nat) (s : State) : State :=
  let s1 := raiseShared srcScheduler clsFlag structure_ s
  if structure_ = 3 then replaceEvents i s1 else if structure_ = 4 then damageProduct i s1 else s1

/-- A parity error in a register file is met by the instruction that an engine executes: it is illegal with cause MEM_ECC (R378, R383). -/
def registerParity (e : Engine) (s : State) : State := if executing e s then illegal e causeMemEcc s else s

/-- Skim reads a word. One that is uncorrectable takes POISON, is counted now and not at its next reader (R382 to R384). -/
def skimWord (w : Nat) (s : State) : State :=
  if wordBad w s then setFlaw { word := w, kind := .poison, counted := true } (readWord w 4 s) else readWord w 4 s

/-- What uncorrectable damage to a word of banks 92 to 107 does to the structure that lies there: the supervisor's and the trust core's memory, the
PET of 16 bytes an entry, the product table of 64, and the nozzle table of one (R377, R383). What is damaged is written anew. -/
def structureDamage (w : Nat) (s : State) : State :=
  let i := wordPlace w
  let s1 := clearFlaw w s
  match wordBank w with
  | 92 | 93 | 94 | 95 | 96 => supervisorMiscompare s1
  | 97 | 98 | 99 => trustCoreFault s1
  | 105 => replaceEvents (i / 2) s1
  | 106 => damageProduct (i / 8) s1
  | 107 => forAll (List.range 8) (fun k => damageNozzle (i / 512) (8 * (i % 512) + k)) s1
  | _ => s

/-- The effect of uncorrectable damage, by structure. Damage to the image store and to an engine's memory takes effect at its next
reader; a line that has not been written holds none (R381). -/
def takeDamage (d : Damage) (s : State) : State :=
  let strikeAt (w : Nat) : State := if lineValid w s then skimWord w (setFlaw { word := w, kind := .upset true } s) else s
  match d with
  | .image w => if w < imageWords then strikeAt w else s
  | .engine b w => if 64 ≤ b ∧ b < 92 ∧ w < 65536 then strikeAt (wordNo b w) else s
  | .supervisor b => if 92 ≤ b ∧ b < 97 then supervisorMiscompare (memUe b 4 s) else s
  | .trust b => if 97 ≤ b ∧ b < 100 then trustCoreFault (memUe b 4 s) else s
  | .ledgerCopy c => if c < 2 then loseLedgerCopy c s else s
  | .counterCopy c => if c < 2 then loseCounterCopy c s else s
  | .glyph k => damageFont k (memUe 100 4 s)
  | .petEntry i => replaceEvents i (memUe 105 4 s)
  | .productEntry i => damageProduct i (memUe 106 4 s)
  | .nozzle h e => damageNozzle h e (memUe 107 4 s)
  | .parity x i => if 1 ≤ x ∧ x ≤ 4 then parityError x i s else s
  | .ceRegisters n => if n < 8 then registerParity (.ce n) s else s
  | .mvRegisters n => if n < 8 then registerParity (.mv n) s else s
  | .ddr off =>
    let area := ddrArea (usable s) off
    if usable s ≤ off then s
    else
      let s1 := ddrUe area s
      if area = 0 then supervisorMiscompare s1 else if area = 2 then trustCoreFault s1 else s1
  | .ddrCorrected off => if usable s ≤ off then s else incSat fMEM_DDR_STAT_CE s

/-- A word that a command names by its bank and its place holds data that a reader may find faulty. -/
def readable (x : Nat × Nat) (s : State) : Bool :=
  decide (x.1 < 109) && decide (x.2 < 65536) && (decide (92 ≤ x.1) || lineValid (wordNo x.1 x.2) s)

/-- An upset bit of a word is found by a reader and corrected. -/
def correctUpset (agent : Nat) (x : Nat × Nat) (s : State) : State :=
  if readable x s ∧ wordBad (wordNo x.1 x.2) s = false then
    readWord (wordNo x.1 x.2) agent (setFlaw { word := wordNo x.1 x.2, kind := .upset false } s) else s

/-- The ticks of SKIM_PER. -/
def skimTicks (s : State) : Nat := getF fMEM_SKIM_CFG_SKIM_PER s * ticksPerSecond

/-- A pass of Skim ends; one that has overrun its period counts in LATE, and the next begins at once, else at the end of the period (R384). -/
def endPass (s : State) : State :=
  let late := decide (skimTicks s < (now s - s.mem.skimFrom).toNat)
  let from_ := if late then now s else s.mem.skimFrom + BitVec.ofNat 48 (skimTicks s)
  doIf late (incSat fMEM_SKIM_STAT_LATE) (setF fMEM_SKIM_STAT_PROGRESS 0 (addMod fMEM_SKIM_STAT_PASSES 1
    { s with mem.hits := [], mem.skimFrom := from_ }))

/-- Skim has read the part of a pass that brings it to `percent`: every faulty word among what it read is corrected or counted, what is damaged
takes its effect, and at 100 the pass ends. `corrected` are the words in which it found an upset bit, `others` those in which the supervisor or the
trust core did (R382 to R384). -/
def skimPass (corrected others : List (Nat × Nat)) (damage : List Damage) (percent : Nat) (s : State) : State :=
  if getB fMEM_SKIM_CFG_EN s = false ∨ getB fMEM_SKIM_STAT_PAUSED s ∨ startStopped s then s
  else
    let bad := (s.mem.flaws.filter fun f => f.kind.isUe).map (·.word)
    let s1 := forAll (s.mem.flaws.map (·.word)) skimWord s
    let s2 := forAll corrected (correctUpset 4) (forAll others (correctUpset 6) s1)
    let s3 := forAll damage takeDamage (forAll bad structureDamage s2)
    if 100 ≤ percent then endPass s3 else setF fMEM_SKIM_STAT_PROGRESS percent s3

def execSkimPass (corrected others : List (Nat × Nat)) (damage : List Damage) (percent : Nat) (s : State) : Host.Outcome State Fault Refusal :=
  .next (skimPass corrected others damage percent s)

/-! ### Fault injection (R399, R401) -/

/-- The bits that an injection flips: BIT of the 72, and with DOUBLE the next one too. -/
def injectedBits (bit : Nat) (double : Bool) : List Nat := ([bit] ++ if double then [bit + 1] else []).filter fun k => decide (k < 72)

/-- A write of MEM_INJ: ARM injects one error into the next write of the bank, while JTAG is open in SERVICE. What the supervisor, the trust core,
the renderer and the tables hold is written all the time: there the error stands at once in a word that is a free value (log entry 203). -/
def injWrite (v : Nat) (s : State) : State :=
  let s1 := plainWrite rMEM_INJ v s
  let bank := getF fMEM_INJ_BANK s1
  let bits := injectedBits (getF fMEM_INJ_BIT s1) (getB fMEM_INJ_DOUBLE s1)
  if fieldOf fMEM_INJ_ARM v = 0 ∨ jtagOpen s = false ∨ bits.isEmpty then s1
  else if 92 ≤ bank ∧ bank < 108 then
    let x := drawFree s1
    setFlaw { word := wordNo bank (x.1 % 16384), kind := .flips bits } x.2
  else { s1 with mem.inject := some (bank, bits) }

def execMemInject (value : Nat) (s : State) : Host.Outcome State Fault Refusal := .next (hostAccess (injWrite value) s)

end Sys2Proof.Machine
end

