-- ==== Sys2Proof/Machine/Boot.lean ====
section
/-! DEFINITION. The reset of the device and its start-up, with what survives (R12, R31, R114, R146, R275, R284, R381 to R389, R405 to R407,
R415, R416, R462, R463, R485). -/

namespace Sys2Proof.Machine

/-! ### The rail plan (R445 to R447) -/

/-- The entry word of a rail of the built-in plan: step, VNOM and DIV. -/
def builtinEntry (step vnom div : Nat) : Word :=
  BitVec.ofNat 48 (step + vnom * 2 ^ 4 + div * 2 ^ 20 + 5 * 2 ^ 22 + 2 ^ 26 + 2 ^ 27 + 10 * 2 ^ 28 + 2 * 2 ^ 44)

/-- The built-in plan. -/
def builtinPlan : List Word :=
  [BitVec.ofNat 48 (192 + 168 * 2 ^ 8 + 10 * 2 ^ 16 + 2 ^ 22 + 5 * 2 ^ 24 + 50 * 2 ^ 32 + 3 * 2 ^ 43 + 2 ^ 45),
   builtinEntry 1 750 0, builtinEntry 2 800 0, builtinEntry 3 900 0, builtinEntry 4 1800 1, builtinEntry 5 1800 1,
   builtinEntry 6 1100 0, builtinEntry 7 600 0, builtinEntry 8 3300 1, 0, 0, 0, 0]

def modPwr (f : Island → Island) (s : State) : State := { s with pwr := f s.pwr }

/-- The straps are latched and decide the plan; the supply thresholds and the Rail Link address follow it (R445, R471). -/
def latchStraps (x : Straps) (s : State) : State :=
  let fused := s.pwr.fused.getD x.planSel []
  let valid := (wordGet (fused.getD 0 0) 45 1) == 1
  let s1 := modPwr (fun p => { p with straps := x, plan := if valid then fused else builtinPlan }) s
  let s2 := setF fPWR_STAT_PLAN x.planSel (setB fPWR_STAT_BUILTIN (!valid) s1)
  setF fPWR_VIN_WARN (100 * planHeader 0 8 s2) (setF fPWR_VIN_RST_LVL (100 * planHeader 8 8 s2)
    (setF fPWR_VIN_HYST (100 * planHeader 16 6 s2) (setF fPWR_RLK_ADDR (planHeader 40 3 s2) s2)))

/-! ### What a reset leaves (R12, R389) -/

/-- The value of a register after a reset, or after the wipe of a life-cycle change: its reset value with the fields that it keeps. -/
def keptValue (wipe : Bool) (a : Nat) (w : Word) : Word :=
  keptFields.foldl (fun x r =>
    if inArray r.base r.stride r.count 0 1 a && (!wipe || r.keptByWipe) then wordPut x r.lo r.width (wordGet w r.lo r.width) else x) (regReset a)

/-- A register table after a reset. -/
def keptTable (wipe : Bool) (m : Sparse Word) : Sparse Word :=
  (m.map fun p => (p.1, keptValue wipe p.1 p.2)).filter fun p => decide (p.2 ≠ regReset p.1)

/-- A head port after a reset: the flash holds its alignment record and nozzle table copy, and its counts of strobes last until a wipe; a
reference that the drop tests still owe stays due (R275, R284, R478, R486). -/
def portKept (wipe : Bool) (p : Port) : Port :=
  { stored := p.stored, nozSaved := p.nozSaved, nozOlder := p.nozOlder, refDue := p.refDue, refCnt := p.refCnt, fires := if wipe then List.replicate 8 0 else p.fires }

/-- Every register, table and memory takes its reset value, and after a wipe its wipe value, the LPDDR4X a new key; what the flash, the fuses, the
power island and the battery-backed island hold stays, and so do host memory and the commands that wait. -/
def resetState (wipe : Bool) (s : State) : State :=
  let r : State :=
    { State.reset with
      regs := keptTable wipe s.regs
      shadow := keptTable wipe s.shadow
      sch := { saved := s.sch.saved }
      trust := { floors := s.trust.floors, tseq := s.trust.tseq, rseq := s.trust.rseq, causes := s.trust.causes, timeDue := s.trust.timeDue, rand := s.trust.rand,
                 oscPart := s.trust.oscPart, msPart := s.trust.msPart, upMs := s.trust.upMs, oscStopped := s.trust.oscStopped,
                 journal := s.trust.journal,
                 counters := if s.trust.copyLost = some 0 then s.trust.mirror else s.trust.counters,
                 savedCounters := s.trust.savedCounters, savedHead := s.trust.savedHead, savedCkpt := s.trust.savedCkpt }
      flt := { hist := if wipe then [] else s.flt.hist, seq := if wipe then 0 else s.flt.seq }
      lnp := { fusedMac := s.lnp.fusedMac }
      mem := { ddrKey := s.mem.ddrKey + 1 }
      host := { mem := s.host.mem }
      free := s.free
      lc := { s.lc with nonce := none, resetDue := false }
      primer := { copies := s.primer.copies, active := s.primer.active, trialBoots := s.primer.trialBoots, confirmMin := s.primer.confirmMin,
                  arbFloor := s.primer.arbFloor, slots := s.primer.slots, pend := s.primer.pend, settings := s.primer.settings,
                  trialWrites := s.primer.trialWrites }
      sent := s.sent
      ports := s.ports.map (portKept wipe)
      pwr := { s.pwr with resetDue := false, regulator := false, snaps := if wipe then [] else s.pwr.snaps }
      age := { n := s.age.n, gains := s.age.gains, stepFrom := s.age.stepFrom, kAge := getF fCLK_DERATE_K_AGE s }
      cal := { records := s.cal.records }
      pending := s.pending }
  showFires (forAll (List.range 2) (fun p t => t.setReg (rLNP_MAC p) (s.lnp.fusedMac.getD p 0)) r)

/-! ### Primer's boot (R415, R416) -/

/-- A slot whose session was interrupted becomes EMPTY. -/
def clearWriting (s : State) : State :=
  forAll [0, 1] (fun k t => if (fwSlot k t).state = slotWriting then setSlot k {} t else t) s

/-- A trial boot is counted; the fourth makes the trial fall back (R416, R428). -/
def countTrialBoot (s : State) : State :=
  if inTrial s then
    if 3 ≤ s.primer.trialBoots then modPrimer (fun p => { p with trialBoots := 0 }) (setSlotState (trialSlot s) slotBad s)
    else modPrimer (fun p => { p with trialBoots := p.trialBoots + 1 }) s
  else s

/-- The slot to boot: the TRIAL slot where one exists, else the ACTIVE one; where it does not verify it is BAD, and the other is taken if
it is ACTIVE or PREVIOUS and verifies. -/
def chooseSlot (s : State) : Option Nat × State :=
  let k := runningSlot s
  if imageVerifies k s then (some k, s)
  else
    let s1 := setSlotState k slotBad s
    let o := 1 - k
    let st := (fwSlot o s1).state
    if (st = slotActive ∨ st = slotPrevious) ∧ imageVerifies o s1 then
      (some o, modPrimer (fun p => { p with active := o, trialBoots := 0 }) (setSlotState o slotActive s1))
    else (none, s1)

/-! ### The records restored (R31, R114, R146, R275, R284, R406, R463, R485) -/

/-- A counter record as the flash gives it: the block records, and the terms as last persisted, where they are of these blocks. -/
def counterFromFlash (s : State) (x : Nat × Counter) : Nat × Counter :=
  let base : Counter := { x.2 with assign := x.2.start, printed := 0, voided := 0, orphans := [] }
  let r := (spFind s.trust.savedCounters x.1).getD base
  let old := if r.printed + r.voided ≤ x.2.issued then r else base
  (x.1, { old with
    next := x.2.next, issued := x.2.issued, reserved := x.2.issued - old.printed - old.voided, writing := none
    state := if x.2.state = .broken then .broken else old.state })

/-- A counter whose range is used up is EXHAUSTED (R136). -/
def restExhausted (k : Nat) (s : State) : State := modCounter k (fun c =>
  if c.state ≠ .broken ∧ c.stop < c.next ∧ c.next ≤ c.assign then { c with state := .exhausted } else c) s

/-- The counter records as the flash gives them. -/
def readCounters (s : State) : State :=
  let cs := s.trust.counters.map (counterFromFlash s)
  { s with trust.counters := cs, trust.mirror := cs, trust.copyLost := none }

/-- Every number still RESERVED is voided, before any product is armed (R31), and the next blocks are reserved. -/
def restoreCounters (s : State) : State :=
  let ks := s.trust.counters.map (·.1)
  forAll ks reserveBlock (forAll ks restExhausted (forAll ks voidReserved s))

/-- The chain continues from the persisted head (R146). -/
def resumeChain (s : State) : State := match s.trust.savedHead with
  | none => s
  | some (next, chain, _) =>
    auditLevels { setF fTRU_AUDIT_SEQ_SEQ (next - 1) s with
      trust.auditNext := next, trust.chain := chain, trust.ackNext := next, trust.ckpts := s.trust.savedCkpt.toList }

/-- TAIL_LOST marks what was not acknowledged at the stop. The first and last SEQ of none are free values (R146; log entry 46). -/
def appendTailLost (s : State) : State := match s.trust.savedHead with
  | none => s
  | some (next, _, ack) =>
    if ack < next then auditAppend { type := 9, serial := ack, aux := next - 1 } s
    else
      let a := drawFree s
      let b := drawFree a.2
      auditAppend { type := 9, serial := a.1 % 2 ^ 48, aux := b.1 % 2 ^ 48 } b.2

/-- A line's counters as the persisted copy gives them: products in flight at the stop close REJECTED with cause BROWNOUT (R114). -/
def settleLedger (l : Ledger) : Ledger := { l with rej := l.rej + l.inf, c6 := l.c6 + l.inf, inf := 0 }

/-- The ledgers and the next product numbers are restored from the persisted copy, which serves one start (R79, R114). -/
def restoreLedgers (l : List Ledger) (s : State) : State :=
  let x := (List.range 4).map fun n => settleLedger (l.getD n {})
  forAll (List.range 4) (fun n => setF (fSCH_LINE_NEXT_PNUM_PNUM n) (x.getD n {}).nextPnum.toNat)
    { s with sch.ledgers := x, sch.mirror := x, sch.saved := none, sch.copyLost := none }

/-- The ledgers, the counters and the chain at a start. What the start finds broken is the first that the chain says of it (R39). -/
def restoreLaws (persisted : Bool) (s : State) : State :=
  let s1 := readCounters (resumeChain s)
  let s2 := match s1.sch.saved with
    | some l => restoreLedgers l s1
    | none => forAll (List.range 4) ledgerBreak s1
  let s3 := if persisted then s2 else forAll (s2.trust.counters.map (·.1)) counterBreak s2
  restoreCounters (appendTailLost s3)

/-- An alignment record is loaded into both banks where its signature verifies and the flash gives it back whole (R275). -/
def restoreAlign (bad : List Nat) (h : Nat) (s : State) : State := match (portOf h s).stored with
  | none => s
  | some r =>
    if bad.contains h ∨ signAlign h r s ≠ r then setB (fHP_ALIGN_CMD_BAD h) true s
    else
      let put (w : Word) : Word := wordPut (wordPut w 0 24 r.x) 24 17 r.y
      let s1 := (s.setReg (rHP_ALIGN h) (put (s.reg (rHP_ALIGN h)))).setShadow (rHP_ALIGN h) (put (s.shadowReg (rHP_ALIGN h)))
      setB (fHP_ALIGN_CMD_RESTORED h) true (modPort h (fun p => { p with serial := some r.serial }) s1)

/-- The nozzle table is restored from the last copy that verifies (R284), and the amplitude in force from its register (R478). -/
def restorePort (bad : List Nat) (h : Nat) (s : State) : State :=
  let last (p : Port) : Sparse Byte := if bad.contains h = false then p.nozSaved else if bad.contains (16 + h) = false then p.nozOlder else []
  modPort h (fun p => { p with noz := last p, amp := getF (fAGE_HP_AMP h) s }) s

/-- The restored tables are the views in use (R283, R284). -/
def restoreViews (s : State) : State :=
  forAll (List.range 16) (fun h t => showNozzles h (modPort h (fun p => { p with view := viewNow h t }) t)) s

/-- The bytes of a calibration record that its CRC-32C and its signature cover: time, mask, and gain and offset by ADC (R485; log entry 208). -/
def calBytes (r : CalRecord) : List Byte :=
  leBytes 6 r.time ++ leBytes 1 (r.entries.foldl (fun a e => a ||| 2 ^ e.1) 0) ++
  r.entries.flatMap fun e => leBytes 2 e.2.1 ++ leBytes 2 (codeOf 16 e.2.2)

/-- A record with its CRC-32C, and if it is soft its signature with the identity key. -/
def sealCal (r : CalRecord) (s : State) : CalRecord :=
  { r with crc := crc32c (calBytes r), sig := if r.soft then Config.identitySign s.lc.identity (calBytes r) else 0 }

/-- Each ADC takes the newest record that includes it, and nominal gain where there is none (R485). -/
def showCal (s : State) : State :=
  forAll (List.range 8) (fun a t =>
    match s.cal.records.findSome? fun r => r.entries.find? fun e => decide (e.1 = a) with
    | some (_, g, o) => setI (fCAL_G_OFFSET a) o (setF (fCAL_G_GAIN a) g t)
    | none => setI (fCAL_G_OFFSET a) 0 (setF (fCAL_G_GAIN a) 32768 t)) s

/-- Calibration records that do not verify are skipped; a soft one of them raises CAL (R430, R485). -/
def restoreCal (bad : List Nat) (s : State) : State :=
  let gone := s.cal.records.zipIdx.filter fun x => bad.contains x.2 || decide (sealCal x.1 s ≠ x.1)
  let s1 := { s with cal.records := (s.cal.records.zipIdx.filter fun x => !gone.contains x).map (·.1) }
  showCal (forAll (gone.filter fun x => x.1.soft) (fun x => raiseSimple srcCal clsNote false (min 255 x.2)) s1)

/-- The device marks: a blank or a retired one has neither ledgers nor counters to restore (R400, R405). -/
def keepsLedgers (s : State) : Bool := decide (s.lc.state ≠ .blank) && decide (s.lc.state ≠ .retired)

/-- A frame on Rail Link with its CRC-8 (R455). -/
def railFrame (bytes : List Byte) : Output := .railLink (bytes ++ leBytes 1 (crc8 bytes))

/-- The next core voltage request: one step towards the persisted n, none while one is in progress or no regulator is fitted (R458). -/
def requestCore (s : State) : State :=
  let act := getF fPWR_CORE_ACT s
  if getB fPWR_CORE_BUSY s ∨ getB fPWR_CORE_FIXED s ∨ (s.pwr.regulator ∧ act = s.age.n) then s
  else
    let n := if s.pwr.regulator = false then act else if act < s.age.n then act + 1 else act - 1
    let mv := 700 + 5 * n
    send (railFrame ([BitVec.ofNat 8 (0x18 + getF fPWR_RLK_ADDR s), 0x10#8, 0x02#8] ++ leBytes 2 mv))
      (setB fPWR_CORE_BUSY true (setF fPWR_CORE_REQ n s))

/-- The supply is below WARN + HYST, so that arming waits for R460 (R463). -/
def supplyShort (s : State) : Bool := s.pwr.low || decide (s.pwr.vin < getF fPWR_VIN_WARN s + getF fPWR_VIN_HYST s)

/-- The trust core runs and voids what was reserved, the supervisor restores the ledgers and tables, and arming starts, unless the supply is
low (R459, R463 steps 6 and 7). -/
def restoreRecords (persisted : Bool) (s : State) : State :=
  let f := s.pwr.found
  let s1 := modPwr (fun p => { p with restore := none }) (setB fTRU_STAT_RESTARTING false s)
  let s2 := if keepsLedgers s1 then restoreLaws persisted s1 else s1
  let s3 := restoreViews (forAll (List.range 16) (fun h => restorePort f.badNoz h ∘ restoreAlign f.badAlign h) (setCauses s2.trust.causes s2))
  let s4 := restoreCal f.badSoft (showRate (setF fCLK_DERATE_K (getF fCLK_DERATE_K_AGE s3) s3))
  let x := s4.pwr.straps
  let s5 := setF fPWR_STRAP_BOOTSEL x.bootsel (setB fPWR_STRAP_RAIL_ROLE x.railRole (setF fPWR_STRAP_PLAN_SEL x.planSel s4))
  let short := supplyShort s5
  requestCore (forAll (List.range 4) (fun n => setB (fSCH_LINE_STAT_BROWNOUT n) short)
    (modPwr (fun p => { p with low := short }) (doIf short (setF fPWR_STAT_STATE 3) s5)))

/-! ### Start-up (R462, R463) -/

/-- A start stops before Primer: FAULT_L is held until the next reset (R385, R386). -/
def stopStart (s : State) : State := showPin { s with flt.held := true }

/-- The self-test and the search for the LPDDR4X (R385, R386); none where the start stops. -/
def selfTest (s : State) : State × Bool :=
  let f := s.pwr.found
  let bad (k : Nat) : Nat := (List.range 48).foldl (fun a b => if f.badBanks.contains (48 * k + b) ∧ 48 * k + b < 109 then a + 2 ^ b else a) 0
  let s1 := forAll (List.range 3) (fun k => setF (fMEM_BANKFAIL_FAIL k) (bad k)) s
  let fail := (List.range 3).any fun k => decide (bad k ≠ 0)
  let s2 := setB fMEM_STAT_SELFTEST_FAIL fail (setB fMEM_STAT_SELFTEST_DONE true s1)
  if fail then (stopStart s2, false)
  else if f.ddr = 0 ∨ 4 < f.ddr then (stopStart (setB fMEM_STAT_DDR_FAIL true (setF fMEM_DDR_STAT_SIZE 0 s2)), false)
  else (setF fMEM_DDR_STAT_SIZE f.ddr s2, true)

/-- The firmware of a slot starts. A trial boot is still to show that its supervisor is ready (R428). -/
def startFirmware (k : Nat) (persisted : Bool) (s : State) : State :=
  if (fwSlot k s).state = slotTrial then
    modPwr (fun p => { p with restore := some persisted }) (modPrimer (fun p => { p with switch := .toTrial, trialFrom := now s }) s)
  else setB fPWR_STAT_READY true (supervisorUp (readSettings (restoreRecords persisted s)))

/-- Primer boots from the header that it reads (R413, R416). Where no slot verifies, and under BOOTSEL 1, it serves an update session from the
host, under BOOTSEL 2 one from a peer (R415). -/
def primerBoot (persisted : Bool) (s : State) : State :=
  let s1 := clearWriting (readHeader s.pwr.found.badHeader (commitHeader s))
  let mode := s.pwr.straps.bootsel
  let push (x : Push) (t : State) : State := modPwr (fun p => { p with restore := some persisted }) (modPrimer (fun p => { p with push := x }) t)
  if mode = 1 then push .host s1
  else if mode = 2 then push .peer s1
  else
    let r := chooseSlot (countTrialBoot s1)
    match r.1 with
    | some k => startFirmware k persisted r.2
    | none => push .host (modPrimer (fun p => { p with bootFail := true }) r.2)

/-- An expired SERVICE ends at the next reset, with the wipe and the records of a change (R405, R407). -/
def expireAtReset (s : State) : State :=
  let s1 := modLc (fun l => { l with state := .deployed, expiry := none, expired := false }) s
  { s1 with sch.saved := some (List.replicate 4 {}), ports := s1.ports.map fun p => { p with stored := none, nozSaved := [], nozOlder := [] } }

/-- The controller overwrites the whole LPDDR4X, 0.5 s for 8 GiB, before the start goes on (R388, R463). -/
def beginOverwrite (persisted : Bool) (s : State) : State :=
  setB fMEM_STAT_DDR_OVERWRITE true (modPwr (fun p => { p with restore := some persisted })
    { s with mem.overwrite := 12500000 * 2 ^ (getF fMEM_DDR_STAT_SIZE s - 1) })

/-- A tick of the overwrite; with the last one the start goes on. -/
def overwriteTick (s : State) : State :=
  if s.mem.overwrite = 0 ∨ s.pwr.rails ≠ .up then s
  else
    let s1 := { s with mem.overwrite := s.mem.overwrite - 1 }
    if s.mem.overwrite = 1 then primerBoot (s.pwr.restore.getD false) (setB fMEM_STAT_DDR_OVERWRITE false s1) else s1

/-- The device restarts from step 3 of R463: the reset with its wipe, the self-test, after a wipe the overwrite of the LPDDR4X, and Primer. -/
def restartDevice (cause : Nat) (wipe : Bool) (s : State) : State :=
  let isOver := serviceExpired s
  let s0 := if isOver then expireAtReset s else s
  let persisted := s0.sch.saved.isSome
  let s1 := setF fPWR_STAT_CAUSE cause (showHist (resetState (wipe || isOver) s0))
  let s2 := setF fCLK_STAT_LOCK 0x3F (setB fMEM_STAT_WIPE_BUSY false s1)
  let s3 := setF fPWR_STAT_STATE (if s2.pwr.low then 3 else 2) s2
  let r := selfTest s3
  if r.2 = false then r.1 else if wipe || isOver then beginOverwrite persisted r.1 else primerBoot persisted r.1

/-- On the way back to the ACTIVE slot that slot is verified too (R424 step 4): where it fails, Primer goes on as at a boot (R416; log entry
215). -/
def switchVerified (s : State) : State :=
  if s.primer.switch ≠ .toActive ∨ getB fTRU_STAT_RESTARTING s ∨ imageVerifies s.primer.active s then switchDone s
  else
    let r := chooseSlot s
    match r.1 with
    | some _ => switchDone r.2
    | none => modPrimer (fun p => { p with switch := .none, bootFail := true, push := .host }) r.2

/-- A supervisor switch ends, and with it a start that waited for its firmware. -/
def switchEnd (s : State) : State :=
  let t := switchVerified s
  match t.pwr.restore with
  | some p => if t.primer.switch = .none ∧ s.primer.switch ≠ .none ∧ t.primer.push = .none then restoreRecords p t else t
  | none => t

def execSwitchDone (s : State) : Host.Outcome State Fault Refusal := .next (switchEnd s)

/-! ### Resets that keep the rails (R360, R404, R407, R462) -/

/-- RESET_REQUEST: without FORCE it is refused while audit entries are undrained; else the records are persisted, and the reset follows the
answer (R114, R146, R360). -/
def serveReset : Serve := fun _ _ _ p s =>
  if p.length ≠ 1 then reply hsBadLength [] s
  else if (leNat p).testBit 0 = false ∧ getF fTRU_AUDIT_STAT_UNDRAINED s ≠ 0 then reply hsAuditUndrained [] s
  else reply hsOk [] (modPwr (fun x => { x with resetDue := true }) (persist s))

def execResetRequest (q : Nat) (entry : List Byte) (readable : Bool) (payload : List Byte) (straps : Straps) (found : Found) (s : State) :
    Host.Outcome State Fault Refusal :=
  .next (
    let t := takeMessage 0x40 q entry readable payload serveReset s
    if t.pwr.resetDue then restartDevice 3 false (latchStraps straps (modPwr (fun p => { p with found := found }) t)) else t)

/-- The reset after an accepted life-cycle change, with its wipe. -/
def lifeCycleReset (s : State) : State := if s.lc.resetDue then restartDevice 4 true (latchStraps s.pwr.straps s) else s

/-- An expired SERVICE changes to DEPLOYED once the conditions of R404 are clear (R407). -/
def execLcChangeDeferred (s : State) : Host.Outcome State Fault Refusal :=
  .next (if serviceExpired s ∧ changeRefused s = false then lifeCycleReset (enterState .deployed false s) else s)

/-- FLT_RESTART counts the restarts of the last ten minutes (R442). -/
def restartsTick (s : State) : State :=
  let shown (l : List Word) : Nat := min 255 (lastTenMinutes l s).length
  if s.primer.supRestarts.isEmpty ∧ s.primer.trustRestarts.isEmpty then s
  else setF fFLT_RESTART_SUP_10MIN (shown s.primer.supRestarts) (setF fFLT_RESTART_TRUST_10MIN (shown s.primer.trustRestarts) s)

end Sys2Proof.Machine
end

