-- ==== Sys2Proof/Machine/Power.lean ====
section
/-! DEFINITION. The power supervisor island: plans, the rails' sequences, snapshots, Rail Link, and the system supply (R443 to R463, R469,
R491). -/

namespace Sys2Proof.Machine

/-! ### Rails and steps (R446, R449) -/

/-- The rails of a step of the plan in use. -/
def railsOf (step : Nat) (s : State) : List Nat := (List.range 12).filter fun i => decide (planEntry i 0 4 s = step)

/-- This unit is the master of a link with slaves (R454, R457). -/
def hasSlaves (s : State) : Bool := !s.pwr.straps.railRole && decide (s.pwr.present ≠ 0)

/-- The next step after `k`: the next one of the own plan, or with slaves every step up to the last (R457). -/
def nextStep (k : Nat) (s : State) : Option Nat :=
  ((List.range 13).filter fun j => decide (k < j)).find? fun j => hasSlaves s || !(railsOf j s).isEmpty

def allRails (s : State) (p : Nat → Bool) : List Nat := (List.range 12).filter fun i => decide (planEntry i 0 4 s ≠ 0) && p i

/-- A rail is enabled: DIS is released at its EN (R452). -/
def enableRail (i : Nat) (s : State) : State := railSet fPWR_RAIL_EN i 1 (railSet fPWR_RAIL_DIS i 0 (railSet fPWR_RAIL_STATE i 1 s))

/-- A rail is taken down. -/
def disableRail (i : Nat) (s : State) : State := railSet fPWR_RAIL_EN i 0 (railSet fPWR_RAIL_STATE i 4 s)

/-- A rail is down: DIS stays asserted. -/
def railDown (i : Nat) (s : State) : State := railSet fPWR_RAIL_DIS i 1 (railSet fPWR_RAIL_STATE i 0 s)

/-- A rail lies in its window, in per cent of VNOM: ±WIN, and two more during a calibration; the window of the core rail, the one of
750 mV, is taken around the voltage last confirmed (R447, R451, R458, R484). -/
def inWindow (i : Nat) (s : State) : Bool :=
  let nominal := planEntry i 4 16 s
  let center := if nominal = 750 then 700 + 5 * getF fPWR_CORE_ACT s else nominal
  let width := planEntry i 22 4 s * center + if s.cal.running.isSome then 2 * nominal else 0
  let mv := railGet fPWR_RAIL_V i s
  decide (100 * center ≤ 100 * mv + width) && decide (100 * mv ≤ 100 * center + width)

/-- A rail that comes up is good: PG is high, or where USE_PG is clear its reading lies in the window (R449). -/
def railUp (i : Nat) (s : State) : Bool := if planEntry i 26 1 s = 1 then railGet fPWR_RAIL_PG i s == 1 else inWindow i s

/-- A rail is above its off threshold, OFF × 5 % of VNOM (R452). -/
def railAbove (i : Nat) (s : State) : Bool := decide (5 * planEntry i 44 4 s * planEntry i 4 16 s ≤ 100 * railGet fPWR_RAIL_V i s)

/-! ### Snapshots (R453) -/

/-- The SNAP registers show the oldest snapshot. -/
def showSnaps (s : State) : State :=
  let w := (s.pwr.snaps.head?.map (·.words)).getD []
  setF fPWR_SNAP_STAT_DEPTH s.pwr.snaps.length (forAll (List.range 32) (fun k t => t.setReg (rPWR_SNAP k) (w.getD k 0)) s)

def bitMask (n : Nat) (p : Nat → Bool) : Nat := (List.range n).foldl (fun a i => if p i then a + 2 ^ i else a) 0

/-- The 32 words of a snapshot. -/
def snapWords (reason : Nat) (s : State) : List Word :=
  [BitVec.ofNat 48 (reason + 16 * s.pwr.step + 2 ^ 8 * bitMask 12 (fun i => railGet fPWR_RAIL_EN i s == 1) +
    2 ^ 20 * bitMask 12 (fun i => railGet fPWR_RAIL_PG i s == 1) + 2 ^ 32 * getF fPWR_STAT_PLAN s),
   BitVec.ofNat 48 (secureTime s), now s] ++
  ((List.range 12).map fun i => BitVec.ofNat 48 (railGet fPWR_RAIL_V i s)) ++ [BitVec.ofNat 48 s.pwr.vin] ++
  (List.range 16).map fun c => BitVec.ofInt 48 (getI (fPWR_HK_VALUE c) s)

/-- A snapshot is taken: the last four are kept. While the supervisor runs it also raises RAIL, with its rail where it has one; the spec
gives no DETAIL for the others (R453). -/
def takeSnap (reason : Nat) (rail : Option Nat) (s : State) : State :=
  let x : Snap := { words := snapWords reason s, holdupShort := getB fPWR_STAT_HOLDUP_SHORT s }
  let s1 := if s.pwr.snaps.length < 4 then modPwr (fun p => { p with snaps := p.snaps ++ [x] }) s
    else incSat fPWR_SNAP_STAT_LOST (modPwr (fun p => { p with snaps := p.snaps.drop 1 ++ [x] }) s)
  let s2 := showSnaps s1
  if supervisorRuns s = false then s2
  else match rail with
    | some i => raiseSimple srcRail clsNote false i s2
    | none =>
      let d := drawFree s2
      raiseSimple srcRail clsNote false (d.1 % 256) d.2

def execHostSnapshot (s : State) : Host.Outcome State Fault Refusal := .next (hostAccess (takeSnap 8 none) s)

/-- POP removes the oldest snapshot. -/
def snapPop (s : State) : State := showSnaps (modPwr (fun p => { p with snaps := p.snaps.drop 1 }) s)

def execSnapPop (s : State) : Host.Outcome State Fault Refusal := .next (hostAccess snapPop s)

/-! ### Rail Link frames (R455, R456) -/

/-- The master broadcasts a command. -/
def broadcastRail (cmd : Nat) (data : List Byte) (s : State) : State :=
  send (railFrame ([0x7F#8] ++ leBytes 1 cmd ++ leBytes 1 data.length ++ data)) s

/-- The master sends a command to an address. -/
def commandRail (addr cmd : Nat) (data : List Byte) (s : State) : State :=
  send (railFrame (leBytes 1 addr ++ leBytes 1 cmd ++ leBytes 1 data.length ++ data)) s

/-- The master sends a command to a unit; one that does not answer gets it three times more, which RETRIES counts (R455). -/
def askUnit (answers : Bool) (u cmd : Nat) (s : State) : State :=
  if answers then commandRail u cmd [] s
  else addSat fPWR_RLK_RETRIES 3 (forAll (List.range 4) (fun _ => commandRail u cmd []) s)

/-- The units that the master has found. -/
def unitsPresent (s : State) : List Nat := (List.range 8).filter fun u => s.pwr.present.testBit u

/-- Every unit that has not yet reported the step complete is asked for its STATUS (R457). -/
def pollStep (s : State) : State :=
  forAll ((unitsPresent s).filter fun u => !s.pwr.slavesDone.contains u) (fun u => commandRail u 0x04 []) s

/-- A reply frame: STATUS, LEN, DATA and the CRC over every byte from ADDR on. -/
def replyRail (status : Nat) (data : List Byte) (s : State) : State :=
  send (railFrame (leBytes 1 (0x80 + getF fPWR_RLK_ADDR s) ++ leBytes 1 status ++ leBytes 1 data.length ++ data)) s

/-! ### Sequencing up (R449, R450, R457) -/

/-- A step begins. -/
def beginStep (k : Nat) (s : State) : State :=
  let s1 := modPwr (fun p => { p with step := k, top := max p.top k, stepDone := (railsOf k s).isEmpty, slavesDone := [] }) s
  let s2 := forAll (railsOf k s1) enableRail s1
  if hasSlaves s2 then pollStep (broadcastRail 0x02 (leBytes 1 k) s2) else s2

/-- The sequence has ended: every rail of the plan is ON, and the device starts (R463). -/
def sequenceDone (s : State) : State :=
  let s1 := forAll (allRails s fun _ => true) (fun i => railSet fPWR_RAIL_STATE i 3) (modPwr (fun p => { p with rails := .up }) s)
  restartDevice s.pwr.cause false s1

/-- Every unit that is present has completed the step, where one has begun. -/
def slavesReady (s : State) : Bool :=
  !hasSlaves s || decide (s.pwr.step = 0) || (unitsPresent s).all fun u => s.pwr.slavesDone.contains u

/-- The next step begins once this one is complete; a slave waits for its master's command. -/
def advanceStep (s : State) : State :=
  if s.pwr.rails ≠ .rising ∨ s.pwr.stepDone = false ∨ slavesReady s = false then s
  else match nextStep s.pwr.step s with
    | none => sequenceDone s
    | some k => if s.pwr.straps.railRole then s else beginStep k s

/-- The sequence starts: the straps are latched, and the first step begins unless a master leads (R445, R449). -/
def startSequence (cause : Nat) (straps : Straps) (s : State) : State :=
  let s1 := latchStraps straps (modPwr (fun p => { p with
    rails := .rising, step := 0, top := 0, stepDone := true, slavesDone := [], cause := cause, again := false, early := [] }) s)
  advanceStep (setF fPWR_STAT_STATE 1 s1)

/-- Every rail of the step in progress has been good for T_PG_STABLE and DELAY; where one is not good in the last scan, none has ended. -/
def stepStable (found : Found) (s : State) : State :=
  if s.pwr.rails ≠ .rising ∨ (railsOf s.pwr.step s).all (fun i => railUp i s) = false then s
  else advanceStep (forAll (railsOf s.pwr.step s) (fun i => railSet fPWR_RAIL_STATE i 2)
    (modPwr (fun p => { p with stepDone := true, found := found }) s))

def execRailStepStable (found : Found) (s : State) : Host.Outcome State Fault Refusal := .next (stepStable found s)

/-- The secure clock has run on VBAT for `elapsed` ms while the device was off, unless its crystal had stopped; the crystal runs again
(R125; log entry 157). -/
def outage (elapsed : Nat) (s : State) : State :=
  let s1 := if s.trust.oscStopped then s else setF fTRU_TIME_TIME (secureTime s + elapsed) s
  { s1 with trust.oscStopped := false }

/-- PRESENT as the island holds it and shows it. -/
def setPresent (x : Nat) (s : State) : State := setF fPWR_RLK_PRESENT x (modPwr (fun p => { p with present := x }) s)

/-- VDD_AON becomes good: a master PINGs every address and records the units that answer, and the sequence starts (R445, R457). Its own address has
no other unit that could answer. -/
def aonPowerOn (straps : Straps) (found : AonFound) (s : State) : State :=
  let s0 := outage found.elapsed <| modPwr (fun p => { p with aon := true, retries := 0, rails := .off, missed := List.replicate 8 0 }) s
  let s1 := latchStraps straps s0
  let answers (u : Nat) : Bool := found.present.contains u && decide (u ≠ getF fPWR_RLK_ADDR s1)
  let s2 := if straps.railRole then setPresent 0 s1
    else setPresent (bitMask 8 answers) (forAll (List.range 8) (fun u => askUnit (answers u) u 0x01) s1)
  startSequence 0 straps s2

def execAonPowerOn (straps : Straps) (found : AonFound) (s : State) : Host.Outcome State Fault Refusal :=
  .next (aonPowerOn straps found s)

/-! ### Sequencing down (R452) -/

/-- The last rail is down: the island starts again at once where it was told so, or holds FAULT_L after the last retry (R450, R462). -/
def downDone (s : State) : State :=
  let s1 := setF fPWR_STAT_STATE 0 (modPwr (fun p => { p with rails := .off, step := 0, top := 0 }) s)
  if s.pwr.again then startSequence s.pwr.cause s.pwr.straps s1
  else if s.pwr.cause = 6 ∧ planHeader 43 2 s ≤ s.pwr.retries then showPin { s1 with flt.held := true }
  else s1

/-- The power-down begins from the highest step begun, with the cause of the next start; where no step has begun there is none to take down. -/
def beginDown (cause : Nat) (again : Bool) (s : State) : State :=
  if s.pwr.rails = .falling ∨ s.pwr.rails = .off then modPwr (fun p => { p with cause := cause, again := again }) s
  else
    let s1 := modPwr (fun p => { p with rails := .falling, step := p.top, cause := cause, again := again, early := [] }) s
    let s2 := setB fPWR_STAT_READY false (setF fPWR_STAT_STATE 4 s1)
    if s.pwr.top = 0 then downDone s2 else forAll (railsOf s2.pwr.step s2) disableRail s2

/-- The rails of a lower step that are already below their off threshold: recorded once for each (R452). -/
def earlyCollapse (s : State) : State :=
  forAll (allRails s fun i => decide (planEntry i 0 4 s < s.pwr.step) && !railAbove i s)
    (fun i t => if t.pwr.early.contains i then t else takeSnap 3 (some i) (modPwr (fun p => { p with early := i :: p.early }) t)) s

/-- One rail's reading, in mV at its MON pin, and its PG level: V is the voltage before the board's divider (R444, R446). -/
def readRail (i mv : Nat) (pg : Bool) (s : State) : State :=
  railSet fPWR_RAIL_PG i pg.toNat (railSet fPWR_RAIL_V i (satTo 16 (mv * 2 ^ planEntry i 20 2 s)) s)

/-- The rails of a step fall below their off threshold, or T_OFF_MAX ends with some still above: those get DIS and a second wait, and
are recorded as STUCK if they are above even then (R452). The operands are the readings and the PG levels as the wait ends. -/
def downStep (mv : List Nat) (pg : Nat) (s : State) : State :=
  if s.pwr.rails ≠ .falling then s
  else
    let s1 := earlyCollapse (forAll (List.range 12) (fun i => readRail i (mv.getD i 0) (pg.testBit i)) s)
    let l := railsOf s1.pwr.step s1
    let high := l.filter fun i => railAbove i s1
    let fresh := high.filter fun i => railGet fPWR_RAIL_DIS i s1 == 0
    if fresh ≠ [] then forAll fresh (fun i => railSet fPWR_RAIL_DIS i 1) s1
    else
      let s2 := forAll high (fun i => takeSnap 4 (some i)) s1
      let s3 := forAll l railDown s2
      match ((List.range 13).reverse.filter fun k => decide (0 < k) && decide (k < s3.pwr.step)).find? fun k => !(railsOf k s3).isEmpty with
      | some k => forAll (railsOf k s3) disableRail (modPwr (fun p => { p with step := k }) s3)
      | none => downDone s3

def execPowerDownStep (mv : List Nat) (pg : Nat) (s : State) : Host.Outcome State Fault Refusal := .next (downStep mv pg s)

/-- An abort of the sequence: a snapshot, an ABORT to every unit, and the power-down; 1 s later the island may start again (R450,
R457). -/
def abortSequence (reason : Nat) (rail : Option Nat) (s : State) : State :=
  let s1 := takeSnap reason rail s
  let s2 := if hasSlaves s1 then broadcastRail 0x05 (leBytes 1 reason) s1 else s1
  beginDown 6 false s2

def execRailRiseTimeout (rail : Nat) (s : State) : Host.Outcome State Fault Refusal :=
  .next (if s.pwr.rails = .rising ∧ (railsOf s.pwr.step s).contains rail ∧ s.pwr.stepDone = false ∧ railUp rail s = false then abortSequence 2 (some rail) s else s)

/-- The next retry, where one is left (R450). -/
def execRailRetry (straps : Straps) (s : State) : Host.Outcome State Fault Refusal :=
  .next (if s.pwr.rails = .off ∧ s.pwr.aon ∧ s.pwr.cause = 6 ∧ s.pwr.retries < planHeader 43 2 s then
    startSequence 6 straps (modPwr (fun p => { p with retries := p.retries + 1 }) s) else s)

/-! ### The running device: failed rails, the supply, resets (R451, R459 to R462, R469) -/

/-- Every head port in its safe state, laser enable deasserted, motor outputs low and LINE_ALERT_L asserted (R461 step 1). -/
def outputsSafe (s : State) : State :=
  { forAll (List.range 6) (fun c => outputsLow c ∘ setF (fMC_STAT_STATE c) 0) (forAll (List.range 16) portSafe s) with alertHeld := true }

/-- A rail fails after the sequence has ended: one with CRIT powers the device down as at the reset level; another raises RAIL and leaves a
snapshot, whose reason the spec does not give unless the rail chatters (R451). -/
def failRail (i : Nat) (chatter : Bool) (s : State) : State :=
  if railGet fPWR_RAIL_STATE i s = 5 then s
  else
    let s1 := railSet fPWR_RAIL_STATE i 5 s
    if planEntry i 27 1 s = 1 then beginDown 7 false (takeSnap 7 (some i) (outputsSafe (persist s1)))
    else
      let d := drawFree s1
      let s2 := if chatter then takeSnap 1 (some i) s1 else takeSnap (d.1 % 16) (some i) d.2
      if supervisorRuns s then s2 else raiseSimple srcRail clsNote false i s2

/-- More than 8 transitions of a rail's PG within 10 ms: the sequence aborts, or the rail fails; during a power-down they are not
counted (R450, R451). -/
def execRailChatter (rail : Nat) (s : State) : Host.Outcome State Fault Refusal :=
  .next (if 12 ≤ rail ∨ planEntry rail 0 4 s = 0 then s
    else match s.pwr.rails with
      | .rising => abortSequence 1 (some rail) s
      | .up => failRail rail true s
      | _ => s)

/-- One rail's reading and PG level of a scan. -/
def scanRail (i mv : Nat) (pg : Bool) (s : State) : State :=
  let recent := ((s.pwr.pgTimes.getD i []).filter fun t => decide ((now s - t).toNat < 2000000))
  let times := if railGet fPWR_RAIL_PG i s = pg.toNat then recent else recent ++ [now s]
  let s0 := readRail i mv pg s
  let out := if inWindow i s0 then 0 else s.pwr.outside.getD i 0 + 1
  let s1 := railSet fPWR_RAIL_TRANS i (min 255 times.length)
    (modPwr (fun p => { p with pgTimes := p.pgTimes.set i times, outside := p.outside.set i out }) s0)
  let s2 := s1.setReg (rPWR_RAIL i) (s1.pwr.rail.getD i 0)
  if s.pwr.rails = .up ∧ planEntry i 0 4 s ≠ 0 ∧ 4 ≤ out then failRail i false s2 else s2

/-- A scan of the thirteen monitor inputs, in mV at the pins, with the PG levels; the registers show what it finds (R444, R446, R451). -/
def railScan (mv : List Nat) (pg : Nat) (vin : Nat) (s : State) : State :=
  let supply := satTo 16 (vin * 2 ^ (3 + planHeader 22 2 s))
  forAll (List.range 12) (fun i => scanRail i (mv.getD i 0) (pg.testBit i)) (setF fPWR_VIN_STAT_VIN supply (modPwr (fun p => { p with vin := supply }) s))

def execRailScan (mv : List Nat) (pg vin : Nat) (s : State) : Host.Outcome State Fault Refusal := .next (railScan mv pg vin s)

/-- The supply falls below the warning level: arming stops, the records are persisted as they stand at the crossing, and SUPPLY_WARN is raised
(log entry 159). Before arming has run it only holds arming stopped (R107, R459). `us` is the time that the persistence takes. -/
def supplyWarn (us : Nat) (s : State) : State :=
  if s.pwr.aon = false then s
  else
    let s1 := incSat fPWR_VIN_STAT_DIPS (modPwr (fun p => { p with low := true }) s)
    if getB fPWR_STAT_READY s = false then s1
    else
      let s2 := forAll (List.range 4) (fun n => showArming n ∘ setB (fSCH_LINE_STAT_BROWNOUT n) true) s1
      raiseSimple srcSupplyWarn clsFlag false 0 (setF fPWR_STAT_STATE 3 (setF fPWR_VIN_STAT_PERSIST (satTo 16 us) (persist s2)))

def execSupplyWarn (us : Nat) (s : State) : Host.Outcome State Fault Refusal := .next (supplyWarn us s)

/-- No persisted copy of the ledgers and counters stands for a stop any more. -/
def dropSaved (s : State) : State := { s with sch.saved := none, trust.savedCounters := [] }

/-- The supply has held the return level for 10 ms: arming resumes, and the copy that was persisted no longer stands for a stop (R107, R423,
R460). -/
def armingResume (s : State) : State :=
  if s.pwr.low = false then s
  else
    let s1 := modPwr (fun p => { p with low := false }) s
    let s2 := if getF fPWR_STAT_STATE s = 3 then setF fPWR_STAT_STATE 2 s1 else s1
    if getB fPWR_STAT_READY s = false then s2
    else runDeferred (forAll (List.range 4) (fun n => showArming n ∘ setB (fSCH_LINE_STAT_BROWNOUT n) false) (dropSaved s2))

def execArmingResume (s : State) : Host.Outcome State Fault Refusal := .next (armingResume s)

/-- The supply falls below the reset level: the outputs are made safe, a snapshot is taken and the rails go down; a persistence that has
not completed leaves no valid record (R38, R461). One that has stands as of this crossing: what was first emitted or closed in the hold-up is
in it, so that the laws hold across the loss (R35; log entry 159). While the rails fall for another cause, the outputs are made safe too, and
the island waits for the supply. -/
def resetLevel (short : Bool) (s : State) : State :=
  if s.pwr.rails = .off ∨ (s.pwr.rails = .falling ∧ s.pwr.cause = 2) then s
  else if s.pwr.rails = .falling then
    beginDown (if s.pwr.cause = 5 then 5 else 2) false (takeSnap 5 none (outputsSafe (modPwr (fun p => { p with low := true }) s)))
  else
    let s1 := if short then dropSaved (setB fPWR_STAT_HOLDUP_SHORT true s) else s
    let s2 := outputsSafe s1
    let s3 := if s2.sch.saved.isSome ∧ s.pwr.low then persist s2 else s2
    beginDown 2 false (takeSnap 5 none (modPwr (fun p => { p with low := true }) s3))

def execResetLevel (short : Bool) (s : State) : Host.Outcome State Fault Refusal := .next (resetLevel short s)

/-- The supply has held WARN + HYST for 10 ms while VDD_AON held: the island starts again (R461). -/
def execResetLevelRestart (straps : Straps) (s : State) : Host.Outcome State Fault Refusal :=
  .next (if s.pwr.rails = .off ∧ s.pwr.aon ∧ (s.pwr.cause = 2 ∨ s.pwr.cause = 7) then
    startSequence s.pwr.cause straps (modPwr (fun p => { p with low := false }) s) else s)

/-- RESET_L: the rails go down and come up again, and the retries start anew (R450, R462). -/
def resetPin (straps : Straps) (s : State) : State :=
  if s.pwr.aon = false then s
  else
    let s1 := modPwr (fun p => { p with retries := 0, straps := straps }) (showPin { s with flt.held := false })
    if s.pwr.rails = .off then startSequence 1 straps s1 else beginDown 1 true s1

def execResetL (straps : Straps) (s : State) : Host.Outcome State Fault Refusal := .next (resetPin straps s)

/-- A sensor crosses +125 °C: DEVICE_SAFE, and after the persistence the power-down, which only RESET_L or VDD_AON ends (R434, R469). -/
def execThermalTrip (s : State) : Host.Outcome State Fault Refusal :=
  .next (if s.pwr.rails = .off then s else beginDown 5 false (takeSnap 6 none (raiseDeviceSafe srcThermal false 5 s)))

/-- VDD_AON leaves its range: the island resets, and what it held is lost (R443). -/
def aonLoss (s : State) : State :=
  let s1 := { s with flt.hist := [], flt.seq := 0, flt.pulse := false, flt.held := false }
  let s2 := modPwr (fun p => { p with aon := false, rails := .off, step := 0, top := 0, snaps := [], retries := 0, low := false }) s1
  let s3 := setF fFLT_HIST_STAT_LOST 0 (setF fFLT_RESTART_SUP_TOTAL 0 (setF fFLT_RESTART_TRUST_TOTAL 0 s2))
  let s4 := setB fPWR_STAT_HOLDUP_SHORT false (setF fPWR_SNAP_STAT_LOST 0 (setF fPWR_VIN_STAT_DIPS 0 (setF fPWR_STAT_STATE 0 s3)))
  let s5 := setPresent 0 (setB fPWR_STAT_READY false (modPwr (fun p => { p with rail := List.replicate 12 0x200000, vin := 0 }) s4))
  showPin (showHist (showSnaps (setF fPWR_VIN_STAT_VIN 0 (forAll (List.range 12) (fun i t => t.setReg (rPWR_RAIL i) (regReset (rPWR_RAIL i))) s5))))

def execAonPowerLoss (s : State) : Host.Outcome State Fault Refusal := .next (aonLoss s)

/-- VBAT is lost while VDD_AON is absent: the secure clock is lost, and the clock starts UNSET. Its count is a free value until a token sets
it; the entry of the change follows at the next start (R127, R491). -/
def execVbatLost (s : State) : Host.Outcome State Fault Refusal :=
  .next (if s.pwr.aon then s
    else
      let d := drawFree s
      setF fTRU_TIME_TIME (d.1 % 2 ^ 48) { d.2 with trust.causes := [.unset] })

/-! ### Plans in fuses (R448) -/

/-- PWR_CMD BURN: fuses are only ever set, and the plan is read back; `ok` is whether the fuses took. -/
def planBurn (ok : Bool) (s : State) : State :=
  let k := getF fPWR_CMD_INDEX s
  let old := s.pwr.fused.getD k []
  if (s.lc.state ≠ .blank ∧ s.lc.state ≠ .provisioned) ∨ wordGet (old.getD 0 0) 45 1 = 1 then setF fPWR_STAT_BURN_RESULT 3 s
  else
    let buf := (List.range 13).map fun w => s.reg (rPWR_PLANBUF w)
    let new := (buf.zip old).map fun x => x.1 ||| x.2
    if ok ∧ new = buf then setF fPWR_STAT_BURN_RESULT 1 (modPwr (fun p => { p with fused := p.fused.set k new }) s)
    else setF fPWR_STAT_BURN_RESULT 2 s

def execPlanBurn (index : Nat) (ok : Bool) (s : State) : Host.Outcome State Fault Refusal :=
  .next (planBurn ok (setF fPWR_CMD_INDEX index s))

/-! ### Rail Link (R454 to R458) -/

/-- Repeats and CRC errors of an exchange are counted (R455). -/
def countRail (repeats crcErrors : Nat) (s : State) : State := addSat fPWR_RLK_RETRIES repeats (addSat fPWR_RLK_CRC_ERR crcErrors s)

/-- A frame this unit takes as a slave: one with a bad CRC is counted and answered BAD_CRC, a broadcast is not answered. -/
def takeRail (addr : Nat) (crcOk : Bool) (f : State → (Nat × List Byte) × State) (s : State) : State :=
  if s.pwr.straps.railRole = false ∨ (addr ≠ getF fPWR_RLK_ADDR s ∧ addr ≠ 0x7F) then s
  else
    let r := if crcOk then f s else ((3, []), incSat fPWR_RLK_CRC_ERR s)
    if addr = 0x7F then r.2 else replyRail r.1.1 r.1.2 r.2

/-- The state byte of PING and STATUS, as PWR_STAT STATE. -/
def railState (s : State) : List Byte := leBytes 1 (getF fPWR_STAT_STATE s)

/-- A unit that has aborted its sequence reports FAIL (R457). -/
def railStatus (s : State) : Nat := if s.pwr.cause = 6 ∧ (s.pwr.rails = .falling ∨ s.pwr.rails = .off) then 2 else 0

/-- An exchange of the master with a unit ends. -/
def railExchange (e : RailLink) (own : List Byte → State → (Nat × List Byte) × State) (done : Nat → Nat → List Byte → State → State)
    (gone : Nat → State → State) (s : State) : State :=
  match e with
  | .taken addr data crcOk => takeRail addr crcOk (own data) s
  | .answered addr repeats crcErrors status data => done addr status data (countRail (min repeats 3) crcErrors s)
  | .silent addr crcErrors => gone addr (countRail 3 crcErrors s)

/-- A unit is found, or counts as absent. -/
def markPresent (u : Nat) (here : Bool) (s : State) : State :=
  let x := s.pwr.present
  if 8 ≤ u ∨ x.testBit u = here then s else setPresent (if here then x + 2 ^ u else x - 2 ^ u) s

/-- A unit does not answer a poll; absent on three in a row, it raises RAIL (R457). The spec gives no entry index for a slave. -/
def pollMissed (u : Nat) (s : State) : State :=
  let n := s.pwr.missed.getD u 0 + 1
  let s1 := modPwr (fun p => { p with missed := p.missed.set u n }) s
  if n = 3 then
    let lost := getF fPWR_RLK_ABSENT s1
    let d := drawFree (setF fPWR_RLK_ABSENT (if lost.testBit u then lost else lost + 2 ^ u) s1)
    raiseSimple srcRail clsNote false (d.1 % 256) d.2
  else s1

/-- A unit that counts as absent: the sequence goes on without it, and afterwards it has missed a poll (R455, R457). -/
def unitGone (u : Nat) (s : State) : State :=
  if s.pwr.rails = .rising then advanceStep (markPresent u false s)
  else if s.pwr.rails = .up ∧ s.pwr.present.testBit u then pollMissed u s else s

/-- PING. -/
def railPing (e : RailLink) (s : State) : State :=
  railExchange e (fun _ t => ((0, leBytes 1 (getF fPWR_STAT_PLAN t) ++ railState t), t)) (fun u _ _ => markPresent u true)
    (fun u => markPresent u false) s

/-- STEP_UP: a slave begins its own step, or has it complete where its plan has none; one whose rails are up has every step complete (R457). -/
def railStepUp (e : RailLink) (s : State) : State :=
  let own (l : List Byte) (t : State) : (Nat × List Byte) × State :=
    if t.pwr.rails = .rising ∧ t.pwr.stepDone = false then ((1, []), t)
    else if t.pwr.rails = .up then ((0, []), t)
    else if t.pwr.rails ≠ .rising then ((2, []), t)
    else ((0, []), beginStep (leNat l) t)
  railExchange e own (fun _ _ _ t => t) unitGone s

/-- STEP_DOWN: a slave takes the rails of one step down. -/
def railStepDown (e : RailLink) (s : State) : State :=
  railExchange e (fun l t => ((0, []), forAll (railsOf (leNat l) t) disableRail t)) (fun _ _ _ t => t) unitGone s

/-- STATUS: the master learns that a unit has completed the step, or that it has aborted. -/
def railStatusOf (e : RailLink) (s : State) : State :=
  let own (_ : List Byte) (t : State) : (Nat × List Byte) × State :=
    let step := if t.pwr.stepDone then t.pwr.step else t.pwr.step - 1
    ((railStatus t, railState t ++ leBytes 1 step ++ leBytes 2 (bitMask 12 fun i => railGet fPWR_RAIL_PG i t == 1) ++
      leBytes 1 t.pwr.snaps.length), t)
  let done (u status : Nat) (l : List Byte) (t : State) : State :=
    if t.pwr.rails = .up then modPwr (fun p => { p with missed := p.missed.set u 0 }) t
    else if t.pwr.straps.railRole ∨ t.pwr.rails ≠ .rising then t
    else if status = 2 then abortSequence 9 none t
    else if t.pwr.step ≤ leAt l 1 1 ∨ leAt l 0 1 = 2 then
      advanceStep (modPwr (fun p => { p with slavesDone := u :: p.slavesDone }) t)
    else commandRail u 0x04 [] t
  railExchange e own done unitGone s

/-- ABORT: the unit powers down with reason RAIL_LINK (R457). -/
def railAbort (e : RailLink) (s : State) : State :=
  let own (_ : List Byte) (t : State) : (Nat × List Byte) × State :=
    if t.pwr.rails = .rising ∨ t.pwr.rails = .up then ((0, []), beginDown 6 false (takeSnap 9 none t)) else ((0, []), t)
  railExchange e own (fun _ _ _ t => t) (fun _ t => t) s

/-- The core regulator gives no answer: FIXED at the first request of a start, afterwards the voltage stays and RAIL is raised (R458). -/
def coreSilent (s : State) : State :=
  if getB fPWR_CORE_BUSY s = false then s
  else
    let s1 := setF fPWR_CORE_REQ (getF fPWR_CORE_ACT s) (setB fPWR_CORE_BUSY false s)
    if s.pwr.regulator then raiseSimple srcRail clsNote false 0 s1 else setF fPWR_CORE_REQ 10 (setF fPWR_CORE_ACT 10 (setB fPWR_CORE_FIXED true s1))

/-- SET_VOUT: a request taken is read back with GET_VOUT. -/
def railSetVout (e : RailLink) (s : State) : State :=
  railExchange e (fun _ t => ((4, []), t))
    (fun addr status _ t => if getB fPWR_CORE_BUSY t = false then t else if status = 0 then commandRail addr 0x11 [] t else coreSilent t)
    (fun _ t => coreSilent t) s

/-- GET_VOUT confirms a request, and the next step towards the persisted n is requested. -/
def railGetVout (e : RailLink) (s : State) : State :=
  let done (status : Nat) (l : List Byte) (t : State) : State :=
    if getB fPWR_CORE_BUSY t = false then t
    else if status = 0 ∧ leAt l 0 2 = 700 + 5 * getF fPWR_CORE_REQ t then
      requestCore (modPwr (fun p => { p with regulator := true }) (setB fPWR_CORE_BUSY false (setF fPWR_CORE_ACT (getF fPWR_CORE_REQ t) t)))
    else coreSilent t
  railExchange e (fun _ t => ((4, []), t)) (fun _ status l t => done status l t) (fun _ t => coreSilent t) s

/-- Every 10 ms the master polls each slave's STATUS (R457). -/
def slavePoll (answered : List Nat) (s : State) : State :=
  if hasSlaves s = false ∨ s.pwr.rails ≠ .up then s
  else forAll (unitsPresent s) (fun u t =>
    let t1 := askUnit (answered.contains u) u 0x04 t
    if answered.contains u then modPwr (fun p => { p with missed := p.missed.set u 0 }) t1 else pollMissed u t1) s

def execRlkPing (e : RailLink) (s : State) : Host.Outcome State Fault Refusal := .next (railPing e s)
def execRlkStepUp (e : RailLink) (s : State) : Host.Outcome State Fault Refusal := .next (railStepUp e s)
def execRlkStepDown (e : RailLink) (s : State) : Host.Outcome State Fault Refusal := .next (railStepDown e s)
def execRlkStatus (e : RailLink) (s : State) : Host.Outcome State Fault Refusal := .next (railStatusOf e s)
def execRlkAbort (e : RailLink) (s : State) : Host.Outcome State Fault Refusal := .next (railAbort e s)
def execRlkSetVout (e : RailLink) (s : State) : Host.Outcome State Fault Refusal := .next (railSetVout e s)
def execRlkGetVout (e : RailLink) (s : State) : Host.Outcome State Fault Refusal := .next (railGetVout e s)
def execRlkSlavePoll (answered : List Nat) (s : State) : Host.Outcome State Fault Refusal := .next (slavePoll answered s)

end Sys2Proof.Machine
end

