-- ==== Sys2Proof/Machine/Ageing.lean ====
section
/-! DEFINITION. Derating, the ageing evaluation, calibration, and the housekeeping round with its heat (R127, R387, R464 to R469, R472 to
R486). -/

namespace Sys2Proof.Machine

/-! ### Derating (R473) -/

/-- Jobs released and not yet ended. -/
def releasedJobs (s : State) : List Nat :=
  (s.sch.jobs.filter fun x => decide (x.2.state = .released) || decide (x.2.state = .started)).map (·.2.seq)

/-- A derate step is published: F_LIM where k_age changes, REN_RATE, and the terms of every VALID binding slot; the clocks switch once
every job released before has ended. -/
def setDerate (kAge kTherm : Nat) (s : State) : State :=
  let old := getF fCLK_DERATE_K_AGE s
  if kAge = old ∧ kTherm = getF fCLK_DERATE_K_THERM s then s
  else
    let s1 := setF fCLK_DERATE_K_THERM kTherm (setF fCLK_DERATE_K_AGE kAge s)
    let s2 := if kAge = old then s1 else forAll (List.range 16) publishPort s1
    let s3 := republish (fun _ => true) (showRate s2)
    { s3 with age.switch := some (releasedJobs s) }

/-- The clocks switch: K is in force. -/
def clockSwitch (s : State) : State := match s.age.switch with
  | none => s
  | some l =>
    if l.any fun j => (releasedJobs s).contains j then s
    else setF fCLK_DERATE_K (derate s) { s with age.switch := none, age.kAge := getF fCLK_DERATE_K_AGE s }

def execDerateClockSwitch (s : State) : Host.Outcome State Fault Refusal := .next (clockSwitch s)

/-! ### The housekeeping round (R127, R263, R309, R464, R465) -/

/-- Terms of the series artanh z = z + z³/3 + z⁵/5 + … in units of 2^-80, from a term's power of z and its place. -/
def artanhFrom (sq : Nat) : Nat → Nat → Nat → Nat
  | 0, _, _ => 0
  | k + 1, i, p => p / (2 * i + 1) + artanhFrom sq k (i + 1) (p * sq / 2 ^ 80)

/-- ln (a / b) in units of 2^-80, for b ≤ a ≤ 2b: twice artanh ((a − b) / (a + b)). -/
def lnRatio (a b : Nat) : Nat :=
  let z := (a - b) * 2 ^ 80 / (a + b)
  2 * artanhFrom (z * z / 2 ^ 80) 48 0 z

/-- ln n in units of 2^-80. -/
def lnFix (n : Nat) : Nat := Nat.log2 n * lnRatio 2 1 + lnRatio n (2 ^ Nat.log2 n)

/-- The temperature of a thermistor in 1/16 °C from its 16-bit code over 1.8 V and β (R465, R494): the resistor above it equals Z_nom, so that
Z_th / Z_nom is the code over what it lacks to full scale. None where the formula gives no temperature. -/
def thermistor (raw beta : Nat) : Option Int :=
  if raw = 0 ∨ 65536 ≤ raw then none
  else
    let den : Int := 10 * (20 * beta * 2 ^ 80 + 5963 * ((lnFix raw : Int) - lnFix (65536 - raw)))
    if beta = 0 ∨ den ≤ 0 then none else some (roundOpen (16 * 5963 * 10 * beta * 2 ^ 80 - 43704 * (den / 10)) den.toNat)

/-- One channel's code and value; a thermistor's value follows from its code, and a disabled one reads 0x8000. A thermistor that gives a
port its T_ink is a new sample there (R263). -/
def hkChannel (c raw : Nat) (value : Int) (s0 : State) : State :=
  let (v, s) : Nat × State :=
    if 12 ≤ c ∧ c < 16 then
      if getB (fTHM_TH_EN (c - 12)) s0 = false then (0x8000, s0)
      else match thermistor raw (getF (fTHM_TH_BETA (c - 12)) s0) with
        | some t => (codeOf 24 t, s0)
        | none => drawFree s0
    else (codeOf 24 value, s0)
  let s1 := addMod (fPWR_HK_ROUND c) 1 (setF (fPWR_HK_VALUE c) v (setF (fPWR_HK_RAW c) raw s))
  let ink (h : Nat) : Bool := getB (fHP_WF_TSRC h) s1 && decide (getF (fHP_WF_TH_IDX h) s1 + 12 = c) && decide (v ≠ 0x8000)
  forAll ((List.range 16).filter ink)
    (fun h t => doIf (decide (persOf h t = 1)) (bandStep h (getI (fPWR_HK_VALUE c) s1)) (setF (fHP_TEMP_T_INK h) (codeOf 16 (getI (fPWR_HK_VALUE c) s1)) t))
    (deliver (fun k u _ => k == 8 && u == c) s1)

/-- The crystal's deviation over the rounds decides OSC (R127). -/
def oscRound (bad : Bool) (s : State) : State :=
  if bad then
    let n := s.trust.oscBad + 1
    let s1 := { s with trust.oscBad := n, trust.oscGood := 0 }
    if 10 ≤ n then addCause .osc s1 else s1
  else { s with trust.oscBad := 0, trust.oscGood := s.trust.oscGood + 1 }

/-! ### Junction bands (R466 to R468) -/

/-- Boundary above band `b`, in 1/16 °C. -/
def bandLimit (b : Nat) : Int := 16 * (([70, 90, 100, 110] : List Nat).getD b 0 : Nat)

/-- The candidate: up across each boundary reached, down across each one more than 3 °C above the temperature. -/
def climb (t : Int) : Nat → Nat → Nat
  | 0, b => b
  | k + 1, b => if b < 4 ∧ bandLimit b ≤ t then climb t k (b + 1) else b

def sink (t : Int) : Nat → Nat → Nat
  | 0, b => b
  | k + 1, b => if 0 < b ∧ t < bandLimit (b - 1) - 48 then sink t k (b - 1) else b

/-- The throttle level of a band. -/
def levelOf (band : Nat) : Nat := if 4 ≤ band then 2 else if 3 ≤ band then 1 else 0

/-- The throttle level in force: Skim and background moves pause with it, and level 2 derates the fabric and supervisor clocks by two
steps. A move that a pause held begins with the pause's end (R396). -/
def setThrottle (l : Nat) (s : State) : State :=
  forAll (List.range 8) beginMove <| setDerate (getF fCLK_DERATE_K_AGE s) (if l = 2 then 2 else 0) (setB fMEM_SKIM_STAT_PAUSED (decide (0 < l)) (setF fTHM_STAT_THROTTLE l s))

/-- GRACE in ms. -/
def graceMs (s : State) : Nat := 100 * min 100 (max 1 (getF fTHM_CFG_GRACE s))

/-- The graces that run. -/
def setGraces (l : List Nat) (s : State) : State :=
  let s1 := setB fTHM_STAT_GRACE_RUN (!l.isEmpty) (modPwr (fun p => { p with graces := l }) s)
  if l.isEmpty then setF fTHM_STAT_GRACE_LEFT 0 s1 else s1

/-- The measures of band `b` are asked for: with more than 8 ports a request with its own grace, else they act at once (R468). -/
def askThrottle (b : Nat) (s : State) : State :=
  if getB fTHM_STAT_LARGE s then
    let ms := graceMs s
    postEvent 0x84 (leBytes 1 b ++ leBytes 2 ms) (setF fTHM_STAT_GRACE_LEFT ms (setGraces (s.pwr.graces ++ [b]) s))
  else setThrottle (levelOf b) s

/-- The band changes: a fall lifts at once what lies above the new band, whose own measures are asked for where they are neither in force nor
asked for; a rise asks for them (R467, R468). -/
def bandChange (b : Nat) (s : State) : State :=
  let old := getF fTHM_STAT_BAND s
  let s1 := setF fTHM_STAT_BAND b s
  if b < old then
    let s2 := setThrottle (min (getF fTHM_STAT_THROTTLE s1) (levelOf b)) (setGraces (s1.pwr.graces.filter fun g => decide (g ≤ b)) s1)
    doIf (decide (getF fTHM_STAT_THROTTLE s2 < levelOf b) && !s2.pwr.graces.contains b) (askThrottle b) s2
  else doIf (decide (3 ≤ b)) (askThrottle b) (doIf (decide (3 ≤ b)) (raiseSimple srcThermal clsNote false b) s1)

/-- The end of a round: the junction temperature, its candidate band and the band (R466), and the refresh rate (R387). -/
def heatRound (mr4 : Bool) (s : State) : State :=
  let temps := (List.range 12).map fun c => getI (fPWR_HK_VALUE c) s
  let tj := temps.foldl max (temps.headD 0)
  let hot := (List.range 12).find? (fun c => decide (temps.getD c 0 = tj)) |>.getD 0
  let ports := ((List.range 16).filter fun h => decide (persOf h s ≠ 0)).length
  let s1 := setB fTHM_STAT_LARGE (decide (8 < ports)) (setF fTHM_STAT_HOT hot (setI fTHM_STAT_TJ tj s))
  let c := sink tj 4 (climb tj 4 (getF fTHM_STAT_BAND s1))
  let d := if c = getF fTHM_STAT_CAND s1 then min 3 (getF fTHM_STAT_DWELL s1 + 1) else 1
  let s2 := setF fTHM_STAT_GRACE_LEFT (getF fTHM_STAT_GRACE_LEFT s1 - 16) (setF fTHM_STAT_DWELL d (setF fTHM_STAT_CAND c s1))
  let s3 := if 2 ≤ d ∧ c ≠ getF fTHM_STAT_BAND s2 then bandChange c s2 else s2
  setF fMEM_DDR_STAT_REFRESH (if mr4 ∨ 2 ≤ getF fTHM_STAT_BAND s3 then 1 else 0) s3

/-- A round of the 32 channels, suspended during a calibration (R484): codes and values by channel, whether the LPDDR4X asks for faster
refresh, and whether the crystal deviated by more than 500 ppm. -/
def hkRound (raw : List Nat) (values : List Int) (mr4 oscBad : Bool) (s : State) : State :=
  if s.cal.running.isSome then s
  else heatRound mr4 (oscRound oscBad (forAll (List.range 32) (fun c => hkChannel c (raw.getD c 0 % 65536) (values.getD c 0)) s))

def execHkRound (raw : List Nat) (values : List Int) (mr4 oscBad : Bool) (s : State) : Host.Outcome State Fault Refusal :=
  .next (hkRound raw values mr4 oscBad s)

/-- GRACE passes: the band's throttle is applied, unless the band has fallen below it (R468). -/
def graceExpiry (band : Nat) (s : State) : State :=
  if s.pwr.graces.contains band = false then s
  else
    let s1 := setGraces (s.pwr.graces.filter fun g => decide (g ≠ band)) s
    if band ≤ getF fTHM_STAT_BAND s1 then setThrottle (max (getF fTHM_STAT_THROTTLE s1) (levelOf band)) s1 else s1

def execGraceExpiry (band : Nat) (s : State) : Host.Outcome State Fault Refusal := .next (graceExpiry band s)

/-! ### Monitors and re-planning (R475 to R477) -/

def modAge (f : Ageing → Ageing) (s : State) : State := { s with age := f s.age }

/-- A monitor's reading. -/
def showMonitor (first : Bool) (i v : Nat) (s : State) : State :=
  let s1 := setF (fAGE_MON_VALUE i) v s
  let s2 := if first ∨ v < getF (fAGE_MON_MIN i) s1 then setF (fAGE_MON_MIN i) v s1 else s1
  if getF (fAGE_MON_BASE i) s2 = 0 then setF (fAGE_MON_BASE i) v s2 else s2

/-- The 24 monitors are sampled; WORST and M follow the path replicas, monitors 0 to 15. -/
def showMonitors (l : List Nat) (s : State) : State :=
  let v (i : Nat) : Nat := satTo 16 (l.getD i 0)
  let s1 := forAll (List.range 24) (fun i => showMonitor (!s.age.sampled) i (v i)) s
  let m := (List.range 16).foldl (fun a i => min a (v i)) (v 0)
  let w := (List.range 16).find? (fun i => decide (v i = m)) |>.getD 0
  setF fAGE_STAT_M m (setF fAGE_STAT_WORST w (modAge (fun a => { a with sampled := true }) s1))

/-- The margin m. -/
def margin (s : State) : Nat := getF fAGE_STAT_M s

/-- A step of the core voltage is awaited: whether the regulator confirms it, and the monitors measured after it, where they are (R458, R476). -/
abbrev CoreStep := Bool × List Nat

/-- The request in progress is confirmed or not, and m is measured again. -/
def awaitCore (x : CoreStep) (s : State) : State :=
  let s1 := if x.1 then setB fPWR_CORE_BUSY false (setF fPWR_CORE_ACT (getF fPWR_CORE_REQ s)
      (modPwr (fun p => { p with regulator := true }) (commandRail (0x18 + getF fPWR_RLK_ADDR s) 0x11 [] s)))
    else coreSilent s
  if x.2.isEmpty then s1 else showMonitors x.2 s1

/-- The core voltage n is requested and awaited. -/
def stepCore (n : Nat) (x : CoreStep) (s : State) : State :=
  awaitCore x (commandRail (0x18 + getF fPWR_RLK_ADDR s) 0x10 (leBytes 2 (700 + 5 * n)) (setB fPWR_CORE_BUSY true (setF fPWR_CORE_REQ n s)))

/-- A request that is in progress as a re-planning begins ends first (R458). -/
def settleCore (l : List CoreStep) (s : State) : State × List CoreStep :=
  if getB fPWR_CORE_BUSY s then (awaitCore (l.headD (false, [])) s, l.drop 1) else (s, l)

/-- Voltage steps up, at most four, while m stays below M_LIM; a step that the list lacks is not confirmed. A confirmed step records its gain (R476). -/
def raiseCore : Nat → List CoreStep → State → State
  | 0, _, s => s
  | k + 1, steps, s =>
    if getF fAGE_CFG_M_LIM s ≤ margin s ∨ getB fPWR_CORE_FIXED s ∨ 30 ≤ getF fPWR_CORE_ACT s then s
    else
      let n := getF fPWR_CORE_ACT s + 1
      let s1 := stepCore n (steps.headD (false, [])) s
      raiseCore k (steps.drop 1) (if getF fPWR_CORE_ACT s1 = n then
        modAge (fun a => { a with n := n, gains := ((margin s1 : Int) - margin s) :: a.gains }) s1 else s1)

/-- Voltage steps one after the other to `n`, until one is not confirmed. -/
def moveCore (n : Nat) : Nat → List CoreStep → State → State × List CoreStep
  | 0, l, s => (s, l)
  | k + 1, l, s =>
    let act := getF fPWR_CORE_ACT s
    if act = n ∨ getB fPWR_CORE_FIXED s then (s, l)
    else
      let next := if act < n then act + 1 else act - 1
      let s1 := stepCore next (l.headD (false, [])) s
      if getF fPWR_CORE_ACT s1 = next then moveCore n k (l.drop 1) s1 else (s1, l.drop 1)

/-- Re-planning (R476). A step of the voltage down records its gain at the next evaluation. -/
def replan (steps : List CoreStep) (s : State) : State :=
  let lim := getF fAGE_CFG_M_LIM s
  let k := getF fCLK_DERATE_K_AGE s
  if margin s < lim then
    let s1 := raiseCore 4 steps (raiseSimple srcAgeing clsNote false (getF fAGE_STAT_WORST s) (modAge (fun a => { a with above := 0 }) s))
    if lim ≤ margin s1 then s1
    else if 6 ≤ k then setB fAGE_STAT_EXHAUSTED true s1
    else setDerate (k + 1) (getF fCLK_DERATE_K_THERM s1) (modAge (fun a => { a with stepFrom := some (margin s1) }) s1)
  else if lim + getF fAGE_CFG_M_HYST s < margin s then
    if 5 ≤ s.age.above ∧ getF fAGE_CFG_N_MIN s < s.age.n then
      requestCore (modAge (fun a => { a with above := 0, n := a.n - 1, stepFrom := some (margin s : Int) }) s)
    else modAge (fun a => { a with above := a.above + 1 }) s
  else modAge (fun a => { a with above := 0 }) s

/-- A REPLAN that waits acts before the evaluation re-plans: k_age is 0, and the core voltage goes step by step to N_MIN (R477). -/
def applyReplan (l : List CoreStep) (s : State) : State × List CoreStep :=
  if s.age.replan = false then (s, l)
  else
    let s1 := setDerate 0 (getF fCLK_DERATE_K_THERM s) (modAge (fun a => { a with replan := false, gains := [], stepFrom := none }) s)
    let r := moveCore (getF fAGE_CFG_N_MIN s) 31 l s1
    (modAge (fun a => { a with n := if getB fPWR_CORE_FIXED r.1 then getF fAGE_CFG_N_MIN s else getF fPWR_CORE_ACT r.1 }) r.1, r.2)

/-- REPLAN is accepted only in SERVICE (R477). -/
def replanCommand (s : State) : State := if s.lc.state = .service then modAge (fun a => { a with replan := true }) s else s

def execReplan (s : State) : Host.Outcome State Fault Refusal := .next (hostAccess replanCommand s)

/-! ### Head and motor records (R478, R480) -/

/-- The amplitude of a port follows its drop times since the previous evaluation: by at most 10 an evaluation, within ±12 % (R478). -/
def trackAmp (h : Nat) (s : State) : State :=
  let p := portOf h s
  let s0 := modPort h (fun x => { x with dropSum := 0, dropCnt := 0 }) s
  if persOf h s ≠ 1 ∨ getB (fAGE_HP_AUTO_AMP h) s = false ∨ p.dropCnt = 0 then s0
  else
    let mean := satTo 12 (roundOpen p.dropSum p.dropCnt).toNat
    let s1 := setF (fAGE_HP_T_MEAN h) mean s0
    if p.refDue then
      if 256 ≤ p.refCnt then setF (fAGE_HP_T_REF h) mean (modPort h (fun x => { x with refDue := false }) s1) else s1
    else
      let ref := getF (fAGE_HP_T_REF h) s1
      if ref = 0 then s1
      else
        let amp := getF (fAGE_HP_AMP h) s1
        let want := clampInt ((amp : Int) - 10) ((amp : Int) + 10) (roundOpen ((amp * mean : Nat) : Int) ref)
        let new := (clampInt 902 1146 want).toNat
        let s2 := (setF (fAGE_HP_AMP h) new s1).setShadow (rAGE_HP h) (wordPut (s1.shadowReg (rAGE_HP h)) 0 11 new)
        setB (fAGE_HP_AMP_LIMIT h) (decide (want < 902) || decide (1146 < want)) s2

/-- A write of 1 to REF retakes T_REF. -/
def ampRef (h : Nat) (s : State) : State := if h < 16 then modPort h (fun x => { x with refDue := true, refCnt := 0 }) s else s

def execAmpRef (h : Nat) (s : State) : Host.Outcome State Fault Refusal := .next (hostAccess (ampRef h) s)

/-- The entries of the table at TABLE of a control engine; none where its header is invalid. -/
def frictionTable (n : Nat) (s : State) : Option (List Int) :=
  let c := coreOf (.ce n) s
  let a := getF (fAGE_CE_TABLE n) s
  match tableAt (.ce n) c a with
  | .ok t => some ((List.range t.n).map fun i => (dataGet c (a + 2 + i)).toInt)
  | .error _ => none

/-- BASELINE records the table. -/
def driftBaseline (n : Nat) (s : State) : State :=
  if 8 ≤ n then s
  else match frictionTable n s with
    | some l => modAge (fun a => { a with base := a.base.set n (some l) }) s
    | none => setB fAGE_STAT_BAD_TABLE true s

def execDriftBaseline (n : Nat) (s : State) : Host.Outcome State Fault Refusal := .next (driftBaseline n s)

def maxAbs (l : List Int) : Nat := l.foldl (fun a x => max a x.natAbs) 0

/-- DRIFT of a control engine's table against its baseline; a baseline of zeros gives no stated value. A table whose header is invalid is bad,
with or without a baseline (R480). -/
def trackDrift (n : Nat) (s : State) : State :=
  if getB (fAGE_CE_EN n) s = false then s
  else match frictionTable n s, s.age.base.getD n none with
    | none, _ => setB fAGE_STAT_BAD_TABLE true s
    | some _, none => s
    | some e, some b =>
      if e.length ≠ b.length then setB fAGE_STAT_BAD_TABLE true s
      else
        let d := maxAbs ((e.zip b).map fun x => x.1 - x.2)
        let r := if maxAbs b = 0 then drawFree s else ((roundOpen ((256 * d : Nat) : Int) (maxAbs b)).toNat, s)
        let s1 := setF (fAGE_CE_DRIFT n) (satTo 8 r.1) r.2
        if getF (fAGE_CE_LIMIT n) s1 ≤ r.1 then setB fAGE_STAT_MOTOR true s1 else s1

/-! ### The forecast (R482) -/

/-- The least-squares line through values, newest first, one evaluation apart: n·Σxy − Σx·Σy, n·Σx² − (Σx)², Σx, Σy and n. -/
structure Fit where
  a : Int
  b : Int
  sx : Int
  sy : Int
  n : Nat

def fitLine (l : List Int) : Fit :=
  let p := l.zipIdx.map fun y => (-(y.2 : Int), y.1)
  let n := l.length
  let sx := (p.map (·.1)).sum
  let sy := (p.map (·.2)).sum
  let sxy := (p.map fun q => q.1 * q.2).sum
  let sxx := (p.map fun q => q.1 * q.1).sum
  { a := n * sxy - sx * sy, b := n * sxx - sx * sx, sx := sx, sy := sy, n := n }

/-- Days until a falling line reaches a level; 0xFFFF where there is no trend, or more than 65,534 days. -/
def daysTo (level : Int) (per : Nat) (f : Fit) : Nat :=
  if 0 ≤ f.a then 0xFFFF
  else
    let num := level * f.n * f.b - f.sy * f.b + f.a * f.sx
    let d := roundOpen (-num * per) (f.n * (-f.a).toNat * 1440)
    if 65534 < d then 0xFFFF else d.toNat

/-- Days from a value to a level at the slope of a fitted line; 0xFFFF where there is no trend, or more than 65,534 days. -/
def daysFrom (value level : Int) (per : Nat) (f : Fit) : Nat :=
  if f.a ≤ 0 then 0xFFFF
  else
    let d := roundOpen ((level - value) * f.b * per) (f.a.toNat * 1440)
    if 65534 < d then 0xFFFF else d.toNat

/-- A step of the core voltage or of k_age is left to take (R476). -/
def stepsLeft (s : State) : Bool := (decide (s.age.n < 30) && !getB fPWR_CORE_FIXED s) || decide (getF fCLK_DERATE_K_AGE s < 6)

/-- The forecast over the last 1,008 evaluations. The gains of the steps not yet taken, where any is left, are a free value; the highest erase count
goes on from where it stands. -/
def forecast (s : State) : State :=
  let per := max 1 (getF fAGE_CFG_EVAL_PER s)
  let d := if stepsLeft s then drawFree s else (0, s)
  let silicon := daysTo ((getF fAGE_CFG_M_LIM s : Int) - d.1) per (fitLine (s.age.trend.map (·.1)))
  let flash := daysFrom (getF fAGE_FLASH_MAX_ERASE s) (getF fAGE_FLASH_ENDURANCE s) per (fitLine (s.age.trend.map fun x => (x.2 : Int)))
  setF fAGE_FORECAST_DAYS_FLASH flash (setF fAGE_FORECAST_DAYS_SILICON silicon d.2)

/-! ### The evaluation (R284, R475, R481) -/

/-- What an evaluation waits for: a band of J3 or above, a supervisor switch, a calibration. -/
def evaluationWaits (s : State) : Bool := decide (3 ≤ getF fTHM_STAT_BAND s) || switching s || s.cal.running.isSome

/-- Erases of sectors of the settings area are counted (R481). -/
def countErases (sectors : List Nat) (s : State) : State :=
  let l := forAll (sectors.filter fun k => decide (k < flashSectors .settings)) (fun k m => spInsert m k ((spFind m k).getD 0 + 1))
    s.trust.journal.setErases
  { s with trust.journal.setErases := l }

/-- The highest erase count of a sector of the settings area or the journal. -/
def flashWear (s : State) : Nat := s.trust.journal.setErases.foldl (fun a x => max a x.2) (journalWear s)

/-- An evaluation runs: the monitors, the answers to the voltage steps it takes, the sectors of the settings area erased since the last one, and
whether the flash took the nozzle table copies (R475, R476, R481). -/
def evaluateNow (mons : List Nat) (steps : List CoreStep) (erased : List Nat) (flash : Bool) (s : State) : State :=
  let s1 := addMod fAGE_STAT_EVALS 1 (showMonitors mons (countErases erased s))
  let s2 := match s1.age.stepFrom with
    | some m => modAge (fun a => { a with stepFrom := none, gains := ((margin s1 : Int) - m) :: a.gains }) s1
    | none => s1
  let r := settleCore steps s2
  let r2 := applyReplan r.2 r.1
  let s3 := replan r2.2 r2.1
  let s4 := forAll (List.range 8) trackDrift (forAll (List.range 16) trackAmp s3)
  let m : Int := (margin s4 : Int) - s4.age.gains.sum
  let worst := satTo 24 (flashWear s4)
  let s5 := setF fAGE_FLASH_MAX_ERASE worst (modAge (fun a => { a with trend := ((m, worst) :: a.trend).take 1008 }) s4)
  let s6 := forecast s5
  if flash then { s6 with ports := s6.ports.map fun p => { p with nozOlder := p.nozSaved, nozSaved := p.noz } } else flashFault s6

/-- An evaluation falls due: it runs, or waits until what it waits for has ended (R475, R484). -/
def evaluate (mons : List Nat) (steps : List CoreStep) (erased : List Nat) (flash : Bool) (s : State) : State :=
  if evaluationWaits s then modAge (fun a => { a with held := some (mons, steps, erased, flash) }) s else evaluateNow mons steps erased flash s

def execAgeingEvaluation (mons : List Nat) (steps : List (Bool × List Nat)) (erased : List Nat) (flash : Bool) (s : State) :
    Host.Outcome State Fault Refusal := .next (evaluate mons steps erased flash s)

/-- An evaluation that has waited runs with the first tick that finds nothing to wait for. -/
def heldEvaluation (s : State) : State := match s.age.held with
  | none => s
  | some (mons, steps, erased, flash) =>
    if evaluationWaits s then s else evaluateNow mons steps erased flash (modAge (fun a => { a with held := none }) s)

/-! ### Calibration (R483 to R485) -/

/-- Shunt ADC `a` is selected and a channel of its pair is not OFF. -/
def shuntBusy (mask a : Nat) (s : State) : Bool :=
  mask.testBit a && [2 * (a - 1), 2 * (a - 1) + 1].any fun c => decide (getF (fMC_STAT_STATE c) s ≠ 0)

/-- A write of CAL_CMD with GO: a calibration of the selected ADCs starts, or is refused. -/
def calCommand (v : Nat) (s : State) : State :=
  let s1 := plainWrite rCAL_CMD v s
  let mask := getF fCAL_CMD_MASK s1
  if fieldOf fCAL_CMD_GO v = 0 ∨ s1.cal.running.isSome then s1
  else if s1.lc.state = .blank ∨ s1.lc.state = .retired then setF fCAL_STAT_RESULT 1 s1
  else if [1, 2, 3].any fun a => shuntBusy mask a s1 then setF fCAL_STAT_RESULT 2 s1
  else
    let s2 := forAll ((List.range 4).filter fun g => mask.testBit (4 + g)) (fun g => setB (fDG_STAT_CAL g) true) s1
    setB fCAL_STAT_BUSY true { s2 with cal.running := some mask }

def execCalGo (value : Nat) (s : State) : Host.Outcome State Fault Refusal := .next (hostAccess (calCommand value) s)

/-- A gain within 2 % of nominal and an offset of at most 64 codes. -/
def calInRange (e : Nat × Nat × Int) : Bool := decide (((e.2.1 : Int) - 32768).natAbs * 50 ≤ 32768) && decide (e.2.2.natAbs ≤ 64)

/-- A record is written. -/
def calRecord (soft : Bool) (l : List (Nat × Nat × Int)) (s : State) : State :=
  let r := sealCal { time := secureTime s, trusted := clockTrusted s, soft := soft, entries := l } s
  let s1 := setF fCAL_STAT_RESULT 0 (setB fCAL_STAT_TRUSTED r.trusted (setF fCAL_TIME_CAL_TIME r.time (incSat fCAL_STAT_CAL_COUNT s)))
  showCal { s1 with cal.records := r :: s1.cal.records }

/-- The nominal code difference of an ADC, as a quotient: 1.2500 V of 1.8 V at 16 bits for the housekeeping ADC (R494). -/
def calNominal (a : Nat) : Nat × Nat := if a = 0 then (125 * 65536, 180) else (Config.calNominal a, 1)

/-- Gain and offset of an ADC from its codes at CAL_GND and CAL_REF: offset is the CAL_GND code, and gain 1.2500 V over the code difference, relative
to nominal, in 1/32,768 (R483). An ADC that shows no difference has no gain in range. -/
def calEntry (a : Nat) (codes : List (Nat × Int × Int)) : Nat × Nat × Int :=
  match codes.find? fun e => decide (e.1 = a) with
  | none => (a, 0, 0)
  | some (_, gnd, ref) =>
    if ref ≤ gnd then (a, 0, gnd)
    else (a, (roundOpen ((32768 * (calNominal a).1 : Nat) : Int) ((calNominal a).2 * (ref - gnd).toNat)).toNat, gnd)

/-- A calibration ends: the codes of CAL_GND and CAL_REF by ADC, and whether the fuse, or the settings area, took the record. Every selected ADC
has its entry. -/
def calComplete (codes : List (Nat × Int × Int)) (took : Bool) (s : State) : State := match s.cal.running with
  | none => s
  | some mask =>
    if (List.range 4).any fun g => mask.testBit (4 + g) && getB (fDG_STAT_BUSY g) s then s else
    let l := ((List.range 8).filter fun a => mask.testBit a).map fun a => calEntry a codes
    let s1 := setB fCAL_STAT_BUSY false { s with cal.running := none }
    let s2 := forAll (List.range 4) (fun g => setB (fDG_STAT_CAL g) false) s1
    let used := getF fCAL_STAT_FUSES_USED s2
    if l.all calInRange = false then setF fCAL_STAT_RESULT 3 s2
    else if used < 32 then
      let s3 := setB fCAL_STAT_SOFT (decide (used = 31)) (setF fCAL_STAT_FUSES_USED (used + 1) s2)
      if took then calRecord false l s3 else raiseSimple srcCal clsNote false used (setF fCAL_STAT_RESULT 4 s3)
    else if took then calRecord true l s2
    else raiseSimple srcCal clsNote false (min 255 s2.cal.records.length) (flashFault (setF fCAL_STAT_RESULT 4 s2))

def execCalComplete (codes : List (Nat × Int × Int)) (took : Bool) (s : State) : Host.Outcome State Fault Refusal :=
  .next (calComplete codes took s)

/-! ### The tick -/

/-- One 5 ns tick (R20, R52): carriers go on (R326, R348), scan lines that have ended leave WRITING (R290), previous views whose last job has closed
are released (R283), restarts of ten minutes ago fall out of their counts (R442), an overwrite and a held evaluation go on (R388, R475), and a change
of the boot header since the last tick is written (R413; log entry 212). The reset that an accepted life-cycle change orders comes with the next
tick (R404). -/
def execTrackingTick (s : State) : Host.Outcome State Fault Refusal :=
  .next (if s.lc.resetDue then lifeCycleReset s
    else commitHeader (heldEvaluation (overwriteTick (restartsTick (forAll (List.range 16) releaseView
      (endLines (buAdvanceAll (forAll (List.range 6) carrierTick (trackingTick s)))))))))

end Sys2Proof.Machine
end

