-- ==== Sys2Proof/Machine/HandOff.lean ====
section
/-! DEFINITION. Epochs, product hand-off and update barriers on the Ocing chain (R34, R369, R371 to R374). -/

namespace Sys2Proof.Machine

/-! ### Offers and answers (R371) -/

def epochNow (s : State) : Nat := getF fOCL_EPOCH_EPOCH s

/-- What names a product on the link: detecting unit, line and PNUM. -/
def productName (unit line : Nat) (pnum : Word) : List Byte := leBytes 1 unit ++ leBytes 1 line ++ leBytes 6 pnum.toNat

/-- The tag of an offer over what stands before it, under the link key of a port. -/
def offerTag (p : Nat) (l : List Byte) (s : State) : List Byte :=
  let x := oclPort p s
  (beBytes 16 (Config.aesCmac (Config.linkKey s.lc.identity ((x.peer.map (·.2.1)).getD []) x.link) l).toNat).take 8

/-- A product is due for its offer: in mode ALWAYS p_m has passed DPOS + OFS and every local job has closed. -/
def offerDue (p : Product) (s : State) : Bool :=
  p.remote == .due && decide (p.state = .inFlight) && p.hosted.isNone && getB (fOCL_HOFF_EN p.line) s && decide (oclState 1 s = 3) &&
  (getB (fOCL_HOFF_MODE p.line) s ||
    (atOrBeyond (pM p.line s) (p.dpos + counts (getF (fOCL_HOFF_OFS_OFS p.line) s)) && !((jobsOf p s).any fun x => jobOpen x.2.state)))

/-- The OFFER leaves downstream. -/
def handoffOffer (i : Nat) (s : State) : State :=
  match product i s with
  | none => s
  | some p =>
    if offerDue p s = false then s
    else
      let l := productName (unitId s) p.line p.pnum ++ leBytes 6 p.dpos.toNat ++ leBytes 6 p.date.toNat ++ leBytes 1 (if p.dateTrusted then 1 else 0)
      let s1 := incSat fOCL_CNT0_OFFERED (modProduct i (fun q => { q with remote := .offered, handed := some (getF (fOCL_HOFF_DST p.line) s) }) s)
      sendOcing 1 0x20 (getF (fOCL_HOFF_DST p.line) s) (l ++ offerTag 1 l s) s1

def execHandoffOffer (i : Nat) (s : State) : Host.Outcome State Fault Refusal := .next (handoffOffer i s)

/-- Ticks to the first epoch boundary at least 50 µs ahead, and how many epochs ahead it is. -/
def commitAhead (s : State) : Nat × Nat :=
  let t := (now s - s.ocl.boundary).toNat
  let k := max 1 (ceilDiv (t + 10000) 200000)
  (200000 * k - t, k)

/-- The binding slot RX_SLOT of a line, where it is VALID and of that line. -/
def rxBinding (n : Nat) (s : State) : Option (Nat × Binding) :=
  let b := getF (fOCL_HOFF_RX_SLOT n) s
  if getB (fSCH_BIND_CTL_VALID b) s then ((spFind s.sch.binds b).filter fun x => decide (x.line = n)).map fun x => (b, x) else none

/-- What keeps an offer from being accepted, `.none` where it is accepted: arming is judged with the position that the line reaches at the
boundary as CPOS (R371). -/
def offerCause (n : Nat) (dpos : Word) (trusted : Bool) (s : State) : Cause :=
  let b := (rxBinding n s).map (·.2)
  let os := match b with
    | some x => x.marks.map fun m => planMark x.marks m s
    | none => []
  let cpos := pM n s + subs (roundOpen (velocity n s * ((commitAhead s).1 : Int)) ticksPerSecond)
  armCause n b dpos cpos trusted false os (decide (ptabSize ≤ ptabUsed s)) s

/-- OFFER arrives: ACCEPT, or DECLINE with a cause. -/
def offerFrame (p src : Nat) (l : List Byte) (s : State) : State :=
  let u := leAt l 0 1
  let line := leAt l 1 1
  let pnum := BitVec.ofNat 48 (leAt l 2 6)
  let dpos := BitVec.ofNat 48 (leAt l 8 6)
  let good := decide (l.length = 29) && decide (l.drop 21 = offerTag p (l.take 21) s)
  let c : Cause := match (followers u line s).find? fun n => getB (fOCL_HOFF_RX_EN n) s with
    | none => .notArmed
    | some n => if good then offerCause n dpos (leAt l 20 1 == 1) s else .notArmed
  match (followers u line s).find? fun n => getB (fOCL_HOFF_RX_EN n) s with
  | some n =>
    if c = .none then
      let o : Offer := { unit := u, line := n, pnum := pnum, dpos := dpos, date := BitVec.ofNat 48 (leAt l 14 6), trusted := leAt l 20 1 == 1,
                         epoch := none }
      let others := s.ocl.offers.filter fun x => !(decide (x.unit = u) && decide (x.line = n) && decide (x.pnum = pnum))
      sendOcing p 0x21 src (productName u line pnum) { s with ocl.offers := others ++ [o] }
    else sendOcing p 0x22 src (productName u line pnum ++ leBytes 1 (causeCode c)) s
  | none => sendOcing p 0x22 src (productName u line pnum ++ leBytes 1 (causeCode c)) s

/-- An OFFER that a unit forwards carries the tag of the next link; one whose tag fails is passed on as it came. -/
def forwardOffer (p : Nat) (l : List Byte) (s : State) : List Byte :=
  if l.drop 21 = offerTag p (l.take 21) s then l.take 21 ++ offerTag (otherPort p) (l.take 21) s else l

def execOffer (p : Nat) (body : List Byte) (s : State) : Host.Outcome State Fault Refusal :=
  .next (receiveFrame p 0x20 body (forwardOffer p) (offerFrame p (frameSrc body)) s)

/-- The product of this unit that a payload names, where its remote part meets a test. -/
def namedProduct (l : List Byte) (ok : Remote → Bool) (s : State) : Option (Nat × Product) :=
  s.sch.ptab.find? fun x => decide (leAt l 0 1 = unitId s) && x.2.hosted.isNone && decide (x.2.line = leAt l 1 1) &&
    decide (x.2.pnum = BitVec.ofNat 48 (leAt l 2 6)) && decide (x.2.state = .inFlight) && ok x.2.remote

/-- ACCEPT: COMMIT names the first boundary at least 50 µs after it. -/
def acceptFrame (p src : Nat) (l : List Byte) (s : State) : State :=
  match namedProduct l (· == .offered) s with
  | none => s
  | some (i, _) =>
    let e := (epochNow s + (commitAhead s).2) % 2 ^ 32
    sendOcing p 0x23 src (l.take 8 ++ leBytes 4 e) (incSat fOCL_CNT0_COMMITTED (modProduct i (fun q => { q with remote := .accepted e }) s))

def execAccept (p : Nat) (body : List Byte) (s : State) : Host.Outcome State Fault Refusal :=
  .next (receiveFrame p 0x21 body unchanged (acceptFrame p (frameSrc body)) s)

/-- DECLINE ends the offered part as NOT_STARTED with its cause, and the product may close (R100). -/
def declineFrame (l : List Byte) (s : State) : State :=
  match namedProduct l (· == .offered) s with
  | none => s
  | some (i, _) =>
    let c := match causeOfCode (leAt l 8 1) with
      | .none => Cause.notArmed
      | x => x
    closeIfDone i (incSat fOCL_CNT0_DECLINED (modProduct i (fun q => { q with remote := .ended .notStarted c }) s))

def execDecline (p : Nat) (body : List Byte) (s : State) : Host.Outcome State Fault Refusal :=
  .next (receiveFrame p 0x22 body unchanged declineFrame s)

/-- COMMIT: ownership passes at the boundary it names. -/
def commitFrame (l : List Byte) (s : State) : State :=
  { s with ocl.offers := s.ocl.offers.map fun o =>
      if o.unit = leAt l 0 1 ∧ o.pnum = BitVec.ofNat 48 (leAt l 2 6) ∧ getF (fTRK_LINE_CTL_OC_LINE o.line) s = leAt l 1 1
      then { o with epoch := some (leAt l 8 4) } else o }

def execCommit (p : Nat) (body : List Byte) (s : State) : Host.Outcome State Fault Refusal :=
  .next (receiveFrame p 0x23 body unchanged commitFrame s)

/-- The outcome of a remote part as one job (R372). -/
def remoteOutcome (st : Nat) : JState := match st with
  | 2 => .closedOk
  | 3 => .closedFlagged
  | _ => .notStarted

/-- RESULT closes the product at the detecting unit; one that comes too late is counted and otherwise ignored (R29, R372). -/
def resultFrame (l : List Byte) (s : State) : State :=
  match namedProduct l (fun r => r == .away || match r with | .accepted _ => true | _ => false) s with
  | some (i, _) =>
    closeIfDone i (modProduct i (fun q => { q with
      remote := .ended (remoteOutcome (leAt l 8 1)) (causeOfCode (leAt l 9 1)), flags := q.flags ||| leAt l 10 1 }) s)
  | none => if leAt l 0 1 = unitId s then incSat fOCL_CNT1_LATE_RESULT s else s

def execResult (p : Nat) (body : List Byte) (s : State) : Host.Outcome State Fault Refusal :=
  .next (receiveFrame p 0x24 body unchanged resultFrame s)

/-! ### What a boundary does (R34, R368, R369, R372 to R374) -/

/-- Ports whose training has ended become ACTIVE. -/
def activatePort (p : Nat) (s : State) : State :=
  if (oclPort p s).ready ∧ oclState p s = 1 then modOclPort p (fun x => { x with ready := false }) (setF (oclStateField p) 3 s) else s

/-- Entries whose remote part meets a test. -/
def remoteEntries (ok : Remote → Bool) (s : State) : List Nat := (s.sch.ptab.filter fun x => ok x.2.remote && decide (x.2.state = .inFlight)).map (·.1)

/-- A product committed to another unit. -/
def committed (r : Remote) : Bool := r == .away || match r with
  | .accepted _ => true
  | _ => false

/-- The sender regains products that it committed, closed REJECTED with cause HEAD_LOST (R34, R373). -/
def regain (l : List Nat) (s : State) : State := forAll l (fun i t => closeUnmarked i (incSat fOCL_CNT1_RETURNED t)) s

/-- The sender regains the products committed over a broken downstream port; an offer without COMMIT may be made again (R34, R373). -/
def regainProducts (s : State) : State :=
  let s1 := regain (remoteEntries committed s) s
  forAll (remoteEntries (· == .offered) s1) (fun i => modProduct i (fun q => { q with remote := .due })) s1

/-- The sender regains the products committed to a unit that has left the chain beyond its neighbour, so that no product is without an owner
(R34). -/
def regainAbsent (s : State) : State :=
  regain ((s.sch.ptab.filter fun x => committed x.2.remote && decide (x.2.state = .inFlight) &&
    (x.2.handed.any fun u => !(presentMask s).testBit u)).map (·.1)) s

/-- The receiver drops products committed to it: their jobs stop at the next column boundary or end as NOT_STARTED (R373). -/
def dropProducts (ok : Nat → Bool) (s : State) : State :=
  let mine := s.sch.ptab.filter fun x => (x.2.hosted.any fun h => ok h.1) && decide (x.2.state = .inFlight)
  forAll mine (fun x t =>
    let u := forAll (jobsOf x.2 t) (fun y => doIf (jobOpen y.2.state)
      (if y.2.state = .started then stopFlagged y.1 0 else notStarted y.1 .headLost)) t
    closeIfDone x.1 (modProduct x.1 (fun q => { q with compose := match q.compose with
      | .asked _ => .none
      | c => c }) u)) { s with ocl.offers := s.ocl.offers.filter fun o => !ok o.unit }

/-- Every product committed over a broken upstream port is dropped (R373). -/
def dropHosted (s : State) : State := dropProducts (fun _ => true) s

/-- The products of a unit that has left the chain beyond the neighbour are dropped too, so that none has two owners (R34). -/
def dropAbsent (s : State) : State := dropProducts (fun u => !(presentMask s).testBit u) s

/-- The receiver arms a product whose ownership has passed to it, on RX_SLOT, from the carried date latch and trust bit (R372). -/
def armHosted (o : Offer) (s : State) : State :=
  let n := o.line
  let b := rxBinding n s
  let x : Product :=
    { pnum := o.pnum, dpos := o.dpos, date := o.date, line := n, pd := 0, state := .inFlight, cause := .none, flags := 0, jobs := 0,
      dr := false, expired := false, dateTrusted := o.trusted, slot := getF (fOCL_HOFF_RX_SLOT n) s, stencil := (b.map (·.2.stencil)).getD 0,
      ctick := now s, cpos := (pM n s).toNat / 256, plan := (b.bind (·.2.rej)).map fun r => rejPlan r s, decision := none, compose := .none,
      seq := s.sch.seq, closeTick := 0, remote := .none, hosted := some (o.unit, getF (fTRK_LINE_CTL_OC_LINE n) s, o.pnum.toNat) }
  let s1 := incSat fOCL_CNT1_HOSTED { s with sch.seq := s.sch.seq + 1 }
  match spFree s1.sch.ptab ptabSize 0 with
  | some i => bringDue (armProduct i b (pM n s1) (putProduct i x s1))
  | none =>
    let s2 := raiseSimple srcPtabFull clsFlag false n (incSat fTRK_PTAB_STAT_OVERFLOW s1)
    closureReports { x with state := .rejected, cause := .notArmed, closeTick := now s2 } s2

/-- Offers whose epoch has come pass to this unit. -/
def takeOffers (s : State) : State :=
  let due (o : Offer) : Bool := o.epoch.any fun e => epochReached e s
  forAll (s.ocl.offers.filter due) armHosted { s with ocl.offers := s.ocl.offers.filter fun o => !due o }

/-- Products whose COMMIT named this boundary leave this unit's ownership. -/
def passOwnership (s : State) : State :=
  forAll (remoteEntries (fun r => match r with | .accepted e => epochReached e s | _ => false) s)
    (fun i => modProduct i (fun q => { q with remote := .away })) s

/-- A barrier whose epoch has come releases the activation that holds its ticket, and is acknowledged (R374). -/
def passBarrier (s : State) : State :=
  match s.ocl.barrier with
  | none => s
  | some (t, e) =>
    if epochReached e s = false then s
    else
      let s1 := { s with ocl.barrier := none }
      match s.primer.pend with
      | some (2, k, _) =>
        if k = t then
          let s2 := releaseTicket t s1
          let s3 := setF fOCL_BARRIER_STAT_ACKS (getF fOCL_BARRIER_STAT_ACKS s2 ||| 2 ^ unitId s2) s2
          sendOcing 1 0x31 0xFF (leBytes 1 t) (sendOcing 0 0x31 0xFF (leBytes 1 t) s3)
        else s1
      | _ => s1

/-- The effects of the boundary of an epoch. -/
def boundaryEffects (e : Nat) (s : State) : State :=
  let s1 := setF fOCL_EPOCH_EPOCH e s
  let downs := s1.ocl.downs
  let s2 := doIf (downs.contains 0) dropHosted (doIf (downs.contains 1) regainProducts { s1 with ocl.downs := [] })
  let s3 := dropAbsent (regainAbsent (showChain (activatePort 1 (activatePort 0 (forgetSilent 1 (forgetSilent 0 s2))))))
  answerBarriers (passBarrier (takeOffers (passOwnership s3)))

/-- EPOCH from upstream: the boundary lies CORR and the hop delay before its arrival, and its effects follow at once (R369). -/
def epochFrame (p src : Nat) (l : List Byte) (s : State) : State :=
  if p ≠ 0 then s
  else
    let s1 := setF fOCL_STAT_BCAST_CNT (leAt l 7 1 % 8) { s with
      ocl.boundary := now s - BitVec.ofNat 48 (leAt l 4 2 + hopDelay 0 s), ocl.mask := leAt l 6 1, ocl.head := src }
    let s2 := showChain s1
    if leAt l 0 4 = epochNow s then s2 else boundaryEffects (leAt l 0 4) s2

def execEpoch (p : Nat) (body : List Byte) (resid : Nat) (s : State) : Host.Outcome State Fault Refusal :=
  .next (receiveFrame p 0x11 body (fun l t => addCorr 4 (hopDelay p t + resid) l) (epochFrame p (frameSrc body)) s)

/-- The unit's own boundary, 200,000 ticks after the last: the head sends EPOCH; a unit that has missed one sets EPOCH_MISS. With the ports
disabled only what a broken port left is resolved (R369, R373). -/
def epochBoundary (s : State) : State :=
  if getB fOCL_CFG_EN s = false then
    doIf (s.ocl.downs.contains 0) dropHosted (doIf (s.ocl.downs.contains 1) regainProducts { s with ocl.downs := [] })
  else if (now s - s.ocl.boundary).toNat < 200000 then s
  else
    let e := (epochNow s + 1) % 2 ^ 32
    let s1 := { s with ocl.boundary := s.ocl.boundary + 200000 }
    let s2 :=
      if isHead s1 then
        sendOcing 1 0x11 0xFF (leBytes 4 e ++ leBytes 2 0 ++ leBytes 1 (presentMask s1) ++ leBytes 1 (getF fOCL_STAT_BCAST_CNT s1)) s1
      else raiseSimple srcOcing clsNote false 0 (setB fOCL_STAT_EPOCH_MISS true s1)
    boundaryEffects e s2

def execEpochBoundary (s : State) : Host.Outcome State Fault Refusal := .next (epochBoundary s)

/-! ### Barriers (R374) -/

/-- The last barrier, as OCL_BARRIER_STAT shows it. One that is heard again keeps its acknowledgements. -/
def recordBarrier (t e : Nat) (s : State) : State :=
  if s.ocl.barrier = some (t, e) then s
  else setF fOCL_BARRIER_STAT_TICKET t (setF fOCL_BARRIER_STAT_ACKS 0 (setF fOCL_BARRIER_STAT_EPOCH e { s with ocl.barrier := some (t, e) }))

/-- BARRIER leaves to every unit. -/
def sendBarrier (l : List Byte) (s : State) : State := sendOcing 1 0x30 0xFF l (sendOcing 0 0x30 0xFF l s)

/-- An epoch at least ten ahead of the present one. -/
def farEnough (e : Nat) (s : State) : Bool :=
  let d := (e + 2 ^ 32 - epochNow s) % 2 ^ 32
  decide (10 ≤ d) && decide (d < 2 ^ 31)

/-- OCL_BARRIER: the head broadcasts the barrier; another unit asks the head to, with a BARRIER frame to it alone (R374; log entry 85). The
answer comes later. -/
def serveBarrier : Serve := fun q tag noResp p s =>
  if p.length ≠ 5 then reply hsBadLength [] s
  else if oclState 0 s ≠ 3 ∧ oclState 1 s ≠ 3 then reply hsNotInChain [] s
  else if farEnough (leAt p 1 4) s = false then reply hsBadArg [] s
  else if s.ocl.barrier.isSome then reply hsBusy [] s
  else
    let w : BarrierWait := { q := q, tag := tag, noResp := noResp, ticket := leAt p 0 1, epoch := leAt p 1 4 }
    let s1 := recordBarrier w.ticket w.epoch { s with ocl.waits := s.ocl.waits ++ [w] }
    (none, if isHead s1 then sendBarrier p s1 else sendOcing 0 0x30 s1.ocl.head p s1)

def execOclBarrier (q : Nat) (entry : List Byte) (readable : Bool) (payload : List Byte) (s : State) : Host.Outcome State Fault Refusal :=
  .next (takeMessage 0x20 q entry readable payload serveBarrier s)

/-- BARRIER, from the head or, at the head, from the unit whose host has ordered it. -/
def barrierFrame (dst : Nat) (l : List Byte) (s : State) : State :=
  let s1 := recordBarrier (leAt l 0 1) (leAt l 1 4) s
  if dst ≠ 0xFF ∧ isHead s1 then sendBarrier l s1 else s1

def execBarrier (p : Nat) (body : List Byte) (s : State) : Host.Outcome State Fault Refusal :=
  .next (receiveFrame p 0x30 body unchanged (barrierFrame (frameDst body)) s)

/-- BARRIER_ACK: the unit stands in the ack mask of its ticket. -/
def barrierAckFrame (src : Nat) (l : List Byte) (s : State) : State :=
  if leAt l 0 1 = getF fOCL_BARRIER_STAT_TICKET s then
    answerBarriers (setF fOCL_BARRIER_STAT_ACKS (getF fOCL_BARRIER_STAT_ACKS s ||| 2 ^ src) s)
  else s

def execBarrierAck (p : Nat) (body : List Byte) (s : State) : Host.Outcome State Fault Refusal :=
  .next (receiveFrame p 0x31 body unchanged (barrierAckFrame (frameSrc body)) s)

end Sys2Proof.Machine
end

