-- ==== Sys2Proof/Machine/Motors.lean ====
section
/-! DEFINITION. Motor channels and bus monitors (R325 to R344). -/

namespace Sys2Proof.Machine

def busOf (m : Nat) (s : State) : Bus := s.buses.getD m {}
def modBus (m : Nat) (f : Bus → Bus) (s : State) : State := { s with buses := s.buses.set m (f (busOf m s)) }

/-- STATE of a channel: 0 OFF, 1 CATCH, 2 START, 3 RUN, 4 TRIPPED. -/
def mcState (c : Nat) (s : State) : Nat := getF (fMC_STAT_STATE c) s

/-- The bus of a channel. -/
def busIdx (c : Nat) (s : State) : Nat := getF (fMC_CFG_BUS c) s

/-- Ticks of a sample period T_cs (R328). -/
def samplePeriod (c : Nat) (s : State) : Nat := (getF (fMC_CFG_SAMP_DIV_M1 c) s + 1) * getF (fMC_PWM_PER c) s

/-- The reference engine is STOPPED or FAULTED (R336). -/
def refLost (c : Nat) (s : State) : Bool :=
  let st := engState (.ce (getF (fMC_CFG_REF_CE c) s)) s
  decide (st = 0) || decide (st = 3)

/-- The committed output of the reference engine (R328). -/
def refY (c i : Nat) (s : State) : Word := s.reg (rCE_Y (getF (fMC_CFG_REF_CE c) s) i)

/-! ### State changes (R328, R337, R339, R344) -/

/-- The channel trips: its outputs go low (R344), and a laser channel coupled to it is gated (R302). -/
def trip (c cause : Nat) (s : State) : State := if mcState c s = 4 then s else polygonSample c (tripChannel c cause s)

/-- Two numbers of opposite signs. -/
def opposes (a b : Int) : Bool := (decide (a < 0) && decide (0 < b)) || (decide (0 < a) && decide (b < 0))

/-- The rotor turns against DIR faster than the threshold (R338). -/
def reversed (c : Nat) (w : Int) (s : State) : Bool :=
  opposes w (if getB (fMC_CTL_DIR c) s then -1 else 1) &&
  decide (mcF c (fMC_SPD_REV_THR c) s * mcF c (fMC_SPD_RATED c) s * 1000 < 256 * w.natAbs)

/-- The channel enters RUN with its integrators zero and the direction tested (R328, R338). -/
def enterRun (c : Nat) (s : State) : State :=
  setB (fMC_STAT_REV_DEFERRED c) (reversed c (motorOf c s).omega s)
    (setF (fMC_STAT_STATE c) 3 (modMotor c (fun x => { x with intD := 0, intQ := 0, phase := 0, skips := 0 }) s))

/-- The channel moves to OFF, its outputs low from the next carrier period (R339, R344), and a laser channel coupled to it is gated (R302). -/
def enterOff (c : Nat) (s : State) : State :=
  let low (x : Motor) : Motor := { x with waiting := some (none, []), intD := 0, intQ := 0, hSign := 0, sync := 0, dwell := 0, phase := 0 }
  let s1 := setF (fMC_STAT_STATE c) 0 (modMotor c low s)
  let s2 := forAll [fMC_STAT_CAUGHT c, fMC_STAT_REV_DEFERRED c, fMC_STAT_AT_SPEED c, fMC_STAT_REGEN_LIMITED c, fMC_STAT_PREDICTING c,
    fMC_STAT_OBS_LOST c] (fun f => setB f false) s1
  buCheck c (polygonSample c (clearQuantities c s2))

/-- START (R337). -/
def mcStart (c : Nat) (s : State) : State :=
  if mcState c s ≠ 0 ∨ getB (fMC_CFG_EN c) s = false ∨ (motorOf c s).fltLow ∨ getB (fBUS_STAT_VALID (busIdx c s)) s = false then
    setB (fMC_STAT_START_REFUSED c) true s
  else match getF (fMC_CFG_ANG_SRC c) s with
    | 0 => if mcF c (fMC_ENC_CPR c) s = 0 then trip c 4 s else enterRun c s
    | 2 => enterRun c s
    | _ => setF (fMC_STAT_STATE c) 1 (modMotor c (fun x => { x with since := now s }) s)

def execMcStart (c : Nat) (s : State) : Host.Outcome State Fault Refusal := .next (if c < 6 then hostAccess (mcStart c) s else s)

/-- The phase-voltage measurement of CATCH_T ends with the back-EMF amplitude, as a code, and its angle and speed (R337). -/
def catchEnd (c code angle : Nat) (speed : Int) (s : State) : State :=
  if mcState c s ≠ 1 ∨ (now s - (motorOf c s).since).toNat < 200 * max 1 (mcF c (fMC_CATCH_CATCH_T c) s) then s
  else if mcF c (fMC_SPD_CATCH_VMIN c) s ≤ code * mcF c (fMC_SCALE_PV_SCALE c) s then
    let s1 := (s.setReg (rMC_Q c 12) (BitVec.ofNat 48 (angle % 2 ^ 32))).setReg (rMC_Q c 13) (BitVec.ofInt 48 speed)
    let s2 := modMotor c (fun x => { x with since := now s, sync := mcF c (fMC_CATCH_SYNC_N c) s, omega := speed }) s1
    enterRun c (setB (fMC_STAT_CAUGHT c) true s2)
  else setF (fMC_STAT_STATE c) 2 (modMotor c (fun x => { x with intD := 0, intQ := 0, phase := 0, skips := 0, polPos := 0, polNeg := 0 }) s)

def execCatchEnd (c code angle : Nat) (speed : Int) (s : State) : Host.Outcome State Fault Refusal :=
  .next (if c < 6 then catchEnd c code angle speed s else s)

/-- STOP (R339): a tripped channel leaves TRIPPED by CLEAR only. -/
def mcStop (c : Nat) (s : State) : State := if mcState c s = 1 ∨ mcState c s = 2 ∨ mcState c s = 3 then enterOff c s else s

def execMcStop (c : Nat) (s : State) : Host.Outcome State Fault Refusal := .next (if c < 6 then hostAccess (mcStop c) s else s)

/-- The cause of a trip has gone (R344). In DEVICE_SAFE, which only a reset leaves, every channel stays TRIPPED (R434). -/
def causeGone (c : Nat) (s : State) : Bool := !getB fFLT_REC_DEVICE_SAFE s && match getF (fMC_STAT_TRIP_CAUSE c) s with
  | 2 => !(motorOf c s).fltLow
  | 3 => match (busOf (busIdx c s) s).thr with
    | some t => decide (getF (fBUS_STAT_V (busIdx c s)) s < 100 * t.soft)
    | none => true
  | _ => true

/-- CLEAR (R344). -/
def mcClear (c : Nat) (s : State) : State :=
  if mcState c s = 4 ∧ causeGone c s then enterOff c (setF (fMC_STAT_TRIP_CAUSE c) 0 s) else s

def execMcClear (c : Nat) (s : State) : Host.Outcome State Fault Refusal := .next (if c < 6 then mcClear c s else s)

/-- A write of MCn_CTL: DIR is kept; STOP acts before CLEAR and excludes START. -/
def mcCtlWrite (c v : Nat) (s : State) : State :=
  let s1 := plainWrite (rMC_CTL c) v s
  let s2 := if fieldOf (fMC_CTL_STOP c) v = 1 then mcStop c s1 else s1
  let s3 := if fieldOf (fMC_CTL_CLEAR c) v = 1 then mcClear c s2 else s2
  if fieldOf (fMC_CTL_START c) v = 1 ∧ fieldOf (fMC_CTL_STOP c) v = 0 then mcStart c s3 else s3

/-- The channels of a pair that are both enabled have the same PER (R326). -/
def pairAgrees (c : Nat) (s : State) : Bool :=
  let a := c / 2 * 2
  !(getB (fMC_CFG_EN a) s && getB (fMC_CFG_EN (a + 1)) s) || decide (getF (fMC_PWM_PER a) s = getF (fMC_PWM_PER (a + 1)) s)

/-- A write of MCn_CFG or MCn_PWM: accepted only while the channel is OFF and where it keeps the pair's periods equal (R326); the carrier
follows EN. -/
def mcConfigWrite (a v : Nat) (s : State) : State :=
  match (List.range 6).find? fun c => decide (a = rMC_CFG c) || decide (a = rMC_PWM c) with
  | none => s
  | some c =>
    let t := plainWrite a v s
    if mcState c s = 0 ∧ pairAgrees c t then carrierFollows c t else setB (fMC_STAT_CFG_REFUSED c) true s

def execMcConfigWrite (addr value : Nat) (s : State) : Host.Outcome State Fault Refusal := .next (hostAccess (mcConfigWrite addr value) s)

/-- The gate-driver fault input has been low for two ticks, or has gone high (R344). -/
def execGateFault (c : Nat) (low : Bool) (s : State) : Host.Outcome State Fault Refusal :=
  .next (if c < 6 then (let s1 := modMotor c (fun x => { x with fltLow := low }) s; if low then trip c 2 s1 else s1) else s)

/-- TMO ms have passed in WAIT_DATA (R346). -/
def execBuTimeout (c : Nat) (s : State) : Host.Outcome State Fault Refusal := .next (if c < 6 then buTimeout c s else s)

/-! ### Rotor angle (R334 to R337) -/

/-- An angle of turns `num` / `den`, as 2^-32 turn. -/
def turnOf (num : Int) (den : Nat) : Nat := codeOf 32 (roundOpen (num * 2 ^ 32) den)

/-- θ and ω from the encoder (R334); a difference of counts is taken modulo 2^40, as the count is (R47). A CPR of zero, or fewer than eight
samples of history, leave a value open. -/
def encoderAngle (c : Nat) (s : State) : (Nat × Int) × State :=
  let cpr : Nat := mcF c (fMC_ENC_CPR c) s
  let pp := max 1 (getF (fMC_CFG_PP c) s)
  let n := getI (fTRK_ENC_COUNT_COUNT (getF (fMC_CFG_ENC c) s)) s
  if cpr = 0 then
    let a := drawFree s
    let b := drawFree a.2
    ((a.1 % 2 ^ 32, signedOf 48 (b.1 % 2 ^ 48)), b.2)
  else
    let th := (turnOf ((n % (cpr : Int)) * pp) cpr + 256 * mcF c (fMC_ENC_OFS c) s) % 2 ^ 32
    match (motorOf c s).counts[7]? with
    | some old => ((th, roundOpen (signedOf 40 (codeOf 40 (n - old)) * pp * 1000 * ticksPerSecond) (cpr * 8 * samplePeriod c s)), s)
    | none =>
      let b := drawFree s
      ((th, signedOf 48 (b.1 % 2 ^ 48)), b.2)

/-- The weight of the observer as a fraction (R336). -/
def blendWeight (c : Nat) (s : State) : Int × Nat :=
  let rated := 1000 * mcF c (fMC_SPD_RATED c) s
  let w := 100 * (motorOf c s).omega.natAbs
  if refLost c s then (0, 1)
  else if rated = 0 ∨ 5 * rated ≤ w then (1, 1)
  else if w ≤ 3 * rated then (0, 1)
  else ((w : Int) - 3 * rated, 2 * rated)

/-- θ, ω and the injection amplitude in mV that ANG_SRC gives in RUN, with the injection's angle and speed (R334 to R336). -/
def sourceAngle (c : Nat) (s : State) : (Nat × Int × Int) × State :=
  let x := motorOf c s
  let vh : Int := mcF c (fMC_HFI_V_HFI c) s
  let obsA : Nat := (refY c (getF (fMC_CFG_OBS_ANG_Y c) s) s).toNat % 2 ^ 32
  let obsW := (refY c (getF (fMC_CFG_OBS_SPD_Y c) s) s).toInt
  match getF (fMC_CFG_ANG_SRC c) s with
  | 0 => let r := encoderAngle c s; ((r.1.1, r.1.2, 0), r.2)
  | 1 =>
    let w := blendWeight c s
    let d := signedOf 32 (codeOf 32 ((obsA : Int) - x.hAng))
    let th := codeOf 32 ((x.hAng : Int) + roundOpen (w.1 * d) w.2)
    ((th, x.hSpd + roundOpen (w.1 * (obsW - x.hSpd)) w.2, roundOpen (vh * ((w.2 : Int) - w.1)) w.2), s)
  | 2 => ((obsA, obsW, 0), s)
  | _ => ((x.hAng, x.hSpd, vh), s)

/-- θ, ω and the injection amplitude of a sample. START takes the injection's angle; for the first SYNC_N samples after a catch θ is the
catch angle advanced at the catch speed, and the injection is the source's own (R328, R334 to R337). -/
def rotorAngle (c : Nat) (s : State) : (Nat × Int × Int) × State :=
  let x := motorOf c s
  if mcState c s = 2 then ((x.hAng, x.hSpd, (mcF c (fMC_HFI_V_HFI c) s : Int)), s)
  else
    let r := sourceAngle c s
    if 0 < x.sync then
      let spd := (s.reg (rMC_Q c 13)).toInt
      let adv := codeOf 32 (roundOpen (spd * (now s - x.since).toNat * 2 ^ 32) (1000 * ticksPerSecond))
      ((((s.reg (rMC_Q c 12)).toNat + adv) % 2 ^ 32, spd, r.1.2.2), r.2)
    else r

/-! ### Current measurement (R330 to R333) -/

/-- The indices of the three phases from the highest on-time to the lowest. -/
def phaseOrder (l : List Nat) : List Nat :=
  let a := l.getD 0 0
  let b := l.getD 1 0
  let c := l.getD 2 0
  if b ≤ a ∧ c ≤ a then (if c ≤ b then [0, 1, 2] else [0, 2, 1])
  else if c ≤ b then (if c ≤ a then [1, 0, 2] else [1, 2, 0])
  else (if b ≤ a then [2, 0, 1] else [2, 1, 0])

/-- The pulse of a phase may move earlier by `sh` ticks without passing the carrier's top or bottom (R332). -/
def edgeFits (per on sh : Nat) : Bool := decide (2 * sh ≤ per - on) && decide (2 * sh ≤ on)

/-- How a sample's windows stand: measured as they are, widened by moving the edges of the phases earlier by so many ticks, or short where a
shift does not fit. -/
inductive Window where
  | ok
  | widened (shifts : List Nat)
  | short
  deriving DecidableEq, Repr

/-- Half of what a doubled length lacks, rounded up; zero where it lacks nothing. -/
def shortfall (need have_ : Int) : Nat := (((need - have_) + 1) / 2).toNat

/-- The windows of a sample at the on-times in force, and what widening would give (R330 to R332). -/
def sampleWindow (c : Nat) (l : List Nat) (s : State) : Window :=
  let per := getF (fMC_PWM_PER c) s
  let base := getF (fMC_PWM_DT c) s + getF (fMC_PWM_T_SETTLE c) s
  let o := phaseOrder l
  let hi := l.getD (o.getD 0 0) 0
  let mid := l.getD (o.getD 1 0) 0
  let lo := l.getD (o.getD 2 0) 0
  let at_ (a b : Nat) : List Nat := (List.range 3).map fun k => if o.getD 0 0 = k then a else if o.getD 1 0 = k then b else 0
  if getB (fMC_CFG_SHUNT c) s then
    let need : Int := 2 * (base + 40 : Nat)
    let s2 := shortfall need ((mid : Int) - lo)
    let s1 := shortfall need ((hi : Int) - mid - 2 * s2)
    if s1 = 0 ∧ s2 = 0 then .ok
    else if (s2 = 0 ∨ edgeFits per mid s2) ∧ (s1 = 0 ∨ edgeFits per hi s1) then .widened (at_ s1 s2)
    else .short
  else
    let need := base + 80
    let have_ := per - mid
    if need ≤ have_ then .ok
    else if edgeFits per mid (need - have_) then .widened (at_ 0 (need - have_)) else .short

/-- A shunt code as a current in mA. -/
def shuntCurrent (c : Nat) (code : Int) (s : State) : Int := roundOpen (code * mcF c (fMC_SCALE_I_SCALE c) s) 1000

/-- The phase currents measured from the shunt codes (R330, R331). -/
def measured (c : Nat) (l : List Nat) (codes : List Int) (s : State) : List Int :=
  let i := codes.map fun k => shuntCurrent c k s
  let o := phaseOrder l
  let put (a b d : Int) : List Int := (List.range 3).map fun k =>
    if o.getD 0 0 = k then a else if o.getD 1 0 = k then b else d
  if getB (fMC_CFG_SHUNT c) s then
    let s1 := i.getD 0 0
    let s2 := i.getD 1 0
    put s1 (s2 - s1) (-s2)
  else
    let b := i.getD (o.getD 1 0) 0
    let d := i.getD (o.getD 2 0) 0
    put (-(b + d)) b d

/-- What a sample gives: the phase currents, the d and q currents, and whether they were measured. -/
structure Sample where
  abc : List Int
  d : Int
  q : Int
  real : Bool

/-- The measurement or the prediction of a sample (R330 to R332). -/
def takeSample (c th : Nat) (codes : List Int) (s : State) : Sample × State :=
  let x := motorOf c s
  match x.gate with
  | none => (⟨[0, 0, 0], 0, 0, false⟩, s)
  | some l =>
    let w := sampleWindow c l s
    let widen := decide (getF (fMC_PWM_SKIP_MAX c) s ≤ x.skips)
    let meas (t : State) : Sample × State :=
      let i := measured c l codes t
      let r := Config.park (i.getD 0 0) (i.getD 1 0) (i.getD 2 0) th
      (⟨i, r.1, r.2, true⟩, setB (fMC_STAT_PREDICTING c) false (modMotor c (fun y => { y with lastD := r.1, lastQ := r.2, skips := 0 }) t))
    let pred (t : State) : Sample × State :=
      let r := Config.inversePark x.lastD x.lastQ th
      (⟨[r.1, r.2.1, r.2.2], x.lastD, x.lastQ, false⟩,
        addMod (fMC_CNT_PREDICTS c) 1 (setB (fMC_STAT_PREDICTING c) true (modMotor c (fun y => { y with skips := y.skips + 1 }) t)))
    match w with
    | .ok => meas s
    | .widened l => if widen then meas (addSat (fMC_CNT_SHIFTS c) (l.filter (· ≠ 0)).length s) else pred s
    | .short => pred (if widen then incSat (fMC_CNT_SHIFT_FAIL c) s else s)

/-! ### The current loop (R328, R338, R342) -/

/-- A square root held to a whole number; an inexact one is rounded either way. -/
def sqrtOpen (n : Nat) : Nat := let r := isqrt n; if r * r = n then r else if Config.roundsUp n 2 then r + 1 else r

/-- The regeneration limit in force, mA (R341, R342). -/
def regenLimit (c : Nat) (s : State) : Nat :=
  let m := busIdx c s
  let v := getF (fBUS_STAT_V m) s
  let i := mcF c (fMC_REGEN_I_REGEN_MAX c) s
  match (busOf m s).thr with
  | none => 0
  | some t =>
    if getB (fBUS_STAT_VALID m) s = false ∨ getB (fBUS_STAT_SOFT_ACTIVE m) s then 0
    else if v ≤ 100 * t.limLo then i
    else if 100 * t.limHi ≤ v then 0
    else (roundOpen (i * (100 * t.limHi - v) : Nat) (100 * (t.limHi - t.limLo))).toNat

/-- iq_ref after the deferral and the regeneration clamp, whether the rotor turns against DIR, and whether the reference was clamped. The
sample at which the deferral ends still brakes: the engine's reference is used from the next one (R338). -/
def torqueRef (c : Nat) (w : Int) (s : State) : Int × Bool × Bool :=
  let rev := reversed c w s
  let want : Int := if rev || getB (fMC_STAT_REV_DEFERRED c) s then -(w.sign) * mcF c (fMC_CATCH_DECEL_I c) s
    else (refY c (getF (fMC_CFG_IQ_Y c) s) s).toInt
  let lim := regenLimit c s
  if opposes want w ∧ lim < want.natAbs then (want.sign * lim, rev, true) else (want, rev, false)

/-- The references of START: no torque, and d current by the steps of R337. -/
def startRef (c : Nat) (s : State) : Int :=
  let k := (motorOf c s).phase
  let lock := max 1 (mcF c (fMC_HFI_LOCK_N c) s)
  let pol := 8 * max 1 (mcF c (fMC_HFI_POL_N c) s)
  let i : Int := mcF c (fMC_HFI_I_POL c) s
  if k < lock then 0 else if k < lock + pol then i else -i

/-- The sign of the injection at this sample (R335). -/
def injectionSign (c : Nat) (s : State) : Int :=
  let half := match mcF c (fMC_HFI_HFI_DIV c) s with
    | 0 => 1
    | 1 => 2
    | _ => 4
  if (motorOf c s).phase / half % 2 = 0 then 1 else -1

/-- An on-time as the phase makes it: an on-pulse of either switch that is shorter than the dead time in a half-period is not emitted, and
the phase stays at its other switch for that half-period (R327). -/
def onTime (per dt : Nat) (x : Int) : Nat :=
  let t := (clampInt 0 per x).toNat
  if t / 2 < dt then 0 else if (per - t) / 2 < dt then per else t

/-- The on-times of a carrier period from the phase voltages, both in mV / 200,000,000; a bus voltage of zero leaves them open (R327,
R328). -/
def onTimes (c : Nat) (v : List Int) (vbus : Int) (s : State) : List Nat × State :=
  let per := getF (fMC_PWM_PER c) s
  let held := onTime per (getF (fMC_PWM_DT c) s)
  let mx := v.foldl max (v.headD 0)
  let mn := v.foldl min (v.headD 0)
  if vbus ≤ 0 then
    let a := drawFree s
    let b := drawFree a.2
    let d := drawFree b.2
    ([held a.1, held b.1, held d.1], d.2)
  else (v.map fun x => held (roundOpen (per * (vbus + 2 * x - mx - mn)) (2 * vbus.toNat)), s)

/-- The gate commands of a phase in a carrier period of `per` ticks: the pulse of `on` ticks stands about the middle, `sh` ticks earlier
where a window is widened. The dead time runs before every turn-on edge, so the two switches are never both on (R327, R332). `was` says that
the high side is on as the period begins. -/
def phaseGate (per dt on sh : Nat) (was : Bool) : PhaseGate :=
  let rise := (per - on) / 2 - sh
  let fall := rise + on
  let start := if rise = 0 ∧ was then 0 else rise + dt
  let from_ := if was then dt else 0
  if fall ≤ start then { high := none, low := if from_ < per then [(from_, per)] else [] }
  else { high := some (start, fall), low := [(from_, rise), (fall + dt, per)].filter fun x => decide (x.1 < x.2) }

/-- The phase ends its period with the high side on. -/
def endsHigh (per : Nat) (g : PhaseGate) : Bool := g.high.any fun x => decide (x.2 = per)

/-- The gate commands of the three phases in the next sampled period: after SKIP_MAX predicted samples in a row its short windows are
widened (R332). -/
def gateCommands (c : Nat) (l : List Nat) (s : State) : List PhaseGate :=
  let per := getF (fMC_PWM_PER c) s
  let x := motorOf c s
  let sh : List Nat := match sampleWindow c l s with
    | .widened k => if getF (fMC_PWM_SKIP_MAX c) s ≤ x.skips then k else []
    | _ => []
  l.zipIdx.map fun y => phaseGate per (getF (fMC_PWM_DT c) s) y.1 (sh.getD y.2 0) ((x.gates[y.2]?).any (endsHigh per))

/-- The current control of a sample in START or RUN: references, regulators, limits, and the duties of the next carrier period (R328). -/
def currentControl (c th : Nat) (w inj iqRef idRef : Int) (x : Sample) (s : State) : State :=
  let kp : Int := mcF c (fMC_CUR_KP c) s
  let ki : Int := mcF c (fMC_CUR_KI c) s
  let m := motorOf c s
  let ed := idRef - x.d
  let eq := iqRef - x.q
  let unit : Int := 200000000
  let vbus : Int := getF (fBUS_STAT_V (busIdx c s)) s
  let vmax : Int := sqrtOpen ((min 256 (getF (fMC_PWM_VLIM c) s) * vbus.toNat * 200000000) ^ 2 / 196608)
  let vd0 := kp * ed * 200000 + m.intD
  let vq0 := kp * eq * 200000 + m.intQ
  let vd := clampInt (-vmax) vmax vd0
  let room : Int := sqrtOpen (vmax ^ 2 - vd ^ 2).toNat
  let vq := clampInt (-room) room vq0
  let per : Int := samplePeriod c s
  let m1 : Motor := { m with
    intD := if vd = vd0 then m.intD + ki * ed * per else m.intD
    intQ := if vq = vq0 then m.intQ + ki * eq * per else m.intQ }
  let vdApplied := vd + inj * injectionSign c s * unit
  let lead := roundOpen (w * getF (fMC_PWM_PER c) s * 75 * 2 ^ 32) (10 ^ 13)
  let v := Config.inversePark vdApplied vq (codeOf 32 ((th : Int) + lead))
  let r := onTimes c [v.1, v.2.1, v.2.2] (vbus * unit) s
  let s1 := modMotor c (fun _ => { m1 with waiting := some (some r.1, gateCommands c r.1 r.2) }) r.2
  (s1.setReg (rMC_Q c 5) (BitVec.ofInt 48 (roundOpen vdApplied 200000000))).setReg (rMC_Q c 6) (BitVec.ofInt 48 (roundOpen vq 200000000))

/-! ### A current sample (R328, R329) -/

/-- A quantity is published. -/
def putQ (c q : Nat) (v : Int) (s : State) : State := s.setReg (rMC_Q c q) (BitVec.ofInt 48 v)

/-- AT_SPEED (R340). -/
def atSpeed (c : Nat) (mech : Int) (s : State) : State :=
  let tgt := mcF c (fMC_ATSPD_SPD_TGT c) s
  let near := decide (256 * (mech - tgt).natAbs ≤ tgt * mcF c (fMC_ATSPD_AT_TOL c) s)
  if mcState c s = 3 ∧ near then
    let d := (motorOf c s).dwell + 1
    let s1 := modMotor c (fun x => { x with dwell := d }) s
    if max 1 (mcF c (fMC_ATSPD_AT_DWELL c) s) ≤ d then setB (fMC_STAT_AT_SPEED c) true s1 else s1
  else setB (fMC_STAT_AT_SPEED c) false (modMotor c (fun x => { x with dwell := 0 }) s)

/-- The injection of a sample is tracked: the q current that follows the last injection, taken with its sign, is the ripple that the loop
takes to its next angle and speed (R335). -/
def trackInjection (c : Nat) (inj q : Int) (s : State) : State :=
  let x := motorOf c s
  let sign := if inj = 0 then 0 else injectionSign c s
  let ripple := x.hSign * (q - x.hQ)
  let r := Config.hfiTrack x.hAng x.hSpd ripple (mcF c (fMC_HFI_V_HFI c) s) (samplePeriod c s)
  modMotor c (fun y => { y with hAng := r.1 % 2 ^ 32, hSpd := r.2, hSign := sign, hQ := q }) s

/-- The injection is in use: in START, and in RUN with ANG_SRC 1 or 3 (R328, R335). -/
def injects (c : Nat) (s : State) : Bool :=
  decide (mcState c s = 2) || decide (getF (fMC_CFG_ANG_SRC c) s = 1) || decide (getF (fMC_CFG_ANG_SRC c) s = 3)

/-- The d current of a polarity step, from the sample after the step's first reference to the one after its last (R337). -/
def polarityResponse (c : Nat) (d : Int) (s : State) : State :=
  let k := (motorOf c s).phase
  let lock := max 1 (mcF c (fMC_HFI_LOCK_N c) s)
  let pol := 8 * max 1 (mcF c (fMC_HFI_POL_N c) s)
  if k ≤ lock then s
  else if k ≤ lock + pol then modMotor c (fun x => { x with polPos := max x.polPos d.natAbs }) s
  else modMotor c (fun x => { x with polNeg := max x.polNeg d.natAbs }) s

/-- START has driven both polarity steps: the larger response names the magnet's polarity, and the angle turns by half a turn where that is
the one to −I_POL; the channel enters RUN (R337). -/
def resolvePolarity (c : Nat) (s : State) : State :=
  enterRun c (modMotor c (fun x => { x with
    hAng := if x.polPos < x.polNeg then (x.hAng + 2 ^ 31) % 2 ^ 32 else x.hAng
    omega := x.hSpd }) s)

/-- The step of START after its sample: an injection loop that has not converged within LOCK_N samples trips the channel; after both
polarity steps it enters RUN (R337). -/
def startStep (c : Nat) (s : State) : State :=
  let x := motorOf c s
  let k := x.phase + 1
  let lock := max 1 (mcF c (fMC_HFI_LOCK_N c) s)
  let s1 := modMotor c (fun x => { x with phase := k }) s
  if k = lock ∧ Config.hfiConverged x.hAng x.hSpd (x.hSign * x.hQ) = false then trip c 4 s1
  else if lock + 16 * max 1 (mcF c (fMC_HFI_POL_N c) s) ≤ k then resolvePolarity c s1 else s1

/-- A sample with the outputs switching, in START or RUN. -/
def activeSample (c : Nat) (th : Nat) (w inj : Int) (codes : List Int) (s : State) : State :=
  let r := takeSample c th codes s
  let x := r.1
  let m := motorOf c s
  let s0 := forAll [(0, x.abc.getD 0 0), (1, x.abc.getD 1 0), (2, x.abc.getD 2 0), (3, x.d), (4, x.q), (7, (th : Int)), (8, w),
    (10, (m.hAng : Int)), (11, m.hSpd)] (fun p => putQ c p.1 p.2) r.2
  let s1 := doIf (injects c s0) (trackInjection c inj x.q) s0
  if x.real ∧ (x.abc.any fun i => decide (100 * max 1 (mcF c (fMC_CUR_I_TRIP c) s) < i.natAbs)) then trip c 1 s1
  else if mcState c s = 2 then startStep c (polarityResponse c x.d (currentControl c th w inj 0 (startRef c s1) x s1))
  else
    let t := torqueRef c w s1
    let s2 := setB (fMC_STAT_REGEN_LIMITED c) t.2.2 (setB (fMC_STAT_REV_DEFERRED c) t.2.1 s1)
    let idRef := if getB (fMC_CFG_ID_SRC c) s2 then (refY c (getF (fMC_CFG_ID_Y c) s2) s2).toInt else (mcReg c (rMC_ID_REF c) s2).toInt
    modMotor c (fun y => { y with phase := y.phase + 1, sync := y.sync - 1 }) (currentControl c th w inj t.1 idRef x s2)

/-- The status word of quantity 15 (R329). -/
def motorStatus (c : Nat) (s : State) : Int := wordGet (s.reg (rMC_STAT c)) 0 12 + 4096 * getF (fMC_BU_STAT_STATE c) s

/-- A current sample with the shunt codes (R328 to R340). -/
def currentSample (c : Nat) (codes : List Int) (s0 : State) : State :=
  let early : Bool := match (motorOf c s0).sampAt with
    | some t => decide ((now s0 - t).toNat < samplePeriod c s0)
    | none => false
  if 6 ≤ c ∨ getB (fMC_CFG_EN c) s0 = false ∨ early then s0 else
  let lost := refLost c s0
  let src := getF (fMC_CFG_ANG_SRC c) s0
  let s1 := setB (fMC_STAT_OBS_LOST c) (lost && (src == 1 || src == 2)) (modMotor c (fun x => { x with sampAt := some (now s0) }) s0)
  let s2 := if lost ∧ src = 2 ∧ mcState c s1 = 3 then trip c 4 s1 else s1
  let a := rotorAngle c s2
  let th := a.1.1
  let w := a.1.2.1
  let n := getI (fTRK_ENC_COUNT_COUNT (getF (fMC_CFG_ENC c) s2)) s2
  let s3 := if mcState c a.2 = 2 ∨ mcState c a.2 = 3 then activeSample c th w a.1.2.2 codes a.2 else a.2
  let s4 := modMotor c (fun x => { x with omega := w, counts := (n :: x.counts).take 8 }) s3
  let mech := roundOpen w (max 1 (getF (fMC_CFG_PP c) s4))
  let s5 := atSpeed c mech (putQ c 14 (regenLimit c s4) (putQ c 9 mech s4))
  let s6 := deliver (fun k u _ => k == 1 && u == c) (putQ c 15 (motorStatus c s5) s5)
  buCheckAll (polygonSample c (sourceEvent 1 c s6))

/-- The codes that a channel uses: of its single shunt, or of its three phase shunts (R330, R331). -/
def shuntCodes (c : Nat) (u v w : Int) (dc : Int × Int) (s : State) : List Int :=
  if getB (fMC_CFG_SHUNT c) s then [dc.1, dc.2] else [u, v, w]

def execCurrentSample (c : Nat) (u v w : Int) (dc : Int × Int) (s : State) : Host.Outcome State Fault Refusal :=
  .next (currentSample c (shuntCodes c u v w dc s) s)

/-! ### Bus monitors (R341 to R343) -/

/-- The thresholds as written. -/
def written (m : Nat) (s : State) : Thresholds :=
  { chopOff := getF (fBUS_THR0_CHOP_OFF m) s, chopOn := getF (fBUS_THR0_CHOP_ON m) s, soft := getF (fBUS_THR0_SOFT m) s,
    limLo := getF (fBUS_THR1_LIM_LO m) s, limHi := getF (fBUS_THR1_LIM_HI m) s, hard := getF (fBUS_THR1_HARD m) s }

/-- The set ascends (R341). -/
def ascending (t : Thresholds) : Bool :=
  decide (t.chopOff < t.chopOn) && decide (t.chopOn < t.soft) && decide (t.soft < t.limLo) && decide (t.limLo < t.limHi) &&
  decide (t.limHi < t.hard)

/-- The chopper command for a bus voltage (R342). -/
def chopLevel (m v : Nat) (s : State) : Bool := match (busOf m s).thr with
  | none => false
  | some t => getB (fBUS_CFG_CHOP_EN m) s &&
    (decide (100 * t.chopOn < v) || (getB (fBUS_STAT_CHOP m) s && decide (100 * t.chopOff ≤ v)))

/-- SOFT_ACTIVE: set above SOFT while the chopper is faulty or disabled, until v_bus falls below SOFT − SOFT_HYST (R342). -/
def softLevel (m v : Nat) (s : State) : Bool := match (busOf m s).thr with
  | none => false
  | some t =>
    let bad := getB (fBUS_STAT_CHOP_FAULT m) s || !getB (fBUS_CFG_CHOP_EN m) s
    (bad && decide (100 * t.soft < v)) ||
    (getB (fBUS_STAT_SOFT_ACTIVE m) s && decide (100 * t.soft ≤ v + 100 * getF (fBUS_CFG_SOFT_HYST m) s))

/-- A bus sample: its code and the level of the chopper feedback (R341 to R343). -/
def busSample (m code : Nat) (fb : Bool) (s : State) : State :=
  if 2 ≤ m then s else
  let v := satTo 24 (code * getF (fBUS_CFG_SCALE m) s)
  let w := written m s
  let ok := ascending w
  let s1 := if ok then setB (fBUS_STAT_VALID m) true (modBus m (fun b => { b with thr := some w }) s) else s
  let s2 := setB (fBUS_STAT_FB m) fb (setB (fBUS_STAT_ORDER_ERR m) (!ok) (setF (fBUS_STAT_V m) v s1))
  let was := getB (fBUS_STAT_CHOP m) s2
  let chop := chopLevel m v s2
  let s3 := setB (fBUS_STAT_SOFT_ACTIVE m) (softLevel m v s2) (setB (fBUS_STAT_CHOP m) chop s2)
  let s4 := if chop ≠ was then modBus m (fun b => { b with idleFrom := now s3 }) s3 else s3
  let isHigh := match (busOf m s4).thr with
    | some t => if 100 * t.hard < v then (busOf m s4).high + 1 else 0
    | none => 0
  let s5 := deliver (fun k u _ => k == 9 && u == m) (modBus m (fun b => { b with high := min 2 isHigh }) s4)
  if 2 ≤ isHigh then
    forAll ((List.range 6).filter fun c => decide (busIdx c s5 = m)) (fun c => trip c 3) (setB (fBUS_STAT_HARD_TRIP m) true s5)
  else s5

def execBusSample (m code : Nat) (fb : Bool) (s : State) : Host.Outcome State Fault Refusal := .next (busSample m code fb s)

/-- The feedback has differed from the chopper command for more than 2 µs (R342). -/
def execChopFbMismatch (m : Nat) (s : State) : Host.Outcome State Fault Refusal :=
  .next (if m < 2 then
    raiseSimple srcBusChop clsNote false m
      (setB (fBUS_STAT_CHOP_FAULT m) true (setB (fBUS_STAT_FB m) (!getB (fBUS_STAT_CHOP m) s) s))
  else s)

/-- A chopper that has not switched for 1 s below CHOP_OFF gets a test pulse (R342). -/
def execChopTestPulse (m : Nat) (s : State) : Host.Outcome State Fault Refusal :=
  .next (match (busOf m s).thr with
    | some t =>
      if m < 2 ∧ getB (fBUS_CFG_TEST_EN m) s ∧ getB (fBUS_STAT_CHOP m) s = false ∧ getF (fBUS_STAT_V m) s < 100 * t.chopOff ∧
          ticksPerSecond ≤ (now s - (busOf m s).idleFrom).toNat then
        send (.pulse m) (modBus m (fun b => { b with idleFrom := now s }) s)
      else s
    | none => s)

end Sys2Proof.Machine
end

