-- ==== Sys2Proof/Machine/HostWrite.lean ====
section
/-! DEFINITION. A host access to BAR0: the registers whose write acts, the access rules, and bad addresses (R7 to R10, R24 to R26, R80,
R352). -/

namespace Sys2Proof.Machine

/-! ### Registers whose write acts -/

/-- A write of an engine's control register: ENTRY is kept, then RUN, STOP and DOORBELL act in bit order (R200, R217). -/
def engineCtlWrite (e : Engine) (reg : Nat) (run stop bell : Field) (v : Nat) (s : State) : State :=
  let s1 := plainWrite reg v s
  let s2 := doIf (fieldOf run v == 1) (engineRun e) s1
  let s3 := doIf (fieldOf stop v == 1) (engineStop e) s2
  doIf (fieldOf bell v == 1) (engineDoorbell e) s3

/-- A write of SQn_CTL (R217, R250, R253). -/
def sqCtlWrite (n v : Nat) (s : State) : State :=
  let s1 := engineCtlWrite (.sq n) (rSQ_CTL n) (fSQ_CTL_RUN n) (fSQ_CTL_STOP n) (fSQ_CTL_DOORBELL n) v s
  let s2 := doIf (fieldOf (fSQ_CTL_GIVEBACK n) v == 1) (giveback n) s1
  doIf (fieldOf (fSQ_CTL_RESTORE n) v == 1) (restoreHead n) s2

/-- A write of CEn_CTL (R200, R315). -/
def ceCtlWrite (n v : Nat) (s : State) : State :=
  let s1 := engineCtlWrite (.ce n) (rCE_CTL n) (fCE_CTL_RUN n) (fCE_CTL_STOP n) (fCE_CTL_DOORBELL n) v s
  let s2 := doIf (fieldOf (fCE_CTL_CLEAR_SAFE n) v == 1) (clearSafe n) s1
  doIf (fieldOf (fCE_CTL_FORCE_SAFE n) v == 1) (forceSafe n) s2

/-- A write of MVn_CTL (R200, R393). -/
def mvCtlWrite (n v : Nat) (s : State) : State :=
  engineCtlWrite (.mv n) (rMV_CTL n) (fMV_CTL_RUN n) (fMV_CTL_STOP n) (fMV_CTL_DOORBELL n) v s

/-- A write of SQn_STAT or CEn_STAT: S and O are the engine's own flags, and stay set where the tick has
set them again (R11, R187). -/
def stickyWrite (e : Engine) (fs fo : Field) (v : Nat) (s : State) : State :=
  let s1 := plainWrite fs.reg v s
  modCore e (fun c => { c with fl := { c.fl with s := c.fl.s && getB fs s1, o := c.fl.o && getB fo s1 } }) s1

/-- A write of SCH_LINEn_STAT: LINE_SAFE clears by its own rule (R108). -/
def lineStatWrite (n v : Nat) (s : State) : State :=
  let s1 := plainWrite (rSCH_LINE_STAT n) (withField (fSCH_LINE_STAT_LINE_SAFE n) 0 v) s
  doIf (fieldOf (fSCH_LINE_STAT_LINE_SAFE n) v == 1) (lineSafeExit n) s1

/-- A write of CEn_PG_CMD (R321). -/
def pgCmdWrite (n v : Nat) (s : State) : State :=
  if fieldOf (fCE_PG_CMD_GO n) v = 1 then pgCommand n (fieldOf (fCE_PG_CMD_CMD n) v) s else s

/-- A write of REN_FONT_CMD (R159, R162). -/
def fontCmdWrite (v : Nat) (s : State) : State :=
  doIf (fieldOf fREN_FONT_CMD_UNLOAD v == 1) fontUnload (doIf (fieldOf fREN_FONT_CMD_LOAD v == 1) fontLoad s)

/-- A write of REN_HIMG_CMD (R170). -/
def himgCmdWrite (v : Nat) (s : State) : State :=
  let s1 := plainWrite rREN_HIMG_CMD v s
  doIf (fieldOf fREN_HIMG_CMD_CLEAR v == 1) (himgClear v) (doIf (fieldOf fREN_HIMG_CMD_COMMIT v == 1) (himgCommit v) s1)

/-- A write of TRU_REQ_HDR (R150). -/
def requestHeaderWrite (v : Nat) (s : State) : State :=
  doIf (fieldOf fTRU_REQ_HDR_GO v == 1) mailboxTake (plainWrite rTRU_REQ_HDR v s)

/-- A write of PWR_CMD (R448, R462). Whether the fuses take is not the host's to say. -/
def powerCmdWrite (v : Nat) (s : State) : State :=
  let s1 := plainWrite rPWR_CMD v s
  let s2 := if fieldOf fPWR_CMD_BURN v = 1 then (let d := drawFree s1; planBurn (d.1 % 2 == 1) d.2) else s1
  doIf (fieldOf fPWR_CMD_SNAPSHOT v == 1) (takeSnap 8 none) s2

/-- A write of PWR_VIN that puts WARN at or below RST_LVL is ignored (R471). -/
def vinWrite (v : Nat) (s : State) : State :=
  if fieldOf fPWR_VIN_WARN v ≤ fieldOf fPWR_VIN_RST_LVL v then s else plainWrite rPWR_VIN v s

/-- A bank of registers whose write acts: register (i, j) stands at `base + si * i + sj * j`. -/
structure ActBank where
  base : Nat
  si : Nat
  ni : Nat
  sj : Nat
  nj : Nat
  act : Nat → Nat → Nat → State → State

/-- A single bank. -/
def bank1 (r : Nat → Nat) (n : Nat) (act : Nat → Nat → State → State) : ActBank := ⟨r 0, r 1 - r 0, n, 0, 1, fun i _ => act i⟩

/-- A bank of banks. -/
def bank2 (r : Nat → Nat → Nat) (n m : Nat) (act : Nat → Nat → Nat → State → State) : ActBank := ⟨r 0 0, r 1 0 - r 0 0, n, r 0 1 - r 0 0, m, act⟩

/-- One register. -/
def bank0 (r : Nat) (act : Nat → State → State) : ActBank := ⟨r, 0, 1, 0, 1, fun _ _ => act⟩

/-- Registers of the tracking range. -/
def actTracking : List ActBank := [
  bank1 rTRK_LINE_CTL 4 lineCtlWrite,
  bank1 rTRK_LINE_PRESET 4 linePreset,
  bank1 rTRK_LINE_VIRT 4 (fun n v => virtualSpeed n (BitVec.ofNat 48 v)),
  bank1 rTRK_ENC_CFG 8 encCfgWrite,
  bank1 rTRK_PD_CFG 16 pdCfgWrite,
  bank1 rSCH_LINE_CTL 4 (fun n v => settingWrite (rSCH_LINE_CTL n) v),
  bank1 rSCH_LINE_VMAX 4 vmaxWrite,
  bank1 rSCH_LINE_STAT 4 lineStatWrite,
  bank1 rSCH_LINE_SNAP_REQ 4 (fun n v => doIf (v % 2 == 1) (snapReq n)),
  bank1 rSCH_HEAD_CFG 16 (fun h v => settingWrite (rSCH_HEAD_CFG h) v),
  bank1 rSCH_REJ_CFG 8 (fun r v => settingWrite (rSCH_REJ_CFG r) v),
  bank1 rSCH_REJ_GATE 8 (fun r v => settingWrite (rSCH_REJ_GATE r) v),
  bank0 rSCH_INS_CMD petHostInsert]

/-- Registers of the marking range. -/
def actMarking : List ActBank := [
  bank1 rSQ_CTL 20 sqCtlWrite,
  bank1 rSQ_STAT 20 (fun n => stickyWrite (.sq n) (fSQ_STAT_S n) (fSQ_STAT_O n)),
  bank2 rSQ_MASK 16 128 (fun n i v => maskWrite n i (BitVec.ofNat 32 v)),
  bank1 rHP_CFG 16 hpCfgWrite,
  bank1 rHP_LANE 16 (fun h v => wfSettingWrite (rHP_LANE h) v),
  bank1 rHP_WF 16 (fun h v => wfSettingWrite (rHP_WF h) v),
  bank1 rHP_ALIGN 16 (fun h v => settingWrite (rHP_ALIGN h) v),
  bank1 rHP_ALIGN_CMD 16 alignCmdWrite,
  bank1 rHP_WF_DATA 16 (fun h v => waveAccess h (some v)),
  bank2 rHP_WFLEN 16 8 wflenWrite,
  bank1 rHP_TESTRES 16 testresWrite,
  bank1 rHP_NZCFG 16 nzcfgWrite,
  bank1 rHP_NZ_DATA 16 (fun h v => nozAccess h (some v)),
  ⟨rHP_DLL_CFG 12, 0x1000, 4, 0, 1, fun i _ => dllCfgWrite (12 + i)⟩,
  ⟨rHP_LSR_CFG 12, 0x1000, 4, 0, 1, fun i _ => lsrCfgWrite (12 + i)⟩,
  bank1 rREN_HEAD_CFG 16 (fun h v s => showPair h (showPort h (plainWrite (rREN_HEAD_CFG h) v s))),
  bank0 rREN_FONT_CMD fontCmdWrite,
  bank0 rREN_HIMG_CMD himgCmdWrite]

/-- Registers of the motion range. -/
def actMotion : List ActBank := [
  bank1 rCE_CTL 8 ceCtlWrite,
  bank1 rCE_STAT 8 (fun n => stickyWrite (.ce n) (fCE_STAT_S n) (fCE_STAT_O n)),
  bank1 rCE_TRIG 8 (fun n v => ceConfigWrite (rCE_TRIG n) v),
  bank2 rCE_XCFG 8 8 (fun n i v => ceConfigWrite (rCE_XCFG n i) v),
  bank1 rCE_MODE 8 ceModeWrite,
  bank2 rCE_HOSTX 8 8 hostxWrite,
  bank1 rCE_PG_CMD 8 pgCmdWrite,
  bank1 rMC_CTL 6 mcCtlWrite,
  bank1 rMC_CFG 6 (fun c v => mcConfigWrite (rMC_CFG c) v),
  bank1 rMC_PWM 6 (fun c v => mcConfigWrite (rMC_PWM c) v)]

/-- Registers of the system range and of the mailbox. -/
def actSystem : List ActBank := [
  bank0 rPWR_CMD powerCmdWrite,
  bank0 rPWR_VIN vinWrite,
  bank0 rPWR_SNAP_STAT (fun v => doIf (fieldOf fPWR_SNAP_STAT_POP v == 1) snapPop),
  bank0 rAGE_SEL (fun v s => showFires (plainWrite rAGE_SEL v s)),
  bank0 rAGE_CMD (fun v => doIf (fieldOf fAGE_CMD_REPLAN v == 1) replanCommand),
  bank1 rAGE_HP 16 (fun h v s => doIf (fieldOf (fAGE_HP_REF h) v == 1) (ampRef h) (plainWrite (rAGE_HP h) v s)),
  bank1 rAGE_CE 8 (fun n v s => doIf (fieldOf (fAGE_CE_BASELINE n) v == 1) (driftBaseline n) (plainWrite (rAGE_CE n) v s)),
  bank0 rCAL_CMD calCommand,
  bank0 rMEM_INJ injWrite,
  bank1 rMV_CTL 8 mvCtlWrite,
  bank1 rHST_QP_CFG 4 pairCfgWrite,
  bank1 rHST_QP_RQ_BASE 4 (fun q v s => ringAddressWrite (rHST_QP_RQ_BASE q) 128 v (getB (fHST_QP_CFG_EN q) s) s),
  bank1 rHST_QP_RS_BASE 4 (fun q v s => ringAddressWrite (rHST_QP_RS_BASE q) 128 v (getB (fHST_QP_CFG_EN q) s) s),
  bank1 rHST_QP_CI_ADDR 4 (fun q v s => ringAddressWrite (rHST_QP_CI_ADDR q) 8 v (getB (fHST_QP_CFG_EN q) s) s),
  bank1 rHST_QP_RQ_PI 4 ringDoorbell,
  bank1 rHST_QP_RS_CI 4 ringConsumer,
  bank0 rHST_EVQ_CFG eventCfgWrite,
  bank0 rHST_EVQ_BASE (fun v s => ringAddressWrite rHST_EVQ_BASE 128 v (getB fHST_EVQ_CFG_EN s) s),
  bank0 rHST_EVQ_CI (ringConsumer 4),
  bank0 rOCL_CFG oclCfgWrite,
  bank0 rOCL_BCAST bcastWrite,
  bank0 rFLT_STATUS statusClear,
  bank0 rFLT_PIN_HOLD holdWrite,
  bank0 rFLT_HIST_STAT (fun v => doIf (fieldOf fFLT_HIST_STAT_POP v == 1) histPop),
  bank0 rTRU_REQ_HDR requestHeaderWrite]

/-- What a bank does at an address, where the address is one of its registers. -/
def actIn (a : Nat) (b : ActBank) : Option (Nat → State → State) :=
  ((List.range b.nj).find? fun j => decide (b.base + b.sj * j ≤ a) && decide (a - (b.base + b.sj * j) < max 1 (b.si * b.ni)) &&
    decide ((a - (b.base + b.sj * j)) % max 1 b.si = 0)).map fun j => b.act ((a - (b.base + b.sj * j)) / max 1 b.si) j

/-- What a write does at an address beyond the access types of its fields. -/
def actAt (a : Nat) : Option (Nat → State → State) :=
  (if 0x400000 ≤ a ∧ a < 0x500000 then actMotion
   else if 0x200000 ≤ a ∧ a < 0x400000 then actMarking
   else if 0x100000 ≤ a ∧ a < 0x200000 then actTracking
   else actSystem).findSome? (actIn a)

/-! ### Accesses (R7 to R9, R24 to R26) -/

/-- Size of BAR0. -/
def barSize : Nat := 0x4000000

/-- The PET window, which the host only reads (R80). -/
def inPetWindow (a : Nat) : Bool := decide (0x180000 ≤ a) && decide (a < 0x1A0000)

/-- The windows of the product table and of the job table, which the host only reads (R75, R96). -/
def inPtabWindow (a : Nat) : Bool := decide (0x140000 ≤ a) && decide (a < 0x160000)
def inJobWindow (a : Nat) : Bool := decide (0x160000 ≤ a) && decide (a < 0x168000)

/-- The address lies in the image store window. -/
def inImageWindow (a : Nat) : Bool := decide (imageBase ≤ a) && decide (a < imageBase + imageSize)

/-- A window that the host only reads. -/
def inTableWindow (a : Nat) : Bool := inPetWindow a || inPtabWindow a || inJobWindow a

/-- A flag at a bit place. -/
def bit (b : Bool) (k : Nat) : Nat := if b then 2 ^ k else 0

/-- The MSI-X table of 64 entries of 16 bytes, and the pending-bit array of 64 bits (R349). -/
def inMsixTable (a : Nat) : Bool := decide (0x6F000 ≤ a) && decide (a < 0x6F400)
def inMsixPba (a : Nat) : Bool := decide (0x6F800 ≤ a) && decide (a < 0x6F808)
def inMsixWindow (a : Nat) : Bool := inMsixTable a || inMsixPba a

/-- The 16 bytes of a table entry in the layout of the PCI Express base specification: message address, data, and vector control with the
mask bit (PRESUMED, log entry 174). -/
def msixEntry (v : Nat) (s : State) : Nat :=
  let x := s.host.msixTable.getD v (0, 0)
  x.1 % 2 ^ 64 + 2 ^ 64 * (x.2 % 2 ^ 32) + 2 ^ 96 * bit (s.host.msixMask.testBit v) 0

/-- A vector whose mask is cleared while it is pending is signalled, and its pending bit clears. -/
def msixUnmask (v : Nat) (s : State) : State :=
  if s.host.msixPend.testBit v then signalVector v { s with host.msixPend := s.host.msixPend ^^^ 2 ^ v } else s

/-- A table entry takes its 16 bytes; its reserved bits stay zero, and address bits 1:0 too. -/
def putMsixEntry (v x : Nat) (s : State) : State :=
  let masked := x / 2 ^ 96 % 2 = 1
  let was := s.host.msixMask.testBit v
  let s1 := { s with
    host.msixTable := s.host.msixTable.set v (x % 2 ^ 64 / 4 * 4, x / 2 ^ 64 % 2 ^ 32)
    host.msixMask := if masked then s.host.msixMask ||| 2 ^ v else if was then s.host.msixMask ^^^ 2 ^ v else s.host.msixMask }
  if masked then s1 else msixUnmask v s1

/-- A write into the table, of 4 or 8 aligned bytes as the base specification allows; the pending-bit array takes none. -/
def msixWrite (a size v : Nat) (s : State) : State :=
  if !inMsixTable a ∨ !(decide (size = 4) || decide (size = 8)) ∨ a % size ≠ 0 then s
  else
    let e := (a - 0x6F000) / 16
    let lo := 8 * (a % 16)
    let old := msixEntry e s
    putMsixEntry e (old % 2 ^ lo + v % 2 ^ (8 * size) * 2 ^ lo + old / 2 ^ (lo + 8 * size) * 2 ^ (lo + 8 * size)) s

/-- A byte of the table or of the pending-bit array. -/
def msixByte (a : Nat) (s : State) : Byte :=
  if inMsixTable a then BitVec.ofNat 8 (msixEntry ((a - 0x6F000) / 16) s / 256 ^ (a % 16))
  else BitVec.ofNat 8 (s.host.msixPend / 256 ^ (a - 0x6F800))

/-- An access finds nothing at a byte address: it is Reserved or unassigned, or it is a write to a window that the host only reads (R9, R25,
R75, R80, R96). -/
def nothingAt (write : Bool) (a : Nat) : Bool :=
  !((regSpecAt (a / 8 * 8)).isSome || (progSlot a).isSome || (dataSlot a).isSome || inImageWindow a || (inTableWindow a && !write) || inMsixWindow a)

/-- Some byte of an access finds nothing. -/
def badAccess (write : Bool) (a size : Nat) : Bool := (List.range size).any fun i => nothingAt write (a + i)

/-! ### What a read answers (R7 to R10, R80, R81) -/

/-- The type code of a PET entry. -/
def evCode : EvType → Nat
  | .readyBy => 1
  | .startChk => 2
  | .endChk => 3
  | .rejDecide => 4
  | .rejGate => 5
  | .rejOff => 6
  | .handover => 7
  | .signal => 8
  | .activate => 9

/-- Word 1 of a PET entry; a field that the entry's type does not use reads zero (R81). -/
def petWord1 (e : Event) : Nat :=
  let c := evCode e.type
  c + 2 ^ 4 * e.line + (if e.headrel then 2 ^ 6 + 2 ^ 7 * e.head else 0) + (if c ≤ 3 then 2 ^ 11 * e.job else 0) +
    (if c ≤ 6 then 2 ^ 20 * (e.ptab % 2048) else 0) + (if e.noent then 2 ^ 31 else 0) +
    (if 4 ≤ c ∧ c ≤ 6 then 2 ^ 32 * e.rej else 0) + (if e.host then 2 ^ 35 else 0) + (if 7 ≤ c then 2 ^ 36 * (e.arg % 256) else 0)

/-- A word of the PET window: a free entry reads zero (R80, R81). -/
def petWindow (a : Nat) (s : State) : Word :=
  match spFind s.sch.pet ((a - 0x180000) / 16) with
  | some e => if a % 16 < 8 then e.pos else BitVec.ofNat 48 (petWord1 e)
  | none => 0

def jstateCode : JState → Nat
  | .armed => 1
  | .resident => 2
  | .released => 3
  | .started => 4
  | .closedOk => 5
  | .closedFlagged => 6
  | .notStarted => 7

/-- Word `w` of a product table entry (R75). -/
def productWord (p : Product) : Nat → Nat
  | 0 => p.pnum.toNat
  | 1 => p.dpos.toNat
  | 2 => p.date.toNat
  | 3 => p.line + 2 ^ 2 * p.pd + 2 ^ 6 * pstateCode p.state + 2 ^ 9 * causeCode p.cause + 2 ^ 12 * p.flags + 2 ^ 28 * p.jobs +
      bit p.dr 44 + bit p.expired 45 + bit p.dateTrusted 46
  | 4 => p.slot + 2 ^ 16 * p.stencil
  | 5 => p.ctick.toNat
  | 6 => p.cpos % 2 ^ 40
  | _ => 0

/-- A word of the product table window: a free entry reads zero (R75). -/
def ptabWindow (a : Nat) (s : State) : Word :=
  match spFind s.sch.ptab ((a - 0x140000) / 64) with
  | some p => BitVec.ofNat 48 (productWord p (a % 64 / 8))
  | none => 0

/-- Word `w` of a job (R96). -/
def jobWord (x : Job) : Nat → Nat
  | 0 => jstateCode x.state + 2 ^ 4 * x.head + 2 ^ 8 * x.sq + 2 ^ 13 * (x.ptab % ptabSize) + 2 ^ 24 * x.slot + 2 ^ 30 * x.mark + 2 ^ 32 * x.line +
      bit x.alt 34 + bit x.full 35
  | 1 => x.start.toNat
  | 2 => x.endchk.toNat
  | 3 => x.image
  | 4 => x.cols + 2 ^ 16 * x.colsRes + 2 ^ 32 * x.colsDone
  | 5 => x.stretchMax + 2 ^ 16 * x.flags + 2 ^ 21 * causeCode x.cause
  | 6 => x.firstTick.toNat
  | _ => x.closeTick.toNat

/-- A word of the job table window: a free job reads zero (R96). -/
def jobWindow (a : Nat) (s : State) : Word :=
  match spFind s.sch.jobs ((a - 0x160000) / 64) with
  | some x => BitVec.ofNat 48 (jobWord x (a % 64 / 8))
  | none => 0

/-- A field as a read answers it: RWS fields from the shadow bank, WO fields zero (R10). -/
def fieldRead (a : Nat) (s : State) (f : FieldSpec) : Nat := match f.access with
  | .rws => getShadowF ⟨a, f.lo, f.width⟩ s * 2 ^ f.lo
  | .wo => 0
  | _ => getF ⟨a, f.lo, f.width⟩ s * 2 ^ f.lo

/-- A register as a read answers it: FLT_ACTIVE, the samples and the nozzle entries follow from what they show. -/
def registerRead (a : Nat) (s : State) : Word :=
  let n := (a - rHP_CFG 0) / 0x1000
  if a = rFLT_ACTIVE then BitVec.ofNat 48 (activeMask s)
  else if rHP_CFG 0 ≤ a ∧ n < 16 ∧ a = rHP_WF_DATA n then waveData n s
  else if rHP_CFG 0 ≤ a ∧ n < 16 ∧ a = rHP_NZ_DATA n then nozData n s
  else match (List.range 16).find? fun h => decide (rSQ_MASK h 0 ≤ a) && decide (a < rSQ_MASK h 0 + 0x400) with
  | some h => (maskRead h ((a - rSQ_MASK h 0) / 8) s).setWidth 48
  | none => match regSpecAt a with
    | some r => BitVec.ofNat 48 ((r.fields.map (fieldRead a s)).sum)
    | none => 0

/-- The 64-bit slot at an aligned address. -/
def slotRead (a : Nat) (s : State) : Word :=
  match progSlot a, dataSlot a with
  | some (e, i), _ => (progGet (coreOf e s) i).setWidth 48
  | none, some (e, i) => dataGet (coreOf e s) i
  | none, none =>
    if inPetWindow a then petWindow a s
    else if inPtabWindow a then ptabWindow a s
    else if inJobWindow a then jobWindow a s
    else registerRead a s

/-- The SRAM word that the host reads at an address: of the image store, of an engine's memories, of the product table or of the PET. -/
def hostWord (a : Nat) : Option Nat :=
  if inImageWindow a then some ((a - imageBase) / 8)
  else if inPtabWindow a then some (wordNo 106 ((a - 0x140000) / 8))
  else if inPetWindow a then some (wordNo 105 ((a - 0x180000) / 8))
  else match progSlot (a / 8 * 8), dataSlot (a / 8 * 8) with
    | some (e, i), _ => some (progWord e i)
    | none, some (e, i) => some (dataWord e i)
    | none, none => none

/-- A byte as a read answers it: all ones in 8 bytes that are damaged (R383). -/
def byteRead (a : Nat) (s : State) : Byte :=
  if (hostWord a).any fun w => wordBad w s then 255
  else if inImageWindow a then imgByte (a - imageBase) s
  else if inMsixWindow a then msixByte a s
  else BitVec.ofNat 8 ((slotRead (a / 8 * 8) s).toNat / 256 ^ (a % 8))

/-- A host read of `size` bytes at a BAR0 offset, which may be narrow or unaligned (R8): what it answers, and what it leaves, which is the record of
the errors it meets. It changes nothing else (the accesses that move an address on are WF_SAMPLE_WRITE and NZ_DATA_ACCESS; one that finds
nothing is BAD_ADDRESS). -/
def hostRead (a size : Nat) (s : State) : Nat × State :=
  let words := ((List.range size).filterMap fun i => hostWord (a + i)).eraseDups
  (leNat ((List.range size).map fun i => byteRead (a + i) s), readWords words 1 s)

/-- A 64-bit aligned write of a register or window word. -/
def wordWrite (a v : Nat) (s : State) : State :=
  match progSlot a, dataSlot a with
  | some (e, i), _ => progWrite e i v s
  | none, some (e, i) => dataWrite e i v s
  | none, none =>
    if (slotOfAddr a).isSome then bindRegWrite a v s
    else match actAt a with
      | some f => f v s
      | none => shadowLate a (plainWrite a v s)

/-- A host write of `size` bytes at a BAR0 offset: the image window takes any bytes, a register only an aligned 64-bit write, and bits 63:48
are ignored. -/
def hostWrite (a size v : Nat) (s : State) : State :=
  if size = 0 ∨ 8 < size ∨ barSize < a + size then s
  else if badAccess true a size then recordBad true a s
  else if inImageWindow a then imageWindowWrite a size v s
  else if inMsixWindow a then msixWrite a size v s
  else if size = 8 ∧ a % 8 = 0 then wordWrite a (v % 2 ^ 48) s
  else s

def execRegisterWrite (addr size value : Nat) (s : State) : Host.Outcome State Fault Refusal :=
  .next (hostAccess (hostWrite addr size value) s)

/-- A host access to a Reserved range or an unassigned offset changes nothing but the record (R25). -/
def execBadAddressAccess (write : Bool) (addr size : Nat) (s : State) : Host.Outcome State Fault Refusal :=
  .next (if 0 < size ∧ size ≤ 8 ∧ addr + size ≤ barSize ∧ badAccess write addr size then hostAccess (recordBad write addr) s else s)

end Sys2Proof.Machine
end

