-- ==== Sys2Proof/Machine/Dispatch.lean ====
section
/-! DEFINITION. The one dispatch from a command to its meaning. -/

namespace Sys2Proof.Machine

def exec (i : Instr) (s : State) : Host.Outcome State Fault Refusal :=
  match i with
  | .badAddressAccess write addr size => Sys2Proof.Machine.execBadAddressAccess write addr size s
  | .imageStoreWrite addr size value => Sys2Proof.Machine.execImageStoreWrite addr size value s
  | .registerWrite addr size value => Sys2Proof.Machine.execRegisterWrite addr size value s
  | .lineCtlWrite line value => Sys2Proof.Machine.execLineCtlWrite line value s
  | .linePreset line value => Sys2Proof.Machine.execLinePreset line value s
  | .virtSpeedWrite line value => Sys2Proof.Machine.execVirtSpeedWrite line value s
  | .encEdge m a b => Sys2Proof.Machine.execEncEdge m a b s
  | .encZPulse m level => Sys2Proof.Machine.execEncZPulse m level s
  | .encFltInput m low => Sys2Proof.Machine.execEncFltInput m low s
  | .stuck m => Sys2Proof.Machine.execStuck m s
  | .freeze line => Sys2Proof.Machine.execFreeze line s
  | .ocingStale line => Sys2Proof.Machine.execOcingStale line s
  | .virtStale line => Sys2Proof.Machine.execVirtStale line s
  | .drExhausted line => Sys2Proof.Machine.execDrExhausted line s
  | .pdEdgeAccept p level => Sys2Proof.Machine.execPdEdgeAccept p level s
  | .captureConfirm p => Sys2Proof.Machine.execCaptureConfirm p s
  | .pdCfgWrite p value => Sys2Proof.Machine.execPdCfgWrite p value s
  | .ptabSweep => Sys2Proof.Machine.execPtabSweep s
  | .petInsert value => Sys2Proof.Machine.execPetInsert value s
  | .readyBy k => Sys2Proof.Machine.execReadyBy k s
  | .startChk k => Sys2Proof.Machine.execStartChk k s
  | .endChk k => Sys2Proof.Machine.execEndChk k s
  | .rejDecide k => Sys2Proof.Machine.execRejDecide k s
  | .rejGate k => Sys2Proof.Machine.execRejGate k s
  | .rejOff k => Sys2Proof.Machine.execRejOff k s
  | .rejPulseTimer r => Sys2Proof.Machine.execRejPulseTimer r s
  | .handover k => Sys2Proof.Machine.execHandover k s
  | .signal k => Sys2Proof.Machine.execSignal k s
  | .activate k => Sys2Proof.Machine.execActivate k s
  | .bindLoad b value => Sys2Proof.Machine.execBindLoad b value s
  | .bindUnload b value => Sys2Proof.Machine.execBindUnload b value s
  | .bindRegWrite addr value => Sys2Proof.Machine.execBindRegWrite addr value s
  | .settingRetestWrite addr value => Sys2Proof.Machine.execSettingRetestWrite addr value s
  | .vmaxWrite line value => Sys2Proof.Machine.execVmaxWrite line value s
  | .schLineCtlWrite line value => Sys2Proof.Machine.execSchLineCtlWrite line value s
  | .lineSafeExit line => Sys2Proof.Machine.execLineSafeExit line s
  | .snapReq line => Sys2Proof.Machine.execSnapReq line s
  | .snapshotCopy line => Sys2Proof.Machine.execSnapshotCopy line s
  | .armingResume => Sys2Proof.Machine.execArmingResume s
  | .stencilBegin tag payload => Sys2Proof.Machine.execStencilBegin tag payload s
  | .stencilData tag payload => Sys2Proof.Machine.execStencilData tag payload s
  | .stencilEnd tag payload => Sys2Proof.Machine.execStencilEnd tag payload s
  | .stencilUnload tag payload => Sys2Proof.Machine.execStencilUnload tag payload s
  | .stencilInfo tag payload => Sys2Proof.Machine.execStencilInfo tag payload s
  | .openSet tag payload => Sys2Proof.Machine.execOpenSet tag payload s
  | .batchAdvance tag payload => Sys2Proof.Machine.execBatchAdvance tag payload s
  | .timeNonce tag payload => Sys2Proof.Machine.execTimeNonce tag payload s
  | .timeToken tag payload => Sys2Proof.Machine.execTimeToken tag payload s
  | .timeStatus tag payload => Sys2Proof.Machine.execTimeStatus tag payload s
  | .serialLedger tag payload => Sys2Proof.Machine.execSerialLedger tag payload s
  | .counterRebase tag payload => Sys2Proof.Machine.execCounterRebase tag payload s
  | .auditRead tag payload => Sys2Proof.Machine.execAuditRead tag payload s
  | .auditAck tag payload => Sys2Proof.Machine.execAuditAck tag payload s
  | .ckptRead tag payload => Sys2Proof.Machine.execCkptRead tag payload s
  | .identity tag payload => Sys2Proof.Machine.execIdentity tag payload s
  | .mailboxRspRelease => Sys2Proof.Machine.execMailboxRspRelease s
  | .fieldCompose => Sys2Proof.Machine.execFieldCompose s
  | .blockWriteDone k ok => Sys2Proof.Machine.execBlockWriteDone k ok s
  | .ckptTimer => Sys2Proof.Machine.execCkptTimer s
  | .ptpHint hint utc leap => Sys2Proof.Machine.execPtpHint hint utc leap s
  | .trustCoreFault => Sys2Proof.Machine.execTrustCoreFault s
  | .trustRestartDone => Sys2Proof.Machine.execTrustRestartDone s
  | .renderStart => Sys2Proof.Machine.execRenderStart s
  | .renderComplete => Sys2Proof.Machine.execRenderComplete s
  | .firstBufferStage h => Sys2Proof.Machine.execFirstBufferStage h s
  | .jobResident j => Sys2Proof.Machine.execJobResident j s
  | .columnDeliver h fabric ue => Sys2Proof.Machine.execColumnDeliver h fabric ue s
  | .trowelCompress out => Sys2Proof.Machine.execTrowelCompress out s
  | .fontLoad => Sys2Proof.Machine.execFontLoad s
  | .fontVerifyDone => Sys2Proof.Machine.execFontVerifyDone s
  | .fontUnload => Sys2Proof.Machine.execFontUnload s
  | .himgCommit value => Sys2Proof.Machine.execHimgCommit value s
  | .himgClear value => Sys2Proof.Machine.execHimgClear value s
  | .himgBufferFree k => Sys2Proof.Machine.execHimgBufferFree k s
  | .nop e => Sys2Proof.Machine.execNop e s
  | .ldi e => Sys2Proof.Machine.execLdi e s
  | .ldiZ e => Sys2Proof.Machine.execLdiZ e s
  | .ldiSh e => Sys2Proof.Machine.execLdiSh e s
  | .ld e ue => Sys2Proof.Machine.execLd e ue s
  | .st e => Sys2Proof.Machine.execSt e s
  | .add e => Sys2Proof.Machine.execAdd e s
  | .sub e => Sys2Proof.Machine.execSub e s
  | .and e => Sys2Proof.Machine.execAnd e s
  | .or e => Sys2Proof.Machine.execOr e s
  | .xor e => Sys2Proof.Machine.execXor e s
  | .shl e => Sys2Proof.Machine.execShl e s
  | .shr e => Sys2Proof.Machine.execShr e s
  | .sra e => Sys2Proof.Machine.execSra e s
  | .cmp e => Sys2Proof.Machine.execCmp e s
  | .cmpP e => Sys2Proof.Machine.execCmpP e s
  | .br e => Sys2Proof.Machine.execBr e s
  | .bz e => Sys2Proof.Machine.execBz e s
  | .bnz e => Sys2Proof.Machine.execBnz e s
  | .bn e => Sys2Proof.Machine.execBn e s
  | .call e => Sys2Proof.Machine.execCall e s
  | .ret e => Sys2Proof.Machine.execRet e s
  | .loop e => Sys2Proof.Machine.execLoop e s
  | .halt e => Sys2Proof.Machine.execHalt e s
  | .evt e => Sys2Proof.Machine.execEvt e s
  | .illegalInstruction e ue => Sys2Proof.Machine.execIllegalInstruction e ue s
  | .waitp n => Sys2Proof.Machine.execWaitp n s
  | .waitpReached n => Sys2Proof.Machine.execWaitpReached n s
  | .ldcol n ue => Sys2Proof.Machine.execLdcol n ue s
  | .mask n => Sys2Proof.Machine.execMask n s
  | .enrg n => Sys2Proof.Machine.execEnrg n s
  | .grpAdv n => Sys2Proof.Machine.execGrpAdv n s
  | .grpSet n => Sys2Proof.Machine.execGrpSet n s
  | .grpGet n => Sys2Proof.Machine.execGrpGet n s
  | .strb n => Sys2Proof.Machine.execStrb n s
  | .strbGroupStart n => Sys2Proof.Machine.execStrbGroupStart n s
  | .strobeEnd h g => Sys2Proof.Machine.execStrobeEnd h g s
  | .wfselGet n => Sys2Proof.Machine.execWfselGet n s
  | .wfselSet n => Sys2Proof.Machine.execWfselSet n s
  | .col n => Sys2Proof.Machine.execCol n s
  | .colEmit n => Sys2Proof.Machine.execColEmit n s
  | .ckpt n bad => Sys2Proof.Machine.execCkpt n bad s
  | .stretchLep n => Sys2Proof.Machine.execStretchLep n s
  | .stretchNext n => Sys2Proof.Machine.execStretchNext n s
  | .stretchRatio n => Sys2Proof.Machine.execStretchRatio n s
  | .stretchState n => Sys2Proof.Machine.execStretchState n s
  | .mul n => Sys2Proof.Machine.execMul n s
  | .macAcc n => Sys2Proof.Machine.execMacAcc n s
  | .macSet n => Sys2Proof.Machine.execMacSet n s
  | .macSub n => Sys2Proof.Machine.execMacSub n s
  | .macRead n => Sys2Proof.Machine.execMacRead n s
  | .lim n => Sys2Proof.Machine.execLim n s
  | .mins n => Sys2Proof.Machine.execMins n s
  | .pre n => Sys2Proof.Machine.execPre n s
  | .tbli n => Sys2Proof.Machine.execTbli n s
  | .diff n => Sys2Proof.Machine.execDiff n s
  | .fresh n => Sys2Proof.Machine.execFresh n s
  | .mov n => Sys2Proof.Machine.execMov n s
  | .movb n => Sys2Proof.Machine.execMovb n s
  | .movbDone n => Sys2Proof.Machine.execMovbDone n s
  | .wait n => Sys2Proof.Machine.execWait n s
  | .waitWake n => Sys2Proof.Machine.execWaitWake n s
  | .sig n => Sys2Proof.Machine.execSig n s
  | .moveComplete n env => Sys2Proof.Machine.execMoveComplete n env s
  | .engineRun e entry => Sys2Proof.Machine.execEngineRun e entry s
  | .engineStop e => Sys2Proof.Machine.execEngineStop e s
  | .engineDoorbell e => Sys2Proof.Machine.execEngineDoorbell e s
  | .programWindowWrite addr value => Sys2Proof.Machine.execProgramWindowWrite addr value s
  | .dataWindowWrite addr value => Sys2Proof.Machine.execDataWindowWrite addr value s
  | .markBoundary n => Sys2Proof.Machine.execMarkBoundary n s
  | .jobStopAtBoundary n => Sys2Proof.Machine.execJobStopAtBoundary n s
  | .sampleTrigger n => Sys2Proof.Machine.execSampleTrigger n s
  | .cycleOverrun n => Sys2Proof.Machine.execCycleOverrun n s
  | .shadowSealWrite n value => Sys2Proof.Machine.execShadowSealWrite n value s
  | .maskWrite addr value => Sys2Proof.Machine.execMaskWrite addr value s
  | .maskPageCopyDone n => Sys2Proof.Machine.execMaskPageCopyDone n s
  | .seqWatchdog n => Sys2Proof.Machine.execSeqWatchdog n s
  | .takeoverResume h tDetect tRebind ok => Sys2Proof.Machine.execTakeoverResume h tDetect tRebind ok s
  | .giveback n => Sys2Proof.Machine.execGiveback n s
  | .givebackCopy h => Sys2Proof.Machine.execGivebackCopy h s
  | .restore h => Sys2Proof.Machine.execRestore h s
  | .hpCfgWrite h value => Sys2Proof.Machine.execHpCfgWrite h value s
  | .latFire h => Sys2Proof.Machine.execLatFire h s
  | .wfSettingWrite addr value => Sys2Proof.Machine.execWfSettingWrite addr value s
  | .wfSampleWrite h write => Sys2Proof.Machine.execWfSampleWrite h write s
  | .wflenWrite h b value => Sys2Proof.Machine.execWflenWrite h b value s
  | .tempPoll h reply => Sys2Proof.Machine.execTempPoll h reply s
  | .idRead h record => Sys2Proof.Machine.execIdRead h record s
  | .headAccept h => Sys2Proof.Machine.execHeadAccept h s
  | .alignStore h => Sys2Proof.Machine.execAlignStore h s
  | .alignStoreDone h ok => Sys2Proof.Machine.execAlignStoreDone h ok s
  | .burstStart h => Sys2Proof.Machine.execBurstStart h s
  | .testFiring h => Sys2Proof.Machine.execTestFiring h s
  | .dropTestResult h before after => Sys2Proof.Machine.execDropTestResult h before after s
  | .testresPop h => Sys2Proof.Machine.execTestresPop h s
  | .nzDataAccess h write => Sys2Proof.Machine.execNzDataAccess h write s
  | .bdEdge h phase tapErr => Sys2Proof.Machine.execBdEdge h phase tapErr s
  | .idxEdge h => Sys2Proof.Machine.execIdxEdge h s
  | .bdTimeout h => Sys2Proof.Machine.execBdTimeout h s
  | .dllCfgWrite h value => Sys2Proof.Machine.execDllCfgWrite h value s
  | .laserEnWrite h value => Sys2Proof.Machine.execLaserEnWrite h value s
  | .ceConfigWrite addr value => Sys2Proof.Machine.execCeConfigWrite addr value s
  | .ceKWrite addr value => Sys2Proof.Machine.execCeKWrite addr value s
  | .ceModeWrite n value => Sys2Proof.Machine.execCeModeWrite n value s
  | .ceHostxWrite n k value => Sys2Proof.Machine.execCeHostxWrite n k value s
  | .forceSafe n => Sys2Proof.Machine.execForceSafe n s
  | .clearSafe n => Sys2Proof.Machine.execClearSafe n s
  | .pgVel n target => Sys2Proof.Machine.execPgVel n target s
  | .pgPos n target => Sys2Proof.Machine.execPgPos n target s
  | .pgRel n target => Sys2Proof.Machine.execPgRel n target s
  | .pgStop n => Sys2Proof.Machine.execPgStop n s
  | .pgSet n target => Sys2Proof.Machine.execPgSet n target s
  | .currentSample c u v w dc => Sys2Proof.Machine.execCurrentSample c u v w dc s
  | .mcStart c => Sys2Proof.Machine.execMcStart c s
  | .catchEnd c code angle speed => Sys2Proof.Machine.execCatchEnd c code angle speed s
  | .mcStop c => Sys2Proof.Machine.execMcStop c s
  | .mcClear c => Sys2Proof.Machine.execMcClear c s
  | .mcConfigWrite addr value => Sys2Proof.Machine.execMcConfigWrite addr value s
  | .busSample m code fb => Sys2Proof.Machine.execBusSample m code fb s
  | .chopFbMismatch m => Sys2Proof.Machine.execChopFbMismatch m s
  | .chopTestPulse m => Sys2Proof.Machine.execChopTestPulse m s
  | .gateFault c low => Sys2Proof.Machine.execGateFault c low s
  | .buTimeout c => Sys2Proof.Machine.execBuTimeout c s
  | .hostLinkReset => Sys2Proof.Machine.execHostLinkReset s
  | .ringDoorbell q value => Sys2Proof.Machine.execRingDoorbell q value s
  | .ringConsumerWrite q value => Sys2Proof.Machine.execRingConsumerWrite q value s
  | .queuePairReset q => Sys2Proof.Machine.execQueuePairReset q s
  | .eventRingReset => Sys2Proof.Machine.execEventRingReset s
  | .eventDeliver src => Sys2Proof.Machine.execEventDeliver src s
  | .ping q entry readable payload => Sys2Proof.Machine.execPing q entry readable payload s
  | .version q entry readable payload => Sys2Proof.Machine.execVersion q entry readable payload s
  | .ledgerSnapshot q entry readable payload => Sys2Proof.Machine.execLedgerSnapshot q entry readable payload s
  | .lineSpeed q entry readable payload => Sys2Proof.Machine.execLineSpeed q entry readable payload s
  | .oclBarrier q entry readable payload => Sys2Proof.Machine.execOclBarrier q entry readable payload s
  | .resetRequest q entry readable payload straps found => Sys2Proof.Machine.execResetRequest q entry readable payload straps found s
  | .speed p route x msg => Sys2Proof.Machine.execSpeed p route x msg s
  | .ledger line => Sys2Proof.Machine.execLedger line s
  | .arpRequest p sender target x => Sys2Proof.Machine.execArpRequest p sender target x s
  | .icmpEcho p route x msg => Sys2Proof.Machine.execIcmpEcho p route x msg s
  | .ptpMessage p m lock => Sys2Proof.Machine.execPtpMessage p m lock s
  | .ocingSymbolLock p => Sys2Proof.Machine.execOcingSymbolLock p s
  | .hello p body auth => Sys2Proof.Machine.execHello p body auth s
  | .echo p body => Sys2Proof.Machine.execEcho p body s
  | .hopDelayMeasure p => Sys2Proof.Machine.execHopDelayMeasure p s
  | .ack p body => Sys2Proof.Machine.execAck p body s
  | .ocingRetryTimeout p lseq => Sys2Proof.Machine.execOcingRetryTimeout p lseq s
  | .ocingLockLoss p => Sys2Proof.Machine.execOcingLockLoss p s
  | .pos p body resid => Sys2Proof.Machine.execPos p body resid s
  | .posBroadcast line => Sys2Proof.Machine.execPosBroadcast line s
  | .epoch p body resid => Sys2Proof.Machine.execEpoch p body resid s
  | .epochBoundary => Sys2Proof.Machine.execEpochBoundary s
  | .handoffOffer k => Sys2Proof.Machine.execHandoffOffer k s
  | .offer p body => Sys2Proof.Machine.execOffer p body s
  | .accept p body => Sys2Proof.Machine.execAccept p body s
  | .decline p body => Sys2Proof.Machine.execDecline p body s
  | .commit p body => Sys2Proof.Machine.execCommit p body s
  | .result p body => Sys2Proof.Machine.execResult p body s
  | .barrier p body => Sys2Proof.Machine.execBarrier p body s
  | .barrierAck p body => Sys2Proof.Machine.execBarrierAck p body s
  | .mergeDrain word => Sys2Proof.Machine.execMergeDrain word s
  | .skimPass corrected others damage percent => Sys2Proof.Machine.execSkimPass corrected others damage percent s
  | .memInject value => Sys2Proof.Machine.execMemInject value s
  | .lcStatus tag payload => Sys2Proof.Machine.execLcStatus tag payload s
  | .lcNonce tag payload => Sys2Proof.Machine.execLcNonce tag payload s
  | .lcProvision tag payload => Sys2Proof.Machine.execLcProvision tag payload s
  | .lcDeploy tag payload => Sys2Proof.Machine.execLcDeploy tag payload s
  | .lcServiceEnter tag payload => Sys2Proof.Machine.execLcServiceEnter tag payload s
  | .lcServiceExit tag payload => Sys2Proof.Machine.execLcServiceExit tag payload s
  | .lcRetire tag payload => Sys2Proof.Machine.execLcRetire tag payload s
  | .keyStatus tag payload => Sys2Proof.Machine.execKeyStatus tag payload s
  | .keyAuthSet tag payload => Sys2Proof.Machine.execKeyAuthSet tag payload s
  | .keyCheckSet tag payload => Sys2Proof.Machine.execKeyCheckSet tag payload s
  | .keyCosignSet tag payload => Sys2Proof.Machine.execKeyCosignSet tag payload s
  | .keyClear tag payload => Sys2Proof.Machine.execKeyClear tag payload s
  | .serviceExpiry => Sys2Proof.Machine.execServiceExpiry s
  | .lcChangeDeferred => Sys2Proof.Machine.execLcChangeDeferred s
  | .updateBegin q entry readable payload => Sys2Proof.Machine.execUpdateBegin q entry readable payload s
  | .updateArbitrationEnd => Sys2Proof.Machine.execUpdateArbitrationEnd s
  | .updateData q entry readable payload flash => Sys2Proof.Machine.execUpdateData q entry readable payload flash s
  | .updateEnd q entry readable payload => Sys2Proof.Machine.execUpdateEnd q entry readable payload s
  | .updateActivate q entry readable payload => Sys2Proof.Machine.execUpdateActivate q entry readable payload s
  | .updateAbort q entry readable payload => Sys2Proof.Machine.execUpdateAbort q entry readable payload s
  | .updateStatus q entry readable payload => Sys2Proof.Machine.execUpdateStatus q entry readable payload s
  | .updateConfirm q entry readable payload => Sys2Proof.Machine.execUpdateConfirm q entry readable payload s
  | .updateFallback q entry readable payload => Sys2Proof.Machine.execUpdateFallback q entry readable payload s
  | .updateForward q entry readable payload => Sys2Proof.Machine.execUpdateForward q entry readable payload s
  | .updateCfg q entry readable payload => Sys2Proof.Machine.execUpdateCfg q entry readable payload s
  | .updateSessionTimeout => Sys2Proof.Machine.execUpdateSessionTimeout s
  | .puBegin p body => Sys2Proof.Machine.execPuBegin p body s
  | .puData p body => Sys2Proof.Machine.execPuData p body s
  | .puBlock p body flash => Sys2Proof.Machine.execPuBlock p body flash s
  | .puEnd p body => Sys2Proof.Machine.execPuEnd p body s
  | .puResult p body => Sys2Proof.Machine.execPuResult p body s
  | .puAbort p body => Sys2Proof.Machine.execPuAbort p body s
  | .activationRelease => Sys2Proof.Machine.execActivationRelease s
  | .switchDone => Sys2Proof.Machine.execSwitchDone s
  | .confirmTimer => Sys2Proof.Machine.execConfirmTimer s
  | .supervisorReadyTimeout => Sys2Proof.Machine.execSupervisorReadyTimeout s
  | .fltStatusClear value => Sys2Proof.Machine.execFltStatusClear value s
  | .supervisorMiscompare => Sys2Proof.Machine.execSupervisorMiscompare s
  | .supervisorRestartDone => Sys2Proof.Machine.execSupervisorRestartDone s
  | .faultPinPulseEnd => Sys2Proof.Machine.execFaultPinPulseEnd s
  | .holdWrite value => Sys2Proof.Machine.execHoldWrite value s
  | .histPop => Sys2Proof.Machine.execHistPop s
  | .pllLockLoss pll => Sys2Proof.Machine.execPllLockLoss pll s
  | .referenceLost => Sys2Proof.Machine.execReferenceLost s
  | .aonPowerOn straps found => Sys2Proof.Machine.execAonPowerOn straps found s
  | .railStepStable found => Sys2Proof.Machine.execRailStepStable found s
  | .railRiseTimeout rail => Sys2Proof.Machine.execRailRiseTimeout rail s
  | .railChatter rail => Sys2Proof.Machine.execRailChatter rail s
  | .railRetry straps => Sys2Proof.Machine.execRailRetry straps s
  | .railScan mv pg vin => Sys2Proof.Machine.execRailScan mv pg vin s
  | .powerDownStep mv pg => Sys2Proof.Machine.execPowerDownStep mv pg s
  | .supplyWarn us => Sys2Proof.Machine.execSupplyWarn us s
  | .resetLevel short => Sys2Proof.Machine.execResetLevel short s
  | .resetL straps => Sys2Proof.Machine.execResetL straps s
  | .planBurn index ok => Sys2Proof.Machine.execPlanBurn index ok s
  | .hostSnapshot => Sys2Proof.Machine.execHostSnapshot s
  | .snapPop => Sys2Proof.Machine.execSnapPop s
  | .rlkPing e => Sys2Proof.Machine.execRlkPing e s
  | .rlkStepUp e => Sys2Proof.Machine.execRlkStepUp e s
  | .rlkStepDown e => Sys2Proof.Machine.execRlkStepDown e s
  | .rlkStatus e => Sys2Proof.Machine.execRlkStatus e s
  | .rlkAbort e => Sys2Proof.Machine.execRlkAbort e s
  | .rlkSetVout e => Sys2Proof.Machine.execRlkSetVout e s
  | .rlkGetVout e => Sys2Proof.Machine.execRlkGetVout e s
  | .rlkSlavePoll answered => Sys2Proof.Machine.execRlkSlavePoll answered s
  | .hkRound raw values mr4 oscBad => Sys2Proof.Machine.execHkRound raw values mr4 oscBad s
  | .graceExpiry band => Sys2Proof.Machine.execGraceExpiry band s
  | .thermalTrip => Sys2Proof.Machine.execThermalTrip s
  | .ageingEvaluation mons steps erased flash => Sys2Proof.Machine.execAgeingEvaluation mons steps erased flash s
  | .derateClockSwitch => Sys2Proof.Machine.execDerateClockSwitch s
  | .replan => Sys2Proof.Machine.execReplan s
  | .ampRef h => Sys2Proof.Machine.execAmpRef h s
  | .driftBaseline n => Sys2Proof.Machine.execDriftBaseline n s
  | .calGo value => Sys2Proof.Machine.execCalGo value s
  | .calComplete codes took => Sys2Proof.Machine.execCalComplete codes took s
  | .trackingTick => Sys2Proof.Machine.execTrackingTick s
  | .datapathCheck n => Sys2Proof.Machine.execDatapathCheck n s
  | .enWaitElapsed h => Sys2Proof.Machine.execEnWaitElapsed h s
  | .pathRestartDone h => Sys2Proof.Machine.execPathRestartDone h s
  | .copyRebuildDone => Sys2Proof.Machine.execCopyRebuildDone s
  | .crystal32kLost => Sys2Proof.Machine.execCrystal32kLost s
  | .linePortLinkChange p up rate => Sys2Proof.Machine.execLinePortLinkChange p up rate s
  | .pcieLinkTrained speed width => Sys2Proof.Machine.execPcieLinkTrained speed width s
  | .resetLevelRestart straps => Sys2Proof.Machine.execResetLevelRestart straps s
  | .vbatLost => Sys2Proof.Machine.execVbatLost s
  | .aonPowerLoss => Sys2Proof.Machine.execAonPowerLoss s

end Sys2Proof.Machine
end

