-- ==== Sys2Proof/Safety.lean ====
section
/-! DEFINITION. What claims speak of: the parts of the state, the laws a state keeps, and what a command leaves as it was. -/

namespace Sys2Proof.Machine

/-- The parts of the state that claims name. `sch`, `trust`, `host` and `mem` are whole fields of State; the names below them are parts
of these fields. The queue is no part: no command touches it. -/
inductive Part where
  | regs | shadow | lines | encs | pds | preds
  | sch | ptab | pet | jobs | binds | ledgers | rejs
  | trust | stencils | counters | audit
  | flt | host | hostMem | free | lc | primer | sent | sqs | ces | mvs | paths | ren | lnp | ocl | alertHeld | ports | backups
  | motors | buses | mem | image | ddr | pwr | age | cal
  deriving DecidableEq, Repr

/-- A part's bit in a mask. -/
def Part.bit : Part → Nat
  | .regs => 0 | .shadow => 1 | .lines => 2 | .encs => 3 | .pds => 4 | .preds => 5
  | .sch => 6 | .ptab => 7 | .pet => 8 | .jobs => 9 | .binds => 10 | .ledgers => 11 | .rejs => 12
  | .trust => 13 | .stencils => 14 | .counters => 15 | .audit => 16
  | .flt => 17 | .host => 18 | .hostMem => 19 | .free => 20 | .lc => 21 | .primer => 22 | .sent => 23 | .sqs => 24 | .ces => 25
  | .mvs => 26 | .paths => 27 | .ren => 28 | .lnp => 29 | .ocl => 30 | .alertHeld => 31 | .ports => 32 | .backups => 33
  | .motors => 34 | .buses => 35 | .mem => 36 | .image => 37 | .ddr => 38 | .pwr => 39 | .age => 40 | .cal => 41

/-- A part of the state is the same in `t` as in `s`. -/
def Part.same (s t : State) : Part → Prop
  | .regs => t.regs = s.regs ∧ t.raised = s.raised
  | .shadow => t.shadow = s.shadow
  | .lines => t.lines = s.lines
  | .encs => t.encs = s.encs
  | .pds => t.pds = s.pds
  | .preds => t.preds = s.preds
  | .sch => t.sch = s.sch
  | .ptab => t.sch.ptab = s.sch.ptab
  | .pet => t.sch.pet = s.sch.pet
  | .jobs => t.sch.jobs = s.sch.jobs
  | .binds => t.sch.binds = s.sch.binds
  | .ledgers => t.sch.ledgers = s.sch.ledgers ∧ t.sch.mirror = s.sch.mirror
  | .rejs => t.sch.rejs = s.sch.rejs
  | .trust => t.trust = s.trust
  | .stencils => t.trust.stencils = s.trust.stencils
  | .counters => t.trust.counters = s.trust.counters ∧ t.trust.mirror = s.trust.mirror
  | .audit => t.trust.chain = s.trust.chain ∧ t.trust.auditNext = s.trust.auditNext ∧ t.trust.ring = s.trust.ring
  | .flt => t.flt = s.flt
  | .host => t.host = s.host
  | .hostMem => t.host.mem = s.host.mem
  | .free => t.free = s.free
  | .lc => t.lc = s.lc
  | .primer => t.primer = s.primer
  | .sent => t.sent = s.sent
  | .sqs => t.sqs = s.sqs
  | .ces => t.ces = s.ces
  | .mvs => t.mvs = s.mvs
  | .paths => t.paths = s.paths
  | .ren => t.ren = s.ren
  | .lnp => t.lnp = s.lnp
  | .ocl => t.ocl = s.ocl
  | .alertHeld => t.alertHeld = s.alertHeld
  | .ports => t.ports = s.ports
  | .backups => t.backups = s.backups
  | .motors => t.motors = s.motors
  | .buses => t.buses = s.buses
  | .mem => t.mem = s.mem
  | .image => t.mem.image = s.mem.image
  | .ddr => t.mem.ddr = s.mem.ddr
  | .pwr => t.pwr = s.pwr
  | .age => t.age = s.age
  | .cal => t.cal = s.cal

/-- Every part of the state that is not named in `l` is the same in `t` as in `s`. -/
def Only (l : List Part) (s t : State) : Prop := ∀ p : Part, p ∉ l → p.same s t

/-- The product law of a line's counters (R27): DETECTED is the sum of the closed states and IN_FLIGHT, and REJECTED is the sum of its
cause counters. -/
def Ledger.law (l : Ledger) : Prop :=
  l.det = l.ok + l.flag + l.rej + l.inf ∧ l.rej = l.c1 + l.c2 + l.c3 + l.c4 + l.c5 + l.c6 + l.c7

/-- The serial law of a counter slot (R30): ISSUED = PRINTED + VOIDED + RESERVED. -/
def Counter.law (c : Counter) : Prop := c.issued = c.printed + c.voided + c.reserved

/-- How many of each numbered thing the state holds: lines, encoders, product-detect inputs, head predictions, sequencers, control engines,
move channels, paths, head ports, motor back-ups, motor channels, buses, ledgers with their copies, and reject outputs. -/
def bankSizes (s : State) : List Nat :=
  [s.lines.length, s.encs.length, s.pds.length, s.preds.length, s.sqs.length, s.ces.length, s.mvs.length, s.paths.length, s.ports.length,
    s.backups.length, s.motors.length, s.buses.length, s.sch.ledgers.length, s.sch.mirror.length, s.sch.rejs.length]

/-- The laws every state keeps: it holds as many of each numbered thing as the device has (R16); the registers and the memories are in their
one canonical form; both copies of every line's counters, and the persisted copy, keep the product law; both copies of every counter slot
keep the serial law. -/
structure Sound (s : State) : Prop where
  banks : bankSizes s = [4, 8, 16, 16, 20, 8, 8, 16, 16, 6, 6, 2, 4, 4, 8]
  regs : spWf regReset s.regs = true
  shadow : spWf regReset s.shadow = true
  image : Memory.wf s.mem.image = true
  ddr : spWf (fun _ => none) s.mem.ddr = true
  hostMem : Memory.wf s.host.mem = true
  ledgers : ∀ l ∈ s.sch.ledgers, l.law
  ledgerCopies : ∀ l ∈ s.sch.mirror, l.law
  ledgersSaved : ∀ x ∈ s.sch.saved, ∀ l ∈ x, Ledger.law l
  counters : ∀ x ∈ s.trust.counters, x.2.law
  counterCopies : ∀ x ∈ s.trust.mirror, x.2.law

/-- Every part. -/
def everything : List Part :=
  [.regs, .shadow, .lines, .encs, .pds, .preds, .sch, .ptab, .pet, .jobs, .binds, .ledgers, .rejs, .trust, .stencils, .counters, .audit, .flt,
    .host, .hostMem, .free, .lc, .primer, .sent, .sqs, .ces, .mvs, .paths, .ren, .lnp, .ocl, .alertHeld, .ports, .backups, .motors, .buses,
    .mem, .image, .ddr, .pwr, .age, .cal]

/-- The parts of the state that a command may change. A command that raises a fault also touches the records, the events, the messages and
the outputs through which a fault shows. -/
def touches : Instr → List Part
  | .badAddressAccess _ _ _ => [.regs, .host]
  | .imageStoreWrite _ _ _ =>
    [.regs, .sch, .ptab, .pet, .jobs, .ledgers, .rejs, .trust, .counters, .audit, .flt, .host, .free, .primer, .sent, .paths, .ren, .lnp, .ocl, .mem,
     .image]
  | .registerWrite _ _ _ =>
    [.regs, .shadow, .lines, .encs, .pds, .preds, .sch, .ptab, .pet, .jobs, .binds, .ledgers, .rejs, .trust, .stencils, .counters, .audit, .flt,
     .host, .free, .lc, .primer, .sent, .sqs, .ces, .mvs, .paths, .ren, .lnp, .ocl, .ports, .backups, .motors, .mem, .image, .pwr, .age, .cal]
  | .lineCtlWrite _ _ => [.regs, .shadow, .lines, .pds, .preds, .sch, .rejs, .host, .sent, .lnp]
  | .linePreset _ _ => [.regs, .lines, .preds, .sch, .pet]
  | .virtSpeedWrite _ _ => [.regs, .lines, .sch, .rejs, .host, .sent, .lnp]
  | .encEdge _ _ _ =>
    [.regs, .lines, .encs, .preds, .sch, .ptab, .pet, .jobs, .ledgers, .rejs, .trust, .counters, .audit, .flt, .host, .primer, .sent, .ces, .paths,
     .ren, .lnp, .ocl, .backups]
  | .encZPulse _ _ => [.regs, .encs]
  | .encFltInput _ _ =>
    [.regs, .lines, .sch, .ptab, .pet, .jobs, .ledgers, .rejs, .trust, .counters, .audit, .flt, .host, .primer, .sent, .paths, .ren, .lnp, .ocl]
  | .stuck _ =>
    [.regs, .lines, .sch, .ptab, .pet, .jobs, .ledgers, .rejs, .trust, .counters, .audit, .flt, .host, .primer, .sent, .paths, .ren, .lnp, .ocl]
  | .freeze _ =>
    [.regs, .lines, .sch, .ptab, .pet, .jobs, .ledgers, .rejs, .trust, .counters, .audit, .flt, .host, .primer, .sent, .paths, .ren, .lnp, .ocl]
  | .ocingStale _ =>
    [.regs, .lines, .sch, .ptab, .pet, .jobs, .ledgers, .rejs, .trust, .counters, .audit, .flt, .host, .primer, .sent, .paths, .ren, .lnp, .ocl]
  | .virtStale _ =>
    [.regs, .lines, .sch, .ptab, .pet, .jobs, .ledgers, .rejs, .trust, .counters, .audit, .flt, .host, .primer, .sent, .paths, .ren, .lnp, .ocl]
  | .drExhausted _ =>
    [.regs, .sch, .ptab, .pet, .jobs, .ledgers, .rejs, .trust, .counters, .audit, .flt, .host, .primer, .sent, .paths, .ren, .lnp, .ocl]
  | .pdEdgeAccept _ _ => [.regs, .shadow, .pds]
  | .captureConfirm _ =>
    [.regs, .shadow, .lines, .pds, .sch, .ptab, .pet, .jobs, .ledgers, .rejs, .trust, .counters, .audit, .flt, .host, .primer, .sent, .paths, .ren,
     .lnp, .ocl]
  | .pdCfgWrite _ _ => [.regs, .shadow, .pds]
  | .ptabSweep => [.regs, .sch, .ptab, .pet, .jobs, .ledgers, .trust, .counters, .audit, .flt, .host, .primer, .sent, .paths, .ren, .lnp, .ocl]
  | .petInsert _ => [.regs, .sch, .pet]
  | .readyBy _ =>
    [.regs, .sch, .ptab, .pet, .jobs, .ledgers, .trust, .counters, .audit, .flt, .host, .primer, .sent, .sqs, .paths, .ren, .lnp, .ocl, .ports]
  | .startChk _ => [.regs, .sch, .ptab, .pet, .jobs, .ledgers, .trust, .counters, .audit, .flt, .host, .primer, .sent, .paths, .ren, .lnp, .ocl]
  | .endChk _ => [.regs, .sch, .ptab, .pet, .jobs, .trust, .counters, .audit, .flt, .host, .primer]
  | .rejDecide _ => [.regs, .sch, .ptab, .pet, .jobs, .ledgers, .trust, .counters, .audit, .flt, .host, .primer, .sent, .paths, .ren, .lnp, .ocl]
  | .rejGate _ => [.regs, .sch, .ptab, .pet, .jobs, .rejs, .trust, .counters, .audit, .flt, .host, .primer]
  | .rejOff _ => [.regs, .sch, .pet, .rejs]
  | .rejPulseTimer _ => [.regs, .sch, .rejs]
  | .handover _ => [.regs, .preds, .sch, .pet, .jobs, .flt, .host, .primer, .sent, .paths, .ports]
  | .signal _ => [.regs, .sch, .pet, .sqs, .ces, .mvs]
  | .activate _ => [.regs, .sch, .pet, .primer]
  | .bindLoad _ _ => [.regs, .shadow, .sch, .binds]
  | .bindUnload _ _ => [.regs, .shadow, .sch, .binds]
  | .bindRegWrite _ _ => [.regs, .shadow, .sch, .binds]
  | .settingRetestWrite _ _ => [.regs, .shadow, .sch, .rejs]
  | .vmaxWrite _ _ => [.regs, .shadow, .sch, .binds]
  | .schLineCtlWrite _ _ => [.regs, .shadow]
  | .lineSafeExit _ => [.regs, .sch, .rejs, .host, .sent, .lnp]
  | .snapReq _ => [.sch]
  | .snapshotCopy _ => [.regs, .sch, .host, .hostMem]
  | .armingResume => [.regs, .sch, .trust, .primer, .pwr]
  | .stencilBegin _ _ => [.regs, .trust, .host]
  | .stencilData _ _ => [.regs, .trust, .host]
  | .stencilEnd _ _ => [.regs, .trust, .stencils, .counters, .audit, .flt, .host, .free, .primer]
  | .stencilUnload _ _ => [.regs, .trust, .stencils, .counters, .audit, .flt, .host, .primer]
  | .stencilInfo _ _ => [.regs, .trust, .host]
  | .openSet _ _ => [.regs, .trust, .audit, .flt, .host, .primer]
  | .batchAdvance _ _ => [.regs, .trust, .audit, .flt, .host, .primer]
  | .timeNonce _ _ => [.regs, .trust, .host]
  | .timeToken _ _ => [.regs, .trust, .audit, .flt, .host, .primer]
  | .timeStatus _ _ => [.regs, .trust, .host]
  | .serialLedger _ _ => [.regs, .trust, .host]
  | .counterRebase _ _ => [.regs, .sch, .ptab, .trust, .counters, .audit, .flt, .host, .primer]
  | .auditRead _ _ => [.regs, .trust, .host]
  | .auditAck _ _ => [.regs, .trust, .audit, .flt, .host, .primer]
  | .ckptRead _ _ => [.regs, .trust, .host]
  | .identity _ _ => [.regs, .trust, .host]
  | .mailboxRspRelease => [.regs]
  | .fieldCompose =>
    [.regs, .sch, .ptab, .pet, .jobs, .ledgers, .trust, .counters, .audit, .flt, .host, .free, .primer, .sent, .paths, .ren, .lnp, .ocl]
  | .blockWriteDone _ _ => [.regs, .trust, .counters, .audit, .flt, .host, .free, .primer]
  | .ckptTimer => [.trust]
  | .ptpHint _ _ _ => [.regs, .trust]
  | .trustCoreFault =>
    [.regs, .sch, .ptab, .pet, .jobs, .ledgers, .rejs, .trust, .counters, .audit, .flt, .host, .primer, .sent, .paths, .ren, .lnp, .ocl, .ports,
     .backups, .motors]
  | .trustRestartDone => [.regs, .sch, .ptab, .trust, .stencils, .counters, .audit, .flt, .host, .free, .lc, .primer, .ports]
  | .renderStart =>
    [.regs, .sch, .ptab, .pet, .jobs, .ledgers, .rejs, .trust, .counters, .audit, .flt, .host, .free, .primer, .sent, .paths, .ren, .lnp, .ocl, .mem,
     .image]
  | .renderComplete =>
    [.regs, .sch, .ptab, .pet, .jobs, .ledgers, .rejs, .trust, .counters, .audit, .flt, .host, .free, .primer, .sent, .paths, .ren, .lnp, .ocl, .mem,
     .image]
  | .firstBufferStage _ => [.sch, .jobs, .paths]
  | .jobResident _ => [.sch, .jobs, .ren]
  | .columnDeliver _ _ _ =>
    [.regs, .sch, .ptab, .pet, .jobs, .ledgers, .rejs, .trust, .counters, .audit, .flt, .host, .free, .primer, .sent, .ces, .paths, .ren, .lnp, .ocl,
     .backups, .mem]
  | .trowelCompress _ =>
    [.regs, .sch, .ptab, .pet, .jobs, .ledgers, .rejs, .trust, .counters, .audit, .flt, .host, .free, .primer, .sent, .paths, .ren, .lnp, .ocl, .mem,
     .image]
  | .fontLoad => [.regs]
  | .fontVerifyDone =>
    [.regs, .sch, .ptab, .pet, .jobs, .ledgers, .rejs, .trust, .counters, .audit, .flt, .host, .free, .primer, .sent, .paths, .ren, .lnp, .ocl, .mem]
  | .fontUnload => [.regs, .ren]
  | .himgCommit _ => [.regs, .shadow, .ren]
  | .himgClear _ => [.regs, .shadow, .ren]
  | .himgBufferFree _ => [.regs]
  | .nop _ =>
    [.regs, .sch, .ptab, .pet, .jobs, .ledgers, .rejs, .trust, .counters, .audit, .flt, .host, .free, .primer, .sent, .sqs, .ces, .mvs, .paths, .ren,
     .lnp, .ocl, .mem]
  | .ldi _ =>
    [.regs, .sch, .ptab, .pet, .jobs, .ledgers, .rejs, .trust, .counters, .audit, .flt, .host, .free, .primer, .sent, .sqs, .ces, .mvs, .paths, .ren,
     .lnp, .ocl, .mem]
  | .ldiZ _ =>
    [.regs, .sch, .ptab, .pet, .jobs, .ledgers, .rejs, .trust, .counters, .audit, .flt, .host, .free, .primer, .sent, .sqs, .ces, .mvs, .paths, .ren,
     .lnp, .ocl, .mem]
  | .ldiSh _ =>
    [.regs, .sch, .ptab, .pet, .jobs, .ledgers, .rejs, .trust, .counters, .audit, .flt, .host, .free, .primer, .sent, .sqs, .ces, .mvs, .paths, .ren,
     .lnp, .ocl, .mem]
  | .ld _ _ =>
    [.regs, .sch, .ptab, .pet, .jobs, .ledgers, .rejs, .trust, .counters, .audit, .flt, .host, .free, .primer, .sent, .sqs, .ces, .mvs, .paths, .ren,
     .lnp, .ocl, .ports, .backups, .mem]
  | .st _ =>
    [.regs, .sch, .ptab, .pet, .jobs, .ledgers, .rejs, .trust, .counters, .audit, .flt, .host, .free, .primer, .sent, .sqs, .ces, .mvs, .paths, .ren,
     .lnp, .ocl, .mem]
  | .add _ =>
    [.regs, .sch, .ptab, .pet, .jobs, .ledgers, .rejs, .trust, .counters, .audit, .flt, .host, .free, .primer, .sent, .sqs, .ces, .mvs, .paths, .ren,
     .lnp, .ocl, .mem]
  | .sub _ =>
    [.regs, .sch, .ptab, .pet, .jobs, .ledgers, .rejs, .trust, .counters, .audit, .flt, .host, .free, .primer, .sent, .sqs, .ces, .mvs, .paths, .ren,
     .lnp, .ocl, .mem]
  | .and _ =>
    [.regs, .sch, .ptab, .pet, .jobs, .ledgers, .rejs, .trust, .counters, .audit, .flt, .host, .free, .primer, .sent, .sqs, .ces, .mvs, .paths, .ren,
     .lnp, .ocl, .mem]
  | .or _ =>
    [.regs, .sch, .ptab, .pet, .jobs, .ledgers, .rejs, .trust, .counters, .audit, .flt, .host, .free, .primer, .sent, .sqs, .ces, .mvs, .paths, .ren,
     .lnp, .ocl, .mem]
  | .xor _ =>
    [.regs, .sch, .ptab, .pet, .jobs, .ledgers, .rejs, .trust, .counters, .audit, .flt, .host, .free, .primer, .sent, .sqs, .ces, .mvs, .paths, .ren,
     .lnp, .ocl, .mem]
  | .shl _ =>
    [.regs, .sch, .ptab, .pet, .jobs, .ledgers, .rejs, .trust, .counters, .audit, .flt, .host, .free, .primer, .sent, .sqs, .ces, .mvs, .paths, .ren,
     .lnp, .ocl, .mem]
  | .shr _ =>
    [.regs, .sch, .ptab, .pet, .jobs, .ledgers, .rejs, .trust, .counters, .audit, .flt, .host, .free, .primer, .sent, .sqs, .ces, .mvs, .paths, .ren,
     .lnp, .ocl, .mem]
  | .sra _ =>
    [.regs, .sch, .ptab, .pet, .jobs, .ledgers, .rejs, .trust, .counters, .audit, .flt, .host, .free, .primer, .sent, .sqs, .ces, .mvs, .paths, .ren,
     .lnp, .ocl, .mem]
  | .cmp _ =>
    [.regs, .sch, .ptab, .pet, .jobs, .ledgers, .rejs, .trust, .counters, .audit, .flt, .host, .free, .primer, .sent, .sqs, .ces, .mvs, .paths, .ren,
     .lnp, .ocl, .mem]
  | .cmpP _ =>
    [.regs, .sch, .ptab, .pet, .jobs, .ledgers, .rejs, .trust, .counters, .audit, .flt, .host, .free, .primer, .sent, .sqs, .ces, .mvs, .paths, .ren,
     .lnp, .ocl, .mem]
  | .br _ =>
    [.regs, .sch, .ptab, .pet, .jobs, .ledgers, .rejs, .trust, .counters, .audit, .flt, .host, .free, .primer, .sent, .sqs, .ces, .mvs, .paths, .ren,
     .lnp, .ocl, .mem]
  | .bz _ =>
    [.regs, .sch, .ptab, .pet, .jobs, .ledgers, .rejs, .trust, .counters, .audit, .flt, .host, .free, .primer, .sent, .sqs, .ces, .mvs, .paths, .ren,
     .lnp, .ocl, .mem]
  | .bnz _ =>
    [.regs, .sch, .ptab, .pet, .jobs, .ledgers, .rejs, .trust, .counters, .audit, .flt, .host, .free, .primer, .sent, .sqs, .ces, .mvs, .paths, .ren,
     .lnp, .ocl, .mem]
  | .bn _ =>
    [.regs, .sch, .ptab, .pet, .jobs, .ledgers, .rejs, .trust, .counters, .audit, .flt, .host, .free, .primer, .sent, .sqs, .ces, .mvs, .paths, .ren,
     .lnp, .ocl, .mem]
  | .call _ =>
    [.regs, .sch, .ptab, .pet, .jobs, .ledgers, .rejs, .trust, .counters, .audit, .flt, .host, .free, .primer, .sent, .sqs, .ces, .mvs, .paths, .ren,
     .lnp, .ocl, .mem]
  | .ret _ =>
    [.regs, .sch, .ptab, .pet, .jobs, .ledgers, .rejs, .trust, .counters, .audit, .flt, .host, .free, .primer, .sent, .sqs, .ces, .mvs, .paths, .ren,
     .lnp, .ocl, .mem]
  | .loop _ =>
    [.regs, .sch, .ptab, .pet, .jobs, .ledgers, .rejs, .trust, .counters, .audit, .flt, .host, .free, .primer, .sent, .sqs, .ces, .mvs, .paths, .ren,
     .lnp, .ocl, .mem]
  | .halt _ =>
    [.regs, .sch, .ptab, .pet, .jobs, .ledgers, .rejs, .trust, .counters, .audit, .flt, .host, .free, .primer, .sent, .sqs, .ces, .mvs, .paths, .ren,
     .lnp, .ocl, .mem]
  | .evt _ =>
    [.regs, .sch, .ptab, .pet, .jobs, .ledgers, .rejs, .trust, .counters, .audit, .flt, .host, .free, .primer, .sent, .sqs, .ces, .mvs, .paths, .ren,
     .lnp, .ocl, .mem]
  | .illegalInstruction _ _ =>
    [.regs, .sch, .ptab, .pet, .jobs, .ledgers, .rejs, .trust, .counters, .audit, .flt, .host, .free, .primer, .sent, .sqs, .ces, .mvs, .paths, .ren,
     .lnp, .ocl, .ports, .backups, .mem]
  | .waitp _ =>
    [.regs, .sch, .ptab, .pet, .jobs, .ledgers, .rejs, .trust, .counters, .audit, .flt, .host, .free, .primer, .sent, .sqs, .ces, .mvs, .paths, .ren,
     .lnp, .ocl, .mem]
  | .waitpReached _ => [.regs, .sqs, .ces, .mvs]
  | .ldcol _ _ =>
    [.regs, .sch, .ptab, .pet, .jobs, .ledgers, .rejs, .trust, .counters, .audit, .flt, .host, .free, .primer, .sent, .sqs, .ces, .mvs, .paths, .ren,
     .lnp, .ocl, .backups, .mem]
  | .mask _ =>
    [.regs, .sch, .ptab, .pet, .jobs, .ledgers, .rejs, .trust, .counters, .audit, .flt, .host, .free, .primer, .sent, .sqs, .ces, .mvs, .paths, .ren,
     .lnp, .ocl, .mem]
  | .enrg _ =>
    [.regs, .sch, .ptab, .pet, .jobs, .ledgers, .rejs, .trust, .counters, .audit, .flt, .host, .free, .primer, .sent, .sqs, .ces, .mvs, .paths, .ren,
     .lnp, .ocl, .mem]
  | .grpAdv _ =>
    [.regs, .sch, .ptab, .pet, .jobs, .ledgers, .rejs, .trust, .counters, .audit, .flt, .host, .free, .primer, .sent, .sqs, .ces, .mvs, .paths, .ren,
     .lnp, .ocl, .mem]
  | .grpSet _ =>
    [.regs, .sch, .ptab, .pet, .jobs, .ledgers, .rejs, .trust, .counters, .audit, .flt, .host, .free, .primer, .sent, .sqs, .ces, .mvs, .paths, .ren,
     .lnp, .ocl, .mem]
  | .grpGet _ =>
    [.regs, .sch, .ptab, .pet, .jobs, .ledgers, .rejs, .trust, .counters, .audit, .flt, .host, .free, .primer, .sent, .sqs, .ces, .mvs, .paths, .ren,
     .lnp, .ocl, .mem]
  | .strb _ =>
    [.regs, .sch, .ptab, .pet, .jobs, .ledgers, .rejs, .trust, .counters, .audit, .flt, .host, .free, .primer, .sent, .sqs, .ces, .mvs, .paths, .ren,
     .lnp, .ocl, .ports, .mem]
  | .strbGroupStart _ => [.regs, .sent, .sqs, .ces, .mvs, .ports]
  | .strobeEnd _ _ => [.ports]
  | .wfselGet _ =>
    [.regs, .sch, .ptab, .pet, .jobs, .ledgers, .rejs, .trust, .counters, .audit, .flt, .host, .free, .primer, .sent, .sqs, .ces, .mvs, .paths, .ren,
     .lnp, .ocl, .mem]
  | .wfselSet _ =>
    [.regs, .sch, .ptab, .pet, .jobs, .ledgers, .rejs, .trust, .counters, .audit, .flt, .host, .free, .primer, .sent, .sqs, .ces, .mvs, .paths, .ren,
     .lnp, .ocl, .mem]
  | .col _ =>
    [.regs, .sch, .ptab, .pet, .jobs, .ledgers, .rejs, .trust, .counters, .audit, .flt, .host, .free, .primer, .sent, .sqs, .ces, .mvs, .paths, .ren,
     .lnp, .ocl, .backups, .mem]
  | .colEmit _ =>
    [.regs, .sch, .ptab, .jobs, .trust, .counters, .audit, .flt, .host, .free, .primer, .sent, .sqs, .ces, .mvs, .paths, .ports, .backups]
  | .ckpt _ _ =>
    [.regs, .sch, .ptab, .pet, .jobs, .ledgers, .rejs, .trust, .counters, .audit, .flt, .host, .free, .primer, .sent, .sqs, .ces, .mvs, .paths, .ren,
     .lnp, .ocl, .ports, .mem]
  | .stretchLep _ =>
    [.regs, .sch, .ptab, .pet, .jobs, .ledgers, .rejs, .trust, .counters, .audit, .flt, .host, .free, .primer, .sent, .sqs, .ces, .mvs, .paths, .ren,
     .lnp, .ocl, .mem]
  | .stretchNext _ =>
    [.regs, .sch, .ptab, .pet, .jobs, .ledgers, .rejs, .trust, .counters, .audit, .flt, .host, .free, .primer, .sent, .sqs, .ces, .mvs, .paths, .ren,
     .lnp, .ocl, .mem]
  | .stretchRatio _ =>
    [.regs, .sch, .ptab, .pet, .jobs, .ledgers, .rejs, .trust, .counters, .audit, .flt, .host, .free, .primer, .sent, .sqs, .ces, .mvs, .paths, .ren,
     .lnp, .ocl, .mem]
  | .stretchState _ =>
    [.regs, .sch, .ptab, .pet, .jobs, .ledgers, .rejs, .trust, .counters, .audit, .flt, .host, .free, .primer, .sent, .sqs, .ces, .mvs, .paths, .ren,
     .lnp, .ocl, .mem]
  | .mul _ =>
    [.regs, .sch, .ptab, .pet, .jobs, .ledgers, .rejs, .trust, .counters, .audit, .flt, .host, .free, .primer, .sent, .sqs, .ces, .mvs, .paths, .ren,
     .lnp, .ocl, .mem]
  | .macAcc _ =>
    [.regs, .sch, .ptab, .pet, .jobs, .ledgers, .rejs, .trust, .counters, .audit, .flt, .host, .free, .primer, .sent, .sqs, .ces, .mvs, .paths, .ren,
     .lnp, .ocl, .mem]
  | .macSet _ =>
    [.regs, .sch, .ptab, .pet, .jobs, .ledgers, .rejs, .trust, .counters, .audit, .flt, .host, .free, .primer, .sent, .sqs, .ces, .mvs, .paths, .ren,
     .lnp, .ocl, .mem]
  | .macSub _ =>
    [.regs, .sch, .ptab, .pet, .jobs, .ledgers, .rejs, .trust, .counters, .audit, .flt, .host, .free, .primer, .sent, .sqs, .ces, .mvs, .paths, .ren,
     .lnp, .ocl, .mem]
  | .macRead _ =>
    [.regs, .sch, .ptab, .pet, .jobs, .ledgers, .rejs, .trust, .counters, .audit, .flt, .host, .free, .primer, .sent, .sqs, .ces, .mvs, .paths, .ren,
     .lnp, .ocl, .mem]
  | .lim _ =>
    [.regs, .sch, .ptab, .pet, .jobs, .ledgers, .rejs, .trust, .counters, .audit, .flt, .host, .free, .primer, .sent, .sqs, .ces, .mvs, .paths, .ren,
     .lnp, .ocl, .mem]
  | .mins _ =>
    [.regs, .sch, .ptab, .pet, .jobs, .ledgers, .rejs, .trust, .counters, .audit, .flt, .host, .free, .primer, .sent, .sqs, .ces, .mvs, .paths, .ren,
     .lnp, .ocl, .mem]
  | .pre _ =>
    [.regs, .sch, .ptab, .pet, .jobs, .ledgers, .rejs, .trust, .counters, .audit, .flt, .host, .free, .primer, .sent, .sqs, .ces, .mvs, .paths, .ren,
     .lnp, .ocl, .mem]
  | .tbli _ =>
    [.regs, .sch, .ptab, .pet, .jobs, .ledgers, .rejs, .trust, .counters, .audit, .flt, .host, .free, .primer, .sent, .sqs, .ces, .mvs, .paths, .ren,
     .lnp, .ocl, .ports, .backups, .mem]
  | .diff _ =>
    [.regs, .sch, .ptab, .pet, .jobs, .ledgers, .rejs, .trust, .counters, .audit, .flt, .host, .free, .primer, .sent, .sqs, .ces, .mvs, .paths, .ren,
     .lnp, .ocl, .mem]
  | .fresh _ =>
    [.regs, .sch, .ptab, .pet, .jobs, .ledgers, .rejs, .trust, .counters, .audit, .flt, .host, .free, .primer, .sent, .sqs, .ces, .mvs, .paths, .ren,
     .lnp, .ocl, .mem]
  | .mov _ =>
    [.regs, .sch, .ptab, .pet, .jobs, .ledgers, .rejs, .trust, .counters, .audit, .flt, .host, .free, .primer, .sent, .sqs, .ces, .mvs, .paths, .ren,
     .lnp, .ocl, .mem]
  | .movb _ =>
    [.regs, .sch, .ptab, .pet, .jobs, .ledgers, .rejs, .trust, .counters, .audit, .flt, .host, .free, .primer, .sent, .sqs, .ces, .mvs, .paths, .ren,
     .lnp, .ocl, .mem]
  | .movbDone _ =>
    [.regs, .sch, .ptab, .pet, .jobs, .ledgers, .rejs, .trust, .counters, .audit, .flt, .host, .free, .primer, .sent, .sqs, .ces, .mvs, .paths, .ren,
     .lnp, .ocl, .mem, .image]
  | .wait _ =>
    [.regs, .sch, .ptab, .pet, .jobs, .ledgers, .rejs, .trust, .counters, .audit, .flt, .host, .free, .primer, .sent, .sqs, .ces, .mvs, .paths, .ren,
     .lnp, .ocl, .mem]
  | .waitWake _ => [.regs, .sqs, .ces, .mvs]
  | .sig _ =>
    [.regs, .sch, .ptab, .pet, .jobs, .ledgers, .rejs, .trust, .counters, .audit, .flt, .host, .free, .primer, .sent, .sqs, .ces, .mvs, .paths, .ren,
     .lnp, .ocl, .mem]
  | .moveComplete _ _ =>
    [.regs, .sch, .ptab, .pet, .jobs, .ledgers, .rejs, .trust, .counters, .audit, .flt, .host, .hostMem, .free, .primer, .sent, .sqs, .ces, .mvs,
     .paths, .ren, .lnp, .ocl, .mem, .image, .ddr]
  | .engineRun _ _ => [.regs, .preds, .sch, .pet, .jobs, .flt, .host, .primer, .sent, .sqs, .ces, .mvs, .paths, .ports]
  | .engineStop _ => [.regs, .sch, .jobs, .sqs, .ces, .mvs, .backups]
  | .engineDoorbell _ => [.regs, .sqs, .ces, .mvs]
  | .programWindowWrite _ _ =>
    [.regs, .sch, .ptab, .pet, .jobs, .ledgers, .rejs, .trust, .counters, .audit, .flt, .host, .free, .primer, .sent, .sqs, .ces, .mvs, .paths, .ren,
     .lnp, .ocl, .mem, .image]
  | .dataWindowWrite _ _ => [.regs, .sqs, .ces, .mvs, .mem]
  | .markBoundary _ => [.regs, .preds, .sch, .pet, .jobs, .flt, .host, .primer, .sent, .sqs, .paths, .ports]
  | .jobStopAtBoundary _ =>
    [.regs, .sch, .ptab, .pet, .jobs, .ledgers, .trust, .counters, .audit, .flt, .host, .primer, .sent, .sqs, .ces, .mvs, .paths, .lnp, .ocl]
  | .sampleTrigger _ => [.regs, .sch, .jobs, .flt, .host, .free, .primer, .sqs, .ces, .mvs, .backups]
  | .cycleOverrun _ => [.regs, .sqs, .ces, .mvs]
  | .shadowSealWrite _ _ => [.regs, .shadow]
  | .maskWrite _ _ => [.regs, .paths]
  | .maskPageCopyDone _ => [.regs, .preds, .sch, .pet, .jobs, .flt, .host, .primer, .sent, .paths, .ports]
  | .seqWatchdog _ =>
    [.regs, .sch, .ptab, .pet, .jobs, .ledgers, .trust, .counters, .audit, .flt, .host, .primer, .sent, .sqs, .ces, .mvs, .paths, .ren, .lnp, .ocl,
     .ports, .mem]
  | .takeoverResume _ _ _ _ =>
    [.regs, .sch, .ptab, .pet, .jobs, .ledgers, .rejs, .trust, .counters, .audit, .flt, .host, .free, .primer, .sent, .sqs, .ces, .mvs, .paths, .ren,
     .lnp, .ocl, .ports, .mem]
  | .giveback _ => [.regs, .paths]
  | .givebackCopy _ => [.regs, .sch, .jobs, .sqs, .ces, .mvs, .paths, .mem]
  | .restore _ => [.regs]
  | .hpCfgWrite _ _ => [.regs, .shadow, .sch, .jobs, .flt, .host, .primer, .sent, .paths, .ports]
  | .latFire _ => [.regs, .sent, .ports]
  | .wfSettingWrite _ _ => [.regs, .shadow]
  | .wfSampleWrite _ _ => [.regs, .sent, .ports]
  | .wflenWrite _ _ _ => [.regs, .shadow]
  | .tempPoll _ _ =>
    [.regs, .sch, .ptab, .pet, .jobs, .ledgers, .trust, .counters, .audit, .flt, .host, .primer, .sent, .sqs, .paths, .ren, .lnp, .ocl, .ports]
  | .idRead _ _ => [.regs, .flt, .host, .primer, .sent, .paths, .ports]
  | .headAccept _ => [.regs, .flt, .host, .primer, .ports]
  | .alignStore _ => [.regs, .ports]
  | .alignStoreDone _ _ => [.regs, .flt, .host, .free, .primer, .ports]
  | .burstStart _ => [.regs, .ports]
  | .testFiring _ => [.regs, .free, .sent, .ports]
  | .dropTestResult _ _ _ => [.regs, .flt, .host, .free, .primer, .ports]
  | .testresPop _ => [.regs, .shadow, .ports]
  | .nzDataAccess _ _ => [.regs, .flt, .host, .primer, .sent, .ports]
  | .bdEdge _ _ _ => [.regs, .sch, .jobs, .flt, .host, .primer, .sent, .paths, .ports]
  | .idxEdge _ => [.regs, .sch, .jobs, .flt, .host, .primer, .sent, .paths, .ports]
  | .bdTimeout _ => [.regs, .sch, .jobs, .flt, .host, .primer, .sent, .paths, .ports]
  | .dllCfgWrite _ _ => [.regs, .shadow, .sch, .jobs, .sent, .paths, .ports]
  | .laserEnWrite _ _ => [.regs, .shadow, .sch, .jobs, .flt, .host, .primer, .sent, .paths, .ports]
  | .ceConfigWrite _ _ => [.regs, .shadow, .ces]
  | .ceKWrite _ _ => [.regs, .shadow]
  | .ceModeWrite _ _ => [.regs, .shadow, .ces]
  | .ceHostxWrite _ _ _ => [.regs, .shadow, .ces]
  | .forceSafe _ => [.regs, .ces]
  | .clearSafe _ => [.ces]
  | .pgVel _ _ => [.regs, .shadow, .ces]
  | .pgPos _ _ => [.regs, .shadow, .ces]
  | .pgRel _ _ => [.regs, .shadow, .ces]
  | .pgStop _ => [.regs, .ces]
  | .pgSet _ _ => [.regs, .shadow, .ces]
  | .currentSample _ _ _ _ _ => [.regs, .sch, .jobs, .flt, .host, .free, .primer, .sent, .ces, .paths, .ports, .backups, .motors]
  | .mcStart _ => [.regs, .sch, .jobs, .flt, .host, .primer, .sent, .paths, .ports, .backups, .motors]
  | .catchEnd _ _ _ _ => [.regs, .motors]
  | .mcStop _ => [.regs, .sch, .jobs, .flt, .host, .primer, .sent, .paths, .ports, .backups, .motors]
  | .mcClear _ => [.regs, .sch, .jobs, .flt, .host, .primer, .sent, .paths, .ports, .backups, .motors]
  | .mcConfigWrite _ _ => [.regs, .shadow, .motors]
  | .busSample _ _ _ => [.regs, .sch, .jobs, .flt, .host, .primer, .sent, .ces, .paths, .ports, .backups, .motors, .buses]
  | .chopFbMismatch _ => [.regs, .flt, .host, .primer]
  | .chopTestPulse _ => [.sent, .buses]
  | .gateFault _ _ => [.regs, .sch, .jobs, .flt, .host, .primer, .sent, .paths, .ports, .backups, .motors]
  | .buTimeout _ => [.regs, .sch, .jobs, .ces, .backups]
  | .hostLinkReset => [.regs, .flt, .host, .primer, .ocl]
  | .ringDoorbell _ _ => [.regs]
  | .ringConsumerWrite _ _ => [.regs, .host]
  | .queuePairReset _ => [.regs, .host]
  | .eventRingReset => [.regs, .host]
  | .eventDeliver _ => [.regs, .host, .hostMem, .sqs, .ces, .mvs]
  | .ping _ _ _ _ => [.regs, .host, .hostMem]
  | .version _ _ _ _ => [.regs, .host, .hostMem]
  | .ledgerSnapshot _ _ _ _ => [.regs, .host, .hostMem]
  | .lineSpeed _ _ _ _ => [.regs, .lines, .sch, .rejs, .host, .hostMem, .sent, .lnp]
  | .oclBarrier _ _ _ _ => [.regs, .host, .hostMem, .sent, .ocl]
  | .resetRequest _ _ _ _ _ _ => everything
  | .speed _ _ _ _ => [.regs, .lines, .sch, .rejs, .host, .sent, .lnp]
  | .ledger _ => [.regs, .sent, .lnp]
  | .arpRequest _ _ _ _ => [.regs, .sent]
  | .icmpEcho _ _ _ _ => [.regs, .sent]
  | .ptpMessage _ _ _ => [.regs, .sent, .lnp]
  | .ocingSymbolLock _ => [.regs, .sent, .ocl]
  | .hello _ _ _ => [.regs, .flt, .host, .primer, .sent, .ocl]
  | .echo _ _ => [.regs, .host, .sent, .ocl]
  | .hopDelayMeasure _ => [.sent, .ocl]
  | .ack _ _ => [.regs, .host, .sent, .ocl]
  | .ocingRetryTimeout _ _ => [.regs, .flt, .host, .primer, .sent, .ocl]
  | .ocingLockLoss _ => [.regs, .flt, .host, .primer, .ocl]
  | .pos _ _ _ => [.regs, .lines, .preds, .sch, .pet, .jobs, .rejs, .host, .sent, .lnp, .ocl]
  | .posBroadcast _ => [.sent, .ocl]
  | .epoch _ _ _ =>
    [.regs, .sch, .ptab, .pet, .jobs, .ledgers, .trust, .counters, .audit, .flt, .host, .hostMem, .free, .primer, .sent, .paths, .ren, .lnp, .ocl]
  | .epochBoundary =>
    [.regs, .sch, .ptab, .pet, .jobs, .ledgers, .trust, .counters, .audit, .flt, .host, .hostMem, .free, .primer, .sent, .paths, .ren, .lnp, .ocl]
  | .handoffOffer _ => [.regs, .sch, .ptab, .sent, .ocl]
  | .offer _ _ => [.regs, .host, .sent, .ocl]
  | .accept _ _ => [.regs, .sch, .ptab, .host, .sent, .ocl]
  | .decline _ _ => [.regs, .sch, .ptab, .pet, .jobs, .ledgers, .trust, .counters, .audit, .flt, .host, .primer, .sent, .lnp, .ocl]
  | .commit _ _ => [.regs, .host, .sent, .ocl]
  | .result _ _ => [.regs, .sch, .ptab, .pet, .jobs, .ledgers, .trust, .counters, .audit, .flt, .host, .primer, .sent, .lnp, .ocl]
  | .barrier _ _ => [.regs, .host, .sent, .ocl]
  | .barrierAck _ _ => [.regs, .host, .hostMem, .sent, .ocl]
  | .mergeDrain _ =>
    [.regs, .sch, .ptab, .pet, .jobs, .ledgers, .rejs, .trust, .counters, .audit, .flt, .host, .free, .primer, .sent, .paths, .ren, .lnp, .ocl, .mem,
     .image]
  | .skimPass _ _ _ _ =>
    [.regs, .sch, .ptab, .pet, .jobs, .ledgers, .rejs, .trust, .counters, .audit, .flt, .host, .free, .primer, .sent, .sqs, .ces, .mvs, .paths, .ren,
     .lnp, .ocl, .ports, .backups, .motors, .mem]
  | .memInject _ => [.regs, .shadow, .free, .mem]
  | .lcStatus _ _ => [.regs, .trust, .host]
  | .lcNonce _ _ => [.regs, .trust, .host, .lc]
  | .lcProvision _ _ => [.regs, .sch, .trust, .counters, .audit, .flt, .host, .lc, .primer, .ports]
  | .lcDeploy _ _ => [.regs, .sch, .trust, .host, .lc, .ports]
  | .lcServiceEnter _ _ => [.regs, .sch, .trust, .host, .lc, .ports]
  | .lcServiceExit _ _ => [.regs, .sch, .trust, .host, .lc, .ports]
  | .lcRetire _ _ => [.regs, .sch, .trust, .counters, .audit, .host, .lc, .ports]
  | .keyStatus _ _ => [.regs, .trust, .host]
  | .keyAuthSet _ _ => [.regs, .trust, .host, .lc]
  | .keyCheckSet _ _ => [.regs, .trust, .host, .lc]
  | .keyCosignSet _ _ => [.regs, .trust, .host, .lc]
  | .keyClear _ _ => [.regs, .trust, .host, .lc]
  | .serviceExpiry => [.lc]
  | .lcChangeDeferred => everything
  | .updateBegin _ _ _ _ => [.regs, .host, .hostMem, .primer]
  | .updateArbitrationEnd => [.regs, .host, .hostMem, .primer, .sent, .ocl]
  | .updateData _ _ _ _ _ => [.regs, .host, .hostMem, .primer]
  | .updateEnd _ _ _ _ => [.regs, .host, .hostMem, .primer]
  | .updateActivate _ _ _ _ => [.regs, .host, .hostMem, .primer]
  | .updateAbort _ _ _ _ => [.regs, .host, .hostMem, .primer]
  | .updateStatus _ _ _ _ => [.regs, .host, .hostMem]
  | .updateConfirm _ _ _ _ => [.regs, .host, .hostMem, .primer]
  | .updateFallback _ _ _ _ => [.regs, .host, .hostMem, .primer]
  | .updateForward _ _ _ _ => [.regs, .host, .hostMem, .primer, .sent, .ocl]
  | .updateCfg _ _ _ _ => [.regs, .host, .hostMem, .primer]
  | .updateSessionTimeout => [.primer]
  | .puBegin _ _ => [.regs, .host, .primer, .sent, .ocl]
  | .puData _ _ => [.regs, .host, .primer, .sent, .ocl]
  | .puBlock _ _ _ => [.regs, .host, .primer, .sent, .ocl]
  | .puEnd _ _ => [.regs, .host, .primer, .sent, .ocl]
  | .puResult _ _ => [.regs, .host, .hostMem, .primer, .sent, .ocl]
  | .puAbort _ _ => [.regs, .host, .primer, .sent, .ocl]
  | .activationRelease => [.regs, .primer]
  | .switchDone =>
    [.regs, .shadow, .sch, .ptab, .ledgers, .trust, .stencils, .counters, .audit, .flt, .host, .hostMem, .free, .lc, .primer, .sent, .ocl, .ports,
     .pwr, .cal]
  | .confirmTimer => [.primer]
  | .supervisorReadyTimeout => [.regs, .primer]
  | .fltStatusClear _ => [.regs]
  | .supervisorMiscompare =>
    [.regs, .sch, .ptab, .pet, .jobs, .ledgers, .rejs, .trust, .counters, .audit, .flt, .host, .primer, .sent, .paths, .ren, .lnp, .ocl, .ports,
     .backups, .motors]
  | .supervisorRestartDone => [.regs, .sch, .ptab, .trust, .stencils, .counters, .audit, .flt, .host, .hostMem, .free, .lc, .primer, .ocl, .ports]
  | .faultPinPulseEnd => [.regs, .flt]
  | .holdWrite _ => [.regs, .shadow]
  | .histPop => [.regs, .flt]
  | .pllLockLoss _ => [.regs, .flt, .host, .primer]
  | .referenceLost =>
    [.regs, .sch, .ptab, .pet, .jobs, .ledgers, .rejs, .trust, .counters, .audit, .flt, .host, .primer, .sent, .paths, .ren, .lnp, .ocl, .ports,
     .backups, .motors]
  | .aonPowerOn _ _ => everything
  | .railStepStable _ => everything
  | .railRiseTimeout _ => everything
  | .railChatter _ => everything
  | .railRetry _ => everything
  | .railScan _ _ _ => everything
  | .powerDownStep _ _ => everything
  | .supplyWarn _ => [.regs, .sch, .trust, .flt, .host, .primer, .pwr]
  | .resetLevel _ => everything
  | .resetL _ => everything
  | .planBurn _ _ => [.regs, .pwr]
  | .hostSnapshot => [.regs, .flt, .host, .free, .primer, .pwr]
  | .snapPop => [.regs, .pwr]
  | .rlkPing _ => [.regs, .sent, .pwr]
  | .rlkStepUp _ => everything
  | .rlkStepDown _ => everything
  | .rlkStatus _ => everything
  | .rlkAbort _ => everything
  | .rlkSetVout _ => [.regs, .flt, .host, .primer, .sent]
  | .rlkGetVout _ => [.regs, .flt, .host, .primer, .sent, .pwr]
  | .rlkSlavePoll _ => [.regs, .flt, .host, .free, .primer, .sent, .pwr]
  | .hkRound _ _ _ _ => [.regs, .sch, .binds, .trust, .flt, .host, .free, .primer, .ces, .mvs, .pwr, .age]
  | .graceExpiry _ => [.regs, .sch, .binds, .mvs, .pwr, .age]
  | .thermalTrip => everything
  | .ageingEvaluation _ _ _ _ => [.regs, .shadow, .sch, .binds, .trust, .flt, .host, .free, .primer, .sent, .ports, .pwr, .age]
  | .derateClockSwitch => [.regs, .age]
  | .replan => [.age]
  | .ampRef _ => [.ports]
  | .driftBaseline _ => [.regs, .age]
  | .calGo _ => [.regs, .shadow, .cal]
  | .calComplete _ _ => [.regs, .flt, .host, .free, .primer, .cal]
  | .trackingTick => everything
  | .datapathCheck _ =>
    [.regs, .sch, .ptab, .pet, .jobs, .ledgers, .trust, .counters, .audit, .flt, .host, .primer, .sent, .sqs, .ces, .mvs, .paths, .ren, .lnp, .ocl,
     .ports, .mem]
  | .enWaitElapsed _ => [.regs, .paths]
  | .pathRestartDone _ => [.regs, .paths]
  | .copyRebuildDone => [.regs, .sch, .ledgers, .trust, .counters]
  | .crystal32kLost => [.regs, .trust, .flt, .host, .primer]
  | .linePortLinkChange _ _ _ => [.regs, .flt, .host, .primer]
  | .pcieLinkTrained _ _ => [.regs, .host, .hostMem, .ocl]
  | .resetLevelRestart _ => everything
  | .vbatLost => [.regs, .trust, .free]
  | .aonPowerLoss => [.regs, .flt, .pwr]

/-- Every register but those listed reads as before. -/
def RegsBut (l : List Nat) (s t : State) : Prop := ∀ a : Nat, a ∉ l → t.reg a = s.reg a

/-- The state with another common state of one engine. -/
def putCore (e : Engine) (c : Core) (s : State) : State := match e with
  | .sq n => setSeq n { seqOf n s with core := c } s
  | .ce n => setCtl n { ctlOf n s with core := c } s
  | .mv n => setMover n { moverOf n s with core := c } s

/-- From `s` to `t` the common state of the engine becomes `c`, and nothing else changes but the status register of the engine, which keeps
the engine's state. -/
def CoreBecomes (e : Engine) (c : Core) (s t : State) : Prop :=
  t = { putCore e c s with regs := t.regs, raised := t.raised } ∧ RegsBut [(stateField e).reg] s t ∧ engState e t = engState e s

/-- A command answers a next state that has `P`, with the queue as it was and every part outside `l` as it was. -/
def Gives (c : Instr) (s : State) (l : List Part) (P : State → Prop) : Prop :=
  ∃ t, exec c s = .next t ∧ t.pending = s.pending ∧ Only l s t ∧ P t

/-- An integer held to the range of a signed number of `w` bits. -/
def clampTo (w : Nat) (x : Int) : Int := max (-(2 ^ (w - 1))) (min (2 ^ (w - 1) - 1) x)

/-- A saturated 48-bit result with its flags: Z and N from the result, V where it was clamped, S kept or set with V. -/
def clamped (x : Int) (carry : Bool) (f : Flags) : Res :=
  let r : Word := BitVec.ofInt 48 (clampTo 48 x)
  let v := decide (clampTo 48 x ≠ x)
  ⟨r, { z := r == 0, n := decide (r.toInt < 0), c := carry, v := v, s := f.s || v, o := f.o }⟩

/-- The TYPE, the TAG and the payload of a command that is a mailbox message (R152). -/
def mailboxRequest : Instr → Option (Nat × Nat × List Byte)
  | .stencilBegin tag payload => some (0x01, tag, payload)
  | .stencilData tag payload => some (0x02, tag, payload)
  | .stencilEnd tag payload => some (0x03, tag, payload)
  | .stencilUnload tag payload => some (0x04, tag, payload)
  | .stencilInfo tag payload => some (0x05, tag, payload)
  | .openSet tag payload => some (0x10, tag, payload)
  | .batchAdvance tag payload => some (0x11, tag, payload)
  | .timeNonce tag payload => some (0x20, tag, payload)
  | .timeToken tag payload => some (0x21, tag, payload)
  | .timeStatus tag payload => some (0x22, tag, payload)
  | .serialLedger tag payload => some (0x30, tag, payload)
  | .counterRebase tag payload => some (0x31, tag, payload)
  | .auditRead tag payload => some (0x40, tag, payload)
  | .auditAck tag payload => some (0x41, tag, payload)
  | .ckptRead tag payload => some (0x42, tag, payload)
  | .identity tag payload => some (0x50, tag, payload)
  | .lcStatus tag payload => some (0x60, tag, payload)
  | .lcNonce tag payload => some (0x61, tag, payload)
  | .lcProvision tag payload => some (0x62, tag, payload)
  | .lcDeploy tag payload => some (0x63, tag, payload)
  | .lcServiceEnter tag payload => some (0x64, tag, payload)
  | .lcServiceExit tag payload => some (0x65, tag, payload)
  | .lcRetire tag payload => some (0x66, tag, payload)
  | .keyStatus tag payload => some (0x68, tag, payload)
  | .keyAuthSet tag payload => some (0x69, tag, payload)
  | .keyCheckSet tag payload => some (0x6A, tag, payload)
  | .keyCosignSet tag payload => some (0x6B, tag, payload)
  | .keyClear tag payload => some (0x6C, tag, payload)
  | _ => none

/-- The merge buffers hold at most one entry for a word, of eight bytes (R380). -/
def MergesOk (s : State) : Prop := (s.mem.merges.map (·.word)).Nodup ∧ ∀ m ∈ s.mem.merges, m.bytes.length = 8

/-- The commands that are an access of the host to a register, a window or a memory of the device. -/
def hostAccesses : Instr → Bool
  | .badAddressAccess _ _ _ | .imageStoreWrite _ _ _ | .registerWrite _ _ _ | .lineCtlWrite _ _ | .linePreset _ _ | .virtSpeedWrite _ _ |
    .pdCfgWrite _ _ | .petInsert _ | .bindLoad _ _ | .bindUnload _ _ | .bindRegWrite _ _ | .settingRetestWrite _ _ | .vmaxWrite _ _ |
    .schLineCtlWrite _ _ | .lineSafeExit _ | .snapReq _ | .fontLoad | .fontUnload | .himgCommit _ | .himgClear _ | .engineRun _ _ | .engineStop _ |
    .engineDoorbell _ | .programWindowWrite _ _ | .dataWindowWrite _ _ | .shadowSealWrite _ _ | .maskWrite _ _ | .giveback _ | .restore _ |
    .hpCfgWrite _ _ | .wfSettingWrite _ _ | .wfSampleWrite _ _ | .wflenWrite _ _ _ | .alignStore _ | .nzDataAccess _ _ | .dllCfgWrite _ _ |
    .laserEnWrite _ _ | .ceConfigWrite _ _ | .ceKWrite _ _ | .ceModeWrite _ _ | .ceHostxWrite _ _ _ | .pgVel _ _ | .pgPos _ _ | .pgRel _ _ |
    .pgStop _ | .pgSet _ _ | .mcStart _ | .mcStop _ | .mcConfigWrite _ _ | .ringDoorbell _ _ | .ringConsumerWrite _ _ | .queuePairReset _ |
    .eventRingReset | .memInject _ | .fltStatusClear _ | .holdWrite _ | .histPop | .hostSnapshot | .snapPop | .replan | .ampRef _ | .calGo _ => true
  | _ => false

/-- The commands that may change what the life-cycle controller holds: its state, its fuses, its keys, its nonce and its expiry. Those beside
the requests and the secure clock are resets, the rail commands, since a power-down that ends may start the device anew, and register writes that
carry a request. -/
def mayChangeLifeCycle : Instr → Bool
  | .registerWrite _ _ _ | .trustRestartDone | .resetRequest _ _ _ _ _ _ | .lcNonce _ _ | .lcProvision _ _ | .lcDeploy _ _ | .lcServiceEnter _ _
  | .lcServiceExit _ _ | .lcRetire _ _ | .keyAuthSet _ _ | .keyCheckSet _ _ | .keyCosignSet _ _ | .keyClear _ _ | .serviceExpiry
  | .lcChangeDeferred | .switchDone | .supervisorRestartDone | .aonPowerOn _ _ | .railStepStable _ | .railRetry _ | .powerDownStep _ _
  | .resetL _ | .rlkStatus _ | .trackingTick | .resetLevelRestart _ | .railRiseTimeout _ | .railChatter _ | .railScan _ _ _ | .resetLevel _
  | .rlkStepUp _ | .rlkStepDown _ | .rlkAbort _ | .thermalTrip => true
  | _ => false

end Sys2Proof.Machine
end

