-- ==== Sys2Proof/WellFormed.lean ====
section
/-! DEFINITION. Which commands are well formed: each operand that names a line, a head, an engine or another numbered thing names one that
the device has, a register's address is a register slot of BAR0, and a value fits the access. The rules speak of such commands
only; the model answers a next state for every other one too, and no claim rests on which. -/

namespace Sys2Proof

/-- The engine is one of the 20 firing sequencers, the 8 control engines or the 8 move channels (R16). -/
def Machine.Engine.wf : Machine.Engine → Bool
  | .sq n => decide (n < 20)
  | .ce n => decide (n < 8)
  | .mv n => decide (n < 8)

/-- The straps: PLAN_SEL and BOOTSEL of two bits each (R415, R445). -/
def Straps.wf (x : Straps) : Bool := decide (x.planSel < 4) && decide (x.bootsel < 4)

/-- A Rail Link address has seven bits. -/
def RailLink.wf : RailLink → Bool
  | .taken a _ _ => decide (a < 128)
  | .answered a _ _ _ _ => decide (a < 128)
  | .silent a _ => decide (a < 128)

/-- An access of 1 to 8 bytes inside BAR0, which has 64 MiB (R7, R8). -/
def access (addr size : Nat) : Bool := decide (0 < size) && decide (size ≤ 8) && decide (addr + size ≤ 0x4000000)

/-- A request is taken from one of the four ring pairs, in an entry of 128 bytes (R353, R355). -/
def ringEntry (q : Nat) (entry : List Byte) : Bool := decide (q < 4) && decide (entry.length = 128)

/-- A register stands at a multiple of eight bytes inside BAR0 (R7). -/
def register (addr : Nat) : Bool := decide (addr % 8 = 0) && decide (addr < 0x4000000)

/-- The addresses of a station have their widths. -/
def Station.wf (x : Station) : Bool := decide (x.mac < 2 ^ 48) && decide (x.ip < 2 ^ 32)

/-- A command is well formed. -/
def Instr.wf : Instr → Bool
  | .badAddressAccess _ addr size => access addr size
  | .imageStoreWrite addr size value => access addr size && decide (value < 256 ^ size)
  | .registerWrite addr size value => access addr size && decide (value < 256 ^ size)
  | .lineCtlWrite line value => decide (line < 4) && decide (value < 2 ^ 64)
  | .linePreset line value => decide (line < 4) && decide (value < 2 ^ 64)
  | .virtSpeedWrite line value => decide (line < 4) && decide (value < 2 ^ 64)
  | .encEdge m _ _ => decide (m < 8)
  | .encZPulse m _ => decide (m < 8)
  | .encFltInput m _ => decide (m < 8)
  | .stuck m => decide (m < 8)
  | .freeze line => decide (line < 4)
  | .ocingStale line => decide (line < 4)
  | .virtStale line => decide (line < 4)
  | .drExhausted line => decide (line < 4)
  | .pdEdgeAccept p _ => decide (p < 16)
  | .captureConfirm p => decide (p < 16)
  | .pdCfgWrite p value => decide (p < 16) && decide (value < 2 ^ 64)
  | .ptabSweep => true
  | .petInsert value => decide (value < 2 ^ 64)
  | .readyBy i => decide (i < 8192)
  | .startChk i => decide (i < 8192)
  | .endChk i => decide (i < 8192)
  | .rejDecide i => decide (i < 8192)
  | .rejGate i => decide (i < 8192)
  | .rejOff i => decide (i < 8192)
  | .rejPulseTimer r => decide (r < 8)
  | .handover i => decide (i < 8192)
  | .signal i => decide (i < 8192)
  | .activate i => decide (i < 8192)
  | .bindLoad b value => decide (b < 64) && decide (value < 2 ^ 64)
  | .bindUnload b value => decide (b < 64) && decide (value < 2 ^ 64)
  | .bindRegWrite addr value => register addr && decide (value < 2 ^ 64)
  | .settingRetestWrite addr value => register addr && decide (value < 2 ^ 64)
  | .vmaxWrite line value => decide (line < 4) && decide (value < 2 ^ 64)
  | .schLineCtlWrite line value => decide (line < 4) && decide (value < 2 ^ 64)
  | .lineSafeExit line => decide (line < 4)
  | .snapReq line => decide (line < 4)
  | .snapshotCopy line => decide (line < 4)
  | .armingResume => true
  | .stencilBegin tag payload => decide (tag < 2 ^ 16) && decide (payload.length ≤ 3072)
  | .stencilData tag payload => decide (tag < 2 ^ 16) && decide (payload.length ≤ 3072)
  | .stencilEnd tag payload => decide (tag < 2 ^ 16) && decide (payload.length ≤ 3072)
  | .stencilUnload tag payload => decide (tag < 2 ^ 16) && decide (payload.length ≤ 3072)
  | .stencilInfo tag payload => decide (tag < 2 ^ 16) && decide (payload.length ≤ 3072)
  | .openSet tag payload => decide (tag < 2 ^ 16) && decide (payload.length ≤ 3072)
  | .batchAdvance tag payload => decide (tag < 2 ^ 16) && decide (payload.length ≤ 3072)
  | .timeNonce tag payload => decide (tag < 2 ^ 16) && decide (payload.length ≤ 3072)
  | .timeToken tag payload => decide (tag < 2 ^ 16) && decide (payload.length ≤ 3072)
  | .timeStatus tag payload => decide (tag < 2 ^ 16) && decide (payload.length ≤ 3072)
  | .serialLedger tag payload => decide (tag < 2 ^ 16) && decide (payload.length ≤ 3072)
  | .counterRebase tag payload => decide (tag < 2 ^ 16) && decide (payload.length ≤ 3072)
  | .auditRead tag payload => decide (tag < 2 ^ 16) && decide (payload.length ≤ 3072)
  | .auditAck tag payload => decide (tag < 2 ^ 16) && decide (payload.length ≤ 3072)
  | .ckptRead tag payload => decide (tag < 2 ^ 16) && decide (payload.length ≤ 3072)
  | .identity tag payload => decide (tag < 2 ^ 16) && decide (payload.length ≤ 3072)
  | .mailboxRspRelease => true
  | .fieldCompose => true
  | .blockWriteDone k _ => decide (k < 64)
  | .ckptTimer => true
  | .ptpHint _ _ _ => true
  | .trustCoreFault => true
  | .trustRestartDone => true
  | .renderStart => true
  | .renderComplete => true
  | .firstBufferStage h => decide (h < 16)
  | .jobResident j => decide (j < 512)
  | .columnDeliver h _ _ => decide (h < 16)
  | .trowelCompress _ => true
  | .fontLoad => true
  | .fontVerifyDone => true
  | .fontUnload => true
  | .himgCommit value => decide (value < 2 ^ 64)
  | .himgClear value => decide (value < 2 ^ 64)
  | .himgBufferFree k => decide (k < 16)
  | .nop e => e.wf
  | .ldi e => e.wf
  | .ldiZ e => e.wf
  | .ldiSh e => e.wf
  | .ld e _ => e.wf
  | .st e => e.wf
  | .add e => e.wf
  | .sub e => e.wf
  | .and e => e.wf
  | .or e => e.wf
  | .xor e => e.wf
  | .shl e => e.wf
  | .shr e => e.wf
  | .sra e => e.wf
  | .cmp e => e.wf
  | .cmpP e => e.wf
  | .br e => e.wf
  | .bz e => e.wf
  | .bnz e => e.wf
  | .bn e => e.wf
  | .call e => e.wf
  | .ret e => e.wf
  | .loop e => e.wf
  | .halt e => e.wf
  | .evt e => e.wf
  | .illegalInstruction e _ => e.wf
  | .waitp n => decide (n < 20)
  | .waitpReached n => decide (n < 20)
  | .ldcol n _ => decide (n < 20)
  | .mask n => decide (n < 20)
  | .enrg n => decide (n < 20)
  | .grpAdv n => decide (n < 20)
  | .grpSet n => decide (n < 20)
  | .grpGet n => decide (n < 20)
  | .strb n => decide (n < 20)
  | .strbGroupStart n => decide (n < 20)
  | .strobeEnd h g => decide (h < 16) && decide (g < 32)
  | .wfselGet n => decide (n < 20)
  | .wfselSet n => decide (n < 20)
  | .col n => decide (n < 20)
  | .colEmit n => decide (n < 20)
  | .ckpt n _ => decide (n < 20)
  | .stretchLep n => decide (n < 20)
  | .stretchNext n => decide (n < 20)
  | .stretchRatio n => decide (n < 20)
  | .stretchState n => decide (n < 20)
  | .mul n => decide (n < 8)
  | .macAcc n => decide (n < 8)
  | .macSet n => decide (n < 8)
  | .macSub n => decide (n < 8)
  | .macRead n => decide (n < 8)
  | .lim n => decide (n < 8)
  | .mins n => decide (n < 8)
  | .pre n => decide (n < 8)
  | .tbli n => decide (n < 8)
  | .diff n => decide (n < 8)
  | .fresh n => decide (n < 8)
  | .mov n => decide (n < 8)
  | .movb n => decide (n < 8)
  | .movbDone n => decide (n < 8)
  | .wait n => decide (n < 8)
  | .waitWake n => decide (n < 8)
  | .sig n => decide (n < 8)
  | .moveComplete n _ => decide (n < 8)
  | .engineRun e entry => e.wf && decide (entry < 2 ^ 11)
  | .engineStop e => e.wf
  | .engineDoorbell e => e.wf
  | .programWindowWrite addr value => register addr && decide (value < 2 ^ 64)
  | .dataWindowWrite addr value => register addr && decide (value < 2 ^ 64)
  | .markBoundary n => decide (n < 20)
  | .jobStopAtBoundary n => decide (n < 20)
  | .sampleTrigger n => decide (n < 8)
  | .cycleOverrun n => decide (n < 8)
  | .shadowSealWrite n value => decide (n < 20) && decide (value < 2 ^ 64)
  | .maskWrite addr value => register addr && decide (value < 2 ^ 64)
  | .maskPageCopyDone n => decide (n < 16)
  | .seqWatchdog n => decide (n < 20)
  | .takeoverResume h _ _ _ => decide (h < 16)
  | .giveback n => decide (n < 20)
  | .givebackCopy h => decide (h < 16)
  | .restore h => decide (h < 16)
  | .hpCfgWrite h value => decide (h < 16) && decide (value < 2 ^ 64)
  | .latFire h => decide (h < 16)
  | .wfSettingWrite addr value => register addr && decide (value < 2 ^ 64)
  | .wfSampleWrite h write => decide (h < 16) && write.all (fun v => decide (v < 2 ^ 64))
  | .wflenWrite h b value => decide (h < 16) && decide (b < 8) && decide (value < 2 ^ 64)
  | .tempPoll h _ => decide (h < 16)
  | .idRead h _ => decide (h < 16)
  | .headAccept h => decide (h < 16)
  | .alignStore h => decide (h < 16)
  | .alignStoreDone h _ => decide (h < 16)
  | .burstStart h => decide (h < 16)
  | .testFiring h => decide (h < 16)
  | .dropTestResult h before _ => decide (h < 16) && decide (before.length = 16)
  | .testresPop h => decide (h < 16)
  | .nzDataAccess h write => decide (h < 16) && write.all (fun v => decide (v < 2 ^ 64))
  | .bdEdge h _ _ => decide (h < 16)
  | .idxEdge h => decide (h < 16)
  | .bdTimeout h => decide (h < 16)
  | .dllCfgWrite h value => decide (h < 16) && decide (value < 2 ^ 64)
  | .laserEnWrite h value => decide (h < 16) && decide (value < 2 ^ 64)
  | .ceConfigWrite addr value => register addr && decide (value < 2 ^ 64)
  | .ceKWrite addr value => register addr && decide (value < 2 ^ 64)
  | .ceModeWrite n value => decide (n < 8) && decide (value < 2 ^ 64)
  | .ceHostxWrite n i value => decide (n < 8) && decide (i < 8) && decide (value < 2 ^ 64)
  | .forceSafe n => decide (n < 8)
  | .clearSafe n => decide (n < 8)
  | .pgVel n target => decide (n < 8) && decide (target < 2 ^ 48)
  | .pgPos n target => decide (n < 8) && decide (target < 2 ^ 48)
  | .pgRel n target => decide (n < 8) && decide (target < 2 ^ 48)
  | .pgStop n => decide (n < 8)
  | .pgSet n target => decide (n < 8) && decide (target < 2 ^ 48)
  | .currentSample c _ _ _ _ => decide (c < 6)
  | .mcStart c => decide (c < 6)
  | .catchEnd c _ _ _ => decide (c < 6)
  | .mcStop c => decide (c < 6)
  | .mcClear c => decide (c < 6)
  | .mcConfigWrite addr value => register addr && decide (value < 2 ^ 64)
  | .busSample m _ _ => decide (m < 2)
  | .chopFbMismatch m => decide (m < 2)
  | .chopTestPulse m => decide (m < 2)
  | .gateFault c _ => decide (c < 6)
  | .buTimeout c => decide (c < 6)
  | .hostLinkReset => true
  | .ringDoorbell q value => decide (q < 4) && decide (value < 2 ^ 64)
  | .ringConsumerWrite q value => decide (q < 5) && decide (value < 2 ^ 64)
  | .queuePairReset q => decide (q < 4)
  | .eventRingReset => true
  | .eventDeliver src => src.all Machine.Engine.wf
  | .ping q entry _ _ => ringEntry q entry
  | .version q entry _ _ => ringEntry q entry
  | .ledgerSnapshot q entry _ _ => ringEntry q entry
  | .lineSpeed q entry _ _ => ringEntry q entry
  | .oclBarrier q entry _ _ => ringEntry q entry
  | .resetRequest q entry _ _ straps _ => ringEntry q entry && straps.wf
  | .speed p route _ _ => decide (p < 2) && decide (route.src < 2 ^ 32) && decide (route.dst < 2 ^ 32) && decide (route.port < 2 ^ 16)
  | .ledger line => decide (line < 4)
  | .arpRequest p sender target _ => decide (p < 2) && sender.wf && decide (target < 2 ^ 32)
  | .icmpEcho p route _ _ => decide (p < 2) && route.sender.wf && decide (route.dst < 2 ^ 32)
  | .ptpMessage p _ _ => decide (p < 2)
  | .ocingSymbolLock p => decide (p < 2)
  | .hello p _ _ => decide (p < 2)
  | .echo p _ => decide (p < 2)
  | .hopDelayMeasure p => decide (p < 2)
  | .ack p _ => decide (p < 2)
  | .ocingRetryTimeout p lseq => decide (p < 2) && decide (lseq < 256)
  | .ocingLockLoss p => decide (p < 2)
  | .pos p _ _ => decide (p < 2)
  | .posBroadcast line => decide (line < 4)
  | .epoch p _ _ => decide (p < 2)
  | .epochBoundary => true
  | .handoffOffer i => decide (i < 2048)
  | .offer p _ => decide (p < 2)
  | .accept p _ => decide (p < 2)
  | .decline p _ => decide (p < 2)
  | .commit p _ => decide (p < 2)
  | .result p _ => decide (p < 2)
  | .barrier p _ => decide (p < 2)
  | .barrierAck p _ => decide (p < 2)
  | .mergeDrain word => decide (word < 109 * 65536)
  | .skimPass _ _ _ percent => decide (percent ≤ 100)
  | .memInject value => decide (value < 2 ^ 64)
  | .lcStatus tag payload => decide (tag < 2 ^ 16) && decide (payload.length ≤ 3072)
  | .lcNonce tag payload => decide (tag < 2 ^ 16) && decide (payload.length ≤ 3072)
  | .lcProvision tag payload => decide (tag < 2 ^ 16) && decide (payload.length ≤ 3072)
  | .lcDeploy tag payload => decide (tag < 2 ^ 16) && decide (payload.length ≤ 3072)
  | .lcServiceEnter tag payload => decide (tag < 2 ^ 16) && decide (payload.length ≤ 3072)
  | .lcServiceExit tag payload => decide (tag < 2 ^ 16) && decide (payload.length ≤ 3072)
  | .lcRetire tag payload => decide (tag < 2 ^ 16) && decide (payload.length ≤ 3072)
  | .keyStatus tag payload => decide (tag < 2 ^ 16) && decide (payload.length ≤ 3072)
  | .keyAuthSet tag payload => decide (tag < 2 ^ 16) && decide (payload.length ≤ 3072)
  | .keyCheckSet tag payload => decide (tag < 2 ^ 16) && decide (payload.length ≤ 3072)
  | .keyCosignSet tag payload => decide (tag < 2 ^ 16) && decide (payload.length ≤ 3072)
  | .keyClear tag payload => decide (tag < 2 ^ 16) && decide (payload.length ≤ 3072)
  | .serviceExpiry => true
  | .lcChangeDeferred => true
  | .updateBegin q entry _ _ => ringEntry q entry
  | .updateArbitrationEnd => true
  | .updateData q entry _ _ _ => ringEntry q entry
  | .updateEnd q entry _ _ => ringEntry q entry
  | .updateActivate q entry _ _ => ringEntry q entry
  | .updateAbort q entry _ _ => ringEntry q entry
  | .updateStatus q entry _ _ => ringEntry q entry
  | .updateConfirm q entry _ _ => ringEntry q entry
  | .updateFallback q entry _ _ => ringEntry q entry
  | .updateForward q entry _ _ => ringEntry q entry
  | .updateCfg q entry _ _ => ringEntry q entry
  | .updateSessionTimeout => true
  | .puBegin p _ => decide (p < 2)
  | .puData p _ => decide (p < 2)
  | .puBlock p _ _ => decide (p < 2)
  | .puEnd p _ => decide (p < 2)
  | .puResult p _ => decide (p < 2)
  | .puAbort p _ => decide (p < 2)
  | .activationRelease => true
  | .switchDone => true
  | .confirmTimer => true
  | .supervisorReadyTimeout => true
  | .fltStatusClear value => decide (value < 2 ^ 64)
  | .supervisorMiscompare => true
  | .supervisorRestartDone => true
  | .faultPinPulseEnd => true
  | .holdWrite value => decide (value < 2 ^ 64)
  | .histPop => true
  | .pllLockLoss pll => decide (pll < 6)
  | .referenceLost => true
  | .aonPowerOn straps _ => straps.wf
  | .railStepStable _ => true
  | .railRiseTimeout rail => decide (rail < 12)
  | .railChatter rail => decide (rail < 12)
  | .railRetry straps => straps.wf
  | .railScan _ _ _ => true
  | .powerDownStep _ _ => true
  | .supplyWarn _ => true
  | .resetLevel _ => true
  | .resetL straps => straps.wf
  | .planBurn index _ => decide (index < 4)
  | .hostSnapshot => true
  | .snapPop => true
  | .rlkPing e => e.wf
  | .rlkStepUp e => e.wf
  | .rlkStepDown e => e.wf
  | .rlkStatus e => e.wf
  | .rlkAbort e => e.wf
  | .rlkSetVout e => e.wf
  | .rlkGetVout e => e.wf
  | .rlkSlavePoll _ => true
  | .hkRound _ _ _ _ => true
  | .graceExpiry band => decide (band < 8)
  | .thermalTrip => true
  | .ageingEvaluation _ _ _ _ => true
  | .derateClockSwitch => true
  | .replan => true
  | .ampRef h => decide (h < 16)
  | .driftBaseline n => decide (n < 8)
  | .calGo value => decide (value < 2 ^ 64)
  | .calComplete _ _ => true
  | .trackingTick => true
  | .datapathCheck n => decide (n < 20)
  | .enWaitElapsed h => decide (h < 16)
  | .pathRestartDone h => decide (h < 16)
  | .copyRebuildDone => true
  | .crystal32kLost => true
  | .linePortLinkChange p _ rate => decide (p < 2) && decide (rate < 3)
  | .pcieLinkTrained _ _ => true
  | .resetLevelRestart straps => straps.wf
  | .vbatLost => true
  | .aonPowerLoss => true

end Sys2Proof
end

