-- ==== Sys2Proof/Certificates/Slice0/Obligations.lean ====
section
/-! DEFINITION. The statements for the provers. -/

open Sys2Proof Sys2Proof.Machine

/-! ### The queue, reset, and every command -/

/-- A step runs the command at the front of the queue, on the state with the queue's rest. -/
def Obligations.StepRunsFront : Prop := ∀ (c : Instr) (rest : List Instr) (s : State),
  step { s with pending := c :: rest } = exec c { s with pending := rest }

/-- With an empty queue the block idles (the model's choice, log entry 1), and no word spells a command, so that a fetch word leaves the
state as it is (the table gives no row any bits). -/
def Obligations.StepIdles : Prop :=
  (∀ s : State, s.pending = [] → step s = .next s) ∧
  ∀ (n w : Nat) (s : State), decodeTableWord n w = none ∧ s.withFetchWord n w = s

/-- The machine right after reset keeps the laws; its queue is empty, its memories list nothing, and no engine runs. -/
def Obligations.ResetIsSound : Prop :=
  Sound State.reset ∧ MergesOk State.reset ∧ State.reset.pending = [] ∧ State.reset.mem.image = [] ∧ State.reset.mem.ddr = [] ∧
    State.reset.host.mem = [] ∧
    ∀ n, (n < 20 → engState (.sq n) State.reset = 0) ∧ (n < 8 → engState (.ce n) State.reset = 0 ∧ engState (.mv n) State.reset = 0)

/-- Every command, on every state, answers a next state. It leaves the queue as it is, and it leaves every part of the state as it is but
those listed for it. -/
def Obligations.EveryCommandCompletes : Prop := ∀ (c : Instr) (s : State),
  ∃ t, exec c s = .next t ∧ t.pending = s.pending ∧ Only (touches c) s t

/-- Every step keeps the laws: it holds as many of each numbered thing as the device has, the registers and the memories stay in their
canonical form, DETECTED stays the sum of the closed states and IN_FLIGHT in both copies of every line's counters and in the persisted
copy, REJECTED stays the sum of its causes, and ISSUED stays PRINTED + VOIDED + RESERVED in both copies of every counter slot. -/
def Obligations.StepKeepsLaws : Prop := ∀ (s t : State), Sound s → step s = .next t → Sound t

/-- Any run of steps keeps the laws and takes the commands one by one, first in, first out: a run of `n` steps from a state with `n` or more
commands waiting ends, and leaves the queue without its first `n` commands. -/
def Obligations.RunsTakeTheQueue : Prop := ∀ (n : Nat) (s : State), Sound s → n ≤ s.pending.length →
  ∃ t, Nat.repeat (fun (o : Option State) => o.bind fun x => match step x with
      | .next y => some y
      | _ => none) n (some s) = some t ∧ Sound t ∧ t.pending = s.pending.drop n

/-! ### The Adeger instruction set -/

/-- NOP, LDI, LDI.Z and LDI.SH, on every engine that comes to one: the register of W the instruction names takes its value, the program
counter moves on by one, and no flag and no other register of the engine changes. The fetch of an instruction changes nothing that the
program sees, and nothing else at all where the word needs no correction. -/
def Obligations.EngineLoadsImmediate : Prop := ∀ (e : Engine) (s : State), Sound s → let u := fetched e s; let c := coreOf e u
  (∀ i, nextInsn e s = some i → c = { coreOf e s with cycHeld := false } ∧
    (flawAt (progWord e (coreOf e s).pc) s = none → CoreBecomes e c s u)) ∧
  (nextInsn e s = some .nop → ∃ t, exec (.nop e) s = .next t ∧ CoreBecomes e { c with pc := c.pc + 1 } u t) ∧
  (∀ rd imm, nextInsn e s = some (.ldi rd imm) → ∃ t, exec (.ldi e) s = .next t ∧
    CoreBecomes e { c with w := c.w.set rd (BitVec.ofInt 48 (if imm < 2 ^ 13 then (imm : Int) else (imm : Int) - 2 ^ 14)), pc := c.pc + 1 } u t) ∧
  (∀ rd imm, nextInsn e s = some (.ldiZ rd imm) → ∃ t, exec (.ldiZ e) s = .next t ∧
    CoreBecomes e { c with w := c.w.set rd (BitVec.ofNat 48 imm), pc := c.pc + 1 } u t) ∧
  (∀ rd imm, nextInsn e s = some (.ldiSh rd imm) → ∃ t, exec (.ldiSh e) s = .next t ∧
    CoreBecomes e { c with w := c.w.set rd (BitVec.ofNat 48 ((c.w.getD rd 0).toNat * 2 ^ 14 + imm)), pc := c.pc + 1 } u t)

/-- LD and ST: the data address is (A + imm) mod 2^16; LD writes rd, ST writes one data word through its bank; the address register moves by
one in modes 1 and 2; no flag changes. A load that meets an uncorrectable error is the illegal instruction MEM_ECC. -/
def Obligations.EngineDataMemory : Prop := ∀ (e : Engine) (s : State) (rd mode an imm : Nat), Sound s → let u := fetched e s; let c := coreOf e u
  let addr := ((c.a.getD an 0).toNat + imm) % 65536
  let a := if mode = 1 then c.a.set an (c.a.getD an 0 + 1) else if mode = 2 then c.a.set an (c.a.getD an 0 - 1) else c.a
  (nextInsn e s = some (.ld rd mode an imm) → addr < dataSize e ∧
    (wordBad (dataWord e addr) u = false → ∃ t, exec (.ld e false) s = .next t ∧
      CoreBecomes e { c with w := c.w.set rd (spGet (fun _ => 0) c.data addr), a := a, pc := c.pc + 1 } (readWord (dataWord e addr) 0 u) t) ∧
    ∀ ue, ue = true ∨ wordBad (dataWord e addr) u = true → exec (.ld e ue) s = .next (eccIllegal e [dataWord e addr] u)) ∧
  (nextInsn e s = some (.st rd mode an imm) → addr < dataSize e ∧ ∃ t, exec (.st e) s = .next t ∧
    CoreBecomes e { c with data := spPut (fun _ => 0) c.data addr (c.w.getD rd 0), a := a, pc := c.pc + 1 } (bankWrite (dataWord e addr) u) t)

/-- ADD and SUB in every operand form: exact sums and differences, modulo 2^48 in profiles F and M and saturated in L, with the carry or
borrow, V and the sticky S. -/
def Obligations.EngineAddSub : Prop := ∀ (e : Engine) (s : State) (rd rs1 : RegRef) (src : Src),
  let u := fetched e s
  let x := readReg e rs1 u
  let y := readSrc e src x.2
  let f := (coreOf e y.2).fl
  let res (exact : Int) (c : Bool) : Res :=
    let r : Word := BitVec.ofInt 48 (if e.profile = .l then max (-(2 ^ 47)) (min (2 ^ 47 - 1) exact) else exact)
    let v := decide (r.toInt ≠ exact)
    ⟨r, { z := r == 0, n := decide (r.toInt < 0), c := c, v := v, s := f.s || (decide (e.profile = .l) && v), o := f.o }⟩
  (nextInsn e s = some (.alu .add rd rs1 src) → exec (.add e) s = .next (advance e
    (writeRes e rd (res (x.1.toInt + y.1.toInt) (decide (2 ^ 48 ≤ x.1.toNat + y.1.toNat))) y.2))) ∧
  (nextInsn e s = some (.alu .sub rd rs1 src) → exec (.sub e) s = .next (advance e
    (writeRes e rd (res (x.1.toInt - y.1.toInt) (decide (x.1.toNat < y.1.toNat))) y.2)))

/-- AND, OR and XOR in every operand form: bit by bit, with Z and N from the result and C and V cleared. -/
def Obligations.EngineLogic : Prop := ∀ (e : Engine) (s : State) (rd rs1 : RegRef) (src : Src),
  let u := fetched e s
  let x := readReg e rs1 u
  let y := readSrc e src x.2
  let f := (coreOf e y.2).fl
  let done (r : Word) : State :=
    advance e (writeRes e rd ⟨r, { z := r == 0, n := decide (r.toInt < 0), c := false, v := false, s := f.s, o := f.o }⟩ y.2)
  (nextInsn e s = some (.alu .and rd rs1 src) → exec (.and e) s = .next (done (x.1 &&& y.1))) ∧
  (nextInsn e s = some (.alu .or rd rs1 src) → exec (.or e) s = .next (done (x.1 ||| y.1))) ∧
  (nextInsn e s = some (.alu .xor rd rs1 src) → exec (.xor e) s = .next (done (x.1 ^^^ y.1)))

/-- SHL, SHR and SRA in every operand form: the amount is bits 5:0 of the second operand; C takes the last bit shifted out for 1 to 48; V is
cleared, but where an SHL of profile L is clamped. -/
def Obligations.EngineShifts : Prop := ∀ (e : Engine) (s : State) (rd rs1 : RegRef) (src : Src),
  let u := fetched e s
  let x := readReg e rs1 u
  let y := readSrc e src x.2
  let f := (coreOf e y.2).fl
  let sh := y.1.toNat % 64
  let done (r : Word) (c v : Bool) : State := advance e (writeRes e rd
    ⟨r, { z := r == 0, n := decide (r.toInt < 0), c := c, v := v, s := f.s || v, o := f.o }⟩ y.2)
  let outLeft := decide (1 ≤ sh ∧ sh ≤ 48) && x.1.getLsbD (48 - sh)
  let outRight := decide (1 ≤ sh ∧ sh ≤ 48) && x.1.getLsbD (sh - 1)
  let exact : Int := x.1.toInt * 2 ^ sh
  (nextInsn e s = some (.alu .shl rd rs1 src) → exec (.shl e) s = .next
    (if e.profile = .l then done (BitVec.ofInt 48 (max (-(2 ^ 47)) (min (2 ^ 47 - 1) exact))) outLeft
        (decide (exact < -(2 ^ 47) ∨ 2 ^ 47 - 1 < exact))
      else done (BitVec.ofInt 48 exact) outLeft false)) ∧
  (nextInsn e s = some (.alu .shr rd rs1 src) → exec (.shr e) s = .next (done (BitVec.ofNat 48 (x.1.toNat / 2 ^ sh)) outRight false)) ∧
  (nextInsn e s = some (.alu .sra rd rs1 src) → exec (.sra e) s = .next (done (BitVec.ofInt 48 (x.1.toInt / 2 ^ sh)) outRight false))

/-- CMP and CMP with POS in every operand form: the flags of the exact difference, or of the modular difference of two positions; no register
is written, and S and O stay. -/
def Obligations.EngineCompare : Prop := ∀ (e : Engine) (s : State) (rs1 : RegRef),
  let u := fetched e s
  let x := readReg e rs1 u
  (∀ src, nextInsn e s = some (.cmp rs1 src) → let y := readSrc e src x.2; let d := x.1.toInt - y.1.toInt
    exec (.cmp e) s = .next (advance e (modCore e (fun c => { c with fl :=
      { z := decide (d = 0), n := decide (d < 0), c := decide (x.1.toNat < y.1.toNat), v := false, s := c.fl.s, o := c.fl.o } }) y.2))) ∧
  (∀ rs2, nextInsn e s = some (.cmpP rs1 rs2) → let y := readReg e rs2 x.2; let d := BitVec.ofInt 48 (x.1.toInt - y.1.toInt)
    exec (.cmpP e) s = .next (advance e (modCore e (fun c => { c with fl :=
      { z := d == 0, n := decide (d.toInt < 0), c := false, v := false, s := c.fl.s, o := c.fl.o } }) y.2)))

/-- BR, BZ, BNZ, BN, CALL, RET and LOOP: the program counter goes to PC + off (16 bits) where the branch is taken and to PC + 1 where it is
not; CALL pushes PC + 1, RET pops, LOOP counts its register down; no flag changes. -/
def Obligations.EngineBranches : Prop := ∀ (e : Engine) (s : State), Sound s → let u := fetched e s; let c := coreOf e u
  let goes (cmd : Instr) (taken : Bool) (off : Int) : Prop := ∃ t, exec cmd s = .next t ∧
    CoreBecomes e { c with pc := if taken then (((c.pc : Int) + off) % 65536).toNat else c.pc + 1 } u t
  (∀ off, nextInsn e s = some (.br off) → goes (.br e) true off) ∧
  (∀ off, nextInsn e s = some (.bz off) → goes (.bz e) c.fl.z off) ∧
  (∀ off, nextInsn e s = some (.bnz off) → goes (.bnz e) (!c.fl.z) off) ∧
  (∀ off, nextInsn e s = some (.bn off) → goes (.bn e) c.fl.n off) ∧
  (∀ off, nextInsn e s = some (.call off) → c.stack.length < 8 ∧ ∃ t, exec (.call e) s = .next t ∧
    CoreBecomes e { c with stack := (c.pc + 1) :: c.stack, pc := (((c.pc : Int) + off) % 65536).toNat } u t) ∧
  (nextInsn e s = some .ret → ∃ p l, c.stack = p :: l ∧ ∃ t, exec (.ret e) s = .next t ∧ CoreBecomes e { c with stack := l, pc := p } u t) ∧
  (∀ wc off, nextInsn e s = some (.loop wc off) → let x := c.w.getD wc 0 - 1
    ∃ t, exec (.loop e) s = .next t ∧ CoreBecomes e { c with
      w := c.w.set wc x, pc := if x = 0 then c.pc + 1 else (((c.pc : Int) + off) % 65536).toNat } u t)

/-- EVT: with fewer than four entries in the engine's queue the code and its tick join it and DEPTH shows it; with four the code is dropped and
LOST counts, up to its largest value. Either way the engine goes on. -/
def Obligations.EngineEvents : Prop := ∀ (e : Engine) (s : State) (code : Nat), Sound s → nextInsn e s = some (.evt code) →
  let u := fetched e s
  let c := coreOf e u
  ∃ t, exec (.evt e) s = .next t ∧ Only [.regs, .sqs, .ces, .mvs] u t ∧
    RegsBut [(stateField e).reg, (evtDepth e).reg] u t ∧ engState e t = engState e u ∧
    (c.evq.length < 4 → coreOf e t = { c with evq := c.evq ++ [(code, now u)], pc := c.pc + 1 } ∧
      getF (evtDepth e) t = c.evq.length + 1 ∧ getF (evtLost e) t = getF (evtLost e) u) ∧
    (4 ≤ c.evq.length → coreOf e t = { c with pc := c.pc + 1 } ∧
      getF (evtDepth e) t = getF (evtDepth e) u ∧ getF (evtLost e) t = min (getF (evtLost e) u + 1) (2 ^ (evtLost e).width - 1))

/-- MUL of a control engine, in every operand form: the exact product, with half of the last place added where RND asks for it, shifted right
and saturated; C is cleared. -/
def Obligations.LoopMultiply : Prop := ∀ (n : Nat) (s : State) (sh : Nat) (rnd : Bool) (rd a b : RegRef), let e := Engine.ce n
  let u := fetched e s
  let x := readReg e a u
  let y := readReg e b x.2
  let p := x.1.toInt * y.1.toInt + if rnd = true ∧ 0 < sh then 2 ^ (sh - 1) else 0
  nextInsn e s = some (.mul sh rnd rd a b) →
    exec (.mul n) s = .next (advance e (writeRes e rd (clamped (p / 2 ^ sh) false (coreOf e y.2).fl) y.2))

/-- MAC ops 0 to 3: ACC takes the sum, the product or the difference, held to 96 bits, with Z and N from ACC and V and S where it was clamped;
op 3 reads ACC shifted right and saturated and leaves it. C is unchanged by all four; a clamp is an event of its tick (R11). -/
def Obligations.LoopAccumulate : Prop := ∀ (n : Nat) (s : State), let e := Engine.ce n
  let u := fetched e s
  let takes (cmd : Instr) (a b : RegRef) (f : Int → Int → Int) : Prop :=
    let x := readReg e a u
    let y := readReg e b x.2
    let q := f (ctlOf n y.2).acc.toInt (x.1.toInt * y.1.toInt)
    let acc : BitVec 96 := BitVec.ofInt 96 (clampTo 96 q)
    let v := decide (clampTo 96 q ≠ q)
    exec cmd s = .next (advance e (modCore e (fun c => { c with fl :=
      { z := acc == 0, n := decide (acc.toInt < 0), c := c.fl.c, v := v, s := c.fl.s || v, o := c.fl.o } })
      (doIf v (noteSaturation e) (setCtl n { ctlOf n y.2 with acc := acc } y.2))))
  (∀ a b, nextInsn e s = some (.macAcc a b) → takes (.macAcc n) a b (fun acc p => acc + p)) ∧
  (∀ a b, nextInsn e s = some (.macSet a b) → takes (.macSet n) a b (fun _ p => p)) ∧
  (∀ a b, nextInsn e s = some (.macSub a b) → takes (.macSub n) a b (fun acc p => acc - p)) ∧
  (∀ sh rd, nextInsn e s = some (.macRead sh rd) → let f := (coreOf e u).fl
    exec (.macRead n) s = .next (advance e (writeRes e rd (clamped ((ctlOf n u).acc.toInt / 2 ^ sh) f.c f) u)))

/-- LIM, MINS, PRE and DIFF of a control engine, in every operand form. -/
def Obligations.LoopLimits : Prop := ∀ (n : Nat) (s : State) (rd a b : RegRef), let e := Engine.ce n
  let u := fetched e s
  let x := readReg e a u
  let y := readReg e b x.2
  let f := (coreOf e y.2).fl
  (nextInsn e s = some (.lim rd a b) → let o := readReg e rd y.2
    let r : Word := if o.1.toInt < x.1.toInt then (if y.1.toInt < x.1.toInt then y.1 else x.1) else if y.1.toInt < o.1.toInt then y.1 else o.1
    let g := (coreOf e o.2).fl
    exec (.lim n) s = .next (advance e (writeRes e rd
      ⟨r, { z := r == 0, n := decide (r.toInt < 0), c := g.c, v := decide (r ≠ o.1), s := g.s, o := g.o }⟩ o.2))) ∧
  (nextInsn e s = some (.mins rd a b) → let r := if y.1.toInt < x.1.toInt then y.1 else x.1
    exec (.mins n) s = .next (advance e (writeRes e rd
      ⟨r, { z := r == 0, n := decide (r.toInt < 0), c := decide (y.1.toInt < x.1.toInt), v := false, s := f.s, o := f.o }⟩ y.2))) ∧
  (∀ cond, nextInsn e s = some (.pre cond rd a b) →
    exec (.pre n) s = .next (if cond = true ∧ (coreOf e u).fl.c = false then advance e u
      else advance e (writeRes e rd (clamped (x.1.toInt - y.1.toInt) f.c f) y.2))) ∧
  (∀ w2, nextInsn e s = some (.diff rd a w2) → b = ⟨0, w2⟩ →
    exec (.diff n) s = .next (advance e (writeRes e rd
      (clamped (x.1.toInt - y.1.toInt) (decide (x.1.toNat < y.1.toNat)) f) (putW e w2 x.1 y.2))))

/-! ### Tracking -/

/-- R43: while the line has a product IN_FLIGHT, a write that would change EN, SRC, ENC_SEL, DIR_INV, OC_UNIT or OC_LINE is ignored and sets
CFG_REFUSED; so is any preset; a write that would set SRC to 3 is ignored at any time. CFG_REFUSED is all that changes. -/
def Obligations.LineSettingsGuarded : Prop := ∀ (n v : Nat) (s : State), n < 4 → startStopped s = false →
  let inFlight := ∃ x ∈ s.sch.ptab, x.2.line = n ∧ x.2.state = .inFlight
  let changes := ∃ f ∈ [fTRK_LINE_CTL_EN n, fTRK_LINE_CTL_SRC n, fTRK_LINE_CTL_ENC_SEL n, fTRK_LINE_CTL_DIR_INV n, fTRK_LINE_CTL_OC_UNIT n,
    fTRK_LINE_CTL_OC_LINE n], v / 2 ^ f.lo % 2 ^ f.width ≠ getF f s
  (v / 2 % 4 = 3 ∨ (inFlight ∧ changes) → exec (.lineCtlWrite n v) s = .next (setF (fTRK_LINE_STAT_CFG_REFUSED n) 1 s)) ∧
  (inFlight → exec (.linePreset n v) s = .next (setF (fTRK_LINE_STAT_CFG_REFUSED n) 1 s))

/-- A preset of a line that has no product IN_FLIGHT sets both positions, and the prediction of every head that follows the line, to the
value written, and the velocity and the acceleration to zero. Every other line, and every other register, stays as it was. -/
def Obligations.PresetSetsPositions : Prop := ∀ (n v : Nat) (s : State), n < 4 → Sound s → startStopped s = false →
  (∀ x ∈ s.sch.ptab, ¬ (x.2.line = n ∧ x.2.state = .inFlight)) → (ledger n s).inf = 0 →
  let follows (h : Nat) : Prop := getF (fTRK_HLEAD_EN h) s = 1 ∧ getF (fTRK_HLEAD_LINE h) s = n
  Gives (.linePreset n v) s [.regs, .lines, .preds, .sch, .pet] fun t =>
    t.reg (rTRK_LINE_POS n) = BitVec.ofNat 48 v ∧ t.reg (rTRK_LINE_RAWPOS n) = BitVec.ofNat 48 v ∧
    getF (fTRK_LINE_VEL_V n) t = 0 ∧ getF (fTRK_LINE_ACC_A_EST n) t = 0 ∧
    (∀ h, h < 16 → follows h → (t.pred h).pos = BitVec.ofNat 48 v ∧
      t.reg (rTRK_HPRED h) = BitVec.ofNat 48 v - BitVec.ofInt 48 (getI (fHP_ALIGN_ALIGN_X h) s)) ∧
    (∀ h, ¬ (h < 16 ∧ follows h) → t.pred h = s.pred h) ∧
    (∀ m, m ≠ n → t.line m = s.line m) ∧
    RegsBut ([rTRK_LINE_POS n, rTRK_LINE_RAWPOS n, rTRK_LINE_VEL n, rTRK_LINE_ACC n] ++ (List.range 16).map rTRK_HPRED) s t

/-- R47: a Z level that has not held for its ENC_FILT + 1 ticks changes nothing. R50: a rising Z edge on an encoder with Z_EN and a CPR records the
count; the counts since the pulse before are checked, unless the direction has turned, and a difference of more than 2 from CPR sets Z_ERR and
counts in Z_CNT. -/
def Obligations.ZPulseChecked : Prop := ∀ (m : Nat) (s : State), m < 8 → Sound s →
  getF (fTRK_ENC_STAT_Z m) s = 0 → getF (fTRK_ENC_CFG_Z_EN m) s = 1 → getF (fTRK_ENC_CFG_CPR m) s ≠ 0 →
  let c := getF (fTRK_ENC_COUNT_COUNT m) s
  let cpr := getF (fTRK_ENC_CFG_CPR m) s
  let distance (c0 : Nat) : Nat := (signedOf 40 ((c + 2 ^ 40 - c0) % 2 ^ 40)).natAbs
  let wrong : Prop := (s.enc m).zTurned = false ∧ ∃ c0, (s.enc m).zLast = some c0 ∧ (cpr + 2 < distance c0 ∨ distance c0 + 2 < cpr)
  let held : Prop := ∀ x, (s.enc m).accZ = some x → getF (fTRK_ENC_CFG_ENC_FILT m) s + 1 ≤ (s.reg rTRK_TICK - x).toNat
  (¬ held → exec (.encZPulse m true) s = .next s) ∧
  (held → Gives (.encZPulse m true) s [.regs, .encs] fun t =>
    t.enc m = { s.enc m with zLast := some c, zTurned := false, accZ := some (s.reg rTRK_TICK) } ∧ (∀ k, k ≠ m → t.enc k = s.enc k) ∧
    getF (fTRK_ENC_STAT_Z m) t = 1 ∧ RegsBut [rTRK_ENC_STAT m] s t ∧
    (wrong → getF (fTRK_ENC_STAT_Z_ERR m) t = 1 ∧ getF (fTRK_ENC_STAT_Z_CNT m) t = min (getF (fTRK_ENC_STAT_Z_CNT m) s + 1)
      (2 ^ (fTRK_ENC_STAT_Z_CNT m).width - 1)) ∧
    (¬ wrong → getF (fTRK_ENC_STAT_Z_ERR m) t = getF (fTRK_ENC_STAT_Z_ERR m) s ∧ getF (fTRK_ENC_STAT_Z_CNT m) t = getF (fTRK_ENC_STAT_Z_CNT m) s))

/-- A leading edge of an enabled product-detect input whose level has held its FILT_N ticks (R58, R68, R69, R71, R72): counted in OFF_CNT while the
line is OFF, in SUPP_CNT while the raw position lies below the mark, in BLANK_CNT within BLANK counts of the last capture; else latched with its
date, behind the captures that wait. No other input changes. A level that has not held its FILT_N ticks changes nothing, but for the first one after
the filter starts. -/
def Obligations.LeadingEdgeLatches : Prop := ∀ (p : Nat) (s : State), p < 16 → Sound s →
  let n := getF (fTRK_PD_CFG_LINE p) s
  let level := getF (fTRK_PD_CFG_POL p) s = 0
  getF (fTRK_PD_CFG_EN p) s = 1 → (getF (fTRK_PD_STAT_LEVEL p) s = 1 ↔ ¬ level) →
  let below := posDiff (s.reg (rTRK_LINE_RAWPOS n)) (s.reg (rTRK_LINE_POS n)) < 0
  let blank := ∃ q, (((s.pd p).pending.getLast?.map fun c => c.pos).or (s.pd p).lastPos) = some q ∧
    posDiff (s.reg (rTRK_LINE_POS n)) q < 256 * getF (fTRK_PD_CFG_BLANK p) s
  let off := getF (fTRK_LINE_STAT_STATE n) s = 0
  let held : Prop := ∀ x, (s.pd p).since = some x → max 1 (getF (fTRK_PD_CFG_FILT_N p) s) ≤ (s.reg rTRK_TICK - x).toNat
  let seen : Pd := { s.pd p with since := some (s.reg rTRK_TICK), started := false }
  let counts (f : Field) (t : State) : Prop := getF f t = min (getF f s + 1) (2 ^ f.width - 1) ∧ t.pd p = seen
  let capture : Capture :=
    { pos := s.reg (rTRK_LINE_POS n), latchIn := 3, tick := now s, date := s.reg rTRU_TIME, trusted := getB fTRU_TSTAT_TRUSTED s,
      dr := decide (3 ≤ getF (fTRK_LINE_STAT_STATE n) s) }
  (¬ held → (s.pd p).started = false → exec (.pdEdgeAccept p (decide level)) s = .next s) ∧
  (held → Gives (.pdEdgeAccept p (decide level)) s [.regs, .shadow, .pds] fun t =>
    t.shadow = s.shadow ∧ (getF (fTRK_PD_STAT_LEVEL p) t = 1 ↔ level) ∧ (∀ q, q ≠ p → t.pd q = s.pd q) ∧
    RegsBut [rTRK_PD_STAT p, rTRK_LINE_CNT n] s t ∧
    (off → counts (fTRK_PD_STAT_OFF_CNT p) t) ∧
    (¬ off ∧ below → counts (fTRK_LINE_CNT_SUPP_CNT n) t) ∧
    (¬ off ∧ ¬ below ∧ blank → counts (fTRK_PD_STAT_BLANK_CNT p) t) ∧
    (¬ off ∧ ¬ below ∧ ¬ blank → t.pd p = { seen with pending := (s.pd p).pending ++ [capture] }))

/-! ### Scheduling and the ledgers -/

/-- R85: a write of SCH_INS_CMD with GO tests the insert in order, BADTYPE, BADARG, FULL, PAST, and reports the first that holds; nothing else
changes. -/
def Obligations.RefusedInsertHasNoEffect : Prop := ∀ (v : Nat) (s : State), startStopped s = false →
  let type := v / 2 ^ fSCH_INS_CMD_TYPE.lo % 16
  let arg := v / 2 ^ fSCH_INS_CMD_ARG.lo % 256
  let ref := if v / 2 ^ fSCH_INS_CMD_HEADREL.lo % 2 = 1 then s.reg (rTRK_HPRED (v / 2 ^ fSCH_INS_CMD_HEAD.lo % 16))
    else s.reg (rTRK_LINE_POS (v / 2 ^ fSCH_INS_CMD_LINE.lo % 4))
  let badType := ¬ (type = 7 ∨ type = 8 ∨ type = 9)
  let badArg := (type = 7 ∧ 20 ≤ arg) ∨ (type = 8 ∧ ¬ (arg < 20 ∨ (64 ≤ arg ∧ arg < 72) ∨ (128 ≤ arg ∧ arg < 136)))
  let full := 8192 ≤ s.sch.pet.length ∨ getF fSCH_PET_HOSTMAX_HOSTMAX s ≤ (s.sch.pet.filter fun x => x.2.host).length
  let past := 0 ≤ posDiff ref (s.reg rSCH_INS_POS)
  let result (k : Nat) : Prop := exec (.petInsert v) s = .next (setF fSCH_INS_STAT_RESULT k s)
  v / 2 ^ fSCH_INS_CMD_GO.lo % 2 = 1 →
    (badType → result 3) ∧ (¬ badType ∧ badArg → result 4) ∧ (¬ badType ∧ ¬ badArg ∧ full → result 1) ∧
    (¬ badType ∧ ¬ badArg ∧ ¬ full ∧ past → result 2)

/-- R85: an insert that no test refuses takes the lowest free entry of the position event table, which ENTRY gives with the result OK; every
other entry of the table, and every table beside it, stays as it was. -/
def Obligations.AcceptedInsertTakesAnEntry : Prop := ∀ (v i : Nat) (s : State), Sound s → startStopped s = false →
  v / 2 ^ fSCH_INS_CMD_GO.lo % 2 = 1 → v / 2 ^ fSCH_INS_CMD_TYPE.lo % 16 = 9 →
  s.sch.pet.length < 8192 → (s.sch.pet.filter fun x => x.2.host).length < getF fSCH_PET_HOSTMAX_HOSTMAX s →
  v / 2 ^ fSCH_INS_CMD_HEADREL.lo % 2 = 0 →
  posDiff (s.reg (rTRK_LINE_POS (v / 2 ^ fSCH_INS_CMD_LINE.lo % 4))) (s.reg rSCH_INS_POS) < 0 →
  i < 8192 → spFind s.sch.pet i = none → (∀ j, j < i → (spFind s.sch.pet j).isSome) →
  Gives (.petInsert v) s [.regs, .sch, .pet] fun t =>
    (∃ e, spFind t.sch.pet i = some e ∧ e.type = .activate ∧ e.pos = s.reg rSCH_INS_POS ∧ e.host = true ∧ e.due = none ∧
      e.line = v / 2 ^ fSCH_INS_CMD_LINE.lo % 4) ∧
    (∀ j, j ≠ i → spFind t.sch.pet j = spFind s.sch.pet j) ∧
    t.sch = { s.sch with pet := t.sch.pet, seq := s.sch.seq + 1 } ∧
    getF fSCH_INS_STAT_RESULT t = 0 ∧ getF fSCH_INS_STAT_ENTRY t = i ∧ RegsBut [rSCH_INS_STAT, rSCH_STAT] s t

/-- R88, R90 and R520: a LOAD or an UNLOAD of a VALID slot in use is refused, with error 5 for a LOAD alone; so is a LOAD of a slot in use that is
not VALID, which leaves VALID clear. A write of a slot free to change that asks for both performs neither: it sets REFUSED, and VALID, ERR, MODIFIED
and the slot's settings in force stay. An UNLOAD alone clears VALID and drops the settings in force; no other slot changes. -/
def Obligations.SlotCommands : Prop := ∀ (b v : Nat) (s : State), b < 64 → Sound s → startStopped s = false →
  let busy := getF (fSCH_BIND_CTL_VALID b) s = 1 ∧ slotInUse b s = true
  let load := v / 2 ^ (fSCH_BIND_CTL_LOAD b).lo % 2 = 1
  let unload := v / 2 ^ (fSCH_BIND_CTL_UNLOAD b).lo % 2 = 1
  let l : List Part := [.regs, .shadow, .sch, .binds]
  (busy ∧ ¬ unload → Gives (.bindLoad b v) s l fun t => t.sch = s.sch ∧ t.shadow = s.shadow ∧
    getF (fSCH_BIND_BSTAT_REFUSED b) t = 1 ∧ getF (fSCH_BIND_BSTAT_ERR b) t = 5 ∧ RegsBut [rSCH_BIND_BSTAT b] s t) ∧
  (busy → Gives (.bindUnload b v) s l fun t => t.sch = s.sch ∧ t.shadow = s.shadow ∧
    getF (fSCH_BIND_BSTAT_REFUSED b) t = 1 ∧ (¬ load → getF (fSCH_BIND_BSTAT_ERR b) t = getF (fSCH_BIND_BSTAT_ERR b) s) ∧
    RegsBut [rSCH_BIND_BSTAT b] s t) ∧
  (¬ busy ∧ slotInUse b s = true ∧ ¬ unload → Gives (.bindLoad b v) s l fun t => t.sch = s.sch ∧ t.shadow = s.shadow ∧
    getF (fSCH_BIND_CTL_VALID b) t = 0 ∧ getF (fSCH_BIND_BSTAT_REFUSED b) t = 1 ∧ getF (fSCH_BIND_BSTAT_ERR b) t = 5 ∧
    RegsBut [rSCH_BIND_CTL b, rSCH_BIND_BSTAT b] s t) ∧
  (¬ busy ∧ load → Gives (.bindUnload b v) s l fun t => t.sch = s.sch ∧ t.shadow = s.shadow ∧ getF (fSCH_BIND_BSTAT_REFUSED b) t = 1 ∧
    getF (fSCH_BIND_CTL_VALID b) t = getF (fSCH_BIND_CTL_VALID b) s ∧ getF (fSCH_BIND_BSTAT_ERR b) t = getF (fSCH_BIND_BSTAT_ERR b) s ∧
    getF (fSCH_BIND_BSTAT_MODIFIED b) t = getF (fSCH_BIND_BSTAT_MODIFIED b) s ∧ RegsBut [rSCH_BIND_CTL b, rSCH_BIND_BSTAT b] s t) ∧
  (¬ busy ∧ ¬ load → Gives (.bindUnload b v) s l fun t => t.sch = { s.sch with binds := spErase s.sch.binds b } ∧ t.shadow = s.shadow ∧
    getF (fSCH_BIND_CTL_VALID b) t = 0 ∧ RegsBut [rSCH_BIND_CTL b] s t)

/-- R28 and R113: a request joins the list of snapshots due, or an earlier request of the line; in a later tick the twelve counters and the
tick are copied together and SNAP_SEQ counts on, and a LEDGER_SNAPSHOT message that waits for the copy is answered. Neither changes a counter. -/
def Obligations.SnapshotOfALine : Prop := ∀ (n : Nat) (s : State), n < 4 → Sound s → let c := ledger n s
  let answers := s.host.snapWaits.flatMap fun w => [rHST_QP_CFG w.q, rHST_QP_RQ_PI w.q, rHST_QP_RQ_CI w.q, rHST_QP_RS_PI w.q, rHST_QP_RS_CI w.q,
    rHST_EVQ_STAT]
  (startStopped s = false → (∀ x ∈ s.sch.snapPend, x.1 ≠ n) → exec (.snapReq n) s = .next { s with sch.snapPend := s.sch.snapPend ++ [(n, s.reg rTRK_TICK)] }) ∧
  ((∃ x ∈ s.sch.snapPend, x.1 = n) → exec (.snapReq n) s = .next s) ∧
  ((∃ x ∈ s.sch.snapPend, x.1 = n ∧ x.2 ≠ s.reg rTRK_TICK) → Gives (.snapshotCopy n) s [.regs, .sch, .host, .hostMem] fun t =>
    t.sch = { s.sch with snapPend := s.sch.snapPend.filter fun x => decide (x.1 ≠ n) } ∧
    t.reg (rSCH_LINE_SNAP_TICK n) = s.reg rTRK_TICK ∧
    [t.reg (rSCH_LINE_SNAP_DET n), t.reg (rSCH_LINE_SNAP_OK n), t.reg (rSCH_LINE_SNAP_FLAG n), t.reg (rSCH_LINE_SNAP_REJ n),
      t.reg (rSCH_LINE_SNAP_INF n)] = [c.det, c.ok, c.flag, c.rej, c.inf] ∧
    (List.range 7).map (fun k => t.reg (rSCH_LINE_SNAP_CAUSE n k)) = [c.c1, c.c2, c.c3, c.c4, c.c5, c.c6, c.c7] ∧
    getF (fSCH_LINE_STAT_SNAP_SEQ n) t = (getF (fSCH_LINE_STAT_SNAP_SEQ n) s + 1) % 256 ∧
    RegsBut ([rSCH_LINE_SNAP_TICK n, rSCH_LINE_SNAP_DET n, rSCH_LINE_SNAP_OK n, rSCH_LINE_SNAP_FLAG n, rSCH_LINE_SNAP_REJ n,
      rSCH_LINE_SNAP_INF n, rSCH_LINE_STAT n] ++ (List.range 7).map (rSCH_LINE_SNAP_CAUSE n) ++ answers) s t ∧
    ((∀ w ∈ s.host.snapWaits, w.line ≠ n) → t.host = s.host))

/-! ### The trust core -/

/-- R150: a request sent while BUSY or VALID is set has no effect but REJECTED_GO: only the request buffer and its header take what the host
writes. -/
def Obligations.MailboxTakesOneRequest : Prop := ∀ (c : Instr) (ty tag : Nat) (payload : List Byte) (s : State), Sound s →
  mailboxRequest c = some (ty, tag, payload) → getF fTRU_STAT_BUSY s = 1 ∨ getF fTRU_RSP_HDR_VALID s = 1 →
  Gives c s [.regs] fun t => getF fTRU_STAT_REJECTED_GO t = 1 ∧ getF fTRU_STAT_BUSY t = getF fTRU_STAT_BUSY s ∧
    RegsBut ([rTRU_STAT, rTRU_REQ_HDR] ++ (List.range 512).map rTRU_REQ) s t

/-- R150 and R408: a request that may be served at once ends with VALID set, BUSY clear, its TYPE and TAG in the response header and the
trust vector raised; a retired device answers STATE to every request but LC_STATUS, and changes nothing else. -/
def Obligations.MailboxAnswers : Prop := ∀ (c : Instr) (ty tag : Nat) (payload : List Byte) (s : State), Sound s →
  mailboxRequest c = some (ty, tag, payload) → getF fTRU_STAT_BUSY s = 0 → getF fTRU_RSP_HDR_VALID s = 0 →
  getF fTRU_STAT_RESTARTING s = 0 → (3 < ty ∨ (s.primer.switch ≠ .toTrial ∧ s.primer.switch ≠ .toActive)) →
  Gives c s (touches c) fun t => getF fTRU_RSP_HDR_VALID t = 1 ∧ getF fTRU_STAT_BUSY t = 0 ∧ getF fTRU_RSP_HDR_TYPE t = ty ∧
    getF fTRU_RSP_HDR_TAG t = tag % 65536 ∧
    (t.host.msixMask.testBit 5 = true → t.host.msixPend.testBit 5 = true) ∧
    (t.host.msixMask.testBit 5 = false → t.host.msi.getLast? = some (5, t.host.msixTable.getD 5 (0, 0))) ∧
    (s.lc.state = .retired → ty ≠ 0x60 → getF fTRU_RSP_HDR_STATUS t = 0x0C ∧ getF fTRU_RSP_HDR_LEN t = 0 ∧
      Only [.regs, .host] s t ∧ RegsBut ([rTRU_STAT, rTRU_REQ_HDR, rTRU_RSP_HDR] ++ (List.range 512).map rTRU_REQ) s t)

/-- R139 and R150: SERIAL_LEDGER answers the tick, ISSUED, PRINTED, VOIDED, RESERVED and the next value of a counter slot that holds a
counter, all as they stand; the first equals the sum of the next three. MAILBOX_RSP_RELEASE clears VALID and nothing else. -/
def Obligations.SerialLedgerAnswers : Prop := ∀ (tag k : Nat) (x : Counter) (s : State), Sound s → k < 64 →
  counter k s = some x → x.next < 2 ^ 48 → x.issued < 2 ^ 48 → s.lc.state ≠ .retired →
  getF fTRU_STAT_BUSY s = 0 → getF fTRU_RSP_HDR_VALID s = 0 → getF fTRU_STAT_RESTARTING s = 0 →
  (Gives (.serialLedger tag [BitVec.ofNat 8 k]) s [.regs, .trust, .host] fun t =>
    getF fTRU_RSP_HDR_STATUS t = 0 ∧ getF fTRU_RSP_HDR_LEN t = 41 ∧ t.trust = s.trust ∧
    t.reg (rTRU_RSP 0) = s.reg rTRK_TICK ∧
    (t.reg (rTRU_RSP 1)).toNat = x.issued ∧ (t.reg (rTRU_RSP 2)).toNat = x.printed ∧ (t.reg (rTRU_RSP 3)).toNat = x.voided ∧
    (t.reg (rTRU_RSP 4)).toNat = x.reserved ∧ (t.reg (rTRU_RSP 5)).toNat = x.next ∧
    (t.reg (rTRU_RSP 1)).toNat = (t.reg (rTRU_RSP 2)).toNat + (t.reg (rTRU_RSP 3)).toNat + (t.reg (rTRU_RSP 4)).toNat) ∧
  Gives .mailboxRspRelease s [.regs] fun t => getF fTRU_RSP_HDR_VALID t = 0 ∧ RegsBut [rTRU_RSP_HDR] s t

/-- R136: when a block's flash write completes, ISSUED, RESERVED and the next value rise by the size of the block, whose numbers may then be
assigned; PRINTED and VOIDED stay. A write that fails leaves ISSUED, RESERVED and the next value as they were and the slot DRY, or BROKEN where its
two copies are found to differ (R37, R39). No other counter slot changes. -/
def Obligations.BlockReservation : Prop := ∀ (k n : Nat) (x : Counter) (s : State), Sound s →
  counter k s = some x → x.writing = some n → x.state ≠ .broken →
  let differ := s.trust.copyLost = none ∧ spFind s.trust.mirror k ≠ some x
  (∃ t, exec (.blockWriteDone k true) s = .next t ∧ t.pending = s.pending ∧ Only (touches (.blockWriteDone k true)) s t ∧
    ∃ y, counter k t = some y ∧ y.issued = x.issued + n ∧ y.reserved = x.reserved + n ∧ y.next = x.next + n ∧ y.printed = x.printed ∧
      y.voided = x.voided ∧ x.assign ≤ y.assign ∧ ∀ j, j ≠ k → counter j t = counter j s) ∧
  ∃ t, exec (.blockWriteDone k false) s = .next t ∧ t.pending = s.pending ∧ Only (touches (.blockWriteDone k false)) s t ∧
    counter k t = some { x with state := if differ then .broken else .dry } ∧ ∀ j, j ≠ k → counter j t = counter j s

/-- R128: a time hint never steps the secure clock and never makes it trusted: only the disagreement it shows may change in the registers,
and nothing the trust core holds but its account of hints. -/
def Obligations.HintNeverSteps : Prop := ∀ (hint : Nat) (utc leap : Int) (s : State), Sound s →
  Gives (.ptpHint hint utc leap) s [.regs, .trust] fun t => getF fTRU_TIME_TIME t = getF fTRU_TIME_TIME s ∧
    getF fTRU_TSTAT_TRUSTED t = getF fTRU_TSTAT_TRUSTED s ∧ RegsBut [rTRU_TSTAT] s t ∧
    (∀ x ∈ s.trust.causes, x ∈ t.trust.causes) ∧
    t.trust = { s.trust with hintD := t.trust.hintD, hintLast := t.trust.hintLast, utcLast := t.trust.utcLast, leapLast := t.trust.leapLast,
                             leap := t.trust.leap, slew := t.trust.slew, hintRun := t.trust.hintRun, causes := t.trust.causes }

/-! ### The renderer's stores -/

/-- R180: COMMIT of a host image slot in use is answered BUSY, and one too large SIZE, with no other effect; any other makes the written buffer
the slot's image, with RESULT 0 and VALID set. CLEAR empties the slot. No other slot changes. -/
def Obligations.HostImages : Prop := ∀ (v : Nat) (s : State), Sound s → startStopped s = false →
  let k := v / 2 ^ fREN_HIMG_CMD_SLOT.lo % 16
  let w := v / 2 ^ fREN_HIMG_CMD_W_M1.lo % 2 ^ fREN_HIMG_CMD_W_M1.width + 1
  let h := v / 2 ^ fREN_HIMG_CMD_H_M1.lo % 2 ^ fREN_HIMG_CMD_H_M1.width + 1
  let busy := (getF fREN_HIMG_STAT_INUSE s).testBit k = true
  let large := 8192 < (h + 7) / 8 * w
  let buf := ((getF fREN_HIMG_WBUF_WBUF s).testBit k).toNat
  let l : List Part := [.regs, .shadow, .ren]
  let refused (r : Nat) : Prop := Gives (.himgCommit v) s l fun t => getF fREN_HIMG_STAT_RESULT t = r ∧ t.ren = s.ren ∧
    getF fREN_HIMG_STAT_VALID t = getF fREN_HIMG_STAT_VALID s ∧ getF fREN_HIMG_STAT_INUSE t = getF fREN_HIMG_STAT_INUSE s ∧
    RegsBut [rREN_HIMG_CMD, rREN_HIMG_STAT] s t
  (busy → refused 1) ∧
  (¬ busy → large → refused 2) ∧
  (¬ busy → ¬ large → Gives (.himgCommit v) s l fun t => getF fREN_HIMG_STAT_RESULT t = 0 ∧
    (getF fREN_HIMG_STAT_VALID t).testBit k = true ∧ t.ren = { s.ren with himg := s.ren.himg.set k (some { buf := buf, w := w, h := h }) } ∧
    RegsBut [rREN_HIMG_CMD, rREN_HIMG_STAT, rREN_HIMG_WBUF] s t) ∧
  Gives (.himgClear v) s l fun t => (getF fREN_HIMG_STAT_VALID t).testBit k = false ∧
    t.ren = { s.ren with himg := s.ren.himg.set k none } ∧ RegsBut [rREN_HIMG_CMD, rREN_HIMG_STAT] s t

/-- Font loading: LOAD while a verification runs is ignored, and starts one otherwise. UNLOAD is ignored meanwhile, refused with RESULT 5 for
a font that a loaded stencil names, and otherwise takes the font out of its slot. -/
def Obligations.FontStore : Prop := ∀ (s : State), Sound s → startStopped s = false →
  let id := getF fREN_FONT_ID_FONT_ID s
  let busy := getF fREN_FONT_STAT_BUSY s = 1
  (busy → exec .fontLoad s = .next s ∧ exec .fontUnload s = .next s) ∧
  (¬ busy → exec .fontLoad s = .next (setF fREN_FONT_STAT_BUSY 1 s)) ∧
  (¬ busy → fontNamed id s = true → exec .fontUnload s = .next (setF fREN_FONT_STAT_RESULT 5 s)) ∧
  (∀ k, ¬ busy → fontNamed id s = false → fontSlot id s = some k → Gives .fontUnload s [.regs, .ren] fun t =>
    getF fREN_FONT_STAT_RESULT t = 0 ∧ getF fREN_FONT_STAT_BUSY t = 0 ∧ t.ren = { s.ren with fonts := s.ren.fonts.set k none } ∧
    RegsBut [rREN_FONT_STAT] s t)


/-! ### Engines, sequencers and move channels -/

/-- R200: a write to an engine's program window takes effect while the engine is STOPPED, and at any other time sets its PROG_REFUSED alone; a
write to its data window takes effect in every state. One word is written, through its bank; every other word, and the rest of the engine,
stays. -/
def Obligations.EngineWindows : Prop := ∀ (e : Engine) (i v : Nat) (s : State), Sound s → startStopped s = false → e ∈ allEngines →
  let c := coreOf e s
  let becomes (cmd : Instr) (d : Core) (bank : State → State) : Prop := ∃ u t, CoreBecomes e d s u ∧ exec cmd s = .next t ∧
    t = { bank u with raised := s.raised } ∧ coreOf e t = d ∧ ∀ f, f ≠ e → coreOf f t = coreOf f s
  (i < progSize e → let cmd : Instr := .programWindowWrite (progWindow e + 8 * i) v
    (engState e s = 0 → becomes cmd { c with prog := spPut (fun _ => 0) c.prog i (BitVec.ofNat 32 v) } (writeWord (progWord e i) (progBytes i v))) ∧
    (engState e s ≠ 0 → Gives cmd s [.regs] fun t => getF (progRefused e) t = 1 ∧ engState e t = engState e s ∧
      RegsBut [(progRefused e).reg] s t)) ∧
  (i < dataSize e → becomes (.dataWindowWrite (dataWindow e + 8 * i) v)
    { c with data := spPut (fun _ => 0) c.data i (BitVec.ofNat 48 v) } (bankWrite (dataWord e i)))

/-- R200: RUN moves a STOPPED or FAULTED control engine to IDLE, and a move channel to RUNNING at ENTRY with an empty return stack and Z, N, C
and V clear; ENTRY takes the value written. On any engine in another state RUN writes ENTRY and does nothing else. -/
def Obligations.EngineStarts : Prop := ∀ (e : Engine) (entry : Nat) (s : State), Sound s → startStopped s = false → e.exists_ = true →
  let stat := (stateField e).reg
  let ctl := (entryField e).reg
  let may := engState e s = 0 ∨ engState e s = 3
  (¬ may → exec (.engineRun e entry) s = .next (setF (entryField e) entry s)) ∧
  (∀ n, e = .ce n → may → Gives (.engineRun e entry) s [.regs, .ces] fun t => engState e t = 1 ∧
    getF (entryField e) t = entry % 2 ^ (entryField e).width ∧ coreOf e t = { coreOf e s with wait := .none, stopReq := false } ∧
    RegsBut [stat, ctl] s t ∧ ∀ k, k ≠ n → ctlOf k t = ctlOf k s) ∧
  (∀ n, e = .mv n → may → Gives (.engineRun e entry) s [.regs, .mvs] fun t => engState e t = 2 ∧
    getF (entryField e) t = entry % 2 ^ (entryField e).width ∧
    coreOf e t = { coreOf e s with pc := entry % 2 ^ (entryField e).width, stack := [], wait := .none, stopReq := false, cyc := 0, cycSeen := 0,
                                   fl := { z := false, n := false, c := false, v := false, s := (coreOf e s).fl.s, o := (coreOf e s).fl.o } } ∧
    RegsBut [stat, ctl] s t ∧ ∀ k, k ≠ n → moverOf k t = moverOf k s)

/-- R200, R217, R223: the doorbell sets event bit 1 of its engine. A move channel between instructions stops at once, and one in a wait notes the
request; a home sequencer whose path holds jobs notes the request in STOP_PEND and goes on. -/
def Obligations.EngineStopsAndBells : Prop := ∀ (e : Engine) (s : State), Sound s → startStopped s = false → e.exists_ = true → let c := coreOf e s
  (∃ t, exec (.engineDoorbell e) s = .next t ∧ CoreBecomes e { c with evi := c.evi ||| 2 } s t) ∧
  (∀ n, e = .mv n → ¬ (engState e s = 2 ∧ c.wait ≠ .none) → exec (.engineStop e) s = .next (setF (stateField e) 0 s)) ∧
  (∀ n, e = .mv n → engState e s = 2 → c.wait ≠ .none → ∃ t, exec (.engineStop e) s = .next t ∧ CoreBecomes e { c with stopReq := true } s t) ∧
  (∀ n, e = .sq n → n < 16 → headOf n s = some n → ((path n s).cur.isSome ∨ (path n s).queue ≠ []) →
    Gives (.engineStop e) s [.regs] fun t => getF (fSQ_STAT_STOP_PEND n) t = 1 ∧ engState e t = engState e s ∧
      RegsBut [rSQ_STAT n, rSCH_HEAD_STAT n, rHP_STAT n] s t)

/-- R203, R209, R239 and R242: GRP, WFSEL and STRETCH of a sequencer that runs a job on head `h`. GRP keeps a phase modulo the group count, of a
register taken as signed; STRETCH gives LEP, the next due position, or the stretch state, and sets Z with it. -/
def Obligations.FiringInstructions : Prop := ∀ (n h j : Nat) (s : State), Sound s → runningJob n s = some (h, j) → let e := Engine.sq n
  let u := fetched e s
  let c := coreOf e u
  let g := max 1 (min 8 (getF (fHP_GROUP_G h) u))
  let phase (x : Int) : State := advance e (setPath h { path h u with phase := (x % (g : Int)).toNat } u)
  let laser := getF (fHP_CFG_PERS h) u = 4
  let loads (cmd : Instr) (rd : Nat) (x : Word) : Prop := ∃ t, exec cmd s = .next t ∧ CoreBecomes e { c with w := c.w.set rd x, pc := c.pc + 1 } u t
  let loadsZ (cmd : Instr) (rd : Nat) (x : Word) : Prop := ∃ t, exec cmd s = .next t ∧
    CoreBecomes e { c with w := c.w.set rd x, fl := { c.fl with z := x == 0 }, pc := c.pc + 1 } u t
  (nextInsn e s = some .grpAdv → exec (.grpAdv n) s = .next (phase ((path h u).phase + 1))) ∧
  (∀ rs, nextInsn e s = some (.grpSet rs) → exec (.grpSet n) s = .next (phase (c.w.getD rs 0).toInt)) ∧
  (∀ rd, nextInsn e s = some (.grpGet rd) → loads (.grpGet n) rd (BitVec.ofNat 48 (path h u).phase)) ∧
  (∀ rd, nextInsn e s = some (.wfselGet rd) → loads (.wfselGet n) rd (if laser then 0 else BitVec.ofNat 48 (getF (fHP_TEMP_BAND h) u))) ∧
  (∀ rs, nextInsn e s = some (.wfselSet rs) → exec (.wfselSet n) s = .next (advance e
    (if laser then u else setPath h { path h u with wfNext := some ((c.w.getD rs 0).toNat % 8) } u))) ∧
  (∀ rd rs, nextInsn e s = some (.stretch 0 rd rs) → loadsZ (.stretchLep n) rd (seqOf n u).lep) ∧
  (∀ rd rs, nextInsn e s = some (.stretch 1 rd rs) → let due := (seqOf n u).lep + c.w.getD rs 0
    loadsZ (.stretchNext n) rd (if 0 ≤ posDiff (c.w.getD rd 0) due then c.w.getD rd 0 else due)) ∧
  (∀ rd rs, nextInsn e s = some (.stretch 3 rd rs) → loadsZ (.stretchState n) rd (BitVec.ofNat 48 (path h u).stretch))

/-- R202: at a mark boundary an IDLE home sequencer whose path has a job waiting, and nothing that keeps it, takes the earliest and is RUNNING
at the ENTRY of its path with the job's start, columns, pitch and index in W0 to W3, Z, N, C and V clear, CR all zero, T at the start and LEP one
pitch before; the other registers of W, the registers of A, S, O and the data memory keep their values, and the return stack is empty. -/
def Obligations.JobRelease : Prop := ∀ (n h j : Nat) (rest : List Nat) (x : Job) (s : State), Sound s →
  n < 20 → headOf n s = some h → h < 16 → engState (.sq n) s = 1 → (path h s).queue = j :: rest → spFind s.sch.jobs j = some x →
  (path h s).cur = none → (path h s).takeover = none → (path h s).giving = false →
  ((path h s).copying = false ∨ ((path h s).hoWait = false ∧ getF (fSQ_SHADOW_SEAL_SEAL h) s = 1)) →
  let c := coreOf (.sq n) s
  Gives (.markBoundary n) s (touches (.markBoundary n)) fun t => engState (.sq n) t = 2 ∧
    (path h t).cur = some j ∧ (path h t).queue = rest ∧
    (seqOf n t).t = x.start ∧ (seqOf n t).lep = x.start - BitVec.ofNat 48 x.pitch ∧ (∀ b ∈ (seqOf n t).cr, b = 0) ∧
    (coreOf (.sq n) t).pc = getF (fSQ_CTL_ENTRY h) t ∧
    (coreOf (.sq n) t).w = (((c.w.set 0 x.start).set 1 (BitVec.ofNat 48 x.cols)).set 2 (BitVec.ofNat 48 x.pitch)).set 3 (BitVec.ofNat 48 j) ∧
    (coreOf (.sq n) t).a = c.a ∧ (coreOf (.sq n) t).data = c.data ∧ (coreOf (.sq n) t).stack = [] ∧
    (coreOf (.sq n) t).fl = { z := false, n := false, c := false, v := false, s := c.fl.s, o := c.fl.o } ∧
    ∀ m, m ≠ n → seqOf m t = seqOf m s

/-- R215 to R217: WAIT takes the masked event bits into rd and clears them, or waits where none is set, and goes on when one is; SIG sets its
event bit in its target. -/
def Obligations.MoverEvents : Prop := ∀ (n : Nat) (s : State), Sound s → let e := Engine.mv n
  let u := fetched e s
  let c := coreOf e u
  (∀ rd mask, nextInsn e s = some (.waitEvi rd mask) → c.evi &&& mask = 0 →
    ∃ t, exec (.wait n) s = .next t ∧ CoreBecomes e { c with wait := .event rd mask } u t) ∧
  (∀ rd mask, nextInsn e s = some (.waitEvi rd mask) → c.evi &&& mask ≠ 0 → c.stopReq = false →
    ∃ t, exec (.wait n) s = .next t ∧ CoreBecomes e { c with
      w := c.w.set rd (BitVec.ofNat 48 (c.evi &&& mask)), evi := c.evi &&& (1023 - (c.evi &&& mask)), pc := c.pc + 1 } u t) ∧
  (∀ rd mask, let d := coreOf e s
    n < 8 → engState e s = 2 → d.wait = .event rd mask → d.evi &&& mask ≠ 0 → d.stopReq = false →
    ∃ t, exec (.waitWake n) s = .next t ∧ CoreBecomes e { d with
      w := d.w.set rd (BitVec.ofNat 48 (d.evi &&& mask)), evi := d.evi &&& (1023 - (d.evi &&& mask)), pc := d.pc + 1, wait := .none } s t) ∧
  (∀ kind signal idx, nextInsn e s = some (.sig kind signal idx) → (engineOf kind idx).exists_ = true → engineOf kind idx ≠ e →
    ∃ t, exec (.sig n) s = .next t ∧ Only [.regs, .sqs, .ces, .mvs] u t ∧
      coreOf (engineOf kind idx) t = { coreOf (engineOf kind idx) u with evi := (coreOf (engineOf kind idx) u).evi ||| 2 ^ (2 + signal) } ∧
      coreOf e t = { c with pc := c.pc + 1 })

/-! ### Heads and lasers -/

/-- R256 and R262: a write of HPn_CFG while the home sequencer is not STOPPED, or of a personality the port does not have, sets CFG_REFUSED and
nothing else; a WFLEN write whose four lengths sum to more than 1,024 sets WF_REFUSED and nothing else. -/
def Obligations.HeadSettingsGuarded : Prop := ∀ (h b v : Nat) (s : State), h < 16 → startStopped s = false →
  let pers := v / 2 ^ (fHP_CFG_PERS h).lo % 8
  (engState (.sq h) s ≠ 0 ∨ 5 < pers ∨ (pers = 4 ∧ h < 12) → exec (.hpCfgWrite h v) s = .next (setF (fHP_STAT_CFG_REFUSED h) 1 s)) ∧
  (b < 8 → 1024 < v % 1024 + v / 2 ^ 10 % 1024 + v / 2 ^ 20 % 1024 + v / 2 ^ 30 % 1024 →
    exec (.wflenWrite h b v) s = .next (setF (fHP_STAT_WF_REFUSED h) 1 s))

/-- STORE is refused with RESULT 1 while a STORE is in progress and with RESULT 3 for an identified head that is absent; otherwise BUSY is set
and the record taken, signed with the device identity key (R275). When its write succeeds, BUSY is clear and RESULT zero, the port holds the
record written, and ALIGN_STALE is clear; a write that fails gives RESULT 2 and leaves the record that is stored. -/
def Obligations.AlignmentStoring : Prop := ∀ (h : Nat) (s : State), h < 16 → Sound s →
  let idReq := getF (fHP_CFG_ID_REQ h) s = 1
  let absent := getF (fHP_STAT_PRESENT h) s = 0
  (startStopped s = false → (portOf h s).storing ≠ none → exec (.alignStore h) s = .next (setF (fHP_ALIGN_CMD_RESULT h) 1 s)) ∧
  (startStopped s = false → (portOf h s).storing = none → idReq → absent → exec (.alignStore h) s = .next (setF (fHP_ALIGN_CMD_RESULT h) 3 s)) ∧
  (startStopped s = false → (portOf h s).storing = none → ¬ (idReq ∧ absent) → Gives (.alignStore h) s [.regs, .ports] fun t =>
    getF (fHP_ALIGN_CMD_BUSY h) t = 1 ∧ RegsBut [rHP_ALIGN_CMD h] s t ∧ (∀ k, k ≠ h → portOf k t = portOf k s) ∧
    ∃ r, portOf h t = { portOf h s with storing := some r } ∧ r.x = getShadowF (fHP_ALIGN_ALIGN_X h) s ∧
      r.y = getShadowF (fHP_ALIGN_ALIGN_Y h) s ∧ r.sig = Config.identitySign s.lc.identity (alignBody h r)) ∧
  (∀ r, (portOf h s).storing = some r → Gives (.alignStoreDone h false) s (touches (.alignStoreDone h false)) fun t =>
    getF (fHP_ALIGN_CMD_BUSY h) t = 0 ∧ getF (fHP_ALIGN_CMD_RESULT h) t = 2 ∧
    portOf h t = { portOf h s with storing := none } ∧ ∀ k, k ≠ h → portOf k t = portOf k s) ∧
  (∀ r, (portOf h s).storing = some r → Gives (.alignStoreDone h true) s (touches (.alignStoreDone h true)) fun t =>
    getF (fHP_ALIGN_CMD_BUSY h) t = 0 ∧ getF (fHP_ALIGN_CMD_RESULT h) t = 0 ∧ getF (fHP_STAT_ALIGN_STALE h) t = 0 ∧
    portOf h t = { portOf h s with storing := none, stored := some r, serial := some r.serial } ∧
    RegsBut [rHP_ALIGN_CMD h, rHP_STAT h] s t ∧ ∀ k, k ≠ h → portOf k t = portOf k s)

/-- A poll sends the command 0x0A, and a failed reply counts in FAILS while that stands below 2; a head that is not present or not identified is not
polled. POP takes the oldest test result off the queue and shows the next with the new DEPTH. -/
def Obligations.HeadReplies : Prop := ∀ (h : Nat) (reply : List Byte) (s : State), h < 16 → Sound s →
  let polled := getF (fHP_STAT_PRESENT h) s = 1 ∧ getF (fHP_CFG_ID_REQ h) s = 1
  (¬ polled → exec (.tempPoll h reply) s = .next s) ∧
  (polled → reply.length ≠ 5 ∨ leAt reply 4 1 ≠ crc8 (reply.take 4) → getF (fHP_STAT_FAILS h) s < 2 →
    exec (.tempPoll h reply) s = .next (setF (fHP_STAT_FAILS h) (getF (fHP_STAT_FAILS h) s + 1)
      { s with sent := s.sent ++ [.spi h [0x0A#8]] })) ∧
  (∀ x y l, (portOf h s).testQ = x :: y :: l → l.length < 15 → Gives (.testresPop h) s [.regs, .shadow, .ports] fun t =>
    portOf h t = { portOf h s with testQ := y :: l } ∧ (∀ k, k ≠ h → portOf k t = portOf k s) ∧
    getF (fHP_TESTRES_DEPTH h) t = l.length + 1 ∧ getF (fHP_TESTRES_ELEMENT h) t = y.1 % 4096 ∧
    getF (fHP_TESTRES_RESULT h) t = y.2.1 % 4 ∧ getF (fHP_TESTRES_T_A h) t = y.2.2 % 4096 ∧ RegsBut [rHP_TESTRES h] s t)


/-- The index edge of a laser channel. On a port that is no raster laser nothing changes; an index edge where it is due only marks the next
facet as facet 0. One that comes at another facet while the channel is LOCKED sets IDX_ERR and BD_LOSS, drops the lock and begins acquisition
anew. A beam-detect edge of a port that is no raster laser, or in the tick of a write that begins
an acquisition (R296), changes nothing. -/
def Obligations.LaserIndex : Prop := ∀ (h phase tap : Nat) (s : State), Sound s →
  let laser := 12 ≤ h ∧ h < 16 ∧ getF (fHP_CFG_PERS h) s = 4
  let wrong := getF (fHP_LSR_STAT_STATE h) s = 2 ∧ getF (fHP_DLL_CFG_IDX_EN h) s = 1 ∧
    (getF (fHP_LSR_STAT_FACET h) s + 1) % max 1 (getF (fHP_DLL_CFG_NFACET h) s) ≠ 0
  (¬ laser → exec (.idxEdge h) s = .next s ∧ exec (.bdEdge h phase tap) s = .next s ∧ exec (.bdTimeout h) s = .next s ∧
    exec (.enWaitElapsed h) s = .next s) ∧
  (laser → ¬ wrong → Gives (.idxEdge h) s (touches (.idxEdge h)) fun t => RegsBut [] s t ∧ (∀ k, k ≠ h → portOf k t = portOf k s) ∧
    portOf h t = { portOf h s with laser := { (portOf h s).laser with idxSeen := true, idxNow := true } }) ∧
  (laser → wrong → Gives (.idxEdge h) s (touches (.idxEdge h)) fun t => getF (fHP_LSR_STAT_STATE h) t = 1 ∧
    getF (fHP_LSR_STAT_IDX_ERR h) t = 1 ∧ getF (fHP_LSR_STAT_BD_LOSS h) t = 1 ∧ getF (fHP_LSR_STAT_ACQ_FACETS h) t = 0 ∧
    (portOf h t).laser.edges = 0 ∧ (portOf h t).laser.idxSeen = true ∧ (portOf h t).laser.pend = none) ∧
  ((portOf h s).laser.cfgTick = some (now s) → exec (.bdEdge h phase tap) s = .next s)


/-! ### Control engines -/

/-- R315 and R316: FORCE_SAFE makes the cause HOST due at the next trigger, or is counted where the engine is SAFE already; a cause of lower
code that is due stands. CLEAR_SAFE is ignored outside SAFE and while its cause persists, and is due at the next trigger otherwise. -/
def Obligations.LoopSafety : Prop := ∀ (n : Nat) (s : State), n < 8 → Sound s →
  let x := ctlOf n s
  let safe := getF (fCE_STAT_MODE n) s = 2
  let cause := getF (fCE_STAT_SAFE_CAUSE n) s
  let persists := (cause = 1 ∧ ∃ i, i < 8 ∧ getF (fCE_XCFG_FB n i) s = 1 ∧ (getF (fCE_FB_ACTIVE n) s).testBit i = true) ∨
    (cause = 2 ∧ x.overran = true) ∨ (cause = 3 ∧ engState (.ce n) s = 3)
  let becomes (c : Instr) (y : Ctl) : Prop := Gives c s [.regs, .ces] fun t =>
    RegsBut [] s t ∧ ctlOf n t = y ∧ ∀ k, k ≠ n → ctlOf k t = ctlOf k s
  (¬ safe → becomes (.forceSafe n) { x with safeDue := if x.safeDue = 0 then 4 else min 4 x.safeDue }) ∧
  (safe → Gives (.forceSafe n) s [.regs, .ces] fun t => t.ces = s.ces ∧ RegsBut [rCE_CNT n] s t ∧
    getF (fCE_CNT_CAUSES_IN_SAFE n) t = min (getF (fCE_CNT_CAUSES_IN_SAFE n) s + 1) 255) ∧
  (¬ safe ∨ persists → exec (.clearSafe n) s = .next s) ∧
  (safe → ¬ persists → becomes (.clearSafe n) { x with clearDue := true })

/-- R211: a cycle that exceeds its budget, of no less than 16 engine cycles, is aborted, and no other. The engine waits for its next trigger with O
set and the overrun counted; what the cycle wrote to Y is dropped, and what it wrote to W, A, ACC and data memory stands; every register but the
status and the counts stays. -/
def Obligations.OverrunAborts : Prop := ∀ (n : Nat) (s : State), n < 8 → Sound s →
  let exceeds := engState (.ce n) s = 2 ∧ max 16 (getF (fCE_TRIG_BUDGET n) s) ≤ (coreOf (.ce n) s).cyc / 8 + 1
  (¬ exceeds → exec (.cycleOverrun n) s = .next s) ∧
  (exceeds → Gives (.cycleOverrun n) s (touches (.cycleOverrun n)) fun t => engState (.ce n) t = 1 ∧ (ctlOf n t).yPend = [] ∧
    (ctlOf n t).overran = true ∧ (coreOf (.ce n) t).fl = { (coreOf (.ce n) s).fl with o := true } ∧
    (coreOf (.ce n) t).w = (coreOf (.ce n) s).w ∧ (coreOf (.ce n) t).a = (coreOf (.ce n) s).a ∧
    (coreOf (.ce n) t).data = (coreOf (.ce n) s).data ∧ (ctlOf n t).acc = (ctlOf n s).acc ∧
    getF (fCE_CNT_OVERRUNS n) t = min (getF (fCE_CNT_OVERRUNS n) s + 1) 65535 ∧
    getF (fCE_CNT_CONSEC n) t = min (getF (fCE_CNT_CONSEC n) s + 1) 15 ∧
    RegsBut [rCE_STAT n, rCE_CNT n] s t)

/-- R321: a generator command is refused with REFUSED while a back-up owns the generator, and a SET while it moves; any other waits for the
next trigger with its target, and MODE shows it. A refused command changes nothing else but the target it wrote. -/
def Obligations.ProfileCommands : Prop := ∀ (n target : Nat) (s : State), n < 8 → Sound s → startStopped s = false →
  let owned := getF (fCE_PG_STAT_MC_OWNED n) s = 1
  let moves := ¬ (s.reg (rCE_PG_VEL n) = 0 ∧ s.reg (rCE_PG_ACC n) = 0)
  let l : List Part := [.regs, .shadow, .ces]
  let written (t : State) : Prop := t.reg (rCE_PG_TGT n) = BitVec.ofNat 48 target
  let refused (c : Instr) (P : State → Prop) : Prop := Gives c s l fun t => P t ∧ t.ces = s.ces ∧
    getF (fCE_PG_STAT_REFUSED n) t = 1 ∧ RegsBut [rCE_PG_TGT n, rCE_PG_STAT n] s t
  let waits (c : Instr) (cmd : Nat) (P : State → Prop) : Prop := Gives c s l fun t => P t ∧ RegsBut [rCE_PG_TGT n, rCE_PG_STAT n] s t ∧
    getF (fCE_PG_STAT_MODE n) t = cmd ∧
    ctlOf n t = { ctlOf n s with pgCmd := some (cmd, t.reg (rCE_PG_TGT n)) } ∧ ∀ k, k ≠ n → ctlOf k t = ctlOf k s
  (owned → refused (.pgVel n target) written ∧ refused (.pgPos n target) written ∧ refused (.pgRel n target) written ∧
    refused (.pgStop n) fun _ => True) ∧
  (¬ owned → waits (.pgVel n target) 1 written ∧ waits (.pgPos n target) 2 written ∧ waits (.pgRel n target) 3 written ∧
    waits (.pgStop n) 4 fun _ => True) ∧
  (owned ∨ moves → refused (.pgSet n target) written) ∧
  (¬ owned ∧ ¬ moves → waits (.pgSet n target) 5 written)

/-- R308 and R309: a write of CEn_TRIG or CEn_XCFGi while the engine is not STOPPED sets CFG_REFUSED and nothing else; a write of CEn_HOSTXi
takes the value, and delivers input i where its CLASS is 7; a write of CEn_MODE leaves the mode in force as it is until the next trigger. -/
def Obligations.LoopSettings : Prop := ∀ (n i v : Nat) (s : State), n < 8 → i < 8 → Sound s → startStopped s = false →
  (engState (.ce n) s ≠ 0 → exec (.ceConfigWrite (rCE_TRIG n) v) s = .next (setF (fCE_STAT_CFG_REFUSED n) 1 s) ∧
    exec (.ceConfigWrite (rCE_XCFG n i) v) s = .next (setF (fCE_STAT_CFG_REFUSED n) 1 s)) ∧
  (Gives (.ceHostxWrite n i v) s [.regs, .shadow, .ces] fun t => t.reg (rCE_HOSTX n i) = BitVec.ofNat 48 v ∧ RegsBut [rCE_HOSTX n i] s t ∧
    (∀ k, k ≠ n → ctlOf k t = ctlOf k s) ∧
    ctlOf n t = if getF (fCE_XCFG_CLASS n i) s = 7 then { ctlOf n s with fresh := (ctlOf n s).fresh.set i true } else ctlOf n s) ∧
  (Gives (.ceModeWrite n v) s [.regs, .shadow, .ces] fun t => RegsBut [rCE_MODE n] s t ∧
    ctlOf n t = { ctlOf n s with modeReq := some (v % 2) } ∧ ∀ k, k ≠ n → ctlOf k t = ctlOf k s)


/-! ### Motors -/

/-- R337: START of a channel that is not OFF, not enabled, with a gate fault standing or on an unarmed bus is refused with START_REFUSED. A channel
with ANG_SRC 1 or 3 enters CATCH, and one with ANG_SRC 2, or 0 with a CPR set, enters RUN with its integrators zero, and with REV_DEFERRED
where it turns the other way above the threshold (R338). STOP of an OFF or TRIPPED channel, and
CLEAR of one that is not TRIPPED, change nothing. -/
def Obligations.MotorStarts : Prop := ∀ (c : Nat) (s : State), c < 6 → Sound s →
  let state := getF (fMC_STAT_STATE c) s
  let may := state = 0 ∧ getF (fMC_CFG_EN c) s = 1 ∧ (motorOf c s).fltLow = false ∧ getF (fBUS_STAT_VALID (getF (fMC_CFG_BUS c) s)) s = 1
  let src := getF (fMC_CFG_ANG_SRC c) s
  (startStopped s = false → ¬ may → exec (.mcStart c) s = .next (setF (fMC_STAT_START_REFUSED c) 1 s)) ∧
  (startStopped s = false → may → src = 1 ∨ src = 3 → Gives (.mcStart c) s (touches (.mcStart c)) fun t => getF (fMC_STAT_STATE c) t = 1 ∧
    RegsBut [rMC_STAT c] s t ∧
    motorOf c t = { motorOf c s with since := s.reg rTRK_TICK } ∧ ∀ k, k ≠ c → motorOf k t = motorOf k s) ∧
  (startStopped s = false → may → src = 2 ∨ (src = 0 ∧ mcF c (fMC_ENC_CPR c) s ≠ 0) → Gives (.mcStart c) s (touches (.mcStart c)) fun t =>
    getF (fMC_STAT_STATE c) t = 3 ∧ (getF (fMC_STAT_REV_DEFERRED c) t = 1 ↔ reversed c (motorOf c s).omega s = true) ∧ RegsBut [rMC_STAT c] s t ∧
      (motorOf c t).intD = 0 ∧ (motorOf c t).intQ = 0 ∧
    ∀ k, k ≠ c → motorOf k t = motorOf k s) ∧
  (state = 0 ∨ state = 4 → exec (.mcStop c) s = .next s) ∧ (state ≠ 4 → exec (.mcClear c) s = .next s)


/-! ### The host port -/

/-- R25: an access that touches a Reserved or unassigned byte is counted; the first while no record is held is recorded with its address, and
raises the vector, as a message or, masked, as a pending bit (R351). Nothing else changes; and an access of which every byte is assigned changes
nothing here. A device whose start has stopped answers no access of the host at all (R385). -/
def Obligations.BadAddressesRecorded : Prop := ∀ (w : Bool) (a size : Nat) (s : State), Sound s → 0 < size → size ≤ 8 → a + size ≤ 0x4000000 →
  let bad := ∃ i, i < size ∧ nothingAt w (a + i) = true
  (¬ bad → exec (.badAddressAccess w a size) s = .next s) ∧
  (∀ c, startStopped s = true → hostAccesses c = true → exec c s = .next s) ∧
  (startStopped s = false → bad → getF fHST_BADADDR_VALID s = 1 → exec (.badAddressAccess w a size) s = .next (incSat fHST_BADADDR_COUNT s)) ∧
  (startStopped s = false → bad → getF fHST_BADADDR_VALID s = 0 → Gives (.badAddressAccess w a size) s [.regs, .host] fun t =>
    getF fHST_BADADDR_VALID t = 1 ∧ getF fHST_BADADDR_ADDR t = a ∧ (getF fHST_BADADDR_WRITE t = 1 ↔ w = true) ∧
    getF fHST_BADADDR_COUNT t = min (getF fHST_BADADDR_COUNT s + 1) (2 ^ fHST_BADADDR_COUNT.width - 1) ∧
    t.host = (if s.host.msixMask.testBit 7 = true then { s.host with msixPend := s.host.msixPend ||| 2 ^ 7 }
      else { s.host with msi := s.host.msi ++ [(7, s.host.msixTable.getD 7 (0, 0))] }) ∧ RegsBut [rHST_BADADDR] s t)

/-- R354: a producer or consumer index that would make a credit negative is ignored and sets DB_ERR; any other is taken. Resetting the event
ring drops the events that wait, counts them in LOST_OTHER, and clears EN and both indices. -/
def Obligations.HostRings : Prop := ∀ (q v : Nat) (s : State), q < 4 → Sound s → startStopped s = false →
  let n := 2 ^ min (max (getF (fHST_QP_CFG_LOG2N q) s) 4) 12
  let filled := (v % 65536 + 65536 - getF (fHST_QP_RQ_CI_INDEX q) s) % 65536
  let unread := (getF (fHST_QP_RS_PI_INDEX q) s + 65536 - v % 65536) % 65536
  (n < filled → exec (.ringDoorbell q v) s = .next (setF (fHST_QP_CFG_DB_ERR q) 1 s)) ∧
  (filled ≤ n → exec (.ringDoorbell q v) s = .next (setF (fHST_QP_RQ_PI_INDEX q) (v % 65536) s)) ∧
  (n < unread → exec (.ringConsumerWrite q v) s = .next (setF (fHST_QP_CFG_DB_ERR q) 1 s)) ∧
  (unread ≤ n → exec (.ringConsumerWrite q v) s = .next (setF (fHST_QP_RS_CI_INDEX q) (v % 65536) s)) ∧
  Gives .eventRingReset s [.regs, .host] fun t => t.host.events = [] ∧ getF fHST_EVQ_CFG_EN t = 0 ∧ getF fHST_EVQ_PI_INDEX t = 0 ∧
    getF fHST_EVQ_CI_INDEX t = 0 ∧ RegsBut [rHST_EVQ_STAT, rHST_EVQ_PI, rHST_EVQ_CI, rHST_EVQ_CFG] s t ∧
    getF fHST_EVQ_STAT_LOST_OTHER t = min (getF fHST_EVQ_STAT_LOST_OTHER s + s.host.events.length) (2 ^ fHST_EVQ_STAT_LOST_OTHER.width - 1)


/-! ### The image store -/

/-- R26, R171 and R380: a host write into the image store whose every byte may be written stores its bytes, and every other byte reads as before;
one of which any byte may not be written changes no byte, and no register but the record of bad addresses. The render region takes no host write,
and font staging takes every one. -/
def Obligations.ImageStoreWrites : Prop := ∀ (a size v : Nat) (s : State), Sound s → MergesOk s → startStopped s = false → 0 < size → size ≤ 8 →
  a + size ≤ 0x2000000 →
  let c : Instr := .imageStoreWrite (0x1000000 + a) size v
  let may := ∀ i, i < size → imgWritable (a + i) s = true
  (may → Gives c s (touches c) fun t => MergesOk t ∧ (∀ i, i < size → imgByte (a + i) t = BitVec.ofNat 8 (v / 256 ^ i)) ∧
    ∀ b, b < 0x2000000 → b < a ∨ a + size ≤ b → imgByte b t = imgByte b s) ∧
  (¬ may → ∃ t, exec c s = .next t ∧ t.mem = s.mem ∧ RegsBut [rHST_BADADDR] s t) ∧
  (a < 0x1FA0000 → ¬ may) ∧ (0x1FA0000 ≤ a → a + size ≤ 0x1FC0000 → may)

/-- R380: draining the merge buffer entry of a word takes that entry and changes no byte of the image store that a read gives; where the word's
read-modify-write meets an uncorrectable error the word reads as uncorrectable from then on. With no entry of the word waiting nothing changes. -/
def Obligations.MergeDrainKeepsBytes : Prop := ∀ (word : Nat) (s : State), Sound s → MergesOk s →
  (Gives (.mergeDrain word) s (touches (.mergeDrain word)) fun t => MergesOk t ∧ (∀ b, b < 0x2000000 → imgByte b t = imgByte b s) ∧
    t.mem.merges = (s.mem.merges.filter fun x => decide (x.word ≠ word)) ∧
    ∀ m ∈ s.mem.merges, m.word = word → none ∈ m.bytes → wordBad word s = true → wordBad word t = true) ∧
  ((∀ x ∈ s.mem.merges, x.word ≠ word) → exec (.mergeDrain word) s = .next s)


/-- Nothing but the life-cycle and key requests, the secure clock, a reset, a rail command that may end in one and a register write that carries a
request changes the life-cycle state, the fuses, the keys, the nonce or the expiry: no other command of the table reaches them, whatever it is and
whatever state the device is in. -/
def Obligations.LifeCycleIsolated : Prop := ∀ (c : Instr) (s t : State), exec c s = .next t →
  mayChangeLifeCycle c = false → t.lc = s.lc

/-! ### Faults, power and ageing -/

/-- A fault that is raised sets its source's bit of FLT_STATUS and joins the history with its source, class, detail and tick; with 32 records
the oldest gives way. So a PLL that loses lock and goes to its duplicate (R432), and a chopper that does not follow its command (R342);
each with its own mark. -/
def Obligations.FaultsAreRecorded : Prop := ∀ (s : State), Sound s →
  let recorded (c : Instr) (src detail : Nat) (P : State → Prop) : Prop := Gives c s (touches c) fun t => P t ∧
    (getF fFLT_STATUS_STATUS t).testBit src = true ∧
    ∃ x, t.flt.hist = (if s.flt.hist.length < 32 then s.flt.hist else s.flt.hist.drop 1) ++ [x] ∧ x.source = src ∧ x.cls = 0 ∧
      x.detail = detail ∧ x.tick = s.reg rTRK_TICK
  (∀ p, p < 6 → (getF fCLK_STAT_DUP s).testBit p = false → recorded (.pllLockLoss p) 40 1 fun t =>
    (getF fCLK_STAT_DUP t).testBit p = true ∧ (getF fCLK_STAT_LOCK t).testBit p = false) ∧
  (∀ m, m < 2 → recorded (.chopFbMismatch m) 35 m fun t => getF (fBUS_STAT_CHOP_FAULT m) t = 1)

/-- R431: writing 1 to a bit of FLT_STATUS clears it only while its source is not active and no event of the same tick has set it (R11); every other
bit stays. POP takes the oldest record off the history and shows the next. Neither changes anything else. -/
def Obligations.HistoryAndStatus : Prop := ∀ (v : Nat) (s : State), Sound s →
  (startStopped s = false → Gives (.fltStatusClear v) s [.regs] fun t => RegsBut [rFLT_STATUS] s t ∧ ∀ k, k < 48 →
    (getF fFLT_STATUS_STATUS t).testBit k =
    ((getF fFLT_STATUS_STATUS s).testBit k && !(v.testBit k && !sourceActive k s && !s.raised.contains (rFLT_STATUS, k)))) ∧
  (startStopped s = false → ∀ x y l, s.flt.hist = x :: y :: l → l.length < 31 →
    Gives .histPop s [.regs, .flt] fun t => t.flt = { s.flt with hist := y :: l } ∧
    getF fFLT_HIST_STAT_DEPTH t = l.length + 1 ∧ getF fFLT_HIST0_SOURCE t = y.source % 64 ∧ getF fFLT_HIST0_CLASS t = y.cls % 8 ∧
    getF fFLT_HIST0_DETAIL t = y.detail % 256 ∧ t.reg rFLT_HIST1 = y.time ∧ t.reg rFLT_HIST2 = y.pos ∧ t.reg rFLT_HIST3 = y.tick ∧
    RegsBut [rFLT_HIST_STAT, rFLT_HIST0, rFLT_HIST1, rFLT_HIST2, rFLT_HIST3] s t)


/-- R448: BURN is refused with result 3 outside BLANK and PROVISIONED and for a plan whose VALID fuse is set; a burn that took and reads back shows
OK, and the plan holds what was written; one that did not shows FAIL and changes no plan. POP takes the oldest snapshot and shows the next. -/
def Obligations.PlansAndSnapshots : Prop := ∀ (k : Nat) (took : Bool) (s : State), Sound s → k < 2 ^ fPWR_CMD_INDEX.width →
  let old := s.pwr.fused.getD k []
  let buf := (List.range 13).map fun w => s.reg (rPWR_PLANBUF w)
  let may := (s.lc.state = .blank ∨ s.lc.state = .provisioned) ∧ wordGet (old.getD 0 0) 45 1 ≠ 1
  let fits := (buf.zip old).map (fun x => x.1 ||| x.2) = buf
  (¬ may → exec (.planBurn k took) s = .next (setF fPWR_STAT_BURN_RESULT 3 (setF fPWR_CMD_INDEX k s))) ∧
  (may → took = true → fits → Gives (.planBurn k took) s [.regs, .pwr] fun t => getF fPWR_STAT_BURN_RESULT t = 1 ∧
    t.pwr = { s.pwr with fused := s.pwr.fused.set k buf }) ∧
  (may → took = false → Gives (.planBurn k took) s [.regs, .pwr] fun t => getF fPWR_STAT_BURN_RESULT t = 2 ∧ t.pwr = s.pwr) ∧
  (startStopped s = false → ∀ x y l, s.pwr.snaps = x :: y :: l → l.length < 7 →
    Gives .snapPop s [.regs, .pwr] fun t => t.pwr = { s.pwr with snaps := y :: l } ∧
    getF fPWR_SNAP_STAT_DEPTH t = l.length + 1 ∧ (∀ w, w < 32 → t.reg (rPWR_SNAP w) = y.words.getD w 0) ∧
    RegsBut (rPWR_SNAP_STAT :: (List.range 32).map rPWR_SNAP) s t)


/-- The baseline of a motor's friction is taken from the table of its control engine, or refused with BAD_TABLE, as an event of its tick (R11),
where that is no table; AMP_REF makes a head's reference due; a derate that waits is applied once no job it waits for is released, and K is then
K_AGE + K_THERM, at most 8. -/
def Obligations.AgeingRecords : Prop := ∀ (n h : Nat) (s : State), Sound s → h < 16 → n < 8 →
  let k := min (getF fCLK_DERATE_K_AGE s + getF fCLK_DERATE_K_THERM s) 8
  (frictionTable n s = none → exec (.driftBaseline n) s = .next (noteRaised fAGE_STAT_BAD_TABLE 0 (setF fAGE_STAT_BAD_TABLE 1 s))) ∧
  (∀ l, frictionTable n s = some l → exec (.driftBaseline n) s = .next { s with age.base := s.age.base.set n (some l) }) ∧
  (startStopped s = false → Gives (.ampRef h) s [.ports] fun t => portOf h t = { portOf h s with refDue := true, refCnt := 0 } ∧ ∀ m, m ≠ h →
    portOf m t = portOf m s) ∧
  (s.age.switch = none → exec .derateClockSwitch s = .next s) ∧
  (∀ l, s.age.switch = some l → (∃ j ∈ l, ∃ x ∈ s.sch.jobs, x.2.seq = j ∧ (x.2.state = .released ∨ x.2.state = .started)) →
    exec .derateClockSwitch s = .next s) ∧
  (∀ l, s.age.switch = some l → ¬ (∃ j ∈ l, ∃ x ∈ s.sch.jobs, x.2.seq = j ∧ (x.2.state = .released ∨ x.2.state = .started)) →
    Gives .derateClockSwitch s [.regs, .age] fun t => t.age = { s.age with switch := none, kAge := getF fCLK_DERATE_K_AGE s } ∧
      getF fCLK_DERATE_K t = k ∧ RegsBut [rCLK_DERATE] s t)

/-! ### Ways back, and the life cycle -/

/-- A line leaves LINE_SAFE only when no source that sent it there stands in FLT_STATUS, and never in DEVICE_SAFE (R108, R434); when it leaves, it
forgets those sources. RESTORE is ignored for a head that is not HEAD_LOST or whose home sequencer is not IDLE (R252). GIVEBACK notes the request
only for a Chamois that drives a head whose home sequencer is IDLE, and the give-back begins at once where the path holds no job (R250). -/
def Obligations.WaysBack : Prop := ∀ (n h : Nat) (s : State), n < 4 → h < 16 → Sound s → startStopped s = false →
  let held := getF fFLT_REC_DEVICE_SAFE s = 1 ∨ ∃ k ∈ s.sch.safeSrc.getD n [], (getF fFLT_STATUS_STATUS s).testBit k = true
  (getF (fSCH_LINE_STAT_LINE_SAFE n) s ≠ 1 ∨ held → exec (.lineSafeExit n) s = .next s) ∧
  (getF (fSCH_LINE_STAT_LINE_SAFE n) s = 1 → ¬ held → Gives (.lineSafeExit n) s (touches (.lineSafeExit n)) fun t =>
    t.sch.safeSrc = s.sch.safeSrc.set n []) ∧
  (getF (fSCH_HEAD_STAT_STATE h) s ≠ 3 ∨ engState (.sq h) s ≠ 1 → exec (.restore h) s = .next s) ∧
  (∀ c, 16 ≤ c → c < 20 → headOf c s = some h → engState (.sq h) s = 1 →
    let busy := (path h s).cur.isSome = true ∨ (path h s).queue ≠ []
    let notes (p : Machine.Path) : Prop := Gives (.giveback c) s (touches (.giveback c)) fun t => RegsBut [] s t ∧ path h t = p ∧ ∀ m, m ≠ h →
      path m t = path m s
    (busy → notes { path h s with giveback := true }) ∧
    (¬ busy → (path h s).takeover = none → getF (fSQ_STAT_STOP_PEND h) s = 0 →
      notes { path h s with giveback := true, giving := true })) ∧
  (∀ c, c < 20 → (c < 16 ∨ headOf c s = none ∨ engState (.sq h) s ≠ 1) → headOf c s = none ∨ headOf c s = some h →
    exec (.giveback c) s = .next s)



/-! ### The line ports, the peer ports, and the firmware slots -/

/-- R362 and R365: a message that comes in on a line port that is not enabled changes nothing; a fragment, and a frame with more than one tag or
longer than 1,522 bytes, is counted in RX_DROP alone. A UDP datagram that is not for the port's own address and UDP port is no message. A SPEED
message that fails any of the tests is counted in SPD_REJ and does nothing else. An ARP request for the port's own address is answered with one
frame to its sender, of the least length that Ethernet has; any other with none, and so is no echo request to another address. R363: a PTP message
is taken on the port, in the domain and on the transport of LNP_PTP only; a Sync of the one-step clock whose path delay is known shows the offset
from the master. -/
def Obligations.LinePortMessages : Prop := ∀ (p dst mac ip target : Nat) (route : UdpRoute) (x : RxFrame) (m : List Byte) (y : PtpMsg) (delay : Int)
    (lock : Bool) (s : State), p < 2 →
  let on := getF (fLNP_CFG_EN p) s = 1
  let dropped := x.frag = true ∨ 1 < x.tags ∨ 1522 < x.len
  let n := leAt m 6 1
  let seq := leAt m 8 4
  let src := route.src
  let mineToo := route.dst = getF (fLNP_IP_IP p) s ∧ route.port = getF (fLNP_CFG_UDP_PORT p) s
  let fits := n < 4 ∧ (getF fLNP_SPD_EN s).testBit n = true ∧ ((getF fLNP_SPD_PORT s).testBit n = true ↔ p = 1) ∧
    src ≠ 0 ∧ getF (fLNP_PEER_PEER_IP p) s = src ∧ getF (fTRK_LINE_CTL_SRC n) s = 2 ∧
    ∀ l, s.lnp.rxSeq.getD n none = some l → 1 ≤ (seq + 2 ^ 32 - l) % 2 ^ 32 ∧ (seq + 2 ^ 32 - l) % 2 ^ 32 ≤ 2 ^ 31 - 1
  let mine := getF fLNP_PTP_EN s = 1 ∧ getF fLNP_PTP_PORT s = p ∧ getF fLNP_PTP_DOMAIN s = y.domain ∧
    (getF fLNP_PTP_TRANSPORT s = 1 ↔ y.ethernet = true)
  (¬ on → exec (.speed p route x m) s = .next s ∧ exec (.arpRequest p ⟨mac, ip⟩ target x) s = .next s ∧
    exec (.icmpEcho p ⟨⟨mac, src⟩, dst⟩ x m) s = .next s ∧ exec (.ptpMessage p y lock) s = .next s) ∧
  (on → dropped → exec (.speed p route x m) s = .next (incSat (fLNP_CNT_RX_DROP p) s) ∧
    exec (.arpRequest p ⟨mac, ip⟩ target x) s = .next (incSat (fLNP_CNT_RX_DROP p) s) ∧
    exec (.icmpEcho p ⟨⟨mac, src⟩, dst⟩ x m) s = .next (incSat (fLNP_CNT_RX_DROP p) s)) ∧
  (on → ¬ dropped → ¬ mineToo → exec (.speed p route x m) s = .next s) ∧
  (on → ¬ dropped → mineToo → isSpeed m = true → ¬ fits → exec (.speed p route x m) s = .next (incSat (fLNP_CNT_SPD_REJ p) s)) ∧
  (on → ¬ dropped → target % 2 ^ 32 = getF (fLNP_IP_IP p) s → ∃ f : List Byte, f.length = (if getF (fLNP_CFG_VLAN_EN p) s = 1 then 68 else 64) ∧
    f.take 12 = beBytes 6 mac ++ beBytes 6 (getF (fLNP_MAC_MAC p) s) ∧
    exec (.arpRequest p ⟨mac, ip⟩ target x) s = .next { s with sent := s.sent ++ [.lineFrame p f] }) ∧
  (on → ¬ dropped → target % 2 ^ 32 ≠ getF (fLNP_IP_IP p) s → exec (.arpRequest p ⟨mac, ip⟩ target x) s = .next s) ∧
  (on → ¬ dropped → m.length ≤ 1480 → dst % 2 ^ 32 ≠ getF (fLNP_IP_IP p) s → exec (.icmpEcho p ⟨⟨mac, src⟩, dst⟩ x m) s = .next s) ∧
  (on → ¬ mine → exec (.ptpMessage p y lock) s = .next s) ∧
  (on → Sound s → mine → y.kind = .sync false → y.tx = none → s.lnp.ptp.delay = some delay →
    Gives (.ptpMessage p y lock) s (touches (.ptpMessage p y lock)) fun t =>
    t.sent = s.sent ∧ t.lnp = { s.lnp with ptp := { s.lnp.ptp with waiting := none, sync := some (y.time, 5 * y.rx) } } ∧
    (getF fLNP_PTP_LOCK t = 1 ↔ lock = true) ∧ getF fLNP_PTP_OFFSET t = codeOf 32 (5 * y.rx - y.time - delay) ∧ RegsBut [rLNP_PTP] s t)

/-- A peer port that gains symbol lock while DOWN, with the link enabled, goes to TRAINING and sends HELLO; in any other state nothing changes, and
a DOWN port loses no lock. R366: a frame with a bad CRC on a port that is not DOWN is counted in CRC_ERR and does nothing else. A line's broadcast
leaves on both ports with the next sequence number, or not at all where it is not enabled; it changes no register. -/
def Obligations.PeerPorts : Prop := ∀ (p n : Nat) (body : List Byte) (resid : Nat) (s : State), Sound s → p < 2 →
  let st := getF (oclStateField p) s
  let on := getF fOCL_CFG_EN s = 1
  (st = 0 → on → Gives (.ocingSymbolLock p) s [.regs, .sent, .ocl] fun t => getF (oclStateField p) t = 1 ∧
    RegsBut [(oclStateField p).reg] s t ∧ ∃ f, t.sent = s.sent ++ [.ocing p f] ∧ leAt f 0 1 = 2) ∧
  (st ≠ 0 ∨ ¬ on → exec (.ocingSymbolLock p) s = .next s) ∧
  (st = 0 → exec (.ocingLockLoss p) s = .next s) ∧
  (st ≠ 0 → frameGood body = false → exec (.pos p body resid) s = .next (incSat fOCL_ERR_CRC_ERR s)) ∧
  (st = 0 ∨ (st ≠ 3 ∧ frameGood body = true) → exec (.pos p body resid) s = .next s) ∧
  (4 ≤ n ∨ ¬ on ∨ (getF fOCL_BCAST_EN s).testBit n = false → exec (.posBroadcast n) s = .next s) ∧
  (n < 4 → on → (getF fOCL_BCAST_EN s).testBit n = true → Gives (.posBroadcast n) s [.sent, .ocl] fun t =>
    t.ocl = { s.ocl with posSeq := s.ocl.posSeq.set n ((s.ocl.posSeq.getD n 0 + 1) % 256) } ∧
    (getF (oclStateField 0) s = 3 → getF (oclStateField 1) s = 3 → ∃ f, t.sent = s.sent ++ [.ocing 0 f, .ocing 1 f]) ∧
    (getF (oclStateField 0) s = 0 → getF (oclStateField 1) s = 0 → t.sent = s.sent))

/-- R427: after CONFIRM_MIN minutes of fault-free operation a trial is confirmed: its slot becomes ACTIVE, the other PREVIOUS, ARB_FLOOR becomes the
larger of itself and the confirmed one, and the settings of other formats go; before, or with CONFIRM_MIN 0, nothing happens. A session that
receives no message for 10 s ends and its slot is EMPTY. R37: a copy that is rebuilt equals the other, no counter changes, and REBUILD is clear. -/
def Obligations.TrialsSessionsCopies : Prop := ∀ (s : State), Sound s → s.primer.slots.length = 2 → s.primer.active < 2 →
  let o := 1 - s.primer.active
  let inTrial := ∃ x ∈ s.primer.slots, x.state = 4
  let due := inTrial ∧ s.primer.switch = .none ∧ s.primer.confirmMin ≠ 0 ∧
    s.primer.confirmMin * 60 * 200000000 ≤ (s.reg rTRK_TICK - s.primer.trialFrom).toNat
  (¬ due → exec .confirmTimer s = .next s) ∧
  (due → Gives .confirmTimer s [.primer] fun t => t.primer.active = o ∧ (fwSlot o t).state = 3 ∧ (fwSlot s.primer.active t).state = 5 ∧
    t.primer.arbFloor = max s.primer.arbFloor (fwSlot o s).arb ∧
    t.primer.settings = s.primer.settings.filter (fun f => decide (f.1 = (fwSlot o s).setFmt)) ∧
    (fwSlot o t).blocks = (fwSlot o s).blocks) ∧
  ((∀ x, s.primer.session = some x → (s.reg rTRK_TICK - x.last).toNat < 2000000000) → exec .updateSessionTimeout s = .next s) ∧
  (∀ x, s.primer.session = some x → 2000000000 ≤ (s.reg rTRK_TICK - x.last).toNat → Gives .updateSessionTimeout s [.primer] fun t =>
    t.primer.session = none ∧ fwSlot o t = {} ∧ fwSlot s.primer.active t = fwSlot s.primer.active s) ∧
  Gives .copyRebuildDone s (touches .copyRebuildDone) fun t => t.sch.ledgers = t.sch.mirror ∧ t.trust.counters = t.trust.mirror ∧
    (∀ n, n < 4 → ledger n t = ledger n s) ∧ (∀ k, counter k t = counter k s) ∧ getF fFLT_REC_REBUILD t = 0 ∧ RegsBut [fFLT_REC_REBUILD.reg] s t
end

