-- ==== Sys2Proof/Laws/Sparse.lean ====
section
/-! SUPPORT. Tables keyed by number: reads after writes, and the canonical form. -/

namespace Sys2Proof.Machine

set_option Elab.async false

@[simp] theorem spFind_nil {α : Type} (a : Nat) : spFind ([] : Sparse α) a = none := rfl

/-- A table whose keys rise above `lo` lists no key at or below it. -/
theorem spFind_below {α : Type} {m : Sparse α} {j a : Nat} (h : spRising (some j) m = true) (ha : a ≤ j) : spFind m a = none := by
  induction m generalizing j with
  | nil => rfl
  | cons p t ih =>
    obtain ⟨k, v⟩ := p
    simp only [spRising, Bool.and_eq_true, decide_eq_true_eq] at h
    simp only [spFind]
    rw [if_neg (by omega)]
    exact ih h.2 (by omega)

theorem spRising_weaken {α : Type} {m : Sparse α} {i j : Nat} (h : spRising (some j) m = true) (hij : i ≤ j) :
    spRising (some i) m = true := by
  cases m with
  | nil => rfl
  | cons p t =>
    simp only [spRising, Bool.and_eq_true, decide_eq_true_eq] at h ⊢
    exact ⟨by omega, h.2⟩

theorem spRising_some {α : Type} {m : Sparse α} {j : Nat} (h : spRising (some j) m = true) : spRising none m = true := by
  cases m with
  | nil => rfl
  | cons p t =>
    simp only [spRising, Bool.and_eq_true] at h ⊢
    exact h.2

theorem spInsert_rising {α : Type} {m : Sparse α} {o : Option Nat} {a : Nat} {x : α} (h : spRising o m = true)
    (ho : ∀ j ∈ o, j < a) : spRising o (spInsert m a x) = true := by
  induction m generalizing o with
  | nil => cases o <;> simp_all [spInsert, spRising]
  | cons p t ih =>
    obtain ⟨k, v⟩ := p
    simp only [spInsert]
    split_ifs with h1 h2
    · cases o <;> simp_all [spRising]
    · subst h2; cases o <;> simp_all [spRising]
    · have hk : ∀ j ∈ some k, j < a := by
        intro j hj; cases hj; omega
      cases o with
      | none =>
        simp only [spRising] at h ⊢
        exact ih h hk
      | some j =>
        simp only [spRising, Bool.and_eq_true] at h ⊢
        exact ⟨h.1, ih h.2 hk⟩

theorem spErase_rising {α : Type} {m : Sparse α} {o : Option Nat} {a : Nat} (h : spRising o m = true) :
    spRising o (spErase m a) = true := by
  induction m generalizing o with
  | nil => exact h
  | cons p t ih =>
    obtain ⟨k, v⟩ := p
    simp only [spErase]
    split_ifs with h1
    · cases o with
      | none => exact spRising_some h
      | some j =>
        simp only [spRising, Bool.and_eq_true, decide_eq_true_eq] at h
        exact spRising_weaken h.2 (by omega)
    · cases o <;> simp_all [spRising]

theorem spFilter_rising {α : Type} {m : Sparse α} {o : Option Nat} {f : Nat × α → Bool} (h : spRising o m = true) :
    spRising o (m.filter f) = true := by
  induction m generalizing o with
  | nil => exact h
  | cons p t ih =>
    obtain ⟨k, v⟩ := p
    have ht : spRising (some k) t = true := by cases o <;> simp_all [spRising]
    simp only [List.filter_cons]
    split_ifs with h1
    · cases o <;> simp_all [spRising]
    · cases o with
      | none => exact spRising_some (ih ht)
      | some j =>
        simp only [spRising, Bool.and_eq_true, decide_eq_true_eq] at h
        exact spRising_weaken (ih ht) (by omega)

theorem spInsert_mem {α : Type} {m : Sparse α} {a : Nat} {x : α} {p : Nat × α} (h : p ∈ spInsert m a x) : p = (a, x) ∨ p ∈ m := by
  induction m with
  | nil => simp_all [spInsert]
  | cons q t ih =>
    simp only [spInsert] at h
    split_ifs at h with h1 h2
    · simp_all
    · simp only [List.mem_cons] at h ⊢; tauto
    · simp only [List.mem_cons] at h ⊢
      rcases h with h | h
      · exact .inr (.inl h)
      · rcases ih h with h | h
        · exact .inl h
        · exact .inr (.inr h)

theorem spErase_mem {α : Type} {m : Sparse α} {a : Nat} {p : Nat × α} (h : p ∈ spErase m a) : p ∈ m := by
  induction m with
  | nil => exact h
  | cons q t ih =>
    simp only [spErase] at h
    split_ifs at h with h1
    · exact List.mem_cons_of_mem _ h
    · simp only [List.mem_cons] at h ⊢
      rcases h with h | h
      · exact .inl h
      · exact .inr (ih h)

theorem spMod_mem {α : Type} {m : Sparse α} {a : Nat} {f : α → α} {p : Nat × α} (h : p ∈ spMod m a f) :
    p ∈ m ∨ ∃ q ∈ m, p = (q.1, f q.2) := by
  simp only [spMod, List.mem_map] at h
  obtain ⟨q, hq, rfl⟩ := h
  split_ifs
  · exact .inr ⟨q, hq, rfl⟩
  · exact .inl hq

/-- A read after a write of a rising table: the written value at its key. -/
theorem spFind_insert_same {α : Type} (m : Sparse α) (a : Nat) (x : α) : spFind (spInsert m a x) a = some x := by
  induction m with
  | nil => simp [spInsert, spFind]
  | cons p t ih =>
    obtain ⟨k, v⟩ := p
    simp only [spInsert]
    split_ifs with h1 h2
    · simp [spFind]
    · simp [spFind]
    · simp only [spFind]; rw [if_neg (by omega)]; exact ih

/-- A write leaves every other key as it was. -/
theorem spFind_insert_other {α : Type} (m : Sparse α) {a b : Nat} (x : α) (h : b ≠ a) : spFind (spInsert m a x) b = spFind m b := by
  induction m with
  | nil => simp only [spInsert, spFind]; rw [if_neg (fun e => h e.symm)]
  | cons p t ih =>
    obtain ⟨k, v⟩ := p
    simp only [spInsert]
    split_ifs with h1 h2
    · simp only [spFind]; rw [if_neg (fun e => h e.symm)]
    · subst h2; simp only [spFind]; rw [if_neg (fun e => h e.symm), if_neg (fun e => h e.symm)]
    · simp only [spFind, ih]

theorem spFind_erase_other {α : Type} (m : Sparse α) {a b : Nat} (h : b ≠ a) : spFind (spErase m a) b = spFind m b := by
  induction m with
  | nil => rfl
  | cons p t ih =>
    obtain ⟨k, v⟩ := p
    simp only [spErase]
    split_ifs with h1
    · subst h1; simp only [spFind]; rw [if_neg (fun e => h e.symm)]
    · simp only [spFind, ih]

theorem spFind_erase_same {α : Type} {m : Sparse α} {a : Nat} (hm : spRising none m = true) : spFind (spErase m a) a = none := by
  have go : ∀ (t : Sparse α) (o : Option Nat), spRising o t = true → spFind (spErase t a) a = none := by
    intro t
    induction t with
    | nil => intro _ _; rfl
    | cons p t ih =>
      intro o h
      obtain ⟨k, v⟩ := p
      have ht : spRising (some k) t = true := by cases o <;> simp_all [spRising]
      simp only [spErase]
      split_ifs with h1
      · exact spFind_below ht (by omega)
      · simp only [spFind]; rw [if_neg h1]; exact ih _ ht
  exact go m none hm

theorem spGet_put_other {α : Type} [DecidableEq α] (d : Nat → α) (m : Sparse α) {a b : Nat} (x : α) (h : b ≠ a) :
    spGet d (spPut d m a x) b = spGet d m b := by
  unfold spGet spPut
  split_ifs
  · rw [spFind_erase_other m h]
  · rw [spFind_insert_other m x h]

theorem spGet_put_same {α : Type} [DecidableEq α] (d : Nat → α) {m : Sparse α} {a : Nat} (x : α) (hm : spRising none m = true) :
    spGet d (spPut d m a x) a = x := by
  unfold spGet spPut
  split_ifs with h
  · rw [spFind_erase_same hm, h]; rfl
  · rw [spFind_insert_same]; rfl

theorem spWf_iff {α : Type} [DecidableEq α] (d : Nat → α) (m : Sparse α) :
    spWf d m = true ↔ spRising none m = true ∧ ∀ p ∈ m, p.2 ≠ d p.1 := by
  simp [spWf, List.all_eq_true]

/-- Every write keeps the canonical form. -/
theorem spPut_wf {α : Type} [DecidableEq α] (d : Nat → α) {m : Sparse α} (a : Nat) (x : α) (h : spWf d m = true) :
    spWf d (spPut d m a x) = true := by
  rw [spWf_iff] at h ⊢
  unfold spPut
  split_ifs with hx
  · exact ⟨spErase_rising h.1, fun p hp => h.2 p (spErase_mem hp)⟩
  · refine ⟨spInsert_rising h.1 (by simp), fun p hp => ?_⟩
    rcases spInsert_mem hp with rfl | hp
    · exact hx
    · exact h.2 p hp

theorem spFilter_wf {α : Type} [DecidableEq α] (d : Nat → α) {m : Sparse α} (f : Nat × α → Bool) (h : spWf d m = true) :
    spWf d (m.filter f) = true := by
  rw [spWf_iff] at h ⊢
  exact ⟨spFilter_rising h.1, fun p hp => h.2 p ((List.mem_filter.mp hp).1)⟩

/-! ### Byte memories -/

/-- A byte after a one-byte write. -/
theorem cellGet_put {m : List Host.Cell} {a b : Nat} {x : Byte} (h : Memory.wf m = true) :
    cellGet (cellPut m a x) b = if b = a then x else cellGet m b := by
  unfold cellGet cellPut
  split_ifs with e
  · subst e; exact spGet_put_same _ _ ((spWf_iff _ _).mp h).1
  · exact spGet_put_other _ _ _ e

theorem cellPut_wf {m : List Host.Cell} (a : Nat) (b : Byte) (h : Memory.wf m = true) : Memory.wf (cellPut m a b) = true :=
  spPut_wf _ a b h

/-- Every write of a memory keeps its canonical form. -/
theorem cellWrite_wf {m : List Host.Cell} (a : Nat) (l : List Byte) (h : Memory.wf m = true) : Memory.wf (cellWrite m a l) = true := by
  induction l generalizing m a with
  | nil => exact h
  | cons b t ih => exact ih (a + 1) (cellPut_wf a b h)

/-- A write leaves every byte outside its range as it was. -/
theorem cellGet_write_outside {m : List Host.Cell} {a b : Nat} {l : List Byte} (h : b < a ∨ a + l.length ≤ b) :
    cellGet (cellWrite m a l) b = cellGet m b := by
  induction l generalizing m a with
  | nil => rfl
  | cons x t ih =>
    simp only [List.length_cons] at h
    simp only [cellWrite]
    rw [ih (by omega)]
    exact spGet_put_other _ _ _ (by omega)

/-- A write gives each byte of its range. -/
theorem cellGet_write_inside {m : List Host.Cell} {a k : Nat} {l : List Byte} (hm : Memory.wf m = true) (h : k < l.length) :
    cellGet (cellWrite m a l) (a + k) = l[k] := by
  induction l generalizing m a k with
  | nil => simp at h
  | cons x t ih =>
    simp only [cellWrite]
    cases k with
    | zero =>
      rw [cellGet_write_outside (.inl (by omega)), cellGet_put hm]
      simp
    | succ k =>
      have := ih (m := cellPut m a x) (a := a + 1) (k := k) (cellPut_wf a x hm) (by simpa using h)
      rw [show a + (k + 1) = a + 1 + k by omega, this]
      rfl

end Sys2Proof.Machine
end

