-- ==== Sys2Proof/Laws/Kept.lean ====
section
/-! SUPPORT. What an operation may touch, as a mask of parts, with the laws it keeps; and the rules that put operations together. -/

namespace Sys2Proof.Machine

set_option Elab.async false

/-- From `s` to `t` the queue is the same, the laws stand if they stood, and every part outside the mask is the same. -/
structure Kept (m : Nat) (s t : State) : Prop where
  queue : t.pending = s.pending
  sound : Sound s → Sound t
  same : ∀ p : Part, m.testBit p.bit = false → p.same s t

theorem Part.same_refl (p : Part) (s : State) : p.same s s := by cases p <;> simp [Part.same]

theorem Part.same_trans {p : Part} {s t u : State} (h : p.same s t) (k : p.same t u) : p.same s u := by
  cases p <;> simp_all [Part.same]

theorem Kept.refl (m : Nat) (s : State) : Kept m s s := ⟨rfl, id, fun p _ => p.same_refl s⟩

theorem testBit_of_lor {a b : Nat} (h : a ||| b = b) {i : Nat} (hb : b.testBit i = false) : a.testBit i = false := by
  rw [← h, Nat.testBit_lor, Bool.or_eq_false_iff] at hb
  exact hb.1

theorem lor_sub {a b m : Nat} (hm : b ||| m = m) (h : a ||| b = b) : a ||| m = m := by
  rw [← hm, ← Nat.or_assoc, h]

/-- An operation after others, within a mask that covers both. -/
theorem Kept.then {a b : Nat} {o s t : State} (h : Kept b o s) (k : Kept a s t) (hm : a ||| b = b) : Kept b o t :=
  ⟨k.queue.trans h.queue, fun x => k.sound (h.sound x), fun p hp => Part.same_trans (h.same p hp) (k.same p (testBit_of_lor hm hp))⟩

theorem Kept.mono {a b : Nat} {s t : State} (k : Kept a s t) (hm : a ||| b = b) : Kept b s t := (Kept.refl b s).then k hm

/-- A command that always answers a next state, within a mask. -/
def Runs (m : Nat) (s : State) (o : Host.Outcome State Fault Refusal) : Prop := ∃ t, o = .next t ∧ Kept m s t

theorem Runs.next {m : Nat} {s t : State} (h : Kept m s t) : Runs m s (.next t) := ⟨t, rfl, h⟩

/-- The parts outside a list are the same where the mask names only parts of the list. -/
theorem Kept.only {m : Nat} {s t : State} {l : List Part} (h : Kept m s t) (hl : ∀ p : Part, p ∉ l → m.testBit p.bit = false) :
    Only l s t := fun p hp => h.same p (hl p hp)

/-! ### Updates of one record -/

/-- A record update that leaves the queue, the register files, the memories, the ledgers and the counters alone. -/
theorem Kept.upd {m : Nat} {o s : State} {regs' raised' shadow' lines' encs' pds' preds' sch' trust' flt' host' free' lc' primer' sent' sqs' ces' mvs' paths'
    ren' lnp' ocl' alertHeld' ports' backups' motors' buses' mem' pwr' age' cal' pending'} (h : Kept m o s)
    (hq : pending' = s.pending)
    (hr : regs' = s.regs ∧ shadow' = s.shadow ∧ mem'.image = s.mem.image ∧ mem'.ddr = s.mem.ddr ∧ host'.mem = s.host.mem ∧
      sch'.ledgers = s.sch.ledgers ∧ sch'.mirror = s.sch.mirror ∧ sch'.saved = s.sch.saved ∧
      trust'.counters = s.trust.counters ∧ trust'.mirror = s.trust.mirror := by
        exact ⟨rfl, rfl, rfl, rfl, rfl, rfl, rfl, rfl, rfl, rfl⟩)
    (hb : bankSizes ⟨regs', raised', shadow', lines', encs', pds', preds', sch', trust', flt', host', free', lc', primer', sent', sqs', ces', mvs',
      paths', ren', lnp', ocl', alertHeld', ports', backups', motors', buses', mem', pwr', age', cal', pending'⟩ = bankSizes s := by
        first | rfl | simp [bankSizes])
    (hs : ∀ p : Part, m.testBit p.bit = false → p.same s ⟨regs', raised', shadow', lines', encs', pds', preds', sch', trust', flt', host', free', lc', primer', sent', sqs', ces', mvs',
      paths', ren', lnp', ocl', alertHeld', ports', backups', motors', buses', mem', pwr', age', cal', pending'⟩ := by
      intro p hp
      cases p <;> first | exact absurd hp (by decide) | rfl | exact ⟨rfl, rfl⟩ | exact ⟨rfl, rfl, rfl⟩) :
    Kept m o ⟨regs', raised', shadow', lines', encs', pds', preds', sch', trust', flt', host', free', lc', primer', sent', sqs', ces', mvs',
      paths', ren', lnp', ocl', alertHeld', ports', backups', motors', buses', mem', pwr', age', cal', pending'⟩ := by
  obtain ⟨h1, h2, h3, h4, h5, h6, h7, h8, h9, h10⟩ := hr
  refine ⟨hq.trans h.queue, fun x => ?_, fun p hp => Part.same_trans (h.same p hp) (hs p hp)⟩
  obtain ⟨z, a, b, c, d, e, f, g, i, j, k⟩ := h.sound x
  exact ⟨hb ▸ z, h1 ▸ a, h2 ▸ b, h3 ▸ c, h4 ▸ d, h5 ▸ e, h6 ▸ f, h7 ▸ g, h8 ▸ i, h9 ▸ j, h10 ▸ k⟩

/-- The image store's record takes a new value that keeps the memories' canonical form. -/
theorem Kept.memory {m : Nat} {o s : State} {x : Mem} (h : Kept m o s) (hm : 2 ^ 36 ||| m = m)
    (hi : Memory.wf s.mem.image = true → Memory.wf x.image = true) (hd : spWf (fun _ => none) s.mem.ddr = true → spWf (fun _ => none) x.ddr = true)
    (ki : x.image = s.mem.image ∨ 2 ^ 37 ||| m = m := by exact .inl rfl)
    (kd : x.ddr = s.mem.ddr ∨ 2 ^ 38 ||| m = m := by exact .inl rfl) : Kept m o ({ s with mem := x }) := by
  have off : ∀ {i : Nat}, 2 ^ i ||| m = m → m.testBit i = true := by
    intro i hi
    rw [← hi, Nat.testBit_lor, Nat.testBit_two_pow_self, Bool.true_or]
  refine ⟨h.queue, fun y => ?_, fun p hp => Part.same_trans (h.same p hp) ?_⟩
  · have z := h.sound y
    exact { z with image := hi z.image, ddr := hd z.ddr }
  · cases p <;> first | rfl | exact ⟨rfl, rfl⟩ | exact ⟨rfl, rfl, rfl⟩ | skip
    · rw [show Part.bit .mem = 36 from rfl, off hm] at hp; cases hp
    · rcases ki with e | e
      · exact e
      · rw [show Part.bit .image = 37 from rfl, off e] at hp; cases hp
    · rcases kd with e | e
      · exact e
      · rw [show Part.bit .ddr = 38 from rfl, off e] at hp; cases hp

/-- The host's record takes new memory that keeps the canonical form. -/
theorem Kept.hostMemory {m : Nat} {o s : State} {x : HostPort} (h : Kept m o s) (hm : 786432 ||| m = m)
    (hi : Memory.wf s.host.mem = true → Memory.wf x.mem = true) : Kept m o ({ s with host := x }) := by
  have off : ∀ i : Nat, (786432 : Nat).testBit i = true → m.testBit i = true := by
    intro i hi
    rw [← hm, Nat.testBit_lor, hi, Bool.true_or]
  refine ⟨h.queue, fun y => ?_, fun p hp => Part.same_trans (h.same p hp) ?_⟩
  · have z := h.sound y
    exact { z with hostMem := hi z.hostMem }
  · cases p <;> first | rfl | exact ⟨rfl, rfl⟩ | exact ⟨rfl, rfl, rfl⟩ | (rw [off _ rfl] at hp; cases hp)

theorem Kept.putRaised {m : Nat} {o s : State} {x : List (Nat × Nat)} (h : Kept m o s) (hm : 2 ^ 0 ||| m = m) :
    Kept m o { s with raised := x } := h.then (a := 2 ^ 0) (Kept.upd (Kept.refl _ _) rfl) hm

theorem Kept.putLines {m : Nat} {o s : State} {x : List Line} (h : Kept m o s) (hm : 2 ^ 2 ||| m = m)
    (hl : x.length = s.lines.length := by first | rfl | simp) : Kept m o { s with lines := x } :=
  h.then (a := 2 ^ 2) (Kept.upd (Kept.refl _ _) rfl (hb := by simp [bankSizes, hl])) hm

theorem Kept.putEncs {m : Nat} {o s : State} {x : List Enc} (h : Kept m o s) (hm : 2 ^ 3 ||| m = m)
    (hl : x.length = s.encs.length := by first | rfl | simp) : Kept m o { s with encs := x } :=
  h.then (a := 2 ^ 3) (Kept.upd (Kept.refl _ _) rfl (hb := by simp [bankSizes, hl])) hm

theorem Kept.putPds {m : Nat} {o s : State} {x : List Pd} (h : Kept m o s) (hm : 2 ^ 4 ||| m = m)
    (hl : x.length = s.pds.length := by first | rfl | simp) : Kept m o { s with pds := x } :=
  h.then (a := 2 ^ 4) (Kept.upd (Kept.refl _ _) rfl (hb := by simp [bankSizes, hl])) hm

theorem Kept.putPreds {m : Nat} {o s : State} {x : List Pred} (h : Kept m o s) (hm : 2 ^ 5 ||| m = m)
    (hl : x.length = s.preds.length := by first | rfl | simp) : Kept m o { s with preds := x } :=
  h.then (a := 2 ^ 5) (Kept.upd (Kept.refl _ _) rfl (hb := by simp [bankSizes, hl])) hm

theorem Kept.putFlt {m : Nat} {o s : State} {x : Flt} (h : Kept m o s) (hm : 2 ^ 17 ||| m = m) :
    Kept m o { s with flt := x } := h.then (a := 2 ^ 17) (Kept.upd (Kept.refl _ _) rfl) hm

theorem Kept.putFree {m : Nat} {o s : State} {x : Nat} (h : Kept m o s) (hm : 2 ^ 20 ||| m = m) :
    Kept m o { s with free := x } := h.then (a := 2 ^ 20) (Kept.upd (Kept.refl _ _) rfl) hm

theorem Kept.putLc {m : Nat} {o s : State} {x : Lifecycle} (h : Kept m o s) (hm : 2 ^ 21 ||| m = m) :
    Kept m o { s with lc := x } := h.then (a := 2 ^ 21) (Kept.upd (Kept.refl _ _) rfl) hm

theorem Kept.putPrimer {m : Nat} {o s : State} {x : Primer} (h : Kept m o s) (hm : 2 ^ 22 ||| m = m) :
    Kept m o { s with primer := x } := h.then (a := 2 ^ 22) (Kept.upd (Kept.refl _ _) rfl) hm

theorem Kept.putSent {m : Nat} {o s : State} {x : List Output} (h : Kept m o s) (hm : 2 ^ 23 ||| m = m) :
    Kept m o { s with sent := x } := h.then (a := 2 ^ 23) (Kept.upd (Kept.refl _ _) rfl) hm

theorem Kept.putSqs {m : Nat} {o s : State} {x : List Seq} (h : Kept m o s) (hm : 2 ^ 24 ||| m = m)
    (hl : x.length = s.sqs.length := by first | rfl | simp) : Kept m o { s with sqs := x } :=
  h.then (a := 2 ^ 24) (Kept.upd (Kept.refl _ _) rfl (hb := by simp [bankSizes, hl])) hm

theorem Kept.putCes {m : Nat} {o s : State} {x : List Ctl} (h : Kept m o s) (hm : 2 ^ 25 ||| m = m)
    (hl : x.length = s.ces.length := by first | rfl | simp) : Kept m o { s with ces := x } :=
  h.then (a := 2 ^ 25) (Kept.upd (Kept.refl _ _) rfl (hb := by simp [bankSizes, hl])) hm

theorem Kept.putMvs {m : Nat} {o s : State} {x : List Mover} (h : Kept m o s) (hm : 2 ^ 26 ||| m = m)
    (hl : x.length = s.mvs.length := by first | rfl | simp) : Kept m o { s with mvs := x } :=
  h.then (a := 2 ^ 26) (Kept.upd (Kept.refl _ _) rfl (hb := by simp [bankSizes, hl])) hm

theorem Kept.putPaths {m : Nat} {o s : State} {x : List Path} (h : Kept m o s) (hm : 2 ^ 27 ||| m = m)
    (hl : x.length = s.paths.length := by first | rfl | simp) : Kept m o { s with paths := x } :=
  h.then (a := 2 ^ 27) (Kept.upd (Kept.refl _ _) rfl (hb := by simp [bankSizes, hl])) hm

theorem Kept.putRen {m : Nat} {o s : State} {x : Render} (h : Kept m o s) (hm : 2 ^ 28 ||| m = m) :
    Kept m o { s with ren := x } := h.then (a := 2 ^ 28) (Kept.upd (Kept.refl _ _) rfl) hm

theorem Kept.putLnp {m : Nat} {o s : State} {x : LinePorts} (h : Kept m o s) (hm : 2 ^ 29 ||| m = m) :
    Kept m o { s with lnp := x } := h.then (a := 2 ^ 29) (Kept.upd (Kept.refl _ _) rfl) hm

theorem Kept.putOcl {m : Nat} {o s : State} {x : Ocl} (h : Kept m o s) (hm : 2 ^ 30 ||| m = m) :
    Kept m o { s with ocl := x } := h.then (a := 2 ^ 30) (Kept.upd (Kept.refl _ _) rfl) hm

theorem Kept.putAlertHeld {m : Nat} {o s : State} {x : Bool} (h : Kept m o s) (hm : 2 ^ 31 ||| m = m) :
    Kept m o { s with alertHeld := x } := h.then (a := 2 ^ 31) (Kept.upd (Kept.refl _ _) rfl) hm

theorem Kept.putPorts {m : Nat} {o s : State} {x : List Port} (h : Kept m o s) (hm : 2 ^ 32 ||| m = m)
    (hl : x.length = s.ports.length := by first | rfl | simp) : Kept m o { s with ports := x } :=
  h.then (a := 2 ^ 32) (Kept.upd (Kept.refl _ _) rfl (hb := by simp [bankSizes, hl])) hm

theorem Kept.putBackups {m : Nat} {o s : State} {x : List (Option Backup)} (h : Kept m o s) (hm : 2 ^ 33 ||| m = m)
    (hl : x.length = s.backups.length := by first | rfl | simp) : Kept m o { s with backups := x } :=
  h.then (a := 2 ^ 33) (Kept.upd (Kept.refl _ _) rfl (hb := by simp [bankSizes, hl])) hm

theorem Kept.putMotors {m : Nat} {o s : State} {x : List Motor} (h : Kept m o s) (hm : 2 ^ 34 ||| m = m)
    (hl : x.length = s.motors.length := by first | rfl | simp) : Kept m o { s with motors := x } :=
  h.then (a := 2 ^ 34) (Kept.upd (Kept.refl _ _) rfl (hb := by simp [bankSizes, hl])) hm

theorem Kept.putBuses {m : Nat} {o s : State} {x : List Bus} (h : Kept m o s) (hm : 2 ^ 35 ||| m = m)
    (hl : x.length = s.buses.length := by first | rfl | simp) : Kept m o { s with buses := x } :=
  h.then (a := 2 ^ 35) (Kept.upd (Kept.refl _ _) rfl (hb := by simp [bankSizes, hl])) hm

theorem Kept.putPwr {m : Nat} {o s : State} {x : Island} (h : Kept m o s) (hm : 2 ^ 39 ||| m = m) :
    Kept m o { s with pwr := x } := h.then (a := 2 ^ 39) (Kept.upd (Kept.refl _ _) rfl) hm

theorem Kept.putAge {m : Nat} {o s : State} {x : Ageing} (h : Kept m o s) (hm : 2 ^ 40 ||| m = m) :
    Kept m o { s with age := x } := h.then (a := 2 ^ 40) (Kept.upd (Kept.refl _ _) rfl) hm

theorem Kept.putCal {m : Nat} {o s : State} {x : Calib} (h : Kept m o s) (hm : 2 ^ 41 ||| m = m) :
    Kept m o { s with cal := x } := h.then (a := 2 ^ 41) (Kept.upd (Kept.refl _ _) rfl) hm

/-- A part whose bit is in the mask. -/
theorem bit_of_lor {i m : Nat} (hm : 2 ^ i ||| m = m) : m.testBit i = true := by
  rw [← hm, Nat.testBit_lor, Nat.testBit_two_pow_self, Bool.true_or]

/-- A record of the scheduler that leaves the ledgers alone. -/
theorem Kept.putSch {m : Nat} {o s : State} {x : Sched} (h : Kept m o s) (hm : 2 ^ 6 ||| m = m)
    (hl : x.ledgers = s.sch.ledgers ∧ x.mirror = s.sch.mirror ∧ x.saved = s.sch.saved := by exact ⟨rfl, rfl, rfl⟩)
    (p0 : x.ptab = s.sch.ptab ∨ 2 ^ 7 ||| m = m := by first | exact .inl rfl | exact .inr rfl)
    (p1 : x.pet = s.sch.pet ∨ 2 ^ 8 ||| m = m := by first | exact .inl rfl | exact .inr rfl)
    (p2 : x.jobs = s.sch.jobs ∨ 2 ^ 9 ||| m = m := by first | exact .inl rfl | exact .inr rfl)
    (p3 : x.binds = s.sch.binds ∨ 2 ^ 10 ||| m = m := by first | exact .inl rfl | exact .inr rfl)
    (p4 : x.rejs = s.sch.rejs ∨ 2 ^ 12 ||| m = m := by first | exact .inl rfl | exact .inr rfl)
    (hz : x.rejs.length = s.sch.rejs.length := by first | rfl | simp) :
    Kept m o { s with sch := x } := by
  obtain ⟨l0, l1, l2⟩ := hl
  refine ⟨h.queue, fun y => ?_, fun p hp => Part.same_trans (h.same p hp) ?_⟩
  · obtain ⟨z, a, b, c, d, e, f, g, i, j, k⟩ := h.sound y
    exact ⟨by simpa [bankSizes, hz, l0, l1] using z, a, b, c, d, e, l0 ▸ f, l1 ▸ g, l2 ▸ i, j, k⟩
  · cases p <;> simp only [Part.bit] at hp <;> first | rfl | exact ⟨rfl, rfl⟩ | exact ⟨rfl, rfl, rfl⟩ | exact ⟨l0, l1⟩ | skip
    · rw [bit_of_lor hm] at hp; cases hp
    · exact p0.resolve_right fun e => by rw [bit_of_lor e] at hp; cases hp
    · exact p1.resolve_right fun e => by rw [bit_of_lor e] at hp; cases hp
    · exact p2.resolve_right fun e => by rw [bit_of_lor e] at hp; cases hp
    · exact p3.resolve_right fun e => by rw [bit_of_lor e] at hp; cases hp
    · exact p4.resolve_right fun e => by rw [bit_of_lor e] at hp; cases hp

/-- A record of the trust core that leaves the counters alone. -/
theorem Kept.putTrust {m : Nat} {o s : State} {x : Trust} (h : Kept m o s) (hm : 2 ^ 13 ||| m = m)
    (hl : x.counters = s.trust.counters ∧ x.mirror = s.trust.mirror := by exact ⟨rfl, rfl⟩)
    (p0 : x.stencils = s.trust.stencils ∨ 2 ^ 14 ||| m = m := by first | exact .inl rfl | exact .inr rfl)
    (p1 : (x.chain = s.trust.chain ∧ x.auditNext = s.trust.auditNext ∧ x.ring = s.trust.ring) ∨ 2 ^ 16 ||| m = m := by
      first | exact .inl ⟨rfl, rfl, rfl⟩ | exact .inr rfl) :
    Kept m o { s with trust := x } := by
  obtain ⟨l0, l1⟩ := hl
  refine ⟨h.queue, fun y => ?_, fun p hp => Part.same_trans (h.same p hp) ?_⟩
  · obtain ⟨z, a, b, c, d, e, f, g, i, j, k⟩ := h.sound y
    exact ⟨z, a, b, c, d, e, f, g, i, l0 ▸ j, l1 ▸ k⟩
  · cases p <;> simp only [Part.bit] at hp <;> first | rfl | exact ⟨rfl, rfl⟩ | exact ⟨rfl, rfl, rfl⟩ | exact ⟨l0, l1⟩ | skip
    · rw [bit_of_lor hm] at hp; cases hp
    · exact p0.resolve_right fun e => by rw [bit_of_lor e] at hp; cases hp
    · exact p1.resolve_right fun e => by rw [bit_of_lor e] at hp; cases hp

/-- A record of the host link that leaves the host's memory alone. -/
theorem Kept.putHost {m : Nat} {o s : State} {x : HostPort} (h : Kept m o s) (hm : 2 ^ 18 ||| m = m)
    (hl : x.mem = s.host.mem := by exact rfl) : Kept m o { s with host := x } := by
  refine ⟨h.queue, fun y => ?_, fun p hp => Part.same_trans (h.same p hp) ?_⟩
  · obtain ⟨z, a, b, c, d, e, f, g, i, j, k⟩ := h.sound y
    exact ⟨z, a, b, c, d, hl ▸ e, f, g, i, j, k⟩
  · cases p <;> simp only [Part.bit] at hp <;> first | rfl | exact ⟨rfl, rfl⟩ | exact ⟨rfl, rfl, rfl⟩ | exact hl | skip
    rw [bit_of_lor hm] at hp; cases hp

/-- A record of the image store that leaves the memories alone. -/
theorem Kept.putMem {m : Nat} {o s : State} {x : Mem} (h : Kept m o s) (hm : 2 ^ 36 ||| m = m)
    (hi : x.image = s.mem.image := by exact rfl) (hd : x.ddr = s.mem.ddr := by exact rfl) : Kept m o { s with mem := x } :=
  h.memory hm (by rw [hi]; exact id) (by rw [hd]; exact id) (.inl hi) (.inl hd)

theorem Kept.ite {m : Nat} {o a b : State} {c : Prop} [Decidable c] (ha : Kept m o a) (hb : Kept m o b) : Kept m o (if c then a else b) := by
  split <;> assumption

theorem Kept.doIf {m : Nat} {o s : State} {c : Bool} {f : State → State} (h : Kept m o s) (hf : ∀ t, Kept m t (f t)) :
    Kept m o (doIf c f s) := by
  unfold Sys2Proof.Machine.doIf
  split
  · exact h.then (hf s) (Nat.or_self m)
  · exact h

theorem Kept.forAll {β : Type} {m : Nat} {o s : State} {l : List β} {f : β → State → State} (h : Kept m o s)
    (hf : ∀ x t, Kept m t (f x t)) : Kept m o (forAll l f s) := by
  unfold Sys2Proof.Machine.forAll
  induction l generalizing s with
  | nil => exact h
  | cons x l ih => exact ih (h.then (hf x s) (Nat.or_self m))

theorem Kept.comp {m : Nat} {o s : State} {f g : State → State} (h : Kept m o (f (g s))) : Kept m o ((f ∘ g) s) := h

end Sys2Proof.Machine
end

