-- ==== Sys2Proof/Laws/Ops.lean ====
section
/-! SUPPORT. For each operation and each meaning of Sys2Proof/Machine/Ops.lean: the parts of the state it may touch, and that it keeps the laws. -/

namespace Sys2Proof.Machine

set_option Elab.async false

theorem State.setReg_kept {m : Nat} {o s : State} {a : Nat} {w : Word} (k : Kept m o s) (hm : 1 ||| m = m) : Kept m o (s.setReg a w) := by
  refine k.then (a := 1) ⟨rfl, fun h => { h with regs := spPut_wf _ _ _ h.regs }, fun p hp => ?_⟩ hm
  cases p <;> first | rfl | exact ⟨rfl, rfl⟩ | exact ⟨rfl, rfl, rfl⟩ | exact absurd hp (by decide)

theorem State.setShadow_kept {m : Nat} {o s : State} {a : Nat} {w : Word} (k : Kept m o s) (hm : 2 ||| m = m) :
    Kept m o (s.setShadow a w) := by
  refine k.then (a := 2) ⟨rfl, fun h => { h with shadow := spPut_wf _ _ _ h.shadow }, fun p hp => ?_⟩ hm
  cases p <;> first | rfl | exact ⟨rfl, rfl⟩ | exact ⟨rfl, rfl, rfl⟩ | exact absurd hp (by decide)

theorem setF_kept {m : Nat} {o s : State} {f : Field} {x : Nat} (k : Kept m o s)
    (hm : 1 ||| m = m) : Kept m o (setF f x s) := by
  refine k.then (a := 1) ?_ hm
  unfold setF
  repeat' first | exact Eq.refl _ | (with_reducible first | apply State.setReg_kept | apply Kept.refl)

theorem setB_kept {m : Nat} {o s : State} {f : Field} {b : Bool} (k : Kept m o s)
    (hm : 1 ||| m = m) : Kept m o (setB f b s) := by
  refine k.then (a := 1) ?_ hm
  unfold setB
  repeat' first
    | exact Eq.refl _ | (with_reducible first | apply setF_kept | apply Kept.ite | apply Kept.refl) | intro _ | split
    | (with_reducible refine Kept.putRaised ?_ rfl)

theorem noteRaised_kept {m : Nat} {o s : State} {f : Field} {k : Nat} (hk : Kept m o s)
    (hm : 1 ||| m = m) : Kept m o (noteRaised f k s) := by
  refine hk.then (a := 1) ?_ hm
  unfold noteRaised
  repeat' first | exact Eq.refl _ | exact Kept.refl _ _ | intro _ | split | (with_reducible refine Kept.putRaised ?_ rfl)

theorem hostAccess_kept {m : Nat} {o s : State} {f : State → State} (k : Kept m o s) (hm : 0 ||| m = m)
    (h_f : ∀ a0, Kept m a0 (f a0)) : Kept m o (hostAccess f s) := by
  unfold hostAccess
  split
  · exact k
  have hf := h_f s
  refine k.then ⟨hf.queue, fun h => ?_, fun p hp => ?_⟩ (Nat.or_self m)
  · obtain ⟨z, a, b, c, d, e, f, g, i, j, l⟩ := hf.sound h
    exact ⟨z, a, b, c, d, e, f, g, i, j, l⟩
  · have h := hf.same p hp
    cases p <;> first | exact h | exact ⟨h.1, rfl⟩

theorem setI_kept {m : Nat} {o s : State} {f : Field} {x : Int} (k : Kept m o s)
    (hm : 1 ||| m = m) : Kept m o (setI f x s) := by
  refine k.then (a := 1) ?_ hm
  unfold setI
  repeat' first | exact Eq.refl _ | (with_reducible first | apply setF_kept | apply Kept.refl)

theorem addSat_kept {m : Nat} {o s : State} {f : Field} {k : Nat} (hk : Kept m o s)
    (hm : 1 ||| m = m) : Kept m o (addSat f k s) := by
  refine hk.then (a := 1) ?_ hm
  unfold addSat
  repeat' first | exact Eq.refl _ | (with_reducible first | apply setF_kept | apply Kept.refl)

theorem incSat_kept {m : Nat} {o s : State} {f : Field} (k : Kept m o s)
    (hm : 1 ||| m = m) : Kept m o (incSat f s) := by
  refine k.then (a := 1) ?_ hm
  unfold incSat
  repeat' first | exact Eq.refl _ | (with_reducible first | apply addSat_kept | apply Kept.refl)

theorem addMod_kept {m : Nat} {o s : State} {f : Field} {k : Nat} (hk : Kept m o s)
    (hm : 1 ||| m = m) : Kept m o (addMod f k s) := by
  refine hk.then (a := 1) ?_ hm
  unfold addMod
  repeat' first | exact Eq.refl _ | (with_reducible first | apply setF_kept | apply Kept.refl)

theorem maxF_kept {m : Nat} {o s : State} {f : Field} {x : Nat} (k : Kept m o s)
    (hm : 1 ||| m = m) : Kept m o (maxF f x s) := by
  refine k.then (a := 1) ?_ hm
  unfold maxF
  repeat' first | exact Eq.refl _ | (with_reducible first | apply setF_kept | apply Kept.ite | apply Kept.refl)

theorem writeField_kept {m : Nat} {o s : State} {a v : Nat} {f : FieldSpec} (k : Kept m o s)
    (hm : 3 ||| m = m) : Kept m o (writeField a v f s) := by
  refine k.then (a := 3) ?_ hm
  unfold writeField
  repeat' first | exact Eq.refl _ | (with_reducible first | apply State.setShadow_kept | apply setF_kept | apply Kept.refl) | intro _ | split

theorem plainWrite_kept {m : Nat} {o s : State} {a v : Nat} (k : Kept m o s)
    (hm : 3 ||| m = m) : Kept m o (plainWrite a v s) := by
  refine k.then (a := 3) ?_ hm
  unfold plainWrite
  repeat' first | exact Eq.refl _ | (with_reducible first | apply writeField_kept | apply Kept.forAll | apply Kept.refl) | intro _ | split

theorem State.setLine_kept {m : Nat} {o s : State} {n : Nat} {x : Line} (k : Kept m o s)
    (hm : 4 ||| m = m) : Kept m o (State.setLine s n x) := by
  refine k.then (a := 4) ?_ hm
  unfold State.setLine
  repeat' first | exact Eq.refl _ | exact Kept.refl _ _ | intro _ | split | (with_reducible refine Kept.putLines ?_ rfl)

theorem State.setEnc_kept {m : Nat} {o s : State} {n : Nat} {x : Enc} (k : Kept m o s)
    (hm : 8 ||| m = m) : Kept m o (State.setEnc s n x) := by
  refine k.then (a := 8) ?_ hm
  unfold State.setEnc
  repeat' first | exact Eq.refl _ | exact Kept.refl _ _ | intro _ | split | (with_reducible refine Kept.putEncs ?_ rfl)

theorem State.setPd_kept {m : Nat} {o s : State} {n : Nat} {x : Pd} (k : Kept m o s)
    (hm : 16 ||| m = m) : Kept m o (State.setPd s n x) := by
  refine k.then (a := 16) ?_ hm
  unfold State.setPd
  repeat' first | exact Eq.refl _ | exact Kept.refl _ _ | intro _ | split | (with_reducible refine Kept.putPds ?_ rfl)

theorem State.setPred_kept {m : Nat} {o s : State} {n : Nat} {x : Pred} (k : Kept m o s)
    (hm : 32 ||| m = m) : Kept m o (State.setPred s n x) := by
  refine k.then (a := 32) ?_ hm
  unfold State.setPred
  repeat' first | exact Eq.refl _ | exact Kept.refl _ _ | intro _ | split | (with_reducible refine Kept.putPreds ?_ rfl)

theorem State.setRej_kept {m : Nat} {o s : State} {n : Nat} {x : Rej} (k : Kept m o s)
    (hm : 4160 ||| m = m) : Kept m o (State.setRej s n x) := by
  refine k.then (a := 4160) ?_ hm
  unfold State.setRej
  repeat' first | exact Eq.refl _ | exact Kept.refl _ _ | intro _ | split | (with_reducible refine Kept.putSch ?_ rfl)

theorem railSet_kept {m : Nat} {o s : State} {f : Nat → Field} {i x : Nat} (k : Kept m o s)
    (hm : 549755813889 ||| m = m) : Kept m o (railSet f i x s) := by
  refine k.then (a := 549755813889) ?_ hm
  unfold railSet
  repeat' first
    | exact Eq.refl _ | (with_reducible first | apply setF_kept | apply Kept.refl) | intro _ | split | (with_reducible refine Kept.putPwr ?_ rfl)

theorem clearFlaw_kept {m : Nat} {o s : State} {w : Nat} (k : Kept m o s)
    (hm : 68719476736 ||| m = m) : Kept m o (clearFlaw w s) := by
  refine k.then (a := 68719476736) ?_ hm
  unfold clearFlaw
  repeat' first | exact Eq.refl _ | exact Kept.refl _ _ | intro _ | split | (with_reducible refine Kept.putMem ?_ rfl)

theorem setFlaw_kept {m : Nat} {o s : State} {f : Flaw} (k : Kept m o s)
    (hm : 68719476736 ||| m = m) : Kept m o (setFlaw f s) := by
  refine k.then (a := 68719476736) ?_ hm
  unfold setFlaw
  repeat' first | exact Eq.refl _ | exact Kept.refl _ _ | intro _ | split | (with_reducible refine Kept.putMem ?_ rfl)

theorem strike_kept {m : Nat} {o s : State} {w : Nat} (k : Kept m o s)
    (hm : 68719476736 ||| m = m) : Kept m o (strike w s) := by
  refine k.then (a := 68719476736) ?_ hm
  unfold strike
  repeat' first
    | exact Eq.refl _ | (with_reducible first | apply setFlaw_kept | apply Kept.ite | apply Kept.refl) | intro _ | split
    | (with_reducible refine Kept.putMem ?_ rfl)

theorem bankWrite_kept {m : Nat} {o s : State} {w : Nat} (k : Kept m o s)
    (hm : 68719476736 ||| m = m) : Kept m o (bankWrite w s) := by
  refine k.then (a := 68719476736) ?_ hm
  unfold bankWrite
  repeat' first
    | exact Eq.refl _ | (with_reducible first | apply clearFlaw_kept | apply strike_kept | apply Kept.refl) | intro _ | split
    | (with_reducible refine Kept.putMem ?_ rfl)

end Sys2Proof.Machine
end

