-- ==== Sys2Proof/Laws/Report.lean ====
section
/-! SUPPORT. For each operation and each meaning of Sys2Proof/Machine/Report.lean: the parts of the state it may touch, and that it keeps the laws. -/

namespace Sys2Proof.Machine

set_option Elab.async false

theorem signalVector_kept {m : Nat} {o s : State} {v : Nat} (k : Kept m o s)
    (hm : 262144 ||| m = m) : Kept m o (signalVector v s) := by
  refine k.then (a := 262144) ?_ hm
  unfold signalVector
  repeat' first
    | exact Eq.refl _ | (with_reducible first | apply Kept.ite | apply Kept.refl) | intro _ | split | (with_reducible refine Kept.putHost ?_ rfl)

theorem loseEvent_kept {m : Nat} {o s : State} {type : Nat} (k : Kept m o s)
    (hm : 262145 ||| m = m) : Kept m o (loseEvent type s) := by
  refine k.then (a := 262145) ?_ hm
  unfold loseEvent
  repeat' first
    | exact Eq.refl _ | (with_reducible first | apply incSat_kept | apply Kept.ite | apply Kept.refl) | intro _ | split
    | (with_reducible refine Kept.putHost ?_ rfl)

theorem queueEvent_kept {m : Nat} {o s : State} {type : Nat} {payload : List Byte} (k : Kept m o s)
    (hm : 262144 ||| m = m) : Kept m o (queueEvent type payload s) := by
  refine k.then (a := 262144) ?_ hm
  unfold queueEvent
  repeat' first | exact Eq.refl _ | exact Kept.refl _ _ | intro _ | split | (with_reducible refine Kept.putHost ?_ rfl)

theorem reportLoss_kept {m : Nat} {o s : State} (k : Kept m o s)
    (hm : 262144 ||| m = m) : Kept m o (reportLoss s) := by
  refine k.then (a := 262144) ?_ hm
  unfold reportLoss
  repeat' first
    | exact Eq.refl _ | (with_reducible first | apply queueEvent_kept | apply Kept.ite | apply Kept.refl) | intro _ | split
    | (with_reducible refine Kept.putHost ?_ rfl)

theorem postEvent_kept {m : Nat} {o s : State} {type : Nat} {payload : List Byte} (k : Kept m o s)
    (hm : 262145 ||| m = m) : Kept m o (postEvent type payload s) := by
  refine k.then (a := 262145) ?_ hm
  unfold postEvent
  repeat' first
    | exact Eq.refl _
    | (with_reducible first
        | apply loseEvent_kept | apply queueEvent_kept | apply reportLoss_kept | apply Kept.ite | apply Kept.doIf | apply Kept.refl)
    | intro _

theorem releaseHeld_kept {m : Nat} {o s : State} (k : Kept m o s)
    (hm : 262145 ||| m = m) : Kept m o (releaseHeld s) := by
  refine k.then (a := 262145) ?_ hm
  unfold releaseHeld
  repeat' first
    | exact Eq.refl _ | (with_reducible first | apply loseEvent_kept | apply Kept.ite | apply Kept.forAll | apply Kept.refl) | intro _ | split
    | (with_reducible refine Kept.putHost ?_ rfl)

theorem send_kept {m : Nat} {os s : State} {o : Output} (k : Kept m os s)
    (hm : 8388608 ||| m = m) : Kept m os (send o s) := by
  refine k.then (a := 8388608) ?_ hm
  unfold send
  repeat' first | exact Eq.refl _ | exact Kept.refl _ _ | intro _ | split | (with_reducible refine Kept.putSent ?_ rfl)

theorem sendLineMessage_kept {m : Nat} {o s : State} {type line : Nat} {payload : List Byte} (k : Kept m o s)
    (hm : 545259521 ||| m = m) : Kept m o (sendLineMessage type line payload s) := by
  refine k.then (a := 545259521) ?_ hm
  unfold sendLineMessage
  repeat' first
    | exact Eq.refl _ | (with_reducible first | apply addMod_kept | apply send_kept | apply Kept.ite | apply Kept.refl) | intro _ | split
    | (with_reducible refine Kept.putLnp ?_ rfl)

theorem lineStateChanged_kept {m : Nat} {o s : State} {n old : Nat} (k : Kept m o s)
    (hm : 545521665 ||| m = m) : Kept m o (lineStateChanged n old s) := by
  refine k.then (a := 545521665) ?_ hm
  unfold lineStateChanged
  repeat' first | exact Eq.refl _ | (with_reducible first | apply postEvent_kept | apply sendLineMessage_kept | apply Kept.ite | apply Kept.refl)

theorem signCheckpoint_kept {m : Nat} {o s : State} {seq : Nat} {h : List Byte} (k : Kept m o s)
    (hm : 8192 ||| m = m) : Kept m o (signCheckpoint seq h s) := by
  refine k.then (a := 8192) ?_ hm
  unfold signCheckpoint
  repeat' first | exact Eq.refl _ | exact Kept.refl _ _ | intro _ | split | (with_reducible refine Kept.putTrust ?_ rfl)

theorem checkpointDue_kept {m : Nat} {o s : State} {seq : Nat} (k : Kept m o s)
    (hm : 8192 ||| m = m) : Kept m o (checkpointDue seq s) := by
  refine k.then (a := 8192) ?_ hm
  unfold checkpointDue
  repeat' first
    | exact Eq.refl _ | (with_reducible first | apply signCheckpoint_kept | apply Kept.ite | apply Kept.refl) | intro _ | split
    | (with_reducible refine Kept.putTrust ?_ rfl)

theorem auditLevels_kept {m : Nat} {o s : State} (k : Kept m o s)
    (hm : 1 ||| m = m) : Kept m o (auditLevels s) := by
  refine k.then (a := 1) ?_ hm
  unfold auditLevels
  repeat' first | exact Eq.refl _ | (with_reducible first | apply setB_kept | apply setF_kept | apply Kept.ite | apply Kept.refl)

theorem auditAppendRaw_kept {m : Nat} {o s : State} {e : AuditEntry} (k : Kept m o s)
    (hm : 73729 ||| m = m) : Kept m o (auditAppendRaw e s) := by
  refine k.then (a := 73729) ?_ hm
  unfold auditAppendRaw
  repeat' first
    | exact Eq.refl _
    | (with_reducible first
        | apply auditLevels_kept | apply checkpointDue_kept | apply incSat_kept | apply setF_kept | apply Kept.ite | apply Kept.refl)
    | intro _ | split | (with_reducible refine Kept.putTrust ?_ rfl)

theorem journalWrite_kept {m : Nat} {o s : State} (k : Kept m o s)
    (hm : 8192 ||| m = m) : Kept m o (journalWrite s) := by
  refine k.then (a := 8192) ?_ hm
  unfold journalWrite
  repeat' first | exact Eq.refl _ | exact Kept.refl _ _ | intro _ | split | (with_reducible refine Kept.putTrust ?_ rfl)

theorem showHist_kept {m : Nat} {o s : State} (k : Kept m o s)
    (hm : 1 ||| m = m) : Kept m o (showHist s) := by
  refine k.then (a := 1) ?_ hm
  unfold showHist
  repeat' first
    | exact Eq.refl _
    | (with_reducible first
        | apply State.setReg_kept | apply setF_kept | apply Kept.ite | apply Kept.refl)
    | intro _ | split

theorem recordFault_kept {m : Nat} {o s : State} {src cls : Nat} {escalated : Bool} {detail : Nat} (k : Kept m o s)
    (hm : 131073 ||| m = m) : Kept m o (recordFault src cls escalated detail s) := by
  refine k.then (a := 131073) ?_ hm
  unfold recordFault
  repeat' first
    | exact Eq.refl _ | (with_reducible first | apply incSat_kept | apply showHist_kept | apply Kept.ite | apply Kept.refl) | intro _ | split
    | (with_reducible refine Kept.putFlt ?_ rfl)

theorem showPin_kept {m : Nat} {o s : State} (k : Kept m o s)
    (hm : 1 ||| m = m) : Kept m o (showPin s) := by
  refine k.then (a := 1) ?_ hm
  unfold showPin
  repeat' first | exact Eq.refl _ | (with_reducible first | apply setB_kept | apply Kept.refl)

theorem raiseSimple_kept {m : Nat} {o s : State} {src cls : Nat} {escalated : Bool} {detail : Nat} (k : Kept m o s)
    (hm : 4587521 ||| m = m) : Kept m o (raiseSimple src cls escalated detail s) := by
  refine k.then (a := 4587521) ?_ hm
  unfold raiseSimple
  repeat' first
    | exact Eq.refl _
    | (with_reducible first
        | apply noteRaised_kept | apply postEvent_kept | apply recordFault_kept | apply setB_kept | apply setF_kept | apply showPin_kept
        | apply signalVector_kept | apply Kept.ite | apply Kept.doIf | apply Kept.refl)
    | intro _ | split | (with_reducible refine Kept.putFlt ?_ rfl) | (with_reducible refine Kept.putPrimer ?_ rfl)

theorem auditAppend_kept {m : Nat} {o s : State} {e : AuditEntry} (k : Kept m o s)
    (hm : 4661249 ||| m = m) : Kept m o (auditAppend e s) := by
  refine k.then (a := 4661249) ?_ hm
  unfold auditAppend
  repeat' first
    | exact Eq.refl _
    | (with_reducible first
        | apply auditAppendRaw_kept | apply raiseSimple_kept | apply Kept.doIf | apply Kept.refl)
    | intro _

theorem setCauses_kept {m : Nat} {o s : State} {l : List TrustCause} (k : Kept m o s)
    (hm : 4661249 ||| m = m) : Kept m o (setCauses l s) := by
  refine k.then (a := 4661249) ?_ hm
  unfold setCauses
  repeat' first
    | exact Eq.refl _
    | (with_reducible first
        | apply auditAppend_kept | apply raiseSimple_kept | apply setB_kept | apply setF_kept | apply Kept.ite | apply Kept.refl)
    | intro _ | split | (with_reducible refine Kept.putTrust ?_ rfl)

end Sys2Proof.Machine
end

