-- ==== Sys2Proof/Laws/Product.lean ====
section
/-! SUPPORT. For each operation and each meaning of Sys2Proof/Machine/Product.lean: the parts of the state it may touch, and that it keeps the laws. -/

namespace Sys2Proof.Machine

set_option Elab.async false

/-! ### The laws of the counters -/

theorem Ledger.law_zero : Ledger.law {} := ⟨rfl, rfl⟩

theorem getD_law {l : List Ledger} {n : Nat} (h : ∀ x ∈ l, x.law) : (l.getD n {}).law := by
  rw [List.getD_eq_getElem?_getD]
  cases e : l[n]? with
  | none => exact Ledger.law_zero
  | some x => exact h x (List.mem_of_getElem? e)

theorem ledger_law (n : Nat) {s : State} (h : Sound s) : (ledger n s).law := by
  unfold ledger
  split
  · exact getD_law h.ledgerCopies
  · exact getD_law h.ledgers

theorem spFind_mem {α : Type} {m : Sparse α} {a : Nat} {x : α} (h : spFind m a = some x) : (a, x) ∈ m := by
  induction m with
  | nil => cases h
  | cons p t ih =>
    simp only [spFind] at h
    split at h
    · next e => cases h; subst e; exact List.mem_cons_self
    · exact List.mem_cons_of_mem _ (ih h)

theorem counter_law {k : Nat} {s : State} {c : Counter} (h : Sound s) (hc : counter k s = some c) : c.law := by
  unfold counter at hc
  split at hc
  · exact h.counterCopies _ (spFind_mem hc)
  · exact h.counters _ (spFind_mem hc)

theorem countDetected_law {l : Ledger} (h : l.law) : (countDetected l).law := by
  obtain ⟨h1, h2⟩ := h
  exact ⟨by simp only [countDetected]; rw [h1]; ring, h2⟩

theorem countClosed_law {st : PState} {c : Cause} {l : Ledger} (h : l.law) : (countClosed st c l).law := by
  obtain ⟨h1, h2⟩ := h
  cases st
  · exact ⟨h1, h2⟩
  · exact ⟨by simp only [countClosed]; rw [h1]; ring, h2⟩
  · exact ⟨by simp only [countClosed]; rw [h1]; ring, h2⟩
  · cases c <;> exact ⟨by simp only [countClosed]; rw [h1]; ring, by simp only [countClosed]; rw [h2]; ring⟩

theorem countPrinted_law {c : Counter} (h : c.law) : (countPrinted c).law := by
  unfold countPrinted
  split
  · exact h
  · simp only [Counter.law] at h ⊢; omega

theorem countVoided_law {c : Counter} (h : c.law) : (countVoided c).law := by
  unfold countVoided
  split
  · exact h
  · simp only [Counter.law] at h ⊢; omega

theorem modLedger_kept {m : Nat} {o s : State} {n : Nat} {f : Ledger → Ledger} (k : Kept m o s) (hm : 2112 ||| m = m)
    (hf : ∀ l : Ledger, l.law → (f l).law) : Kept m o (modLedger n f s) := by
  refine k.then (a := 2112) ⟨rfl, fun h => ?_, fun p hp => ?_⟩ hm
  · have hx : (f (ledger n s)).law := hf _ (ledger_law n h)
    exact { h with
      banks := by
        have hb := h.banks
        simp only [modLedger]
        repeat' split
        all_goals simpa [bankSizes] using hb
      ledgers := by
        simp only [modLedger]
        split
        · exact h.ledgers
        · intro l hl
          rcases List.mem_or_eq_of_mem_set hl with hl | rfl
          · exact h.ledgers l hl
          · exact hx
      ledgerCopies := by
        simp only [modLedger]
        split
        · exact h.ledgerCopies
        · intro l hl
          rcases List.mem_or_eq_of_mem_set hl with hl | rfl
          · exact h.ledgerCopies l hl
          · exact hx }
  · cases p <;> first | exact absurd hp (by decide) | rfl | exact ⟨rfl, rfl⟩ | exact ⟨rfl, rfl, rfl⟩

theorem setNextPnum_kept {m : Nat} {o s : State} {n : Nat} {p : Word} (k : Kept m o s)
    (hm : 2113 ||| m = m) : Kept m o (setNextPnum n p s) := by
  refine k.then (a := 2113) ?_ hm
  unfold setNextPnum
  repeat' first
    | exact Eq.refl _
    | (with_reducible first
        | apply modLedger_kept | apply setF_kept | apply countDetected_law | apply countClosed_law | apply countPrinted_law | apply countVoided_law
        | apply Ledger.law_zero | apply Kept.refl)
    | exact fun _ h => h

theorem ledgerBreak_kept {m : Nat} {o s : State} {n : Nat} (k : Kept m o s)
    (hm : 4663489 ||| m = m) : Kept m o (ledgerBreak n s) := by
  refine k.then (a := 4663489) ?_ hm
  unfold ledgerBreak
  repeat' first
    | exact Eq.refl _
    | (with_reducible first
        | apply auditAppend_kept | apply modLedger_kept | apply raiseSimple_kept | apply setNextPnum_kept | apply countDetected_law
        | apply countClosed_law | apply countPrinted_law | apply countVoided_law | apply Ledger.law_zero | apply Kept.ite | apply Kept.refl)
    | exact fun _ h => h | exact fun h => (counter_law h (by assumption : counter _ _ = some _) :)
    | (intro h; have e := counter_law h (by assumption : counter _ _ = some _); simp only [Counter.law] at e ⊢; omega)
    | (intro _ h; simp only [Counter.law] at h ⊢; omega) | intro _ | split | (with_reducible refine Kept.putSch ?_ rfl)

theorem compareLedger_kept {m : Nat} {o s : State} {n : Nat} (k : Kept m o s)
    (hm : 4663489 ||| m = m) : Kept m o (compareLedger n s) := by
  refine k.then (a := 4663489) ?_ hm
  unfold compareLedger
  repeat' first | exact Eq.refl _ | (with_reducible first | apply ledgerBreak_kept | apply Kept.ite | apply Kept.refl)

theorem showPtab_kept {m : Nat} {o s : State} (k : Kept m o s)
    (hm : 1 ||| m = m) : Kept m o (showPtab s) := by
  refine k.then (a := 1) ?_ hm
  unfold showPtab
  repeat' first | exact Eq.refl _ | (with_reducible first | apply maxF_kept | apply setF_kept | apply Kept.refl)

theorem putProduct_kept {m : Nat} {o s : State} {i : Nat} {p : Product} (k : Kept m o s)
    (hm : 193 ||| m = m) : Kept m o (putProduct i p s) := by
  refine k.then (a := 193) ?_ hm
  unfold putProduct
  repeat' first
    | exact Eq.refl _ | (with_reducible first | apply showPtab_kept | apply Kept.refl) | intro _ | split | (with_reducible refine Kept.putSch ?_ rfl)

theorem modProduct_kept {m : Nat} {o s : State} {i : Nat} {f : Product → Product} (k : Kept m o s)
    (hm : 192 ||| m = m) : Kept m o (modProduct i f s) := by
  refine k.then (a := 192) ?_ hm
  unfold modProduct
  repeat' first | exact Eq.refl _ | exact Kept.refl _ _ | intro _ | split | (with_reducible refine Kept.putSch ?_ rfl)

theorem showJobs_kept {m : Nat} {o s : State} (k : Kept m o s)
    (hm : 1 ||| m = m) : Kept m o (showJobs s) := by
  refine k.then (a := 1) ?_ hm
  unfold showJobs
  repeat' first | exact Eq.refl _ | (with_reducible first | apply maxF_kept | apply setF_kept | apply Kept.refl)

theorem putJob_kept {m : Nat} {o s : State} {j : Nat} {x : Job} (k : Kept m o s)
    (hm : 577 ||| m = m) : Kept m o (putJob j x s) := by
  refine k.then (a := 577) ?_ hm
  unfold putJob
  repeat' first
    | exact Eq.refl _ | (with_reducible first | apply showJobs_kept | apply Kept.refl) | intro _ | split | (with_reducible refine Kept.putSch ?_ rfl)

theorem modJob_kept {m : Nat} {o s : State} {j : Nat} {f : Job → Job} (k : Kept m o s)
    (hm : 576 ||| m = m) : Kept m o (modJob j f s) := by
  refine k.then (a := 576) ?_ hm
  unfold modJob
  repeat' first | exact Eq.refl _ | exact Kept.refl _ _ | intro _ | split | (with_reducible refine Kept.putSch ?_ rfl)

theorem showPet_kept {m : Nat} {o s : State} (k : Kept m o s)
    (hm : 1 ||| m = m) : Kept m o (showPet s) := by
  refine k.then (a := 1) ?_ hm
  unfold showPet
  repeat' first | exact Eq.refl _ | (with_reducible first | apply maxF_kept | apply setF_kept | apply Kept.refl)

theorem petInsert_kept {m : Nat} {o s : State} {e : Event} (k : Kept m o s)
    (hm : 321 ||| m = m) : Kept m o (petInsert e s) := by
  refine k.then (a := 321) ?_ hm
  unfold petInsert
  repeat' first
    | exact Eq.refl _ | (with_reducible first | apply showPet_kept | apply Kept.refl) | intro _ | split | (with_reducible refine Kept.putSch ?_ rfl)

theorem petErase_kept {m : Nat} {o s : State} {i : Nat} (k : Kept m o s)
    (hm : 321 ||| m = m) : Kept m o (petErase i s) := by
  refine k.then (a := 321) ?_ hm
  unfold petErase
  repeat' first
    | exact Eq.refl _ | (with_reducible first | apply showPet_kept | apply Kept.refl) | intro _ | split | (with_reducible refine Kept.putSch ?_ rfl)

theorem petDrop_kept {m : Nat} {o s : State} {p : Event → Bool} (k : Kept m o s)
    (hm : 321 ||| m = m) : Kept m o (petDrop p s) := by
  refine k.then (a := 321) ?_ hm
  unfold petDrop
  repeat' first
    | exact Eq.refl _ | (with_reducible first | apply showPet_kept | apply Kept.refl) | intro _ | split | (with_reducible refine Kept.putSch ?_ rfl)

theorem putCounter_kept {m : Nat} {o s : State} {i : Nat} {c : Counter} (k : Kept m o s) (hm : 40960 ||| m = m)
    (hc : Sound o → c.law) : Kept m o (putCounter i c s) := by
  refine ⟨k.queue, fun ho => ?_, fun p hp => ?_⟩
  · have h := k.sound ho
    have hx : c.law := hc ho
    exact { h with
      counters := by
        simp only [putCounter]
        split
        · exact h.counters
        · intro x hm
          rcases spInsert_mem hm with rfl | hm
          · exact hx
          · exact h.counters x hm
      counterCopies := by
        simp only [putCounter]
        split
        · exact h.counterCopies
        · intro x hm
          rcases spInsert_mem hm with rfl | hm
          · exact hx
          · exact h.counterCopies x hm }
  · have hp := testBit_of_lor hm hp
    refine Part.same_trans (k.same p (by assumption)) ?_
    cases p <;> first | exact absurd hp (by decide) | rfl | exact ⟨rfl, rfl⟩ | exact ⟨rfl, rfl, rfl⟩

theorem counterBreak_kept {m : Nat} {o s : State} {k : Nat} (hk : Kept m o s) (hm : 4694017 ||| m = m) : Kept m o (counterBreak k s) := by
  have k1 : Kept 4694017 s (auditAppend { type := 5, slot := k } s) := auditAppend_kept (Kept.refl _ _) rfl
  refine hk.then (a := 4694017) ?_ hm
  unfold counterBreak
  dsimp only
  refine raiseSimple_kept ?_ rfl
  split
  · next c hc => exact k1.then (a := 40960) (putCounter_kept (Kept.refl _ _) rfl fun h => (counter_law h hc :)) rfl
  · exact k1

theorem compareCounter_kept {m : Nat} {o s : State} {k : Nat} (hk : Kept m o s)
    (hm : 4694017 ||| m = m) : Kept m o (compareCounter k s) := by
  refine hk.then (a := 4694017) ?_ hm
  unfold compareCounter
  repeat' first | exact Eq.refl _ | (with_reducible first | apply counterBreak_kept | apply Kept.ite | apply Kept.refl)

theorem modCounter_kept {m : Nat} {o s : State} {i : Nat} {f : Counter → Counter} (k : Kept m o s) (hm : 4694017 ||| m = m)
    (hf : ∀ c : Counter, c.law → (f c).law) : Kept m o (modCounter i f s) := by
  have k1 : Kept 4694017 s (compareCounter i s) := compareCounter_kept (Kept.refl _ _) rfl
  refine k.then (a := 4694017) ?_ hm
  unfold modCounter
  dsimp only
  split
  · next c hc => exact k1.then (a := 40960) (putCounter_kept (Kept.refl _ _) rfl fun h => hf c (counter_law h hc)) rfl
  · exact k1

theorem printSerial_kept {m : Nat} {o s : State} {prod : Nat} (k : Kept m o s)
    (hm : 4694209 ||| m = m) : Kept m o (printSerial prod s) := by
  refine k.then (a := 4694209) ?_ hm
  unfold printSerial
  repeat' first
    | exact Eq.refl _
    | (with_reducible first
        | apply modCounter_kept | apply modProduct_kept | apply countDetected_law | apply countClosed_law | apply countPrinted_law
        | apply countVoided_law | apply Ledger.law_zero | apply Kept.ite | apply Kept.refl)
    | exact fun _ h => h | exact fun h => (counter_law h (by assumption : counter _ _ = some _) :)
    | (intro h; have e := counter_law h (by assumption : counter _ _ = some _); simp only [Counter.law] at e ⊢; omega) | intro _ | split
    | (with_reducible refine Kept.putSch ?_ rfl)

theorem settleSerial_kept {m : Nat} {o s : State} {i : Nat} (k : Kept m o s)
    (hm : 4694209 ||| m = m) : Kept m o (settleSerial i s) := by
  refine k.then (a := 4694209) ?_ hm
  unfold settleSerial
  repeat' first
    | exact Eq.refl _
    | (with_reducible first
        | apply modCounter_kept | apply modProduct_kept | apply countDetected_law | apply countClosed_law | apply countPrinted_law
        | apply countVoided_law | apply Ledger.law_zero | apply Kept.ite | apply Kept.refl)
    | exact fun _ h => h | exact fun h => (counter_law h (by assumption : counter _ _ = some _) :)
    | (intro h; have e := counter_law h (by assumption : counter _ _ = some _); simp only [Counter.law] at e ⊢; omega) | intro _ | split

theorem settleGone_kept {m : Nat} {o s : State} (k : Kept m o s)
    (hm : 4694081 ||| m = m) : Kept m o (settleGone s) := by
  refine k.then (a := 4694081) ?_ hm
  unfold settleGone
  repeat' first
    | exact Eq.refl _
    | (with_reducible first
        | apply modCounter_kept | apply countDetected_law | apply countClosed_law | apply countPrinted_law | apply countVoided_law
        | apply Ledger.law_zero | apply Kept.forAll | apply Kept.refl)
    | exact fun _ h => h | exact fun h => (counter_law h (by assumption : counter _ _ = some _) :)
    | (intro h; have e := counter_law h (by assumption : counter _ _ = some _); simp only [Counter.law] at e ⊢; omega)
    | (intro _ h; simp only [Counter.law] at h ⊢; omega) | intro _ | split | (with_reducible refine Kept.putSch ?_ rfl)

theorem tidy_kept {m : Nat} {o s : State} (k : Kept m o s)
    (hm : 4694721 ||| m = m) : Kept m o (tidy s) := by
  refine k.then (a := 4694721) ?_ hm
  unfold tidy
  repeat' first
    | exact Eq.refl _
    | (with_reducible first
        | apply settleGone_kept | apply settleSerial_kept | apply showJobs_kept | apply Kept.forAll | apply Kept.refl)
    | intro _ | split | (with_reducible refine Kept.putSch ?_ rfl)

theorem releaseEntry_kept {m : Nat} {o s : State} {i : Nat} (k : Kept m o s)
    (hm : 4694977 ||| m = m) : Kept m o (releaseEntry i s) := by
  refine k.then (a := 4694977) ?_ hm
  unfold releaseEntry
  repeat' first
    | exact Eq.refl _
    | (with_reducible first
        | apply settleSerial_kept | apply showPtab_kept | apply Kept.ite | apply Kept.refl)
    | intro _ | split | (with_reducible refine Kept.putSch ?_ rfl)

theorem modOclPort_kept {m : Nat} {o s : State} {p : Nat} {f : OclPort → OclPort} (k : Kept m o s)
    (hm : 1073741824 ||| m = m) : Kept m o (modOclPort p f s) := by
  refine k.then (a := 1073741824) ?_ hm
  unfold modOclPort
  repeat' first | exact Eq.refl _ | exact Kept.refl _ _ | intro _ | split | (with_reducible refine Kept.putOcl ?_ rfl)

theorem sendBody_kept {m : Nat} {o s : State} {p : Nat} {body : List Byte} (k : Kept m o s)
    (hm : 8388608 ||| m = m) : Kept m o (sendBody p body s) := by
  refine k.then (a := 8388608) ?_ hm
  unfold sendBody
  repeat' first | exact Eq.refl _ | (with_reducible first | apply send_kept | apply Kept.refl)

theorem sendFrom_kept {m : Nat} {o s : State} {p type src dst : Nat} {payload : List Byte} (k : Kept m o s)
    (hm : 1082130432 ||| m = m) : Kept m o (sendFrom p type src dst payload s) := by
  refine k.then (a := 1082130432) ?_ hm
  unfold sendFrom
  repeat' first | exact Eq.refl _ | (with_reducible first | apply modOclPort_kept | apply sendBody_kept | apply Kept.ite | apply Kept.refl)

theorem sendOcing_kept {m : Nat} {o s : State} {p type dst : Nat} {payload : List Byte} (k : Kept m o s)
    (hm : 1082130432 ||| m = m) : Kept m o (sendOcing p type dst payload s) := by
  refine k.then (a := 1082130432) ?_ hm
  unfold sendOcing
  repeat' first | exact Eq.refl _ | (with_reducible first | apply sendFrom_kept | apply Kept.refl)

theorem closureReports_kept {m : Nat} {o s : State} {p : Product} (k : Kept m o s)
    (hm : 1623662593 ||| m = m) : Kept m o (closureReports p s) := by
  refine k.then (a := 1623662593) ?_ hm
  unfold closureReports
  repeat' first
    | exact Eq.refl _
    | (with_reducible first
        | apply auditAppend_kept | apply postEvent_kept | apply sendLineMessage_kept | apply sendOcing_kept | apply Kept.doIf | apply Kept.refl)
    | intro _ | split

theorem compareFor_kept {m : Nat} {o s : State} {i : Nat} (k : Kept m o s)
    (hm : 4663489 ||| m = m) : Kept m o (compareFor i s) := by
  refine k.then (a := 4663489) ?_ hm
  unfold compareFor
  repeat' first | exact Eq.refl _ | (with_reducible first | apply compareLedger_kept | apply Kept.ite | apply Kept.refl) | intro _ | split

theorem closeProduct_kept {m : Nat} {o s : State} {i : Nat} {st : PState} {c : Cause} (k : Kept m o s)
    (hm : 1623698369 ||| m = m) : Kept m o (closeProduct i st c s) := by
  have k1 : Kept 1623698369 s (compareFor i s) := compareFor_kept (Kept.refl _ _) rfl
  refine k.then (a := 1623698369) ?_ hm
  unfold closeProduct
  dsimp only
  generalize compareFor i s = t at k1 ⊢
  repeat' first
    | exact Eq.refl _ | exact k1
    | (with_reducible first | apply closureReports_kept | apply modLedger_kept | apply modProduct_kept | apply releaseEntry_kept | apply tidy_kept | apply Kept.doIf | apply Kept.ite | apply Kept.refl)
    | exact fun _ h => countClosed_law h | intro _ | split

theorem closeIfDone_kept {m : Nat} {o s : State} {i : Nat} (k : Kept m o s)
    (hm : 1623698369 ||| m = m) : Kept m o (closeIfDone i s) := by
  refine k.then (a := 1623698369) ?_ hm
  unfold closeIfDone
  repeat' first | exact Eq.refl _ | (with_reducible first | apply closeProduct_kept | apply Kept.ite | apply Kept.refl) | intro _ | split

theorem setPath_kept {m : Nat} {o s : State} {h : Nat} {p : Path} (k : Kept m o s)
    (hm : 134217728 ||| m = m) : Kept m o (setPath h p s) := by
  refine k.then (a := 134217728) ?_ hm
  unfold setPath
  repeat' first | exact Eq.refl _ | exact Kept.refl _ _ | intro _ | split | (with_reducible refine Kept.putPaths ?_ rfl)

theorem modPath_kept {m : Nat} {o s : State} {h : Nat} {f : Path → Path} (k : Kept m o s)
    (hm : 134217728 ||| m = m) : Kept m o (modPath h f s) := by
  refine k.then (a := 134217728) ?_ hm
  unfold modPath
  repeat' first | exact Eq.refl _ | (with_reducible first | apply setPath_kept | apply Kept.refl)

theorem pathEmptied_kept {m : Nat} {o s : State} {h : Nat} (k : Kept m o s)
    (hm : 134217729 ||| m = m) : Kept m o (pathEmptied h s) := by
  refine k.then (a := 134217729) ?_ hm
  unfold pathEmptied
  repeat' first | exact Eq.refl _ | (with_reducible first | apply setB_kept | apply setF_kept | apply setPath_kept | apply Kept.ite | apply Kept.refl)

theorem showPath_kept {m : Nat} {o s : State} {h : Nat} (k : Kept m o s)
    (hm : 134217729 ||| m = m) : Kept m o (showPath h s) := by
  refine k.then (a := 134217729) ?_ hm
  unfold showPath
  repeat' first
    | exact Eq.refl _
    | (with_reducible first
        | apply pathEmptied_kept | apply setB_kept | apply setF_kept | apply Kept.ite | apply Kept.refl)

theorem discardColumns_kept {m : Nat} {o s : State} {h j : Nat} (k : Kept m o s)
    (hm : 134217729 ||| m = m) : Kept m o (discardColumns h j s) := by
  refine k.then (a := 134217729) ?_ hm
  unfold discardColumns
  repeat' first
    | exact Eq.refl _
    | (with_reducible first
        | apply addMod_kept | apply addSat_kept | apply setPath_kept | apply showPath_kept | apply Kept.ite | apply Kept.refl)

theorem leavePath_kept {m : Nat} {o s : State} {j : Nat} (k : Kept m o s)
    (hm : 134218305 ||| m = m) : Kept m o (leavePath j s) := by
  refine k.then (a := 134218305) ?_ hm
  unfold leavePath
  repeat' first
    | exact Eq.refl _
    | (with_reducible first
        | apply discardColumns_kept | apply modJob_kept | apply modPath_kept | apply Kept.ite | apply Kept.refl)
    | intro _ | split

theorem quitPath_kept {m : Nat} {o s : State} {j : Nat} (k : Kept m o s)
    (hm : 150995521 ||| m = m) : Kept m o (quitPath j s) := by
  refine k.then (a := 150995521) ?_ hm
  unfold quitPath
  repeat' first
    | exact Eq.refl _
    | (with_reducible first
        | apply discardColumns_kept | apply leavePath_kept | apply modJob_kept | apply setF_kept | apply setPath_kept | apply showPath_kept
        | apply Kept.ite | apply Kept.refl)
    | intro _ | split | (with_reducible refine Kept.putSqs ?_ rfl)

theorem showAlloc_kept {m : Nat} {o s : State} (k : Kept m o s)
    (hm : 1 ||| m = m) : Kept m o (showAlloc s) := by
  refine k.then (a := 1) ?_ hm
  unfold showAlloc
  repeat' first | exact Eq.refl _ | (with_reducible first | apply maxF_kept | apply setF_kept | apply Kept.refl)

theorem freeImages_kept {m : Nat} {o s : State} (k : Kept m o s)
    (hm : 268436033 ||| m = m) : Kept m o (freeImages s) := by
  refine k.then (a := 268436033) ?_ hm
  unfold freeImages
  repeat' first
    | exact Eq.refl _ | (with_reducible first | apply showAlloc_kept | apply Kept.ite | apply Kept.refl) | intro _ | split
    | (with_reducible refine Kept.putRen ?_ rfl) | (with_reducible refine Kept.putSch ?_ rfl) | refine Kept.upd ?_ rfl

theorem showRenders_kept {m : Nat} {o s : State} (k : Kept m o s)
    (hm : 1 ||| m = m) : Kept m o (showRenders s) := by
  refine k.then (a := 1) ?_ hm
  unfold showRenders
  repeat' first | exact Eq.refl _ | (with_reducible first | apply maxF_kept | apply setF_kept | apply Kept.refl)

theorem dropRenders_kept {m : Nat} {o s : State} (k : Kept m o s)
    (hm : 268436033 ||| m = m) : Kept m o (dropRenders s) := by
  refine k.then (a := 268436033) ?_ hm
  unfold dropRenders
  repeat' first
    | exact Eq.refl _ | (with_reducible first | apply freeImages_kept | apply showRenders_kept | apply Kept.refl) | intro _ | split
    | (with_reducible refine Kept.putRen ?_ rfl)

theorem notStarted_kept {m : Nat} {o s : State} {j : Nat} {c : Cause} (k : Kept m o s)
    (hm : 402653761 ||| m = m) : Kept m o (notStarted j c s) := by
  refine k.then (a := 402653761) ?_ hm
  unfold notStarted
  repeat' first
    | exact Eq.refl _
    | (with_reducible first
        | apply dropRenders_kept | apply leavePath_kept | apply modJob_kept | apply Kept.ite | apply Kept.refl)
    | intro _ | split

theorem stopFlagged_kept {m : Nat} {o s : State} {j flag : Nat} (k : Kept m o s)
    (hm : 402653761 ||| m = m) : Kept m o (stopFlagged j flag s) := by
  refine k.then (a := 402653761) ?_ hm
  unfold stopFlagged
  repeat' first
    | exact Eq.refl _
    | (with_reducible first
        | apply dropRenders_kept | apply leavePath_kept | apply modJob_kept | apply Kept.ite | apply Kept.refl)
    | intro _ | split

theorem dropJob_kept {m : Nat} {o s : State} {j : Nat} (k : Kept m o s)
    (hm : 419431361 ||| m = m) : Kept m o (dropJob j s) := by
  refine k.then (a := 419431361) ?_ hm
  unfold dropJob
  repeat' first
    | exact Eq.refl _
    | (with_reducible first
        | apply dropRenders_kept | apply modProduct_kept | apply petDrop_kept | apply quitPath_kept | apply showJobs_kept | apply Kept.ite
        | apply Kept.refl)
    | intro _ | split | (with_reducible refine Kept.putSch ?_ rfl)

theorem closeUnmarked_kept {m : Nat} {o s : State} {i : Nat} (k : Kept m o s)
    (hm : 2026351553 ||| m = m) : Kept m o (closeUnmarked i s) := by
  refine k.then (a := 2026351553) ?_ hm
  unfold closeUnmarked
  repeat' first
    | exact Eq.refl _
    | (with_reducible first
        | apply closeProduct_kept | apply modProduct_kept | apply notStarted_kept | apply Kept.forAll | apply Kept.refl)
    | intro _ | split

theorem headLostJob_kept {m : Nat} {o s : State} {j : Nat} (k : Kept m o s)
    (hm : 419431361 ||| m = m) : Kept m o (headLostJob j s) := by
  refine k.then (a := 419431361) ?_ hm
  unfold headLostJob
  repeat' first
    | exact Eq.refl _
    | (with_reducible first
        | apply dropJob_kept | apply modProduct_kept | apply notStarted_kept | apply Kept.ite | apply Kept.refl)
    | intro _ | split

theorem showRej_kept {m : Nat} {o s : State} {r : Nat} (k : Kept m o s)
    (hm : 1 ||| m = m) : Kept m o (showRej r s) := by
  refine k.then (a := 1) ?_ hm
  unfold showRej
  repeat' first | exact Eq.refl _ | (with_reducible first | apply setB_kept | apply Kept.refl)

theorem trackRej_kept {m : Nat} {o s : State} {r : Nat} (k : Kept m o s)
    (hm : 4161 ||| m = m) : Kept m o (trackRej r s) := by
  refine k.then (a := 4161) ?_ hm
  unfold trackRej
  repeat' first | exact Eq.refl _ | (with_reducible first | apply State.setRej_kept | apply showRej_kept | apply Kept.ite | apply Kept.refl)

theorem trackRejs_kept {m : Nat} {o s : State} (k : Kept m o s)
    (hm : 4161 ||| m = m) : Kept m o (trackRejs s) := by
  refine k.then (a := 4161) ?_ hm
  unfold trackRejs
  repeat' first | exact Eq.refl _ | (with_reducible first | apply trackRej_kept | apply Kept.forAll | apply Kept.refl) | intro _

end Sys2Proof.Machine
end

