-- ==== Sys2Proof/Laws/Lines.lean ====
section
/-! SUPPORT. For each operation and each meaning of Sys2Proof/Machine/Lines.lean: the parts of the state it may touch, and that it keeps the laws. -/

namespace Sys2Proof.Machine

set_option Elab.async false

theorem setLineState_kept {m : Nat} {o s : State} {n st : Nat} (k : Kept m o s)
    (hm : 545525825 ||| m = m) : Kept m o (setLineState n st s) := by
  refine k.then (a := 545525825) ?_ hm
  unfold setLineState
  repeat' first | exact Eq.refl _ | (with_reducible first | apply lineStateChanged_kept | apply setF_kept | apply trackRejs_kept | apply Kept.refl)

theorem closeAllDone_kept {m : Nat} {o s : State} {l : List Nat} (k : Kept m o s)
    (hm : 1623698369 ||| m = m) : Kept m o (closeAllDone l s) := by
  refine k.then (a := 1623698369) ?_ hm
  unfold closeAllDone
  repeat' first | exact Eq.refl _ | (with_reducible first | apply closeIfDone_kept | apply Kept.forAll | apply Kept.refl) | intro _

theorem flagStarted_kept {m : Nat} {o s : State} {n flag : Nat} (k : Kept m o s)
    (hm : 576 ||| m = m) : Kept m o (flagStarted n flag s) := by
  refine k.then (a := 576) ?_ hm
  unfold flagStarted
  repeat' first | exact Eq.refl _ | (with_reducible first | apply modJob_kept | apply Kept.ite | apply Kept.forAll | apply Kept.refl) | intro _

theorem endUnstarted_kept {m : Nat} {o s : State} {n : Nat} {c : Cause} (k : Kept m o s)
    (hm : 402653761 ||| m = m) : Kept m o (endUnstarted n c s) := by
  refine k.then (a := 402653761) ?_ hm
  unfold endUnstarted
  repeat' first | exact Eq.refl _ | (with_reducible first | apply notStarted_kept | apply Kept.doIf | apply Kept.forAll | apply Kept.refl) | intro _

theorem lineLoss_kept {m : Nat} {o s : State} {n detail : Nat} (k : Kept m o s)
    (hm : 2026355653 ||| m = m) : Kept m o (lineLoss n detail s) := by
  refine k.then (a := 2026355653) ?_ hm
  unfold lineLoss
  repeat' first
    | exact Eq.refl _
    | (with_reducible first
        | apply State.setLine_kept | apply closeAllDone_kept | apply endUnstarted_kept | apply flagStarted_kept | apply incSat_kept
        | apply raiseSimple_kept | apply setLineState_kept | apply Kept.ite | apply Kept.refl)

theorem declareLoss_kept {m : Nat} {o s : State} {n : Nat} {bit : Field} {detail : Nat} (k : Kept m o s)
    (hm : 2026355653 ||| m = m) : Kept m o (declareLoss n bit detail s) := by
  refine k.then (a := 2026355653) ?_ hm
  unfold declareLoss
  repeat' first | exact Eq.refl _ | (with_reducible first | apply lineLoss_kept | apply setB_kept | apply Kept.ite | apply Kept.refl)

theorem posLost_kept {m : Nat} {o s : State} {n : Nat} (k : Kept m o s)
    (hm : 2026355649 ||| m = m) : Kept m o (posLost n s) := by
  refine k.then (a := 2026355649) ?_ hm
  unfold posLost
  repeat' first
    | exact Eq.refl _
    | (with_reducible first
        | apply closeAllDone_kept | apply endUnstarted_kept | apply modJob_kept | apply raiseSimple_kept | apply setB_kept | apply setLineState_kept
        | apply Kept.doIf | apply Kept.forAll | apply Kept.refl)
    | intro _

theorem showPred_kept {m : Nat} {o s : State} {h : Nat} (k : Kept m o s)
    (hm : 1 ||| m = m) : Kept m o (showPred h s) := by
  refine k.then (a := 1) ?_ hm
  unfold showPred
  repeat' first | exact Eq.refl _ | (with_reducible first | apply State.setReg_kept | apply Kept.refl)

theorem predTick_kept {m : Nat} {o s : State} {h : Nat} (k : Kept m o s)
    (hm : 33 ||| m = m) : Kept m o (predTick h s) := by
  refine k.then (a := 33) ?_ hm
  unfold predTick
  repeat' first | exact Eq.refl _ | (with_reducible first | apply State.setPred_kept | apply showPred_kept | apply Kept.ite | apply Kept.refl)

theorem predRestart_kept {m : Nat} {o s : State} {h : Nat} (k : Kept m o s)
    (hm : 33 ||| m = m) : Kept m o (predRestart h s) := by
  refine k.then (a := 33) ?_ hm
  unfold predRestart
  repeat' first | exact Eq.refl _ | (with_reducible first | apply State.setPred_kept | apply showPred_kept | apply Kept.refl)

theorem bringDue_kept {m : Nat} {o s : State} (k : Kept m o s)
    (hm : 320 ||| m = m) : Kept m o (bringDue s) := by
  refine k.then (a := 320) ?_ hm
  unfold bringDue
  repeat' first
    | exact Eq.refl _ | (with_reducible first | apply Kept.ite | apply Kept.refl) | intro _ | split | (with_reducible refine Kept.putSch ?_ rfl)

theorem countDispatch_kept {m : Nat} {o s : State} {e : Event} (k : Kept m o s)
    (hm : 65 ||| m = m) : Kept m o (countDispatch e s) := by
  refine k.then (a := 65) ?_ hm
  unfold countDispatch
  repeat' first
    | exact Eq.refl _ | (with_reducible first | apply incSat_kept | apply maxF_kept | apply Kept.ite | apply Kept.refl) | intro _ | split
    | (with_reducible refine Kept.putSch ?_ rfl)

theorem dispatch_kept {m : Nat} {o s : State} {i : Nat} {ty : EvType} {act : Event → State → State} (k : Kept m o s)
    (hm : 65 ||| m = m) (hf : ∀ e t, Kept m t (act e t)) : Kept m o (dispatch i ty act s) := by
  unfold dispatch
  split
  · split
    · exact (countDispatch_kept k hm).then (hf _ _) (Nat.or_self m)
    · exact k
  · exact k

theorem followRaw_kept {m : Nat} {o s : State} {n : Nat} (k : Kept m o s)
    (hm : 545526341 ||| m = m) : Kept m o (followRaw n s) := by
  refine k.then (a := 545526341) ?_ hm
  unfold followRaw
  repeat' first
    | exact Eq.refl _
    | (with_reducible first
        | apply State.setLine_kept | apply State.setReg_kept | apply flagStarted_kept | apply incSat_kept | apply setB_kept | apply setLineState_kept
        | apply Kept.ite | apply Kept.doIf | apply Kept.refl)
    | intro _

theorem publishPreds_kept {m : Nat} {o s : State} {n : Nat} (k : Kept m o s)
    (hm : 353 ||| m = m) : Kept m o (publishPreds n s) := by
  refine k.then (a := 353) ?_ hm
  unfold publishPreds
  repeat' first | exact Eq.refl _ | (with_reducible first | apply bringDue_kept | apply predTick_kept | apply Kept.forAll | apply Kept.refl) | intro _

theorem afterMotion_kept {m : Nat} {o s : State} {n : Nat} (k : Kept m o s)
    (hm : 545526629 ||| m = m) : Kept m o (afterMotion n s) := by
  refine k.then (a := 545526629) ?_ hm
  unfold afterMotion
  repeat' first | exact Eq.refl _ | (with_reducible first | apply followRaw_kept | apply publishPreds_kept | apply trackRejs_kept | apply Kept.refl)

theorem estimate_kept {m : Nat} {o s : State} {n : Nat} {p t : Word} (k : Kept m o s)
    (hm : 5 ||| m = m) : Kept m o (estimate n p t s) := by
  refine k.then (a := 5) ?_ hm
  unfold estimate
  repeat' first
    | exact Eq.refl _
    | (with_reducible first
        | apply State.setLine_kept | apply setI_kept | apply Kept.ite | apply Kept.refl)
    | intro _ | split | (dsimp only)

theorem recover_kept {m : Nat} {o s : State} {n : Nat} (k : Kept m o s)
    (hm : 545525829 ||| m = m) : Kept m o (recover n s) := by
  refine k.then (a := 545525829) ?_ hm
  unfold recover
  repeat' first
    | exact Eq.refl _
    | (with_reducible first
        | apply State.setLine_kept | apply State.setReg_kept | apply setB_kept | apply setLineState_kept | apply Kept.ite | apply Kept.doIf
        | apply Kept.refl)
    | intro _

theorem lineEdge_kept {m : Nat} {o s : State} {n : Nat} {up fltHigh : Bool} {t : Word} (k : Kept m o s)
    (hm : 545526629 ||| m = m) : Kept m o (lineEdge n up fltHigh t s) := by
  refine k.then (a := 545526629) ?_ hm
  unfold lineEdge
  repeat' first
    | exact Eq.refl _
    | (with_reducible first
        | apply State.setLine_kept | apply State.setReg_kept | apply afterMotion_kept | apply estimate_kept | apply recover_kept | apply Kept.ite
        | apply Kept.refl)

theorem updateRun_kept {m : Nat} {o s : State} {n : Nat} {late : Bool} (k : Kept m o s)
    (hm : 545525829 ||| m = m) : Kept m o (updateRun n late s) := by
  refine k.then (a := 545525829) ?_ hm
  unfold updateRun
  repeat' first | exact Eq.refl _ | (with_reducible first | apply State.setLine_kept | apply recover_kept | apply Kept.ite | apply Kept.refl)

theorem lineTick_kept {m : Nat} {o s : State} {n : Nat} (k : Kept m o s)
    (hm : 2026355685 ||| m = m) : Kept m o (lineTick n s) := by
  refine k.then (a := 2026355685) ?_ hm
  unfold lineTick
  repeat' first
    | exact Eq.refl _
    | (with_reducible first
        | apply State.setLine_kept | apply State.setReg_kept | apply afterMotion_kept | apply declareLoss_kept | apply publishPreds_kept
        | apply setI_kept | apply Kept.ite | apply Kept.refl)

theorem startFilter_kept {m : Nat} {o s : State} {p : Nat} (k : Kept m o s)
    (hm : 16 ||| m = m) : Kept m o (startFilter p s) := by
  refine k.then (a := 16) ?_ hm
  unfold startFilter
  repeat' first | exact Eq.refl _ | (with_reducible first | apply State.setPd_kept | apply Kept.refl)

theorem freshStart_kept {m : Nat} {o s : State} {n : Nat} (k : Kept m o s)
    (hm : 545525877 ||| m = m) : Kept m o (freshStart n s) := by
  refine k.then (a := 545525877) ?_ hm
  unfold freshStart
  repeat' first
    | exact Eq.refl _
    | (with_reducible first
        | apply State.setLine_kept | apply predRestart_kept | apply setF_kept | apply setLineState_kept | apply startFilter_kept | apply Kept.doIf
        | apply Kept.forAll | apply Kept.refl)
    | intro _

theorem presetLine_kept {m : Nat} {o s : State} {n : Nat} {p : Word} (k : Kept m o s)
    (hm : 37 ||| m = m) : Kept m o (presetLine n p s) := by
  refine k.then (a := 37) ?_ hm
  unfold presetLine
  repeat' first
    | exact Eq.refl _
    | (with_reducible first
        | apply State.setLine_kept | apply State.setPred_kept | apply State.setReg_kept | apply setF_kept | apply showPred_kept | apply Kept.forAll
        | apply Kept.refl)
    | intro _

theorem virtualSpeed_kept {m : Nat} {o s : State} {n : Nat} {w : Word} (k : Kept m o s)
    (hm : 545525829 ||| m = m) : Kept m o (virtualSpeed n w s) := by
  refine k.then (a := 545525829) ?_ hm
  unfold virtualSpeed
  repeat' first
    | exact Eq.refl _
    | (with_reducible first
        | apply State.setLine_kept | apply State.setReg_kept | apply updateRun_kept | apply Kept.ite | apply Kept.refl)

end Sys2Proof.Machine
end

