-- ==== Sys2Proof/Laws/Arming.lean ====
section
/-! SUPPORT. For each operation and each meaning of Sys2Proof/Machine/Arming.lean: the parts of the state it may touch, and that it keeps the laws. -/

namespace Sys2Proof.Machine

set_option Elab.async false

theorem publishTerms_kept {m : Nat} {o s : State} {b : Nat} {x : Binding} (k : Kept m o s)
    (hm : 1089 ||| m = m) : Kept m o (publishTerms b x s) := by
  refine k.then (a := 1089) ?_ hm
  unfold publishTerms
  repeat' first
    | exact Eq.refl _ | (with_reducible first | apply setF_kept | apply Kept.refl) | intro _ | split | (with_reducible refine Kept.putSch ?_ rfl)

theorem showRate_kept {m : Nat} {o s : State} (k : Kept m o s)
    (hm : 1 ||| m = m) : Kept m o (showRate s) := by
  refine k.then (a := 1) ?_ hm
  unfold showRate
  repeat' first | exact Eq.refl _ | (with_reducible first | apply setF_kept | apply Kept.refl)

theorem republish_kept {m : Nat} {o s : State} {p : Binding → Bool} (k : Kept m o s)
    (hm : 1089 ||| m = m) : Kept m o (republish p s) := by
  refine k.then (a := 1089) ?_ hm
  unfold republish
  repeat' first | exact Eq.refl _ | (with_reducible first | apply publishTerms_kept | apply Kept.forAll | apply Kept.refl) | intro _

theorem placeJobEvents_kept {m : Nat} {o s : State} {j : Nat} {x : Job} (k : Kept m o s)
    (hm : 321 ||| m = m) : Kept m o (placeJobEvents j x s) := by
  refine k.then (a := 321) ?_ hm
  unfold placeJobEvents
  repeat' first | exact Eq.refl _ | (with_reducible first | apply petInsert_kept | apply Kept.refl)

theorem armJob_kept {m : Nat} {o s : State} {i : Nat} {slot : Nat} {p : Plan} (k : Kept m o s)
    (hm : 961 ||| m = m) : Kept m o (armJob i slot p s) := by
  refine k.then (a := 961) ?_ hm
  unfold armJob
  repeat' first
    | exact Eq.refl _
    | (with_reducible first
        | apply modProduct_kept | apply placeJobEvents_kept | apply putJob_kept | apply Kept.refl)
    | intro _ | split | (with_reducible refine Kept.putSch ?_ rfl)

theorem placeGate_kept {m : Nat} {o s : State} {i : Nat} {noent : Bool} {line : Nat} {dpos : Word} {rej : Option Nat} (k : Kept m o s)
    (hm : 321 ||| m = m) : Kept m o (placeGate i noent line dpos rej s) := by
  refine k.then (a := 321) ?_ hm
  unfold placeGate
  repeat' first | exact Eq.refl _ | (with_reducible first | apply petInsert_kept | apply Kept.refl) | intro _ | split

theorem takeSlot_kept {m : Nat} {o s : State} {p : Nat} {pnum : Word} (k : Kept m o s)
    (hm : 1 ||| m = m) : Kept m o (takeSlot p pnum s) := by
  refine k.then (a := 1) ?_ hm
  unfold takeSlot
  repeat' first | exact Eq.refl _ | (with_reducible first | apply setB_kept | apply setF_kept | apply Kept.ite | apply Kept.refl)

theorem takeOpenSets_kept {m : Nat} {o s : State} {handle line : Nat} {pnum : Word} (k : Kept m o s)
    (hm : 8192 ||| m = m) : Kept m o (takeOpenSets handle line pnum s) := by
  refine k.then (a := 8192) ?_ hm
  unfold takeOpenSets
  repeat' first | exact Eq.refl _ | exact Kept.refl _ _ | intro _ | split | (with_reducible refine Kept.putTrust ?_ rfl)

theorem queueRender_kept {m : Nat} {o s : State} {prod : Nat} (k : Kept m o s)
    (hm : 268435457 ||| m = m) : Kept m o (queueRender prod s) := by
  refine k.then (a := 268435457) ?_ hm
  unfold queueRender
  repeat' first
    | exact Eq.refl _ | (with_reducible first | apply showRenders_kept | apply Kept.refl) | intro _ | split
    | (with_reducible refine Kept.putRen ?_ rfl)

theorem armProduct_kept {m : Nat} {o s : State} {i : Nat} {b : Option (Nat × Binding)} {cpos : Word} (k : Kept m o s)
    (hm : 1892133825 ||| m = m) : Kept m o (armProduct i b cpos s) := by
  refine k.then (a := 1892133825) ?_ hm
  unfold armProduct
  repeat' first
    | exact Eq.refl _
    | (with_reducible first
        | apply armJob_kept | apply closeProduct_kept | apply modProduct_kept | apply placeGate_kept | apply queueRender_kept | apply Kept.ite
        | apply Kept.doIf | apply Kept.forAll | apply Kept.refl)
    | intro _ | split

theorem confirmProduct_kept {m : Nat} {o s0 : State} {p : Nat} {c : Capture} (k : Kept m o s0)
    (hm : 1892133825 ||| m = m) : Kept m o (confirmProduct p c s0) := by
  refine k.then (a := 1892133825) ?_ hm
  unfold confirmProduct
  repeat' first
    | exact Eq.refl _
    | (with_reducible first
        | apply armProduct_kept | apply closureReports_kept | apply compareLedger_kept | apply incSat_kept | apply modLedger_kept
        | apply placeGate_kept | apply putProduct_kept | apply raiseSimple_kept | apply setNextPnum_kept | apply takeOpenSets_kept
        | apply takeSlot_kept | apply countDetected_law | apply countClosed_law | apply countPrinted_law | apply countVoided_law
        | apply Ledger.law_zero | apply Kept.ite | apply Kept.refl)
    | exact fun _ h => h | exact fun h => (counter_law h (by assumption : counter _ _ = some _) :)
    | (intro h; have e := counter_law h (by assumption : counter _ _ = some _); simp only [Counter.law] at e ⊢; omega) | intro _ | split
    | (with_reducible refine Kept.putSch ?_ rfl)

theorem pitchTest_kept {m : Nat} {o s : State} {n : Nat} {pos : Word} (k : Kept m o s)
    (hm : 2026355653 ||| m = m) : Kept m o (pitchTest n pos s) := by
  refine k.then (a := 2026355653) ?_ hm
  unfold pitchTest
  repeat' first | exact Eq.refl _ | (with_reducible first | apply State.setLine_kept | apply declareLoss_kept | apply Kept.ite | apply Kept.refl)

theorem countLateRender_kept {m : Nat} {o s : State} {x : Job} {j : Nat} (k : Kept m o s)
    (hm : 268435457 ||| m = m) : Kept m o (countLateRender x j s) := by
  refine k.then (a := 268435457) ?_ hm
  unfold countLateRender
  repeat' first
    | exact Eq.refl _ | (with_reducible first | apply incSat_kept | apply Kept.ite | apply Kept.refl) | intro _ | split
    | (with_reducible refine Kept.putRen ?_ rfl)

theorem releaseJob_kept {m : Nat} {o s : State} {j : Nat} {x : Job} (k : Kept m o s)
    (hm : 134218305 ||| m = m) : Kept m o (releaseJob j x s) := by
  refine k.then (a := 134218305) ?_ hm
  unfold releaseJob
  repeat' first | exact Eq.refl _ | (with_reducible first | apply modJob_kept | apply modPath_kept | apply showPath_kept | apply Kept.refl)

theorem readyBy_kept {m : Nat} {o s : State} {e : Event} (k : Kept m o s)
    (hm : 2043128769 ||| m = m) : Kept m o (readyBy e s) := by
  refine k.then (a := 2043128769) ?_ hm
  unfold readyBy
  repeat' first
    | exact Eq.refl _
    | (with_reducible first
        | apply closeIfDone_kept | apply countLateRender_kept | apply headLostJob_kept | apply notStarted_kept | apply releaseJob_kept
        | apply Kept.ite | apply Kept.refl)
    | intro _ | split

theorem startChk_kept {m : Nat} {o s : State} {e : Event} (k : Kept m o s)
    (hm : 2026351553 ||| m = m) : Kept m o (startChk e s) := by
  refine k.then (a := 2026351553) ?_ hm
  unfold startChk
  repeat' first
    | exact Eq.refl _
    | (with_reducible first
        | apply closeIfDone_kept | apply notStarted_kept | apply Kept.ite | apply Kept.refl)
    | intro _ | split

theorem endChk_kept {m : Nat} {o s : State} {e : Event} (k : Kept m o s)
    (hm : 576 ||| m = m) : Kept m o (endChk e s) := by
  refine k.then (a := 576) ?_ hm
  unfold endChk
  repeat' first | exact Eq.refl _ | (with_reducible first | apply modJob_kept | apply Kept.ite | apply Kept.refl) | intro _ | split

theorem rejDecide_kept {m : Nat} {o s : State} {e : Event} (k : Kept m o s)
    (hm : 2026351553 ||| m = m) : Kept m o (rejDecide e s) := by
  refine k.then (a := 2026351553) ?_ hm
  unfold rejDecide
  repeat' first
    | exact Eq.refl _
    | (with_reducible first
        | apply closeUnmarked_kept | apply incSat_kept | apply modProduct_kept | apply Kept.ite | apply Kept.doIf | apply Kept.refl)
    | intro _ | split | (dsimp only)

theorem rejGate_kept {m : Nat} {o s : State} {i : Nat} {e : Event} (k : Kept m o s)
    (hm : 4699073 ||| m = m) : Kept m o (rejGate i e s) := by
  refine k.then (a := 4699073) ?_ hm
  unfold rejGate
  repeat' first
    | exact Eq.refl _
    | (with_reducible first
        | apply State.setRej_kept | apply bringDue_kept | apply incSat_kept | apply petErase_kept | apply releaseEntry_kept | apply showPet_kept
        | apply showRej_kept | apply tidy_kept | apply Kept.ite | apply Kept.refl)
    | intro _ | split | (with_reducible refine Kept.putSch ?_ rfl)

theorem rejOff_kept {m : Nat} {o s : State} {e : Event} (k : Kept m o s)
    (hm : 4161 ||| m = m) : Kept m o (rejOff e s) := by
  refine k.then (a := 4161) ?_ hm
  unfold rejOff
  repeat' first | exact Eq.refl _ | (with_reducible first | apply State.setRej_kept | apply showRej_kept | apply Kept.refl)

theorem expire_kept {m : Nat} {o s : State} {i : Nat} (k : Kept m o s)
    (hm : 2026351553 ||| m = m) : Kept m o (expire i s) := by
  refine k.then (a := 2026351553) ?_ hm
  unfold expire
  repeat' first
    | exact Eq.refl _
    | (with_reducible first
        | apply closeIfDone_kept | apply modProduct_kept | apply notStarted_kept | apply petDrop_kept | apply raiseSimple_kept
        | apply releaseEntry_kept | apply setB_kept | apply stopFlagged_kept | apply tidy_kept | apply Kept.ite | apply Kept.doIf | apply Kept.forAll
        | apply Kept.refl)
    | intro _ | split

end Sys2Proof.Machine
end

