-- ==== Sys2Proof/Laws/Operands.lean ====
section
/-! SUPPORT. For each operation and each meaning of Sys2Proof/Machine/Operands.lean: the parts of the state it may touch, and that it keeps the laws. -/

namespace Sys2Proof.Machine

set_option Elab.async false

theorem setSeq_kept {m : Nat} {o s : State} {n : Nat} {x : Seq} (k : Kept m o s)
    (hm : 16777216 ||| m = m) : Kept m o (setSeq n x s) := by
  refine k.then (a := 16777216) ?_ hm
  unfold setSeq
  repeat' first | exact Eq.refl _ | exact Kept.refl _ _ | intro _ | split | (with_reducible refine Kept.putSqs ?_ rfl)

theorem setCtl_kept {m : Nat} {o s : State} {n : Nat} {x : Ctl} (k : Kept m o s)
    (hm : 33554432 ||| m = m) : Kept m o (setCtl n x s) := by
  refine k.then (a := 33554432) ?_ hm
  unfold setCtl
  repeat' first | exact Eq.refl _ | exact Kept.refl _ _ | intro _ | split | (with_reducible refine Kept.putCes ?_ rfl)

theorem setMover_kept {m : Nat} {o s : State} {n : Nat} {x : Mover} (k : Kept m o s)
    (hm : 67108864 ||| m = m) : Kept m o (setMover n x s) := by
  refine k.then (a := 67108864) ?_ hm
  unfold setMover
  repeat' first | exact Eq.refl _ | exact Kept.refl _ _ | intro _ | split | (with_reducible refine Kept.putMvs ?_ rfl)

theorem showFlag_kept {m : Nat} {o s : State} {f : Field} {b : Bool} (k : Kept m o s)
    (hm : 1 ||| m = m) : Kept m o (showFlag f b s) := by
  refine k.then (a := 1) ?_ hm
  unfold showFlag
  repeat' first | exact Eq.refl _ | (with_reducible first | apply noteRaised_kept | apply setF_kept | apply Kept.doIf | apply Kept.refl) | intro _

theorem showSticky_kept {m : Nat} {o s : State} {e : Engine} {f : Flags} (k : Kept m o s)
    (hm : 1 ||| m = m) : Kept m o (showSticky e f s) := by
  refine k.then (a := 1) ?_ hm
  unfold showSticky
  repeat' first | exact Eq.refl _ | (with_reducible first | apply showFlag_kept | apply Kept.refl) | intro _ | split

theorem noteSaturation_kept {m : Nat} {o s : State} {e : Engine} (k : Kept m o s)
    (hm : 1 ||| m = m) : Kept m o (noteSaturation e s) := by
  refine k.then (a := 1) ?_ hm
  unfold noteSaturation
  repeat' first | exact Eq.refl _ | (with_reducible first | apply noteRaised_kept | apply Kept.refl) | intro _ | split

theorem noteOverrun_kept {m : Nat} {o s : State} {e : Engine} (k : Kept m o s)
    (hm : 1 ||| m = m) : Kept m o (noteOverrun e s) := by
  refine k.then (a := 1) ?_ hm
  unfold noteOverrun
  repeat' first | exact Eq.refl _ | (with_reducible first | apply noteRaised_kept | apply Kept.refl) | intro _ | split

theorem setCore_kept {m : Nat} {o s : State} {e : Engine} {c : Core} (k : Kept m o s)
    (hm : 117440513 ||| m = m) : Kept m o (setCore e c s) := by
  refine k.then (a := 117440513) ?_ hm
  unfold setCore
  repeat' first
    | exact Eq.refl _
    | (with_reducible first
        | apply setCtl_kept | apply setMover_kept | apply setSeq_kept | apply showSticky_kept | apply Kept.refl)
    | intro _ | split

theorem modCore_kept {m : Nat} {o s : State} {e : Engine} {f : Core → Core} (k : Kept m o s)
    (hm : 117440513 ||| m = m) : Kept m o (modCore e f s) := by
  refine k.then (a := 117440513) ?_ hm
  unfold modCore
  repeat' first | exact Eq.refl _ | (with_reducible first | apply setCore_kept | apply Kept.refl)

theorem setEngState_kept {m : Nat} {o s : State} {e : Engine} {x : Nat} (k : Kept m o s)
    (hm : 1 ||| m = m) : Kept m o (setEngState e x s) := by
  refine k.then (a := 1) ?_ hm
  unfold setEngState
  repeat' first | exact Eq.refl _ | (with_reducible first | apply setF_kept | apply Kept.refl)

theorem putW_kept {m : Nat} {o s : State} {e : Engine} {i : Nat} {x : Word} (k : Kept m o s)
    (hm : 117440513 ||| m = m) : Kept m o (putW e i x s) := by
  refine k.then (a := 117440513) ?_ hm
  unfold putW
  repeat' first | exact Eq.refl _ | (with_reducible first | apply modCore_kept | apply Kept.refl)

theorem drawFree_kept {m : Nat} {o s : State} (k : Kept m o s)
    (hm : 1048576 ||| m = m) : Kept m o (drawFree s).2 := by
  refine k.then (a := 1048576) ?_ hm
  unfold drawFree
  repeat' first | exact Eq.refl _ | exact Kept.refl _ _ | intro _ | split | (dsimp only) | (with_reducible refine Kept.putFree ?_ rfl)

theorem readCyc_kept {m : Nat} {o s : State} {e : Engine} (k : Kept m o s)
    (hm : 118489089 ||| m = m) : Kept m o (readCyc e s).2 := by
  refine k.then (a := 118489089) ?_ hm
  unfold readCyc
  repeat' first
    | exact Eq.refl _ | (with_reducible first | apply drawFree_kept | apply modCore_kept | apply Kept.ite | apply Kept.refl) | intro _ | split
    | (dsimp only)

theorem readReg_kept {m : Nat} {o s : State} {e : Engine} {r : RegRef} (k : Kept m o s)
    (hm : 118489089 ||| m = m) : Kept m o (readReg e r s).2 := by
  refine k.then (a := 118489089) ?_ hm
  unfold readReg
  repeat' first
    | exact Eq.refl _ | (with_reducible first | apply modCore_kept | apply readCyc_kept | apply Kept.ite | apply Kept.refl) | intro _ | split

theorem readSrc_kept {m : Nat} {o s : State} {e : Engine} {x : Src} (k : Kept m o s)
    (hm : 118489089 ||| m = m) : Kept m o (readSrc e x s).2 := by
  refine k.then (a := 118489089) ?_ hm
  unfold readSrc
  repeat' first | exact Eq.refl _ | (with_reducible first | apply readReg_kept | apply Kept.refl) | intro _ | split

theorem writeReg_kept {m : Nat} {o s : State} {e : Engine} {r : RegRef} {x : Word} (k : Kept m o s)
    (hm : 117440513 ||| m = m) : Kept m o (writeReg e r x s) := by
  refine k.then (a := 117440513) ?_ hm
  unfold writeReg
  repeat' first
    | exact Eq.refl _
    | (with_reducible first
        | apply modCore_kept | apply putW_kept | apply setCtl_kept | apply Kept.ite | apply Kept.refl)
    | intro _ | split

theorem setFlags_kept {m : Nat} {o s : State} {e : Engine} {rd : RegRef} {f : Flags} (k : Kept m o s)
    (hm : 117440513 ||| m = m) : Kept m o (setFlags e rd f s) := by
  refine k.then (a := 117440513) ?_ hm
  unfold setFlags
  repeat' first | exact Eq.refl _ | (with_reducible first | apply modCore_kept | apply Kept.ite | apply Kept.refl)

theorem writeRes_kept {m : Nat} {o s : State} {e : Engine} {rd : RegRef} {x : Res} (k : Kept m o s)
    (hm : 117440513 ||| m = m) : Kept m o (writeRes e rd x s) := by
  refine k.then (a := 117440513) ?_ hm
  unfold writeRes
  repeat' first
    | exact Eq.refl _
    | (with_reducible first
        | apply noteSaturation_kept | apply setFlags_kept | apply writeReg_kept | apply Kept.doIf | apply Kept.refl)
    | intro _

theorem advance_kept {m : Nat} {o s : State} {e : Engine} (k : Kept m o s)
    (hm : 117440513 ||| m = m) : Kept m o (advance e s) := by
  refine k.then (a := 117440513) ?_ hm
  unfold advance
  repeat' first | exact Eq.refl _ | (with_reducible first | apply modCore_kept | apply Kept.refl)

end Sys2Proof.Machine
end

