-- ==== Sys2Proof/Laws/Heads.lean ====
section
/-! SUPPORT. For each operation and each meaning of Sys2Proof/Machine/Heads.lean: the parts of the state it may touch, and that it keeps the laws. -/

namespace Sys2Proof.Machine

set_option Elab.async false

theorem setPort_kept {m : Nat} {o s : State} {h : Nat} {p : Port} (k : Kept m o s)
    (hm : 4294967296 ||| m = m) : Kept m o (setPort h p s) := by
  refine k.then (a := 4294967296) ?_ hm
  unfold setPort
  repeat' first | exact Eq.refl _ | exact Kept.refl _ _ | intro _ | split | (with_reducible refine Kept.putPorts ?_ rfl)

theorem modPort_kept {m : Nat} {o s : State} {h : Nat} {f : Port → Port} (k : Kept m o s)
    (hm : 4294967296 ||| m = m) : Kept m o (modPort h f s) := by
  refine k.then (a := 4294967296) ?_ hm
  unfold modPort
  repeat' first | exact Eq.refl _ | (with_reducible first | apply setPort_kept | apply Kept.refl)

theorem showLimit_kept {m : Nat} {o s : State} {h : Nat} (k : Kept m o s)
    (hm : 1 ||| m = m) : Kept m o (showLimit h s) := by
  refine k.then (a := 1) ?_ hm
  unfold showLimit
  repeat' first | exact Eq.refl _ | (with_reducible first | apply setF_kept | apply Kept.refl)

theorem showPort_kept {m : Nat} {o s : State} {h : Nat} (k : Kept m o s)
    (hm : 1 ||| m = m) : Kept m o (showPort h s) := by
  refine k.then (a := 1) ?_ hm
  unfold showPort
  repeat' first | exact Eq.refl _ | (with_reducible first | apply setF_kept | apply Kept.refl)

theorem publishPort_kept {m : Nat} {o s : State} {h : Nat} (k : Kept m o s)
    (hm : 1 ||| m = m) : Kept m o (publishPort h s) := by
  refine k.then (a := 1) ?_ hm
  unfold publishPort
  repeat' first | exact Eq.refl _ | (with_reducible first | apply showLimit_kept | apply showPort_kept | apply Kept.refl)

theorem shadowLate_kept {m : Nat} {o s : State} {a : Nat} (k : Kept m o s)
    (hm : 1 ||| m = m) : Kept m o (shadowLate a s) := by
  refine k.then (a := 1) ?_ hm
  unfold shadowLate
  repeat' first | exact Eq.refl _ | (with_reducible first | apply setB_kept | apply Kept.forAll | apply Kept.refl) | intro _

theorem setHeadState_kept {m : Nat} {o s : State} {h x : Nat} (k : Kept m o s)
    (hm : 1 ||| m = m) : Kept m o (setHeadState h x s) := by
  refine k.then (a := 1) ?_ hm
  unfold setHeadState
  repeat' first | exact Eq.refl _ | (with_reducible first | apply setF_kept | apply Kept.refl)

theorem refreshHead_kept {m : Nat} {o s : State} {h : Nat} (k : Kept m o s)
    (hm : 1 ||| m = m) : Kept m o (refreshHead h s) := by
  refine k.then (a := 1) ?_ hm
  unfold refreshHead
  repeat' first | exact Eq.refl _ | (with_reducible first | apply setB_kept | apply setHeadState_kept | apply Kept.ite | apply Kept.refl)

theorem refreshDriven_kept {m : Nat} {o s : State} {n : Nat} (k : Kept m o s)
    (hm : 1 ||| m = m) : Kept m o (refreshDriven n s) := by
  refine k.then (a := 1) ?_ hm
  unfold refreshDriven
  repeat' first | exact Eq.refl _ | (with_reducible first | apply refreshHead_kept | apply Kept.ite | apply Kept.refl) | intro _ | split

theorem dropLine_kept {m : Nat} {o s : State} {h : Nat} {l : Option ScanLine} (k : Kept m o s)
    (hm : 577 ||| m = m) : Kept m o (dropLine h l s) := by
  refine k.then (a := 577) ?_ hm
  unfold dropLine
  repeat' first | exact Eq.refl _ | (with_reducible first | apply incSat_kept | apply modJob_kept | apply Kept.refl) | intro _ | split

theorem showGate_kept {m : Nat} {o s : State} {h : Nat} (k : Kept m o s)
    (hm : 4429185025 ||| m = m) : Kept m o (showGate h s) := by
  refine k.then (a := 4429185025) ?_ hm
  unfold showGate
  repeat' first
    | exact Eq.refl _
    | (with_reducible first
        | apply setB_kept | apply setPath_kept | apply setPort_kept | apply Kept.ite | apply Kept.refl)

theorem cutLine_kept {m : Nat} {o s : State} {h : Nat} {w : Option ScanLine} (k : Kept m o s)
    (hm : 8388608 ||| m = m) : Kept m o (cutLine h w s) := by
  refine k.then (a := 8388608) ?_ hm
  unfold cutLine
  repeat' first | exact Eq.refl _ | (with_reducible first | apply send_kept | apply Kept.refl) | intro _ | split

theorem dropLines_kept {m : Nat} {o s : State} {h : Nat} (k : Kept m o s)
    (hm : 4303356481 ||| m = m) : Kept m o (dropLines h s) := by
  refine k.then (a := 4303356481) ?_ hm
  unfold dropLines
  repeat' first | exact Eq.refl _ | (with_reducible first | apply cutLine_kept | apply dropLine_kept | apply modPort_kept | apply Kept.refl)

theorem endBurst_kept {m : Nat} {o s : State} {h : Nat} (k : Kept m o s)
    (hm : 4294967297 ||| m = m) : Kept m o (endBurst h s) := by
  refine k.then (a := 4294967297) ?_ hm
  unfold endBurst
  repeat' first | exact Eq.refl _ | (with_reducible first | apply modPort_kept | apply setB_kept | apply Kept.refl) | intro _ | split

theorem abortBurst_kept {m : Nat} {o s : State} {h : Nat} (k : Kept m o s)
    (hm : 4294967297 ||| m = m) : Kept m o (abortBurst h s) := by
  refine k.then (a := 4294967297) ?_ hm
  unfold abortBurst
  repeat' first
    | exact Eq.refl _
    | (with_reducible first
        | apply endBurst_kept | apply incSat_kept | apply modPort_kept | apply Kept.ite | apply Kept.refl)

theorem portSafe_kept {m : Nat} {o s : State} {h : Nat} (k : Kept m o s)
    (hm : 4437574209 ||| m = m) : Kept m o (portSafe h s) := by
  refine k.then (a := 4437574209) ?_ hm
  unfold portSafe
  repeat' first
    | exact Eq.refl _
    | (with_reducible first
        | apply dropLines_kept | apply endBurst_kept | apply modPort_kept | apply send_kept | apply setB_kept | apply showGate_kept | apply Kept.ite
        | apply Kept.refl)

theorem renderAgain_kept {m : Nat} {o s : State} {j : Nat} (k : Kept m o s)
    (hm : 268435457 ||| m = m) : Kept m o (renderAgain j s) := by
  refine k.then (a := 268435457) ?_ hm
  unfold renderAgain
  repeat' first
    | exact Eq.refl _ | (with_reducible first | apply showRenders_kept | apply Kept.refl) | intro _ | split
    | (with_reducible refine Kept.putRen ?_ rfl)

theorem moveJob_kept {m : Nat} {o s : State} {j a : Nat} (k : Kept m o s)
    (hm : 419431361 ||| m = m) : Kept m o (moveJob j a s) := by
  refine k.then (a := 419431361) ?_ hm
  unfold moveJob
  repeat' first
    | exact Eq.refl _
    | (with_reducible first
        | apply headLostJob_kept | apply modJob_kept | apply modProduct_kept | apply petDrop_kept | apply placeJobEvents_kept | apply quitPath_kept
        | apply renderAgain_kept | apply Kept.ite | apply Kept.doIf | apply Kept.refl)
    | intro _ | split | (with_reducible refine Kept.putSch ?_ rfl)

theorem coverByPartner_kept {m : Nat} {o s : State} {j k : Nat} (hk : Kept m o s)
    (hm : 419431361 ||| m = m) : Kept m o (coverByPartner j k s) := by
  refine hk.then (a := 419431361) ?_ hm
  unfold coverByPartner
  repeat' first
    | exact Eq.refl _
    | (with_reducible first
        | apply dropJob_kept | apply headLostJob_kept | apply modJob_kept | apply Kept.ite | apply Kept.refl)
    | intro _ | split

theorem toAlternate_kept {m : Nat} {o s : State} {j : Nat} (k : Kept m o s)
    (hm : 419431361 ||| m = m) : Kept m o (toAlternate j s) := by
  refine k.then (a := 419431361) ?_ hm
  unfold toAlternate
  repeat' first
    | exact Eq.refl _
    | (with_reducible first
        | apply coverByPartner_kept | apply headLostJob_kept | apply moveJob_kept | apply Kept.ite | apply Kept.refl)
    | intro _ | split

theorem headGoes_kept {m : Nat} {o s : State} {h st : Nat} (k : Kept m o s)
    (hm : 6338096065 ||| m = m) : Kept m o (headGoes h st s) := by
  refine k.then (a := 6338096065) ?_ hm
  unfold headGoes
  repeat' first
    | exact Eq.refl _
    | (with_reducible first
        | apply closeAllDone_kept | apply portSafe_kept | apply setHeadState_kept | apply stopFlagged_kept | apply tidy_kept | apply toAlternate_kept
        | apply Kept.ite | apply Kept.forAll | apply Kept.refl)
    | intro _ | split

end Sys2Proof.Machine
end

