-- ==== Sys2Proof/Laws/Backup.lean ====
section
/-! SUPPORT. For each operation and each meaning of Sys2Proof/Machine/Backup.lean: the parts of the state it may touch, and that it keeps the laws. -/

namespace Sys2Proof.Machine

set_option Elab.async false

theorem modMotor_kept {m : Nat} {o s : State} {c : Nat} {f : Motor → Motor} (k : Kept m o s)
    (hm : 17179869184 ||| m = m) : Kept m o (modMotor c f s) := by
  refine k.then (a := 17179869184) ?_ hm
  unfold modMotor
  repeat' first | exact Eq.refl _ | exact Kept.refl _ _ | intro _ | split | (with_reducible refine Kept.putMotors ?_ rfl)

theorem latchSettings_kept {m : Nat} {o s : State} {c : Nat} (k : Kept m o s)
    (hm : 17179869184 ||| m = m) : Kept m o (latchSettings c s) := by
  refine k.then (a := 17179869184) ?_ hm
  unfold latchSettings
  repeat' first | exact Eq.refl _ | (with_reducible first | apply modMotor_kept | apply Kept.refl)

theorem takeDuties_kept {m : Nat} {o s : State} {c : Nat} (k : Kept m o s)
    (hm : 17179869184 ||| m = m) : Kept m o (takeDuties c s) := by
  refine k.then (a := 17179869184) ?_ hm
  unfold takeDuties
  repeat' first | exact Eq.refl _ | (with_reducible first | apply modMotor_kept | apply Kept.refl)

theorem carrierTick_kept {m : Nat} {o s : State} {c : Nat} (k : Kept m o s)
    (hm : 17179869184 ||| m = m) : Kept m o (carrierTick c s) := by
  refine k.then (a := 17179869184) ?_ hm
  unfold carrierTick
  repeat' first
    | exact Eq.refl _
    | (with_reducible first
        | apply latchSettings_kept | apply modMotor_kept | apply takeDuties_kept | apply Kept.ite | apply Kept.refl)
    | intro _ | split

theorem carrierFollows_kept {m : Nat} {o s : State} {c : Nat} (k : Kept m o s)
    (hm : 17179869184 ||| m = m) : Kept m o (carrierFollows c s) := by
  refine k.then (a := 17179869184) ?_ hm
  unfold carrierFollows
  repeat' first | exact Eq.refl _ | (with_reducible first | apply latchSettings_kept | apply modMotor_kept | apply Kept.ite | apply Kept.refl)

theorem setBackup_kept {m : Nat} {o s : State} {c : Nat} {b : Option Backup} (k : Kept m o s)
    (hm : 8589934592 ||| m = m) : Kept m o (setBackup c b s) := by
  refine k.then (a := 8589934592) ?_ hm
  unfold setBackup
  repeat' first | exact Eq.refl _ | exact Kept.refl _ _ | intro _ | split | (with_reducible refine Kept.putBackups ?_ rfl)

theorem pgIssue_kept {m : Nat} {o s : State} {e cmd : Nat} {tgt : Word} (k : Kept m o s)
    (hm : 33554433 ||| m = m) : Kept m o (pgIssue e cmd tgt s) := by
  refine k.then (a := 33554433) ?_ hm
  unfold pgIssue
  repeat' first | exact Eq.refl _ | (with_reducible first | apply setCtl_kept | apply setF_kept | apply Kept.refl)

theorem stopHeld_kept {m : Nat} {o s : State} {j : Nat} (k : Kept m o s)
    (hm : 576 ||| m = m) : Kept m o (stopHeld j s) := by
  refine k.then (a := 576) ?_ hm
  unfold stopHeld
  repeat' first | exact Eq.refl _ | (with_reducible first | apply modJob_kept | apply Kept.ite | apply Kept.refl)

theorem buEnd_kept {m : Nat} {o s : State} {c : Nat} (k : Kept m o s)
    (hm : 8589934593 ||| m = m) : Kept m o (buEnd c s) := by
  refine k.then (a := 8589934593) ?_ hm
  unfold buEnd
  repeat' first
    | exact Eq.refl _ | (with_reducible first | apply setB_kept | apply setBackup_kept | apply setF_kept | apply Kept.refl) | intro _ | split

theorem buFail_kept {m : Nat} {o s : State} {c : Nat} (k : Kept m o s)
    (hm : 8589935169 ||| m = m) : Kept m o (buFail c s) := by
  refine k.then (a := 8589935169) ?_ hm
  unfold buFail
  repeat' first
    | exact Eq.refl _
    | (with_reducible first
        | apply buEnd_kept | apply setB_kept | apply stopHeld_kept | apply Kept.forAll | apply Kept.refl)
    | intro _ | split

theorem buCheck_kept {m : Nat} {o s : State} {c : Nat} (k : Kept m o s)
    (hm : 8589935169 ||| m = m) : Kept m o (buCheck c s) := by
  refine k.then (a := 8589935169) ?_ hm
  unfold buCheck
  repeat' first | exact Eq.refl _ | (with_reducible first | apply buFail_kept | apply Kept.ite | apply Kept.refl)

theorem buCheckAll_kept {m : Nat} {o s : State} (k : Kept m o s)
    (hm : 8589935169 ||| m = m) : Kept m o (buCheckAll s) := by
  refine k.then (a := 8589935169) ?_ hm
  unfold buCheckAll
  repeat' first | exact Eq.refl _ | (with_reducible first | apply buCheck_kept | apply Kept.forAll | apply Kept.refl) | intro _

theorem buStopping_kept {m : Nat} {o s : State} {c : Nat} {b : Backup} (k : Kept m o s)
    (hm : 8623489025 ||| m = m) : Kept m o (buStopping c b s) := by
  refine k.then (a := 8623489025) ?_ hm
  unfold buStopping
  repeat' first | exact Eq.refl _ | (with_reducible first | apply pgIssue_kept | apply setBackup_kept | apply setF_kept | apply Kept.refl)

theorem buRunUp_kept {m : Nat} {o s : State} {c : Nat} {b : Backup} (k : Kept m o s)
    (hm : 8623489025 ||| m = m) : Kept m o (buRunUp c b s) := by
  refine k.then (a := 8623489025) ?_ hm
  unfold buRunUp
  repeat' first
    | exact Eq.refl _
    | (with_reducible first
        | apply buEnd_kept | apply pgIssue_kept | apply setF_kept | apply Kept.ite | apply Kept.refl)

theorem buAdvance_kept {m : Nat} {o s : State} {c : Nat} (k : Kept m o s)
    (hm : 8623489025 ||| m = m) : Kept m o (buAdvance c s) := by
  refine k.then (a := 8623489025) ?_ hm
  unfold buAdvance
  repeat' first
    | exact Eq.refl _
    | (with_reducible first
        | apply buEnd_kept | apply buRunUp_kept | apply pgIssue_kept | apply setB_kept | apply setBackup_kept | apply setF_kept | apply Kept.ite
        | apply Kept.doIf | apply Kept.refl)
    | intro _ | split

theorem buAdvanceAll_kept {m : Nat} {o s : State} (k : Kept m o s)
    (hm : 8623489025 ||| m = m) : Kept m o (buAdvanceAll s) := by
  refine k.then (a := 8623489025) ?_ hm
  unfold buAdvanceAll
  repeat' first | exact Eq.refl _ | (with_reducible first | apply buAdvance_kept | apply Kept.forAll | apply Kept.refl) | intro _

theorem buTimeout_kept {m : Nat} {o s : State} {c : Nat} (k : Kept m o s)
    (hm : 8623489601 ||| m = m) : Kept m o (buTimeout c s) := by
  refine k.then (a := 8623489601) ?_ hm
  unfold buTimeout
  repeat' first
    | exact Eq.refl _
    | (with_reducible first
        | apply buRunUp_kept | apply incSat_kept | apply stopHeld_kept | apply Kept.ite | apply Kept.forAll | apply Kept.refl)
    | intro _ | split

theorem buCommand_kept {m : Nat} {o s : State} {line j : Nat} (k : Kept m o s)
    (hm : 8623489601 ||| m = m) : Kept m o (buCommand line j s) := by
  refine k.then (a := 8623489601) ?_ hm
  unfold buCommand
  repeat' first
    | exact Eq.refl _
    | (with_reducible first
        | apply buStopping_kept | apply incSat_kept | apply setB_kept | apply setBackup_kept | apply stopHeld_kept | apply Kept.ite | apply Kept.refl)
    | intro _ | split | (dsimp only)

theorem dataLate_kept {m : Nat} {o s : State} {h j : Nat} (k : Kept m o s)
    (hm : 8623489601 ||| m = m) : Kept m o (dataLate h j s) := by
  refine k.then (a := 8623489601) ?_ hm
  unfold dataLate
  repeat' first
    | exact Eq.refl _ | (with_reducible first | apply buCommand_kept | apply incSat_kept | apply Kept.ite | apply Kept.refl) | intro _ | split
    | (dsimp only)

theorem earlyLate_kept {m : Nat} {o s : State} {h j : Nat} (k : Kept m o s)
    (hm : 8623489601 ||| m = m) : Kept m o (earlyLate h j s) := by
  refine k.then (a := 8623489601) ?_ hm
  unfold earlyLate
  repeat' first
    | exact Eq.refl _ | (with_reducible first | apply dataLate_kept | apply modJob_kept | apply Kept.ite | apply Kept.refl) | intro _ | split

theorem outputsLow_kept {m : Nat} {o s : State} {c : Nat} (k : Kept m o s)
    (hm : 17179869184 ||| m = m) : Kept m o (outputsLow c s) := by
  refine k.then (a := 17179869184) ?_ hm
  unfold outputsLow
  repeat' first | exact Eq.refl _ | (with_reducible first | apply modMotor_kept | apply Kept.refl)

theorem clearQuantities_kept {m : Nat} {o s : State} {c : Nat} (k : Kept m o s)
    (hm : 1 ||| m = m) : Kept m o (clearQuantities c s) := by
  refine k.then (a := 1) ?_ hm
  unfold clearQuantities
  repeat' first | exact Eq.refl _ | (with_reducible first | apply State.setReg_kept | apply Kept.forAll | apply Kept.refl) | intro _

theorem toTripped_kept {m : Nat} {o s : State} {c cause : Nat} (k : Kept m o s)
    (hm : 25769804353 ||| m = m) : Kept m o (toTripped c cause s) := by
  refine k.then (a := 25769804353) ?_ hm
  unfold toTripped
  repeat' first
    | exact Eq.refl _
    | (with_reducible first
        | apply buCheck_kept | apply clearQuantities_kept | apply incSat_kept | apply outputsLow_kept | apply setB_kept | apply setF_kept
        | apply Kept.ite | apply Kept.refl)

theorem tripChannel_kept {m : Nat} {o s : State} {c cause : Nat} (k : Kept m o s)
    (hm : 25774391873 ||| m = m) : Kept m o (tripChannel c cause s) := by
  refine k.then (a := 25774391873) ?_ hm
  unfold tripChannel
  repeat' first | exact Eq.refl _ | (with_reducible first | apply raiseSimple_kept | apply toTripped_kept | apply Kept.ite | apply Kept.refl)

end Sys2Proof.Machine
end

