-- ==== Sys2Proof/Laws/Nozzles.lean ====
section
/-! SUPPORT. For each operation and each meaning of Sys2Proof/Machine/Nozzles.lean: the parts of the state it may touch, and that it keeps the laws. -/

namespace Sys2Proof.Machine

set_option Elab.async false

theorem setNozzle_kept {m : Nat} {o s : State} {h e : Nat} {b : Byte} (k : Kept m o s)
    (hm : 4294967296 ||| m = m) : Kept m o (setNozzle h e b s) := by
  refine k.then (a := 4294967296) ?_ hm
  unfold setNozzle
  repeat' first | exact Eq.refl _ | (with_reducible first | apply modPort_kept | apply Kept.refl)

theorem showNozzles_kept {m : Nat} {o s : State} {h : Nat} (k : Kept m o s)
    (hm : 4587521 ||| m = m) : Kept m o (showNozzles h s) := by
  refine k.then (a := 4587521) ?_ hm
  unfold showNozzles
  repeat' first | exact Eq.refl _ | (with_reducible first | apply raiseSimple_kept | apply setF_kept | apply Kept.ite | apply Kept.refl)

theorem showPair_kept {m : Nat} {o s : State} {h : Nat} (k : Kept m o s)
    (hm : 4587521 ||| m = m) : Kept m o (showPair h s) := by
  refine k.then (a := 4587521) ?_ hm
  unfold showPair
  repeat' first | exact Eq.refl _ | (with_reducible first | apply showNozzles_kept | apply Kept.forAll | apply Kept.refl) | intro _

theorem putPending_kept {m : Nat} {o s : State} {sw : Word} {h : Nat} (k : Kept m o s)
    (hm : 4294967297 ||| m = m) : Kept m o (putPending sw h s) := by
  refine k.then (a := 4294967297) ?_ hm
  unfold putPending
  repeat' first | exact Eq.refl _ | (with_reducible first | apply modPort_kept | apply setB_kept | apply Kept.refl)

theorem usePending_kept {m : Nat} {o s : State} {h : Nat} (k : Kept m o s)
    (hm : 4294967297 ||| m = m) : Kept m o (usePending h s) := by
  refine k.then (a := 4294967297) ?_ hm
  unfold usePending
  repeat' first | exact Eq.refl _ | (with_reducible first | apply modPort_kept | apply setB_kept | apply Kept.refl) | intro _ | split

theorem releaseView_kept {m : Nat} {o s : State} {h : Nat} (k : Kept m o s)
    (hm : 4294967297 ||| m = m) : Kept m o (releaseView h s) := by
  refine k.then (a := 4294967297) ?_ hm
  unfold releaseView
  repeat' first
    | exact Eq.refl _
    | (with_reducible first
        | apply modPort_kept | apply putPending_kept | apply usePending_kept | apply Kept.ite | apply Kept.forAll | apply Kept.refl)
    | intro _ | split

theorem tableChanged_kept {m : Nat} {o s0 : State} {h : Nat} (k : Kept m o s0)
    (hm : 4299554817 ||| m = m) : Kept m o (tableChanged h s0) := by
  refine k.then (a := 4299554817) ?_ hm
  unfold tableChanged
  repeat' first
    | exact Eq.refl _
    | (with_reducible first
        | apply modPort_kept | apply putPending_kept | apply releaseView_kept | apply showPair_kept | apply Kept.ite | apply Kept.forAll
        | apply Kept.refl)
    | intro _

theorem fixView_kept {m : Nat} {o s : State} {h : Nat} {x : Job} (k : Kept m o s)
    (hm : 4294967296 ||| m = m) : Kept m o (fixView h x s) := by
  refine k.then (a := 4294967296) ?_ hm
  unfold fixView
  repeat' first | exact Eq.refl _ | (with_reducible first | apply modPort_kept | apply Kept.ite | apply Kept.refl)

theorem takeView_kept {m : Nat} {o s : State} {h j : Nat} (k : Kept m o s)
    (hm : 4294967297 ||| m = m) : Kept m o (takeView h j s) := by
  refine k.then (a := 4294967297) ?_ hm
  unfold takeView
  repeat' first
    | exact Eq.refl _
    | (with_reducible first
        | apply fixView_kept | apply modPort_kept | apply releaseView_kept | apply usePending_kept | apply Kept.ite | apply Kept.forAll
        | apply Kept.refl)
    | intro _ | split

end Sys2Proof.Machine
end

