-- ==== Sys2Proof/Laws/Faults.lean ====
section
/-! SUPPORT. For each operation and each meaning of Sys2Proof/Machine/Faults.lean: the parts of the state it may touch, and that it keeps the laws. -/

namespace Sys2Proof.Machine

set_option Elab.async false

theorem persist_kept {m : Nat} {o s : State} (k : Kept m o s) (hm : 8256 ||| m = m) : Kept m o (persist s) := by
  unfold persist
  split
  · exact k
  refine k.then (a := 8256) ⟨rfl, fun h => ?_, fun p hp => ?_⟩ hm
  · exact { h with
      ledgersSaved := by
        intro x hx l hl
        obtain rfl := Option.mem_some.mp hx
        obtain ⟨n, -, rfl⟩ := List.mem_map.mp hl
        exact ledger_law n h }
  · cases p <;> first | exact absurd hp (by decide) | rfl | exact ⟨rfl, rfl⟩ | exact ⟨rfl, rfl, rfl⟩

theorem showWindows_kept {m : Nat} {o s : State} (k : Kept m o s)
    (hm : 1 ||| m = m) : Kept m o (showWindows s) := by
  refine k.then (a := 1) ?_ hm
  unfold showWindows
  repeat' first | exact Eq.refl _ | (with_reducible first | apply setF_kept | apply Kept.ite | apply Kept.refl)

theorem showArming_kept {m : Nat} {o s : State} {n : Nat} (k : Kept m o s)
    (hm : 1 ||| m = m) : Kept m o (showArming n s) := by
  refine k.then (a := 1) ?_ hm
  unfold showArming
  repeat' first | exact Eq.refl _ | (with_reducible first | apply setB_kept | apply Kept.refl)

theorem enterLineSafe_kept {m : Nat} {o s : State} {src n : Nat} (k : Kept m o s)
    (hm : 2026355649 ||| m = m) : Kept m o (enterLineSafe src n s) := by
  refine k.then (a := 2026355649) ?_ hm
  unfold enterLineSafe
  repeat' first
    | exact Eq.refl _
    | (with_reducible first
        | apply closeProduct_kept | apply lineStateChanged_kept | apply notStarted_kept | apply setB_kept | apply setF_kept | apply showArming_kept
        | apply stopFlagged_kept | apply tidy_kept | apply trackRejs_kept | apply Kept.ite | apply Kept.doIf | apply Kept.forAll | apply Kept.refl)
    | intro _ | split | (with_reducible refine Kept.putSch ?_ rfl)

theorem raiseFault_kept {m : Nat} {o s : State} {src base detail : Nat} {shared : Bool} {served : List Nat} (k : Kept m o s)
    (hm : 2026355649 ||| m = m) : Kept m o (raiseFault src base detail shared served s) := by
  refine k.then (a := 2026355649) ?_ hm
  unfold raiseFault
  repeat' first
    | exact Eq.refl _
    | (with_reducible first
        | apply enterLineSafe_kept | apply raiseSimple_kept | apply Kept.ite | apply Kept.forAll | apply Kept.refl)
    | intro _

theorem raiseShared_kept {m : Nat} {o s : State} {src base detail : Nat} (k : Kept m o s)
    (hm : 2026355649 ||| m = m) : Kept m o (raiseShared src base detail s) := by
  refine k.then (a := 2026355649) ?_ hm
  unfold raiseShared
  repeat' first | exact Eq.refl _ | (with_reducible first | apply raiseFault_kept | apply Kept.refl)

theorem deviceSafe_kept {m : Nat} {o s : State} {src : Nat} (k : Kept m o s)
    (hm : 32091126721 ||| m = m) : Kept m o (deviceSafe src s) := by
  refine k.then (a := 32091126721) ?_ hm
  unfold deviceSafe
  repeat' first
    | exact Eq.refl _
    | (with_reducible first
        | apply enterLineSafe_kept | apply persist_kept | apply portSafe_kept | apply setB_kept | apply showPin_kept | apply tripChannel_kept
        | apply Kept.forAll | apply Kept.refl)
    | intro _

theorem raiseDeviceSafe_kept {m : Nat} {o s : State} {src : Nat} {escalated : Bool} {detail : Nat} (k : Kept m o s)
    (hm : 32091126721 ||| m = m) : Kept m o (raiseDeviceSafe src escalated detail s) := by
  refine k.then (a := 32091126721) ?_ hm
  unfold raiseDeviceSafe
  repeat' first | exact Eq.refl _ | (with_reducible first | apply deviceSafe_kept | apply raiseSimple_kept | apply Kept.refl)

theorem endTakeover_kept {m : Nat} {o s : State} {h : Nat} (k : Kept m o s)
    (hm : 134217729 ||| m = m) : Kept m o (endTakeover h s) := by
  refine k.then (a := 134217729) ?_ hm
  unfold endTakeover
  repeat' first | exact Eq.refl _ | (with_reducible first | apply setPath_kept | apply showWindows_kept | apply Kept.refl)

theorem unbindChamois_kept {m : Nat} {o s : State} {h : Nat} (k : Kept m o s)
    (hm : 1 ||| m = m) : Kept m o (unbindChamois h s) := by
  refine k.then (a := 1) ?_ hm
  unfold unbindChamois
  repeat' first | exact Eq.refl _ | (with_reducible first | apply setB_kept | apply setF_kept | apply Kept.ite | apply Kept.refl)

theorem abandonJob_kept {m : Nat} {o s : State} {h : Nat} (k : Kept m o s)
    (hm : 138912449 ||| m = m) : Kept m o (abandonJob h s) := by
  refine k.then (a := 138912449) ?_ hm
  unfold abandonJob
  repeat' first
    | exact Eq.refl _
    | (with_reducible first
        | apply discardColumns_kept | apply modJob_kept | apply setPath_kept | apply showPath_kept | apply tidy_kept | apply Kept.refl)
    | intro _ | split

theorem headLostWith_kept {m : Nat} {o s : State} {h : Nat} (k : Kept m o s)
    (hm : 6338096065 ||| m = m) : Kept m o (headLostWith h s) := by
  refine k.then (a := 6338096065) ?_ hm
  unfold headLostWith
  repeat' first
    | exact Eq.refl _
    | (with_reducible first
        | apply abandonJob_kept | apply headGoes_kept | apply setPath_kept | apply unbindChamois_kept | apply Kept.refl)

theorem takeoverLost_kept {m : Nat} {o s : State} {h : Nat} (k : Kept m o s)
    (hm : 6338096065 ||| m = m) : Kept m o (takeoverLost h s) := by
  refine k.then (a := 6338096065) ?_ hm
  unfold takeoverLost
  repeat' first | exact Eq.refl _ | (with_reducible first | apply endTakeover_kept | apply headLostWith_kept | apply setB_kept | apply Kept.refl)

theorem copyMemories_kept {m : Nat} {o s : State} {a b : Nat} (k : Kept m o s)
    (hm : 68836917249 ||| m = m) : Kept m o (copyMemories a b s) := by
  refine k.then (a := 68836917249) ?_ hm
  unfold copyMemories
  repeat' first
    | exact Eq.refl _ | (with_reducible first | apply modCore_kept | apply Kept.refl) | intro _ | split | (with_reducible refine Kept.putMem ?_ rfl)

theorem startTakeover_kept {m : Nat} {o s : State} {h n c : Nat} (k : Kept m o s)
    (hm : 73274491457 ||| m = m) : Kept m o (startTakeover h n c s) := by
  refine k.then (a := 73274491457) ?_ hm
  unfold startTakeover
  repeat' first
    | exact Eq.refl _
    | (with_reducible first
        | apply copyMemories_kept | apply cutLine_kept | apply dropLine_kept | apply incSat_kept | apply modPort_kept | apply setB_kept
        | apply setEngState_kept | apply setF_kept | apply setHeadState_kept | apply setPath_kept | apply showGate_kept | apply showWindows_kept
        | apply Kept.ite | apply Kept.refl)

theorem recordSeqFault_kept {m : Nat} {o s : State} {n fsrc cause : Nat} (k : Kept m o s)
    (hm : 1 ||| m = m) : Kept m o (recordSeqFault n fsrc cause s) := by
  refine k.then (a := 1) ?_ hm
  unfold recordSeqFault
  repeat' first | exact Eq.refl _ | (with_reducible first | apply setF_kept | apply Kept.refl)

theorem seqFault_kept {m : Nat} {o s : State} {n fsrc cause : Nat} (k : Kept m o s)
    (hm : 75158236097 ||| m = m) : Kept m o (seqFault n fsrc cause s) := by
  refine k.then (a := 75158236097) ?_ hm
  unfold seqFault
  repeat' first
    | exact Eq.refl _
    | (with_reducible first
        | apply headLostWith_kept | apply modCore_kept | apply raiseSimple_kept | apply recordSeqFault_kept | apply setB_kept | apply setEngState_kept
        | apply startTakeover_kept | apply takeoverLost_kept | apply Kept.ite | apply Kept.refl)
    | intro _ | split | (dsimp only)

theorem logWord_kept {m : Nat} {o s : State} {bank word agent syndrome : Nat} {ue : Bool} (k : Kept m o s)
    (hm : 1 ||| m = m) : Kept m o (logWord bank word agent syndrome ue s) := by
  refine k.then (a := 1) ?_ hm
  unfold logWord
  repeat' first | exact Eq.refl _ | (with_reducible first | apply setB_kept | apply setF_kept | apply Kept.ite | apply Kept.refl)

theorem logError_kept {m : Nat} {o s : State} {bank agent : Nat} {ue : Bool} (k : Kept m o s)
    (hm : 1048577 ||| m = m) : Kept m o (logError bank agent ue s) := by
  refine k.then (a := 1048577) ?_ hm
  unfold logError
  repeat' first | exact Eq.refl _ | (with_reducible first | apply drawFree_kept | apply logWord_kept | apply Kept.refl)

theorem logFlaw_kept {m : Nat} {o s : State} {f : Flaw} {agent : Nat} (k : Kept m o s)
    (hm : 1048577 ||| m = m) : Kept m o (logFlaw f agent s) := by
  refine k.then (a := 1048577) ?_ hm
  unfold logFlaw
  repeat' first | exact Eq.refl _ | (with_reducible first | apply drawFree_kept | apply logWord_kept | apply Kept.refl) | intro _ | split

theorem raiseUe_kept {m : Nat} {o s : State} {bank : Nat} (k : Kept m o s)
    (hm : 2026355649 ||| m = m) : Kept m o (raiseUe bank s) := by
  refine k.then (a := 2026355649) ?_ hm
  unfold raiseUe
  repeat' first | exact Eq.refl _ | (with_reducible first | apply raiseFault_kept | apply Kept.refl)

theorem memUe_kept {m : Nat} {o s : State} {bank agent : Nat} (k : Kept m o s)
    (hm : 2027404225 ||| m = m) : Kept m o (memUe bank agent s) := by
  refine k.then (a := 2027404225) ?_ hm
  unfold memUe
  repeat' first | exact Eq.refl _ | (with_reducible first | apply incSat_kept | apply logError_kept | apply raiseUe_kept | apply Kept.refl)

theorem memCe_kept {m : Nat} {o s : State} {bank agent : Nat} (k : Kept m o s)
    (hm : 1048577 ||| m = m) : Kept m o (memCe bank agent s) := by
  refine k.then (a := 1048577) ?_ hm
  unfold memCe
  repeat' first | exact Eq.refl _ | (with_reducible first | apply incSat_kept | apply logError_kept | apply Kept.refl)

theorem countHit_kept {m : Nat} {o s : State} {w : Nat} (k : Kept m o s)
    (hm : 68724064257 ||| m = m) : Kept m o (countHit w s) := by
  refine k.then (a := 68724064257) ?_ hm
  unfold countHit
  repeat' first
    | exact Eq.refl _
    | (with_reducible first
        | apply incSat_kept | apply raiseSimple_kept | apply Kept.ite | apply Kept.refl)
    | intro _ | split | (with_reducible refine Kept.putMem ?_ rfl)

theorem readWord_kept {m : Nat} {o s : State} {w agent : Nat} (k : Kept m o s)
    (hm : 70746880961 ||| m = m) : Kept m o (readWord w agent s) := by
  refine k.then (a := 70746880961) ?_ hm
  unfold readWord
  repeat' first
    | exact Eq.refl _
    | (with_reducible first
        | apply clearFlaw_kept | apply countHit_kept | apply incSat_kept | apply logFlaw_kept | apply raiseUe_kept | apply Kept.ite | apply Kept.doIf
        | apply Kept.refl)
    | intro _ | split

theorem readWords_kept {m : Nat} {o s : State} {l : List Nat} {agent : Nat} (k : Kept m o s)
    (hm : 70746880961 ||| m = m) : Kept m o (readWords l agent s) := by
  refine k.then (a := 70746880961) ?_ hm
  unfold readWords
  repeat' first | exact Eq.refl _ | (with_reducible first | apply readWord_kept | apply Kept.forAll | apply Kept.refl) | intro _

theorem ddrUe_kept {m : Nat} {o s : State} {area : Nat} (k : Kept m o s)
    (hm : 2026355649 ||| m = m) : Kept m o (ddrUe area s) := by
  refine k.then (a := 2026355649) ?_ hm
  unfold ddrUe
  repeat' first | exact Eq.refl _ | (with_reducible first | apply incSat_kept | apply raiseFault_kept | apply Kept.refl)

theorem flashFault_kept {m : Nat} {o s : State} (k : Kept m o s)
    (hm : 5636097 ||| m = m) : Kept m o (flashFault s) := by
  refine k.then (a := 5636097) ?_ hm
  unfold flashFault
  repeat' first | exact Eq.refl _ | (with_reducible first | apply drawFree_kept | apply raiseSimple_kept | apply Kept.refl)

end Sys2Proof.Machine
end

