-- ==== Sys2Proof/Laws/Banks.lean ====
section
/-! SUPPORT. For each operation and each meaning of Sys2Proof/Machine/Banks.lean: the parts of the state it may touch, and that it keeps the laws. -/

namespace Sys2Proof.Machine

set_option Elab.async false

theorem mergeInto_wf {c : List Host.Cell} {w : Nat} {l : List (Option Byte)} (h : Memory.wf c = true) :
    Memory.wf (mergeInto c w l) = true := by
  unfold mergeInto
  generalize l.zipIdx = z
  induction z generalizing c with
  | nil => exact h
  | cons x t ih =>
    refine ih ?_
    dsimp only
    split
    · exact cellPut_wf _ _ h
    · exact h

theorem storeBytes_kept {m : Nat} {o s : State} {w : Nat} {l : List (Option Byte)} (k : Kept m o s) (hm : 206158430208 ||| m = m) :
    Kept m o (storeBytes w l s) := by
  refine k.then (a := 206158430208) ?_ hm
  unfold storeBytes
  split
  · exact Kept.memory (Kept.refl _ _) rfl mergeInto_wf id (.inr rfl)
  · exact Kept.refl _ _

theorem takeEntry_kept {msk : Nat} {o s : State} {m : Merge} (k : Kept msk o s) (hm : 206158430208 ||| msk = msk) : Kept msk o (takeEntry m s) :=
  k.then (a := 206158430208) (Kept.memory (storeBytes_kept (Kept.refl _ _) rfl) rfl id id) hm

theorem drain_kept {msk : Nat} {o s : State} {m : Merge} (k : Kept msk o s) (hm : 208185834433 ||| msk = msk) : Kept msk o (drain m s) := by
  refine k.then (a := 208185834433) ?_ hm
  unfold drain
  dsimp only
  refine Kept.ite (setFlaw_kept (takeEntry_kept (readWord_kept (Kept.refl _ _) rfl) rfl) rfl)
    (bankWrite_kept (takeEntry_kept (Kept.doIf (Kept.refl _ _) fun t => readWord_kept (Kept.refl _ _) rfl) rfl) rfl)

theorem writeWord_kept {m : Nat} {o s : State} {w : Nat} {l : List (Option Byte)} (k : Kept m o s) (hm : 208185834433 ||| m = m) :
    Kept m o (writeWord w l s) := by
  refine k.then (a := 208185834433) ?_ hm
  unfold writeWord
  split
  · exact bankWrite_kept (takeEntry_kept (Kept.refl _ _) rfl) rfl
  · split <;> dsimp only
    · split
      · exact drain_kept (Kept.upd (Kept.refl _ _) rfl) rfl
      · exact Kept.upd (Kept.refl _ _) rfl
    · refine Kept.memory ?_ rfl id id
      split
      · split
        · exact drain_kept (Kept.refl _ _) rfl
        · exact Kept.refl _ _
      · exact Kept.refl _ _

theorem fetched_kept {m : Nat} {o s : State} {e : Engine} (k : Kept m o s)
    (hm : 70864321473 ||| m = m) : Kept m o (fetched e s) := by
  refine k.then (a := 70864321473) ?_ hm
  unfold fetched
  repeat' first | exact Eq.refl _ | (with_reducible first | apply modCore_kept | apply readWord_kept | apply Kept.refl)

theorem engineRead_kept {m : Nat} {o s : State} {e : Engine} {words : List Nat} (k : Kept m o s)
    (hm : 70746880961 ||| m = m) : Kept m o (engineRead e words s) := by
  refine k.then (a := 70746880961) ?_ hm
  unfold engineRead
  repeat' first | exact Eq.refl _ | (with_reducible first | apply memUe_kept | apply readWords_kept | apply Kept.ite | apply Kept.refl)

end Sys2Proof.Machine
end

