-- ==== Sys2Proof/Laws/Control.lean ====
section
/-! SUPPORT. For each operation and each meaning of Sys2Proof/Machine/Control.lean: the parts of the state it may touch, and that it keeps the laws. -/

namespace Sys2Proof.Machine

set_option Elab.async false

theorem modCtl_kept {m : Nat} {o s : State} {n : Nat} {f : Ctl → Ctl} (k : Kept m o s)
    (hm : 33554432 ||| m = m) : Kept m o (modCtl n f s) := by
  refine k.then (a := 33554432) ?_ hm
  unfold modCtl
  repeat' first | exact Eq.refl _ | (with_reducible first | apply setCtl_kept | apply Kept.refl)

theorem deliver_kept {m : Nat} {o s : State} {p : Nat → Nat → Nat → Bool} (k : Kept m o s)
    (hm : 33554432 ||| m = m) : Kept m o (deliver p s) := by
  refine k.then (a := 33554432) ?_ hm
  unfold deliver
  repeat' first | exact Eq.refl _ | (with_reducible first | apply modCtl_kept | apply Kept.ite | apply Kept.forAll | apply Kept.refl) | intro _

theorem commitY_kept {m : Nat} {o s : State} {n i : Nat} {v : Word} (k : Kept m o s)
    (hm : 33554433 ||| m = m) : Kept m o (commitY n i v s) := by
  refine k.then (a := 33554433) ?_ hm
  unfold commitY
  repeat' first | exact Eq.refl _ | (with_reducible first | apply State.setReg_kept | apply deliver_kept | apply Kept.refl)

theorem sourceEvent_kept {m : Nat} {o s : State} {src idx : Nat} (k : Kept m o s)
    (hm : 33554432 ||| m = m) : Kept m o (sourceEvent src idx s) := by
  refine k.then (a := 33554432) ?_ hm
  unfold sourceEvent
  repeat' first | exact Eq.refl _ | (with_reducible first | apply modCtl_kept | apply Kept.ite | apply Kept.forAll | apply Kept.refl) | intro _

theorem cycleEnd_kept {m : Nat} {o s : State} {n : Nat} (k : Kept m o s)
    (hm : 33554432 ||| m = m) : Kept m o (cycleEnd n s) := by
  refine k.then (a := 33554432) ?_ hm
  unfold cycleEnd
  repeat' first | exact Eq.refl _ | (with_reducible first | apply sourceEvent_kept | apply Kept.refl)

theorem ctlIllegal_kept {msk : Nat} {o s : State} {m : Nat} (k : Kept msk o s)
    (hm : 33554432 ||| msk = msk) : Kept msk o (ctlIllegal m s) := by
  refine k.then (a := 33554432) ?_ hm
  unfold ctlIllegal
  repeat' first | exact Eq.refl _ | (with_reducible first | apply modCtl_kept | apply Kept.forAll | apply Kept.refl) | intro _

theorem pgTake_kept {m : Nat} {o s : State} {n : Nat} (k : Kept m o s)
    (hm : 33554433 ||| m = m) : Kept m o (pgTake n s) := by
  refine k.then (a := 33554433) ?_ hm
  unfold pgTake
  repeat' first
    | exact Eq.refl _
    | (with_reducible first
        | apply State.setReg_kept | apply setCtl_kept | apply setF_kept | apply Kept.ite | apply Kept.refl)
    | intro _ | split | (dsimp only)

theorem pgAdvance_kept {m : Nat} {o s0 : State} {n t : Nat} (k : Kept m o s0)
    (hm : 33554433 ||| m = m) : Kept m o (pgAdvance n t s0) := by
  refine k.then (a := 33554433) ?_ hm
  unfold pgAdvance
  repeat' first
    | exact Eq.refl _
    | (with_reducible first
        | apply State.setReg_kept | apply pgTake_kept | apply setF_kept | apply Kept.ite | apply Kept.refl)

theorem pgCommand_kept {m : Nat} {o s : State} {n cmd : Nat} (k : Kept m o s)
    (hm : 33554433 ||| m = m) : Kept m o (pgCommand n cmd s) := by
  refine k.then (a := 33554433) ?_ hm
  unfold pgCommand
  repeat' first | exact Eq.refl _ | (with_reducible first | apply pgIssue_kept | apply setB_kept | apply Kept.ite | apply Kept.refl)

theorem manTakesY_kept {m : Nat} {o s : State} {n : Nat} (k : Kept m o s)
    (hm : 1 ||| m = m) : Kept m o (manTakesY n s) := by
  refine k.then (a := 1) ?_ hm
  unfold manTakesY
  repeat' first | exact Eq.refl _ | (with_reducible first | apply State.setReg_kept | apply Kept.forAll | apply Kept.refl) | intro _

theorem safeEntry_kept {m : Nat} {o s : State} {n cause : Nat} (k : Kept m o s)
    (hm : 38141953 ||| m = m) : Kept m o (safeEntry n cause s) := by
  refine k.then (a := 38141953) ?_ hm
  unfold safeEntry
  repeat' first
    | exact Eq.refl _
    | (with_reducible first
        | apply incSat_kept | apply modCtl_kept | apply raiseSimple_kept | apply setF_kept | apply Kept.refl)

theorem modeChange_kept {m : Nat} {o s : State} {n due : Nat} (k : Kept m o s)
    (hm : 38141953 ||| m = m) : Kept m o (modeChange n due s) := by
  refine k.then (a := 38141953) ?_ hm
  unfold modeChange
  repeat' first
    | exact Eq.refl _
    | (with_reducible first
        | apply manTakesY_kept | apply safeEntry_kept | apply setCtl_kept | apply setF_kept | apply Kept.ite | apply Kept.refl)
    | intro _ | split

theorem hardwareOutputs_kept {m : Nat} {o s : State} {n : Nat} (k : Kept m o s)
    (hm : 33554433 ||| m = m) : Kept m o (hardwareOutputs n s) := by
  refine k.then (a := 33554433) ?_ hm
  unfold hardwareOutputs
  repeat' first
    | exact Eq.refl _
    | (with_reducible first
        | apply commitY_kept | apply setCtl_kept | apply Kept.ite | apply Kept.forAll | apply Kept.refl)
    | intro _ | split

theorem safeCause_kept {m : Nat} {o s : State} {n cause : Nat} (k : Kept m o s)
    (hm : 33554433 ||| m = m) : Kept m o (safeCause n cause s) := by
  refine k.then (a := 33554433) ?_ hm
  unfold safeCause
  repeat' first | exact Eq.refl _ | (with_reducible first | apply incSat_kept | apply modCtl_kept | apply Kept.ite | apply Kept.refl)

theorem overrun_kept {m : Nat} {o s : State} {n : Nat} (k : Kept m o s)
    (hm : 117440513 ||| m = m) : Kept m o (overrun n s) := by
  refine k.then (a := 117440513) ?_ hm
  unfold overrun
  repeat' first
    | exact Eq.refl _
    | (with_reducible first
        | apply cycleEnd_kept | apply incSat_kept | apply modCore_kept | apply modCtl_kept | apply noteOverrun_kept | apply safeCause_kept
        | apply setEngState_kept | apply Kept.ite | apply Kept.refl)

theorem latchInput_kept {m : Nat} {o s : State} {n i : Nat} (k : Kept m o s)
    (hm : 34603008 ||| m = m) : Kept m o (latchInput n i s) := by
  refine k.then (a := 34603008) ?_ hm
  unfold latchInput
  repeat' first
    | exact Eq.refl _ | (with_reducible first | apply drawFree_kept | apply modCtl_kept | apply Kept.ite | apply Kept.refl) | intro _ | split

theorem startCycle_kept {m : Nat} {o s : State} {n : Nat} (k : Kept m o s)
    (hm : 117440513 ||| m = m) : Kept m o (startCycle n s) := by
  refine k.then (a := 117440513) ?_ hm
  unfold startCycle
  repeat' first | exact Eq.refl _ | (with_reducible first | apply modCore_kept | apply modCtl_kept | apply setEngState_kept | apply Kept.refl)

theorem takeTrigger_kept {m : Nat} {o s : State} {n : Nat} (k : Kept m o s)
    (hm : 8713011777 ||| m = m) : Kept m o (takeTrigger n s) := by
  refine k.then (a := 8713011777) ?_ hm
  unfold takeTrigger
  repeat' first
    | exact Eq.refl _
    | (with_reducible first
        | apply buAdvanceAll_kept | apply buCheckAll_kept | apply cycleEnd_kept | apply drawFree_kept | apply hardwareOutputs_kept
        | apply latchInput_kept | apply modCore_kept | apply modCtl_kept | apply modeChange_kept | apply overrun_kept | apply pgAdvance_kept
        | apply startCycle_kept | apply Kept.ite | apply Kept.doIf | apply Kept.forAll | apply Kept.refl)
    | intro _ | split

theorem sampleTrigger_kept {m : Nat} {o s : State} {n : Nat} (k : Kept m o s)
    (hm : 8713011777 ||| m = m) : Kept m o (sampleTrigger n s) := by
  refine k.then (a := 8713011777) ?_ hm
  unfold sampleTrigger
  repeat' first
    | exact Eq.refl _
    | (with_reducible first
        | apply incSat_kept | apply modCtl_kept | apply takeTrigger_kept | apply Kept.ite | apply Kept.refl)
    | intro _ | split

theorem forceSafe_kept {m : Nat} {o s : State} {n : Nat} (k : Kept m o s)
    (hm : 33554433 ||| m = m) : Kept m o (forceSafe n s) := by
  refine k.then (a := 33554433) ?_ hm
  unfold forceSafe
  repeat' first | exact Eq.refl _ | (with_reducible first | apply safeCause_kept | apply Kept.ite | apply Kept.refl)

theorem clearSafe_kept {m : Nat} {o s : State} {n : Nat} (k : Kept m o s)
    (hm : 33554432 ||| m = m) : Kept m o (clearSafe n s) := by
  refine k.then (a := 33554432) ?_ hm
  unfold clearSafe
  repeat' first | exact Eq.refl _ | (with_reducible first | apply modCtl_kept | apply Kept.ite | apply Kept.refl)

theorem trigWrite_kept {m : Nat} {o s : State} {n v : Nat} (k : Kept m o s)
    (hm : 33554435 ||| m = m) : Kept m o (trigWrite n v s) := by
  refine k.then (a := 33554435) ?_ hm
  unfold trigWrite
  repeat' first
    | exact Eq.refl _
    | (with_reducible first
        | apply modCtl_kept | apply plainWrite_kept | apply setB_kept | apply Kept.ite | apply Kept.refl)

theorem xcfgWrite_kept {m : Nat} {o s : State} {n i v : Nat} (k : Kept m o s)
    (hm : 3 ||| m = m) : Kept m o (xcfgWrite n i v s) := by
  refine k.then (a := 3) ?_ hm
  unfold xcfgWrite
  repeat' first | exact Eq.refl _ | (with_reducible first | apply plainWrite_kept | apply setB_kept | apply Kept.ite | apply Kept.refl)

theorem ceConfigWrite_kept {m : Nat} {o s : State} {a v : Nat} (k : Kept m o s)
    (hm : 33554435 ||| m = m) : Kept m o (ceConfigWrite a v s) := by
  refine k.then (a := 33554435) ?_ hm
  unfold ceConfigWrite
  repeat' first | exact Eq.refl _ | (with_reducible first | apply trigWrite_kept | apply xcfgWrite_kept | apply Kept.refl) | intro _ | split

theorem execCeConfigWrite_runs {addr value : Nat} {s : State} : Runs 33554435 s (execCeConfigWrite addr value s) := by
  unfold execCeConfigWrite
  refine Runs.next ?_
  repeat' first | exact Eq.refl _ | (with_reducible first | apply ceConfigWrite_kept | apply hostAccess_kept | apply Kept.refl) | intro _

theorem execCeKWrite_runs {addr value : Nat} {s : State} : Runs 3 s (execCeKWrite addr value s) := by
  unfold execCeKWrite
  refine Runs.next ?_
  repeat' first
    | exact Eq.refl _
    | (with_reducible first
        | apply hostAccess_kept | apply plainWrite_kept | apply Kept.ite | apply Kept.refl)
    | intro _

theorem ceModeWrite_kept {m : Nat} {o s : State} {n v : Nat} (k : Kept m o s)
    (hm : 33554435 ||| m = m) : Kept m o (ceModeWrite n v s) := by
  refine k.then (a := 33554435) ?_ hm
  unfold ceModeWrite
  repeat' first | exact Eq.refl _ | (with_reducible first | apply modCtl_kept | apply plainWrite_kept | apply Kept.ite | apply Kept.refl)

theorem execCeModeWrite_runs {n value : Nat} {s : State} : Runs 33554435 s (execCeModeWrite n value s) := by
  unfold execCeModeWrite
  refine Runs.next ?_
  repeat' first | exact Eq.refl _ | (with_reducible first | apply ceModeWrite_kept | apply hostAccess_kept | apply Kept.refl) | intro _

theorem hostxWrite_kept {m : Nat} {o s : State} {n i v : Nat} (k : Kept m o s)
    (hm : 33554435 ||| m = m) : Kept m o (hostxWrite n i v s) := by
  refine k.then (a := 33554435) ?_ hm
  unfold hostxWrite
  repeat' first | exact Eq.refl _ | (with_reducible first | apply modCtl_kept | apply plainWrite_kept | apply Kept.ite | apply Kept.refl)

theorem execCeHostxWrite_runs {n i value : Nat} {s : State} : Runs 33554435 s (execCeHostxWrite n i value s) := by
  unfold execCeHostxWrite
  refine Runs.next ?_
  repeat' first | exact Eq.refl _ | (with_reducible first | apply hostAccess_kept | apply hostxWrite_kept | apply Kept.refl) | intro _

theorem execSampleTrigger_runs {n : Nat} {s : State} : Runs 8713011777 s (execSampleTrigger n s) := by
  unfold execSampleTrigger
  refine Runs.next ?_
  repeat' first | exact Eq.refl _ | (with_reducible first | apply sampleTrigger_kept | apply Kept.refl)

theorem execCycleOverrun_runs {n : Nat} {s : State} : Runs 117440513 s (execCycleOverrun n s) := by
  unfold execCycleOverrun
  refine Runs.next ?_
  repeat' first | exact Eq.refl _ | (with_reducible first | apply overrun_kept | apply Kept.ite | apply Kept.refl)

theorem execForceSafe_runs {n : Nat} {s : State} : Runs 33554433 s (execForceSafe n s) := by
  unfold execForceSafe
  refine Runs.next ?_
  repeat' first | exact Eq.refl _ | (with_reducible first | apply forceSafe_kept | apply Kept.refl)

theorem execClearSafe_runs {n : Nat} {s : State} : Runs 33554432 s (execClearSafe n s) := by
  unfold execClearSafe
  refine Runs.next ?_
  repeat' first | exact Eq.refl _ | (with_reducible first | apply clearSafe_kept | apply Kept.refl)

theorem pgGo_kept {m : Nat} {o s : State} {n cmd target : Nat} (k : Kept m o s)
    (hm : 33554435 ||| m = m) : Kept m o (pgGo n cmd target s) := by
  refine k.then (a := 33554435) ?_ hm
  unfold pgGo
  repeat' first | exact Eq.refl _ | (with_reducible first | apply pgCommand_kept | apply plainWrite_kept | apply Kept.ite | apply Kept.refl)

theorem execPgVel_runs {n target : Nat} {s : State} : Runs 33554435 s (execPgVel n target s) := by
  unfold execPgVel
  refine Runs.next ?_
  repeat' first | exact Eq.refl _ | (with_reducible first | apply hostAccess_kept | apply pgGo_kept | apply Kept.refl) | intro _

theorem execPgPos_runs {n target : Nat} {s : State} : Runs 33554435 s (execPgPos n target s) := by
  unfold execPgPos
  refine Runs.next ?_
  repeat' first | exact Eq.refl _ | (with_reducible first | apply hostAccess_kept | apply pgGo_kept | apply Kept.refl) | intro _

theorem execPgRel_runs {n target : Nat} {s : State} : Runs 33554435 s (execPgRel n target s) := by
  unfold execPgRel
  refine Runs.next ?_
  repeat' first | exact Eq.refl _ | (with_reducible first | apply hostAccess_kept | apply pgGo_kept | apply Kept.refl) | intro _

theorem execPgStop_runs {n : Nat} {s : State} : Runs 33554433 s (execPgStop n s) := by
  unfold execPgStop
  refine Runs.next ?_
  repeat' first | exact Eq.refl _ | (with_reducible first | apply hostAccess_kept | apply pgCommand_kept | apply Kept.ite | apply Kept.refl) | intro _

theorem execPgSet_runs {n target : Nat} {s : State} : Runs 33554435 s (execPgSet n target s) := by
  unfold execPgSet
  refine Runs.next ?_
  repeat' first | exact Eq.refl _ | (with_reducible first | apply hostAccess_kept | apply pgGo_kept | apply Kept.refl) | intro _

end Sys2Proof.Machine
end

