-- ==== Sys2Proof/Laws/Laser.lean ====
section
/-! SUPPORT. For each operation and each meaning of Sys2Proof/Machine/Laser.lean: the parts of the state it may touch, and that it keeps the laws. -/

namespace Sys2Proof.Machine

set_option Elab.async false

theorem modLaser_kept {m : Nat} {o s : State} {h : Nat} {f : Laser → Laser} (k : Kept m o s)
    (hm : 4294967296 ||| m = m) : Kept m o (modLaser h f s) := by
  refine k.then (a := 4294967296) ?_ hm
  unfold modLaser
  repeat' first | exact Eq.refl _ | (with_reducible first | apply modPort_kept | apply Kept.refl)

theorem showLaser_kept {m : Nat} {o s : State} {h : Nat} (k : Kept m o s)
    (hm : 4429185025 ||| m = m) : Kept m o (showLaser h s) := by
  refine k.then (a := 4429185025) ?_ hm
  unfold showLaser
  repeat' first | exact Eq.refl _ | (with_reducible first | apply refreshHead_kept | apply showGate_kept | apply showLimit_kept | apply Kept.refl)

theorem startAcquisition_kept {m : Nat} {o s : State} {h : Nat} (k : Kept m o s)
    (hm : 4429185025 ||| m = m) : Kept m o (startAcquisition h s) := by
  refine k.then (a := 4429185025) ?_ hm
  unfold startAcquisition
  repeat' first
    | exact Eq.refl _
    | (with_reducible first
        | apply incSat_kept | apply modLaser_kept | apply setF_kept | apply showLaser_kept | apply Kept.refl)

theorem windowFailed_kept {m : Nat} {o s : State} {h : Nat} (k : Kept m o s)
    (hm : 4437574209 ||| m = m) : Kept m o (windowFailed h s) := by
  refine k.then (a := 4437574209) ?_ hm
  unfold windowFailed
  repeat' first
    | exact Eq.refl _
    | (with_reducible first
        | apply dropLines_kept | apply modLaser_kept | apply setB_kept | apply setF_kept | apply showLaser_kept | apply Kept.refl)

theorem laserLoss_kept {m : Nat} {o s : State} {h : Nat} {bits : List Field} (k : Kept m o s)
    (hm : 4307944001 ||| m = m) : Kept m o (laserLoss h bits s) := by
  refine k.then (a := 4307944001) ?_ hm
  unfold laserLoss
  repeat' first
    | exact Eq.refl _
    | (with_reducible first
        | apply dropLines_kept | apply raiseSimple_kept | apply setB_kept | apply Kept.ite | apply Kept.forAll | apply Kept.refl)
    | intro _

theorem loseLock_kept {m : Nat} {o s : State} {h : Nat} {bits : List Field} (k : Kept m o s)
    (hm : 4442161729 ||| m = m) : Kept m o (loseLock h bits s) := by
  refine k.then (a := 4442161729) ?_ hm
  unfold loseLock
  repeat' first | exact Eq.refl _ | (with_reducible first | apply laserLoss_kept | apply startAcquisition_kept | apply Kept.refl)

theorem showMean_kept {m : Nat} {o s : State} {h : Nat} (k : Kept m o s)
    (hm : 1 ||| m = m) : Kept m o (showMean h s) := by
  refine k.then (a := 1) ?_ hm
  unfold showMean
  repeat' first | exact Eq.refl _ | (with_reducible first | apply setF_kept | apply Kept.ite | apply Kept.refl)

theorem acquireEdge_kept {m : Nat} {o s : State} {h : Nat} {ivl : Option Nat} {tapErr : Nat} (k : Kept m o s)
    (hm : 4437574209 ||| m = m) : Kept m o (acquireEdge h ivl tapErr s) := by
  refine k.then (a := 4437574209) ?_ hm
  unfold acquireEdge
  repeat' first
    | exact Eq.refl _
    | (with_reducible first
        | apply modLaser_kept | apply setB_kept | apply setF_kept | apply showLaser_kept | apply showMean_kept | apply windowFailed_kept
        | apply Kept.ite | apply Kept.refl)

theorem writeFacet_kept {m : Nat} {o s : State} {h : Nat} (k : Kept m o s)
    (hm : 4303355905 ||| m = m) : Kept m o (writeFacet h s) := by
  refine k.then (a := 4303355905) ?_ hm
  unfold writeFacet
  repeat' first
    | exact Eq.refl _
    | (with_reducible first
        | apply addMod_kept | apply modLaser_kept | apply send_kept | apply Kept.ite | apply Kept.refl)
    | intro _ | split | (dsimp only)

theorem lockedEdge_kept {m : Nat} {o s : State} {h : Nat} {ivl : Option Nat} {tapErr : Nat} (k : Kept m o s)
    (hm : 4442161729 ||| m = m) : Kept m o (lockedEdge h ivl tapErr s) := by
  refine k.then (a := 4442161729) ?_ hm
  unfold lockedEdge
  repeat' first
    | exact Eq.refl _
    | (with_reducible first
        | apply loseLock_kept | apply modLaser_kept | apply showLimit_kept | apply showMean_kept | apply writeFacet_kept | apply Kept.ite
        | apply Kept.refl)
    | intro _ | split

theorem bdEdge_kept {m : Nat} {o s : State} {h phase tapErr : Nat} (k : Kept m o s)
    (hm : 4442161729 ||| m = m) : Kept m o (bdEdge h phase tapErr s) := by
  refine k.then (a := 4442161729) ?_ hm
  unfold bdEdge
  repeat' first
    | exact Eq.refl _
    | (with_reducible first
        | apply acquireEdge_kept | apply lockedEdge_kept | apply modLaser_kept | apply setF_kept | apply startAcquisition_kept | apply Kept.ite
        | apply Kept.refl)
    | intro _ | split | (dsimp only)

theorem execBdEdge_runs {h phase tapErr : Nat} {s : State} : Runs 4442161729 s (execBdEdge h phase tapErr s) := by
  unfold execBdEdge
  refine Runs.next ?_
  repeat' first | exact Eq.refl _ | (with_reducible first | apply bdEdge_kept | apply Kept.refl)

theorem idxEdge_kept {m : Nat} {o s : State} {h : Nat} (k : Kept m o s)
    (hm : 4442161729 ||| m = m) : Kept m o (idxEdge h s) := by
  refine k.then (a := 4442161729) ?_ hm
  unfold idxEdge
  repeat' first | exact Eq.refl _ | (with_reducible first | apply loseLock_kept | apply modLaser_kept | apply Kept.ite | apply Kept.refl)

theorem execIdxEdge_runs {h : Nat} {s : State} : Runs 4442161729 s (execIdxEdge h s) := by
  unfold execIdxEdge
  refine Runs.next ?_
  repeat' first | exact Eq.refl _ | (with_reducible first | apply idxEdge_kept | apply Kept.refl)

theorem execBdTimeout_runs {h : Nat} {s : State} : Runs 4442161729 s (execBdTimeout h s) := by
  unfold execBdTimeout
  refine Runs.next ?_
  repeat' first | exact Eq.refl _ | (with_reducible first | apply loseLock_kept | apply Kept.ite | apply Kept.refl) | intro _ | split

theorem acquireOnWrite_kept {m : Nat} {o s : State} {h : Nat} (k : Kept m o s)
    (hm : 4429185025 ||| m = m) : Kept m o (acquireOnWrite h s) := by
  refine k.then (a := 4429185025) ?_ hm
  unfold acquireOnWrite
  repeat' first | exact Eq.refl _ | (with_reducible first | apply modLaser_kept | apply startAcquisition_kept | apply Kept.refl)

theorem dllCfgWrite_kept {m : Nat} {o s : State} {h v : Nat} (k : Kept m o s)
    (hm : 4437574211 ||| m = m) : Kept m o (dllCfgWrite h v s) := by
  refine k.then (a := 4437574211) ?_ hm
  unfold dllCfgWrite
  repeat' first
    | exact Eq.refl _
    | (with_reducible first
        | apply acquireOnWrite_kept | apply dropLines_kept | apply plainWrite_kept | apply showPort_kept | apply Kept.ite | apply Kept.refl)

theorem execDllCfgWrite_runs {h value : Nat} {s : State} : Runs 4437574211 s (execDllCfgWrite h value s) := by
  unfold execDllCfgWrite
  refine Runs.next ?_
  repeat' first | exact Eq.refl _ | (with_reducible first | apply dllCfgWrite_kept | apply hostAccess_kept | apply Kept.refl) | intro _

theorem lsrCfgWrite_kept {m : Nat} {o s : State} {h v : Nat} (k : Kept m o s)
    (hm : 4442161731 ||| m = m) : Kept m o (lsrCfgWrite h v s) := by
  refine k.then (a := 4442161731) ?_ hm
  unfold lsrCfgWrite
  repeat' first
    | exact Eq.refl _
    | (with_reducible first
        | apply laserLoss_kept | apply plainWrite_kept | apply shadowLate_kept | apply showLaser_kept | apply Kept.ite | apply Kept.refl)

theorem execLaserEnWrite_runs {h value : Nat} {s : State} : Runs 4442161731 s (execLaserEnWrite h value s) := by
  unfold execLaserEnWrite
  refine Runs.next ?_
  repeat' first | exact Eq.refl _ | (with_reducible first | apply hostAccess_kept | apply lsrCfgWrite_kept | apply Kept.refl) | intro _

theorem execEnWaitElapsed_runs {h : Nat} {s : State} : Runs 134217729 s (execEnWaitElapsed h s) := by
  unfold execEnWaitElapsed
  refine Runs.next ?_
  repeat' first
    | exact Eq.refl _
    | (with_reducible first
        | apply refreshHead_kept | apply setPath_kept | apply Kept.ite | apply Kept.refl)
    | intro _ | split

theorem polygonSample_kept {m : Nat} {o s : State} {c : Nat} (k : Kept m o s)
    (hm : 4442161729 ||| m = m) : Kept m o (polygonSample c s) := by
  refine k.then (a := 4442161729) ?_ hm
  unfold polygonSample
  repeat' first | exact Eq.refl _ | (with_reducible first | apply loseLock_kept | apply Kept.ite | apply Kept.forAll | apply Kept.refl) | intro _

theorem endLines_kept {m : Nat} {o s : State} (k : Kept m o s)
    (hm : 4294967296 ||| m = m) : Kept m o (endLines s) := by
  refine k.then (a := 4294967296) ?_ hm
  unfold endLines
  repeat' first | exact Eq.refl _ | (with_reducible first | apply modLaser_kept | apply Kept.ite | apply Kept.forAll | apply Kept.refl) | intro _

end Sys2Proof.Machine
end

