-- ==== Sys2Proof/Laws/Tracking.lean ====
section
/-! SUPPORT. For each operation and each meaning of Sys2Proof/Machine/Tracking.lean: the parts of the state it may touch, and that it keeps the laws. -/

namespace Sys2Proof.Machine

set_option Elab.async false

theorem setPdCfg_kept {m : Nat} {o s : State} {p v : Nat} (k : Kept m o s)
    (hm : 19 ||| m = m) : Kept m o (setPdCfg p v s) := by
  refine k.then (a := 19) ?_ hm
  unfold setPdCfg
  repeat' first
    | exact Eq.refl _
    | (with_reducible first
        | apply State.setPd_kept | apply plainWrite_kept | apply startFilter_kept | apply Kept.ite | apply Kept.refl)

theorem applyPdCfg_kept {m : Nat} {o s : State} {p : Nat} (k : Kept m o s)
    (hm : 19 ||| m = m) : Kept m o (applyPdCfg p s) := by
  refine k.then (a := 19) ?_ hm
  unfold applyPdCfg
  repeat' first | exact Eq.refl _ | (with_reducible first | apply setPdCfg_kept | apply Kept.refl) | intro _ | split

theorem discardCaptures_kept {m : Nat} {o s : State} {n : Nat} (k : Kept m o s)
    (hm : 19 ||| m = m) : Kept m o (discardCaptures n s) := by
  refine k.then (a := 19) ?_ hm
  unfold discardCaptures
  repeat' first
    | exact Eq.refl _
    | (with_reducible first
        | apply State.setPd_kept | apply addSat_kept | apply applyPdCfg_kept | apply Kept.ite | apply Kept.forAll | apply Kept.refl)
    | intro _

theorem lineOff_kept {m : Nat} {o s : State} {n : Nat} (k : Kept m o s)
    (hm : 545525847 ||| m = m) : Kept m o (lineOff n s) := by
  refine k.then (a := 545525847) ?_ hm
  unfold lineOff
  repeat' first
    | exact Eq.refl _
    | (with_reducible first
        | apply State.setLine_kept | apply discardCaptures_kept | apply setLineState_kept | apply Kept.refl)

theorem lineCtlWrite_kept {m : Nat} {o s : State} {n v : Nat} (k : Kept m o s)
    (hm : 545525879 ||| m = m) : Kept m o (lineCtlWrite n v s) := by
  refine k.then (a := 545525879) ?_ hm
  unfold lineCtlWrite
  repeat' first
    | exact Eq.refl _
    | (with_reducible first
        | apply freshStart_kept | apply lineOff_kept | apply plainWrite_kept | apply setB_kept | apply showArming_kept | apply Kept.ite
        | apply Kept.refl)

theorem execLineCtlWrite_runs {line value : Nat} {s : State} : Runs 545525879 s (execLineCtlWrite line value s) := by
  unfold execLineCtlWrite
  refine Runs.next ?_
  repeat' first | exact Eq.refl _ | (with_reducible first | apply hostAccess_kept | apply lineCtlWrite_kept | apply Kept.refl) | intro _

theorem linePreset_kept {m : Nat} {o s : State} {n v : Nat} (k : Kept m o s)
    (hm : 357 ||| m = m) : Kept m o (linePreset n v s) := by
  refine k.then (a := 357) ?_ hm
  unfold linePreset
  repeat' first
    | exact Eq.refl _
    | (with_reducible first
        | apply bringDue_kept | apply presetLine_kept | apply setB_kept | apply Kept.ite | apply Kept.refl)

theorem execLinePreset_runs {line value : Nat} {s : State} : Runs 357 s (execLinePreset line value s) := by
  unfold execLinePreset
  refine Runs.next ?_
  repeat' first | exact Eq.refl _ | (with_reducible first | apply hostAccess_kept | apply linePreset_kept | apply Kept.refl) | intro _

theorem execVirtSpeedWrite_runs {line value : Nat} {s : State} : Runs 545525829 s (execVirtSpeedWrite line value s) := by
  unfold execVirtSpeedWrite
  refine Runs.next ?_
  repeat' first
    | exact Eq.refl _
    | (with_reducible first
        | apply hostAccess_kept | apply virtualSpeed_kept | apply Kept.ite | apply Kept.refl)
    | intro _

theorem illegalEdge_kept {msk : Nat} {o s : State} {m : Nat} (k : Kept msk o s)
    (hm : 1 ||| msk = msk) : Kept msk o (illegalEdge m s) := by
  refine k.then (a := 1) ?_ hm
  unfold illegalEdge
  repeat' first | exact Eq.refl _ | (with_reducible first | apply incSat_kept | apply setB_kept | apply Kept.refl)

theorem seeTransition_kept {m : Nat} {o s : State} {n : Nat} {illegal : Bool} (k : Kept m o s)
    (hm : 2026355653 ||| m = m) : Kept m o (seeTransition n illegal s) := by
  refine k.then (a := 2026355653) ?_ hm
  unfold seeTransition
  repeat' first | exact Eq.refl _ | (with_reducible first | apply State.setLine_kept | apply declareLoss_kept | apply Kept.ite | apply Kept.refl)

theorem encEdge_kept {msk : Nat} {o s : State} {m : Nat} {a b : Bool} (k : Kept msk o s)
    (hm : 2059910125 ||| msk = msk) : Kept msk o (encEdge m a b s) := by
  refine k.then (a := 2059910125) ?_ hm
  unfold encEdge
  repeat' first
    | exact Eq.refl _
    | (with_reducible first
        | apply State.setEnc_kept | apply ctlIllegal_kept | apply illegalEdge_kept | apply lineEdge_kept | apply seeTransition_kept | apply setB_kept
        | apply setF_kept | apply Kept.ite | apply Kept.doIf | apply Kept.forAll | apply Kept.refl)
    | intro _ | split

theorem encZ_kept {msk : Nat} {o s : State} {m : Nat} {level : Bool} (k : Kept msk o s)
    (hm : 9 ||| msk = msk) : Kept msk o (encZ m level s) := by
  refine k.then (a := 9) ?_ hm
  unfold encZ
  repeat' first
    | exact Eq.refl _
    | (with_reducible first
        | apply State.setEnc_kept | apply incSat_kept | apply setB_kept | apply Kept.ite | apply Kept.refl)

theorem encCfgWrite_kept {msk : Nat} {o s : State} {m v : Nat} (k : Kept msk o s)
    (hm : 11 ||| msk = msk) : Kept msk o (encCfgWrite m v s) := by
  refine k.then (a := 11) ?_ hm
  unfold encCfgWrite
  repeat' first | exact Eq.refl _ | (with_reducible first | apply State.setEnc_kept | apply plainWrite_kept | apply Kept.ite | apply Kept.refl)

theorem encFlt_kept {msk : Nat} {o s : State} {m : Nat} {low : Bool} (k : Kept msk o s)
    (hm : 2026355653 ||| msk = msk) : Kept msk o (encFlt m low s) := by
  refine k.then (a := 2026355653) ?_ hm
  unfold encFlt
  repeat' first
    | exact Eq.refl _
    | (with_reducible first
        | apply declareLoss_kept | apply setB_kept | apply Kept.ite | apply Kept.forAll | apply Kept.refl)
    | intro _

theorem execEncEdge_runs {m : Nat} {a b : Bool} {s : State} : Runs 10649844717 s (execEncEdge m a b s) := by
  unfold execEncEdge
  refine Runs.next ?_
  repeat' first | exact Eq.refl _ | (with_reducible first | apply buAdvanceAll_kept | apply encEdge_kept | apply Kept.refl)

theorem execEncZPulse_runs {m : Nat} {level : Bool} {s : State} : Runs 9 s (execEncZPulse m level s) := by
  unfold execEncZPulse
  refine Runs.next ?_
  repeat' first | exact Eq.refl _ | (with_reducible first | apply encZ_kept | apply Kept.refl)

theorem execEncFltInput_runs {m : Nat} {low : Bool} {s : State} : Runs 2026355653 s (execEncFltInput m low s) := by
  unfold execEncFltInput
  refine Runs.next ?_
  repeat' first | exact Eq.refl _ | (with_reducible first | apply encFlt_kept | apply Kept.refl)

theorem execStuck_runs {m : Nat} {s : State} : Runs 2026355653 s (execStuck m s) := by
  unfold execStuck
  refine Runs.next ?_
  repeat' first | exact Eq.refl _ | (with_reducible first | apply declareLoss_kept | apply setB_kept | apply Kept.forAll | apply Kept.refl) | intro _

theorem execFreeze_runs {line : Nat} {s : State} : Runs 2026355653 s (execFreeze line s) := by
  unfold execFreeze
  refine Runs.next ?_
  repeat' first | exact Eq.refl _ | (with_reducible first | apply declareLoss_kept | apply Kept.ite | apply Kept.refl)

theorem execOcingStale_runs {line : Nat} {s : State} : Runs 2026355653 s (execOcingStale line s) := by
  unfold execOcingStale
  refine Runs.next ?_
  repeat' first | exact Eq.refl _ | (with_reducible first | apply declareLoss_kept | apply Kept.ite | apply Kept.refl)

theorem execVirtStale_runs {line : Nat} {s : State} : Runs 2026355653 s (execVirtStale line s) := by
  unfold execVirtStale
  refine Runs.next ?_
  repeat' first | exact Eq.refl _ | (with_reducible first | apply declareLoss_kept | apply Kept.ite | apply Kept.refl)

theorem execDrExhausted_runs {line : Nat} {s : State} : Runs 2026355649 s (execDrExhausted line s) := by
  unfold execDrExhausted
  refine Runs.next ?_
  repeat' first | exact Eq.refl _ | (with_reducible first | apply posLost_kept | apply Kept.ite | apply Kept.refl)

theorem pdCfgWrite_kept {m : Nat} {o s : State} {p v : Nat} (k : Kept m o s)
    (hm : 19 ||| m = m) : Kept m o (pdCfgWrite p v s) := by
  refine k.then (a := 19) ?_ hm
  unfold pdCfgWrite
  repeat' first
    | exact Eq.refl _
    | (with_reducible first
        | apply State.setPd_kept | apply plainWrite_kept | apply setPdCfg_kept | apply Kept.ite | apply Kept.refl)

theorem execPdCfgWrite_runs {p value : Nat} {s : State} : Runs 19 s (execPdCfgWrite p value s) := by
  unfold execPdCfgWrite
  refine Runs.next ?_
  repeat' first | exact Eq.refl _ | (with_reducible first | apply hostAccess_kept | apply pdCfgWrite_kept | apply Kept.refl) | intro _

theorem leadingEdge_kept {m : Nat} {o s : State} {p : Nat} (k : Kept m o s)
    (hm : 17 ||| m = m) : Kept m o (leadingEdge p s) := by
  refine k.then (a := 17) ?_ hm
  unfold leadingEdge
  repeat' first | exact Eq.refl _ | (with_reducible first | apply State.setPd_kept | apply incSat_kept | apply Kept.ite | apply Kept.refl)

theorem pdEdge_kept {m : Nat} {o s : State} {p : Nat} {level : Bool} (k : Kept m o s)
    (hm : 19 ||| m = m) : Kept m o (pdEdge p level s) := by
  refine k.then (a := 19) ?_ hm
  unfold pdEdge
  repeat' first
    | exact Eq.refl _
    | (with_reducible first
        | apply State.setPd_kept | apply applyPdCfg_kept | apply incSat_kept | apply leadingEdge_kept | apply setB_kept | apply Kept.ite
        | apply Kept.refl)
    | intro _ | split

theorem execPdEdgeAccept_runs {p : Nat} {level : Bool} {s : State} : Runs 19 s (execPdEdgeAccept p level s) := by
  unfold execPdEdgeAccept
  refine Runs.next ?_
  repeat' first | exact Eq.refl _ | (with_reducible first | apply pdEdge_kept | apply Kept.refl)

theorem captureConfirm_kept {m : Nat} {o s : State} {p : Nat} (k : Kept m o s)
    (hm : 2026355671 ||| m = m) : Kept m o (captureConfirm p s) := by
  refine k.then (a := 2026355671) ?_ hm
  unfold captureConfirm
  repeat' first
    | exact Eq.refl _
    | (with_reducible first
        | apply State.setPd_kept | apply applyPdCfg_kept | apply bringDue_kept | apply confirmProduct_kept | apply pitchTest_kept | apply Kept.ite
        | apply Kept.refl)
    | intro _ | split

theorem execCaptureConfirm_runs {p : Nat} {s : State} : Runs 2026355671 s (execCaptureConfirm p s) := by
  unfold execCaptureConfirm
  refine Runs.next ?_
  repeat' first | exact Eq.refl _ | (with_reducible first | apply captureConfirm_kept | apply Kept.refl)

theorem execPtabSweep_runs {s : State} : Runs 2026351553 s (execPtabSweep s) := by
  unfold execPtabSweep
  refine Runs.next ?_
  repeat' first | exact Eq.refl _ | (with_reducible first | apply expire_kept | apply Kept.forAll | apply Kept.refl) | intro _

theorem clockCount_kept {m : Nat} {o s : State} (k : Kept m o s)
    (hm : 8193 ||| m = m) : Kept m o (clockCount s) := by
  refine k.then (a := 8193) ?_ hm
  unfold clockCount
  repeat' first
    | exact Eq.refl _ | (with_reducible first | apply setF_kept | apply Kept.ite | apply Kept.refl) | intro _ | split
    | (with_reducible refine Kept.putTrust ?_ rfl)

theorem takeToken_kept {m : Nat} {o s : State} {t : Nat} (k : Kept m o s)
    (hm : 8193 ||| m = m) : Kept m o (takeToken t s) := by
  refine k.then (a := 8193) ?_ hm
  unfold takeToken
  repeat' first
    | exact Eq.refl _ | (with_reducible first | apply setF_kept | apply Kept.refl) | intro _ | split | (with_reducible refine Kept.putTrust ?_ rfl)

theorem clockMs_kept {m : Nat} {o s : State} (k : Kept m o s)
    (hm : 4661249 ||| m = m) : Kept m o (clockMs s) := by
  refine k.then (a := 4661249) ?_ hm
  unfold clockMs
  repeat' first
    | exact Eq.refl _
    | (with_reducible first
        | apply clockCount_kept | apply setCauses_kept | apply takeToken_kept | apply Kept.refl)
    | intro _ | split

theorem clockStopped_kept {m : Nat} {o s : State} (k : Kept m o s)
    (hm : 4661249 ||| m = m) : Kept m o (clockStopped s) := by
  refine k.then (a := 4661249) ?_ hm
  unfold clockStopped
  repeat' first | exact Eq.refl _ | (with_reducible first | apply setCauses_kept | apply takeToken_kept | apply Kept.refl) | intro _ | split

theorem crystalTick_kept {m : Nat} {o s : State} (k : Kept m o s)
    (hm : 4661249 ||| m = m) : Kept m o (crystalTick s) := by
  refine k.then (a := 4661249) ?_ hm
  unfold crystalTick
  repeat' first
    | exact Eq.refl _
    | (with_reducible first
        | apply clockMs_kept | apply clockStopped_kept | apply Kept.ite | apply Kept.refl)
    | intro _ | split | (with_reducible refine Kept.putTrust ?_ rfl)

theorem clockTick_kept {m : Nat} {o s : State} (k : Kept m o s)
    (hm : 4661249 ||| m = m) : Kept m o (clockTick s) := by
  refine k.then (a := 4661249) ?_ hm
  unfold clockTick
  repeat' first
    | exact Eq.refl _ | (with_reducible first | apply crystalTick_kept | apply Kept.ite | apply Kept.refl) | intro _ | split
    | (with_reducible refine Kept.putTrust ?_ rfl)

theorem latchTick_kept {m : Nat} {o s : State} (k : Kept m o s)
    (hm : 16 ||| m = m) : Kept m o (latchTick s) := by
  refine k.then (a := 16) ?_ hm
  unfold latchTick
  repeat' first | exact Eq.refl _ | (with_reducible first | apply State.setPd_kept | apply Kept.ite | apply Kept.forAll | apply Kept.refl) | intro _

theorem cycleTick_kept {m : Nat} {o s : State} (k : Kept m o s)
    (hm : 117440512 ||| m = m) : Kept m o (cycleTick s) := by
  refine k.then (a := 117440512) ?_ hm
  unfold cycleTick
  repeat' first
    | exact Eq.refl _ | (with_reducible first | apply Kept.ite | apply Kept.refl) | intro _ | split | (with_reducible refine Kept.putCes ?_ rfl)
    | (with_reducible refine Kept.putMvs ?_ rfl) | (with_reducible refine Kept.putSqs ?_ rfl) | refine Kept.upd ?_ rfl

theorem wireTick_kept {m : Nat} {o s : State} (k : Kept m o s)
    (hm : 1 ||| m = m) : Kept m o (wireTick s) := by
  refine k.then (a := 1) ?_ hm
  unfold wireTick
  repeat' first | exact Eq.refl _ | (with_reducible first | apply setB_kept | apply Kept.doIf | apply Kept.forAll | apply Kept.refl) | intro _

theorem trackingTick_kept {m : Nat} {o s : State} (k : Kept m o s)
    (hm : 2143796213 ||| m = m) : Kept m o (trackingTick s) := by
  refine k.then (a := 2143796213) ?_ hm
  unfold trackingTick
  repeat' first
    | exact Eq.refl _
    | (with_reducible first
        | apply State.setReg_kept | apply clockTick_kept | apply cycleTick_kept | apply latchTick_kept | apply lineTick_kept | apply wireTick_kept
        | apply Kept.forAll | apply Kept.refl)
    | intro _ | split | (with_reducible refine Kept.putRaised ?_ rfl) | (with_reducible refine Kept.putSch ?_ rfl) | refine Kept.upd ?_ rfl

end Sys2Proof.Machine
end

