-- ==== Sys2Proof/Laws/Sequencer.lean ====
section
/-! SUPPORT. For each operation and each meaning of Sys2Proof/Machine/Sequencer.lean: the parts of the state it may touch, and that it keeps the laws. -/

namespace Sys2Proof.Machine

set_option Elab.async false

theorem consume_kept {m : Nat} {o s : State} {h j idx : Nat} (k : Kept m o s)
    (hm : 134217729 ||| m = m) : Kept m o (consume h j idx s) := by
  refine k.then (a := 134217729) ?_ hm
  unfold consume
  repeat' first
    | exact Eq.refl _
    | (with_reducible first
        | apply addMod_kept | apply setPath_kept | apply showPath_kept | apply Kept.refl)
    | intro _ | split | (dsimp only)

theorem flagJob_kept {m : Nat} {o s : State} {j flag : Nat} (k : Kept m o s)
    (hm : 576 ||| m = m) : Kept m o (flagJob j flag s) := by
  refine k.then (a := 576) ?_ hm
  unfold flagJob
  repeat' first | exact Eq.refl _ | (with_reducible first | apply modJob_kept | apply Kept.refl)

theorem dropCr_kept {m : Nat} {o s : State} {n h : Nat} (k : Kept m o s)
    (hm : 150994945 ||| m = m) : Kept m o (dropCr n h s) := by
  refine k.then (a := 150994945) ?_ hm
  unfold dropCr
  repeat' first
    | exact Eq.refl _
    | (with_reducible first
        | apply consume_kept | apply incSat_kept | apply setSeq_kept | apply Kept.refl)
    | intro _ | split | (dsimp only)

theorem firstColumn_kept {m : Nat} {o s : State} {j : Nat} (k : Kept m o s)
    (hm : 576 ||| m = m) : Kept m o (firstColumn j s) := by
  refine k.then (a := 576) ?_ hm
  unfold firstColumn
  repeat' first | exact Eq.refl _ | (with_reducible first | apply modJob_kept | apply Kept.ite | apply Kept.refl)

theorem firstEmission_kept {m : Nat} {o s : State} {j : Nat} (k : Kept m o s)
    (hm : 4694721 ||| m = m) : Kept m o (firstEmission j s) := by
  refine k.then (a := 4694721) ?_ hm
  unfold firstEmission
  repeat' first
    | exact Eq.refl _
    | (with_reducible first
        | apply modJob_kept | apply printSerial_kept | apply Kept.ite | apply Kept.refl)
    | intro _ | split

theorem testWindow_kept {m : Nat} {o s : State} {h : Nat} (k : Kept m o s)
    (hm : 4437574209 ||| m = m) : Kept m o (testWindow h s) := by
  refine k.then (a := 4437574209) ?_ hm
  unfold testWindow
  repeat' first | exact Eq.refl _ | (with_reducible first | apply startAcquisition_kept | apply windowFailed_kept | apply Kept.ite | apply Kept.refl)

theorem commitSet_kept {m : Nat} {o s : State} {h : Nat} (k : Kept m o s)
    (hm : 4442162017 ||| m = m) : Kept m o (commitSet h s) := by
  refine k.then (a := 4442162017) ?_ hm
  unfold commitSet
  repeat' first
    | exact Eq.refl _
    | (with_reducible first
        | apply State.setReg_kept | apply addMod_kept | apply bringDue_kept | apply predRestart_kept | apply publishPort_kept | apply refreshHead_kept
        | apply setF_kept | apply setPath_kept | apply showPair_kept | apply showPred_kept | apply testWindow_kept | apply Kept.ite | apply Kept.doIf
        | apply Kept.forAll | apply Kept.refl)
    | intro _

theorem handOver_kept {m : Nat} {o s : State} {h : Nat} (k : Kept m o s)
    (hm : 4442162017 ||| m = m) : Kept m o (handOver h s) := by
  refine k.then (a := 4442162017) ?_ hm
  unfold handOver
  repeat' first
    | exact Eq.refl _
    | (with_reducible first
        | apply commitSet_kept | apply incSat_kept | apply setPath_kept | apply Kept.ite | apply Kept.refl)

theorem handOverOnce_kept {m : Nat} {o s : State} {h : Nat} (k : Kept m o s)
    (hm : 4442162017 ||| m = m) : Kept m o (handOverOnce h s) := by
  refine k.then (a := 4442162017) ?_ hm
  unfold handOverOnce
  repeat' first | exact Eq.refl _ | (with_reducible first | apply handOver_kept | apply setPath_kept | apply Kept.ite | apply Kept.refl)

theorem maskWrite_kept {m : Nat} {o s : State} {h i : Nat} {x : BitVec 32} (k : Kept m o s)
    (hm : 134217729 ||| m = m) : Kept m o (maskWrite h i x s) := by
  refine k.then (a := 134217729) ?_ hm
  unfold maskWrite
  repeat' first | exact Eq.refl _ | (with_reducible first | apply setPath_kept | apply shadowLate_kept | apply Kept.ite | apply Kept.refl)

theorem maskCopyDone_kept {m : Nat} {o s : State} {h : Nat} (k : Kept m o s)
    (hm : 4442162017 ||| m = m) : Kept m o (maskCopyDone h s) := by
  refine k.then (a := 4442162017) ?_ hm
  unfold maskCopyDone
  repeat' first | exact Eq.refl _ | (with_reducible first | apply handOver_kept | apply setPath_kept | apply Kept.ite | apply Kept.refl)

theorem endJob_kept {m : Nat} {o s : State} {n h j : Nat} (k : Kept m o s)
    (hm : 1875356609 ||| m = m) : Kept m o (endJob n h j s) := by
  refine k.then (a := 1875356609) ?_ hm
  unfold endJob
  repeat' first
    | exact Eq.refl _
    | (with_reducible first
        | apply closeIfDone_kept | apply discardColumns_kept | apply dropCr_kept | apply modCore_kept | apply modJob_kept | apply setEngState_kept
        | apply setPath_kept | apply showPath_kept | apply tidy_kept | apply Kept.refl)
    | intro _ | split

theorem haltJob_kept {m : Nat} {o s : State} {n h j : Nat} (k : Kept m o s)
    (hm : 1875356609 ||| m = m) : Kept m o (haltJob n h j s) := by
  refine k.then (a := 1875356609) ?_ hm
  unfold haltJob
  repeat' first | exact Eq.refl _ | (with_reducible first | apply endJob_kept | apply modJob_kept | apply Kept.ite | apply Kept.refl)

theorem stopJob_kept {m : Nat} {o s : State} {n h j : Nat} (k : Kept m o s)
    (hm : 1875356609 ||| m = m) : Kept m o (stopJob n h j s) := by
  refine k.then (a := 1875356609) ?_ hm
  unfold stopJob
  repeat' first | exact Eq.refl _ | (with_reducible first | apply endJob_kept | apply modJob_kept | apply Kept.ite | apply Kept.refl)

theorem execJobStopAtBoundary_runs {n : Nat} {s : State} : Runs 1875356609 s (execJobStopAtBoundary n s) := by
  unfold execJobStopAtBoundary
  refine Runs.next ?_
  repeat' first | exact Eq.refl _ | (with_reducible first | apply stopJob_kept | apply Kept.ite | apply Kept.refl) | intro _ | split

theorem writeCkpt_kept {m : Nat} {o s : State} {h : Nat} {c : Ckpt} {init : Bool} (k : Kept m o s)
    (hm : 134217729 ||| m = m) : Kept m o (writeCkpt h c init s) := by
  refine k.then (a := 134217729) ?_ hm
  unfold writeCkpt
  repeat' first | exact Eq.refl _ | (with_reducible first | apply setB_kept | apply setF_kept | apply setPath_kept | apply Kept.refl)

theorem latchAmp_kept {m : Nat} {o s : State} {h : Nat} (k : Kept m o s)
    (hm : 4294967296 ||| m = m) : Kept m o (latchAmp h s) := by
  refine k.then (a := 4294967296) ?_ hm
  unfold latchAmp
  repeat' first | exact Eq.refl _ | (with_reducible first | apply setPort_kept | apply Kept.refl)

theorem markBoundary_kept {m : Nat} {o s : State} {n : Nat} (k : Kept m o s)
    (hm : 4458939233 ||| m = m) : Kept m o (markBoundary n s) := by
  refine k.then (a := 4458939233) ?_ hm
  unfold markBoundary
  repeat' first
    | exact Eq.refl _
    | (with_reducible first
        | apply handOver_kept | apply latchAmp_kept | apply modJob_kept | apply setEngState_kept | apply setF_kept | apply setPath_kept
        | apply setSeq_kept | apply showPath_kept | apply takeView_kept | apply writeCkpt_kept | apply Kept.ite | apply Kept.refl)
    | intro _ | split | (dsimp only)

theorem execMarkBoundary_runs {n : Nat} {s : State} : Runs 4458939233 s (execMarkBoundary n s) := by
  unfold execMarkBoundary
  refine Runs.next ?_
  repeat' first | exact Eq.refl _ | (with_reducible first | apply markBoundary_kept | apply Kept.refl)

theorem execMaskWrite_runs {addr value : Nat} {s : State} : Runs 134217729 s (execMaskWrite addr value s) := by
  unfold execMaskWrite
  refine Runs.next ?_
  repeat' first
    | exact Eq.refl _
    | (with_reducible first
        | apply hostAccess_kept | apply maskWrite_kept | apply Kept.ite | apply Kept.refl)
    | intro _ | split

theorem execMaskPageCopyDone_runs {n : Nat} {s : State} : Runs 4442162017 s (execMaskPageCopyDone n s) := by
  unfold execMaskPageCopyDone
  refine Runs.next ?_
  repeat' first | exact Eq.refl _ | (with_reducible first | apply maskCopyDone_kept | apply Kept.ite | apply Kept.refl)

theorem execShadowSealWrite_runs {n value : Nat} {s : State} : Runs 3 s (execShadowSealWrite n value s) := by
  unfold execShadowSealWrite
  refine Runs.next ?_
  repeat' first
    | exact Eq.refl _
    | (with_reducible first
        | apply hostAccess_kept | apply plainWrite_kept | apply Kept.ite | apply Kept.refl)
    | intro _

theorem handoverEvent_kept {m : Nat} {o s : State} {h : Nat} (k : Kept m o s)
    (hm : 4442162017 ||| m = m) : Kept m o (handoverEvent h s) := by
  refine k.then (a := 4442162017) ?_ hm
  unfold handoverEvent
  repeat' first | exact Eq.refl _ | (with_reducible first | apply handOverOnce_kept | apply setPath_kept | apply Kept.ite | apply Kept.refl)

theorem execHandover_runs {i : Nat} {s : State} : Runs 4442162017 s (execHandover i s) := by
  unfold execHandover
  refine Runs.next ?_
  repeat' first
    | exact Eq.refl _
    | (with_reducible first
        | apply dispatch_kept | apply handoverEvent_kept | apply petErase_kept | apply Kept.ite | apply Kept.refl)
    | intro _ | split

theorem setEvi_kept {m : Nat} {o s : State} {e : Engine} {bit : Nat} (k : Kept m o s)
    (hm : 117440513 ||| m = m) : Kept m o (setEvi e bit s) := by
  refine k.then (a := 117440513) ?_ hm
  unfold setEvi
  repeat' first | exact Eq.refl _ | (with_reducible first | apply modCore_kept | apply Kept.ite | apply Kept.refl)

theorem execSignal_runs {i : Nat} {s : State} : Runs 117440833 s (execSignal i s) := by
  unfold execSignal
  refine Runs.next ?_
  repeat' first | exact Eq.refl _ | (with_reducible first | apply dispatch_kept | apply petErase_kept | apply setEvi_kept | apply Kept.refl) | intro _

theorem execSeqWatchdog_runs {n : Nat} {s : State} : Runs 75158236097 s (execSeqWatchdog n s) := by
  unfold execSeqWatchdog
  refine Runs.next ?_
  repeat' first | exact Eq.refl _ | (with_reducible first | apply seqFault_kept | apply Kept.ite | apply Kept.refl)

theorem execDatapathCheck_runs {n : Nat} {s : State} : Runs 75158236097 s (execDatapathCheck n s) := by
  unfold execDatapathCheck
  refine Runs.next ?_
  repeat' first | exact Eq.refl _ | (with_reducible first | apply seqFault_kept | apply Kept.ite | apply Kept.refl)

theorem restoreCkpt_kept {m : Nat} {o s : State} {h c : Nat} (k : Kept m o s)
    (hm : 251658241 ||| m = m) : Kept m o (restoreCkpt h c s) := by
  refine k.then (a := 251658241) ?_ hm
  unfold restoreCkpt
  repeat' first
    | exact Eq.refl _
    | (with_reducible first
        | apply setCore_kept | apply setF_kept | apply setPath_kept | apply setSeq_kept | apply Kept.refl)

theorem copyFailed_kept {m : Nat} {o s : State} {h : Nat} (k : Kept m o s)
    (hm : 75058625473 ||| m = m) : Kept m o (copyFailed h s) := by
  refine k.then (a := 75058625473) ?_ hm
  unfold copyFailed
  repeat' first
    | exact Eq.refl _
    | (with_reducible first
        | apply engineRead_kept | apply raiseSimple_kept | apply takeoverLost_kept | apply Kept.refl)

theorem takeoverResume_kept {m : Nat} {o s : State} {h tDetect tRebind : Nat} {ok : Bool} (k : Kept m o s)
    (hm : 75159288769 ||| m = m) : Kept m o (takeoverResume h tDetect tRebind ok s) := by
  refine k.then (a := 75159288769) ?_ hm
  unfold takeoverResume
  repeat' first
    | exact Eq.refl _
    | (with_reducible first
        | apply copyFailed_kept | apply endTakeover_kept | apply headGoes_kept | apply modJob_kept | apply pathEmptied_kept | apply refreshHead_kept
        | apply restoreCkpt_kept | apply setB_kept | apply setEngState_kept | apply setF_kept | apply setHeadState_kept | apply showGate_kept
        | apply Kept.ite | apply Kept.forAll | apply Kept.refl)
    | intro _ | split | (dsimp only)

theorem execTakeoverResume_runs {h tDetect tRebind : Nat} {ok : Bool} {s : State} : Runs 75159288769 s (execTakeoverResume h tDetect tRebind ok s) := by
  unfold execTakeoverResume
  refine Runs.next ?_
  repeat' first | exact Eq.refl _ | (with_reducible first | apply takeoverResume_kept | apply Kept.ite | apply Kept.refl)

theorem giveback_kept {m : Nat} {o s : State} {n : Nat} (k : Kept m o s)
    (hm : 134217729 ||| m = m) : Kept m o (giveback n s) := by
  refine k.then (a := 134217729) ?_ hm
  unfold giveback
  repeat' first
    | exact Eq.refl _
    | (with_reducible first
        | apply pathEmptied_kept | apply setPath_kept | apply Kept.ite | apply Kept.refl)
    | intro _ | split

theorem execGiveback_runs {n : Nat} {s : State} : Runs 134217729 s (execGiveback n s) := by
  unfold execGiveback
  refine Runs.next ?_
  repeat' first | exact Eq.refl _ | (with_reducible first | apply giveback_kept | apply hostAccess_kept | apply Kept.ite | apply Kept.refl) | intro _

theorem givebackCopy_kept {m : Nat} {o s : State} {h : Nat} (k : Kept m o s)
    (hm : 68971135553 ||| m = m) : Kept m o (givebackCopy h s) := by
  refine k.then (a := 68971135553) ?_ hm
  unfold givebackCopy
  repeat' first
    | exact Eq.refl _
    | (with_reducible first
        | apply copyMemories_kept | apply modJob_kept | apply refreshHead_kept | apply setB_kept | apply setF_kept | apply setPath_kept
        | apply Kept.ite | apply Kept.forAll | apply Kept.refl)
    | intro _

theorem execGivebackCopy_runs {h : Nat} {s : State} : Runs 68971135553 s (execGivebackCopy h s) := by
  unfold execGivebackCopy
  refine Runs.next ?_
  repeat' first | exact Eq.refl _ | (with_reducible first | apply givebackCopy_kept | apply Kept.refl)

theorem restoreHead_kept {m : Nat} {o s : State} {h : Nat} (k : Kept m o s)
    (hm : 1 ||| m = m) : Kept m o (restoreHead h s) := by
  refine k.then (a := 1) ?_ hm
  unfold restoreHead
  repeat' first | exact Eq.refl _ | (with_reducible first | apply refreshHead_kept | apply setHeadState_kept | apply Kept.ite | apply Kept.refl)

theorem execRestore_runs {h : Nat} {s : State} : Runs 1 s (execRestore h s) := by
  unfold execRestore
  refine Runs.next ?_
  repeat' first | exact Eq.refl _ | (with_reducible first | apply hostAccess_kept | apply restoreHead_kept | apply Kept.refl) | intro _

theorem engineRun_kept {m : Nat} {o s : State} {e : Engine} (k : Kept m o s)
    (hm : 4559602529 ||| m = m) : Kept m o (engineRun e s) := by
  refine k.then (a := 4559602529) ?_ hm
  unfold engineRun
  repeat' first
    | exact Eq.refl _
    | (with_reducible first
        | apply handOver_kept | apply modCore_kept | apply refreshHead_kept | apply setB_kept | apply setCtl_kept | apply setEngState_kept
        | apply Kept.ite | apply Kept.refl)
    | intro _ | split

theorem engineStop_kept {m : Nat} {o s : State} {e : Engine} (k : Kept m o s)
    (hm : 8707375681 ||| m = m) : Kept m o (engineStop e s) := by
  refine k.then (a := 8707375681) ?_ hm
  unfold engineStop
  repeat' first
    | exact Eq.refl _
    | (with_reducible first
        | apply buCheckAll_kept | apply modCore_kept | apply refreshHead_kept | apply setB_kept | apply setCtl_kept | apply setEngState_kept
        | apply Kept.ite | apply Kept.refl)
    | intro _ | split

theorem engineDoorbell_kept {m : Nat} {o s : State} {e : Engine} (k : Kept m o s)
    (hm : 117440513 ||| m = m) : Kept m o (engineDoorbell e s) := by
  refine k.then (a := 117440513) ?_ hm
  unfold engineDoorbell
  repeat' first | exact Eq.refl _ | (with_reducible first | apply setEvi_kept | apply Kept.refl)

theorem execEngineRun_runs {e : Engine} {entry : Nat} {s : State} : Runs 4559602529 s (execEngineRun e entry s) := by
  unfold execEngineRun
  refine Runs.next ?_
  repeat' first
    | exact Eq.refl _
    | (with_reducible first
        | apply engineRun_kept | apply hostAccess_kept | apply setF_kept | apply Kept.ite | apply Kept.refl)
    | intro _

theorem execEngineStop_runs {e : Engine} {s : State} : Runs 8707375681 s (execEngineStop e s) := by
  unfold execEngineStop
  refine Runs.next ?_
  repeat' first | exact Eq.refl _ | (with_reducible first | apply engineStop_kept | apply hostAccess_kept | apply Kept.refl) | intro _

theorem execEngineDoorbell_runs {e : Engine} {s : State} : Runs 117440513 s (execEngineDoorbell e s) := by
  unfold execEngineDoorbell
  refine Runs.next ?_
  repeat' first | exact Eq.refl _ | (with_reducible first | apply engineDoorbell_kept | apply hostAccess_kept | apply Kept.refl) | intro _

theorem progWrite_kept {m : Nat} {o s : State} {e : Engine} {i : Nat} {v : Nat} (k : Kept m o s)
    (hm : 208303274945 ||| m = m) : Kept m o (progWrite e i v s) := by
  refine k.then (a := 208303274945) ?_ hm
  unfold progWrite
  repeat' first
    | exact Eq.refl _
    | (with_reducible first
        | apply modCore_kept | apply setB_kept | apply writeWord_kept | apply Kept.ite | apply Kept.refl)

theorem dataWrite_kept {m : Nat} {o s : State} {e : Engine} {i : Nat} {v : Nat} (k : Kept m o s)
    (hm : 68836917249 ||| m = m) : Kept m o (dataWrite e i v s) := by
  refine k.then (a := 68836917249) ?_ hm
  unfold dataWrite
  repeat' first | exact Eq.refl _ | (with_reducible first | apply bankWrite_kept | apply modCore_kept | apply Kept.refl)

theorem execProgramWindowWrite_runs {addr value : Nat} {s : State} : Runs 208303274945 s (execProgramWindowWrite addr value s) := by
  unfold execProgramWindowWrite
  refine Runs.next ?_
  repeat' first
    | exact Eq.refl _
    | (with_reducible first
        | apply hostAccess_kept | apply progWrite_kept | apply Kept.ite | apply Kept.refl)
    | intro _ | split

theorem execDataWindowWrite_runs {addr value : Nat} {s : State} : Runs 68836917249 s (execDataWindowWrite addr value s) := by
  unfold execDataWindowWrite
  refine Runs.next ?_
  repeat' first
    | exact Eq.refl _
    | (with_reducible first
        | apply dataWrite_kept | apply hostAccess_kept | apply Kept.ite | apply Kept.refl)
    | intro _ | split

end Sys2Proof.Machine
end

