-- ==== Sys2Proof/Laws/AdegerCommon.lean ====
section
/-! SUPPORT. For each operation and each meaning of Sys2Proof/Machine/AdegerCommon.lean: the parts of the state it may touch, and that it keeps the laws. -/

namespace Sys2Proof.Machine

set_option Elab.async false

/-- An engine's instruction runs within the mask of what each instruction of its kind does, and of its fetch. -/
theorem runInsn_runs {m : Nat} {e : Engine} {f : Insn → Option (State → State)} {s : State}
    (h : ∀ i g, f i = some g → ∀ t, Kept m t (g t)) (hm : 70864321473 ||| m = m := by rfl) : Runs m s (runInsn e f s) := by
  unfold runInsn
  refine Runs.next ?_
  split
  · next g hg =>
    obtain ⟨i, -, hi⟩ := Option.bind_eq_some_iff.mp hg
    exact Kept.then (fetched_kept (Kept.refl _ _) hm) (h i g hi _) (Nat.or_self m)
  · exact Kept.refl m s

theorem recordIllegal_kept {m : Nat} {o s : State} {e : Engine} {cause : Nat} (k : Kept m o s)
    (hm : 1 ||| m = m) : Kept m o (recordIllegal e cause s) := by
  refine k.then (a := 1) ?_ hm
  unfold recordIllegal
  repeat' first | exact Eq.refl _ | (with_reducible first | apply recordSeqFault_kept | apply setF_kept | apply Kept.refl) | intro _ | split

theorem moverFault_kept {m : Nat} {o s : State} {n : Nat} (k : Kept m o s)
    (hm : 122028033 ||| m = m) : Kept m o (moverFault n s) := by
  refine k.then (a := 122028033) ?_ hm
  unfold moverFault
  repeat' first | exact Eq.refl _ | (with_reducible first | apply modCore_kept | apply raiseSimple_kept | apply setEngState_kept | apply Kept.refl)

theorem illegal_kept {m : Nat} {o s : State} {e : Engine} {cause : Nat} (k : Kept m o s)
    (hm : 83748170689 ||| m = m) : Kept m o (illegal e cause s) := by
  refine k.then (a := 83748170689) ?_ hm
  unfold illegal
  repeat' first
    | exact Eq.refl _
    | (with_reducible first
        | apply buCheckAll_kept | apply moverFault_kept | apply recordIllegal_kept | apply safeCause_kept | apply seqFault_kept | apply setCtl_kept
        | apply setEngState_kept | apply Kept.refl)
    | intro _ | split

theorem eccIllegal_kept {m : Nat} {o s : State} {e : Engine} {words : List Nat} (k : Kept m o s)
    (hm : 83749223361 ||| m = m) : Kept m o (eccIllegal e words s) := by
  refine k.then (a := 83749223361) ?_ hm
  unfold eccIllegal
  repeat' first | exact Eq.refl _ | (with_reducible first | apply engineRead_kept | apply illegal_kept | apply Kept.refl) | intro _ | split

theorem execIllegalInstruction_runs {e : Engine} {ue : Bool} {s : State} : Runs 83749223361 s (execIllegalInstruction e ue s) := by
  unfold execIllegalInstruction
  refine Runs.next ?_
  repeat' first
    | exact Eq.refl _
    | (with_reducible first
        | apply eccIllegal_kept | apply illegal_kept | apply Kept.ite | apply Kept.refl)
    | intro _ | split

theorem loadReg_kept {m : Nat} {o s : State} {e : Engine} {i : Nat} {x : Word} (k : Kept m o s)
    (hm : 117440513 ||| m = m) : Kept m o (loadReg e i x s) := by
  refine k.then (a := 117440513) ?_ hm
  unfold loadReg
  repeat' first | exact Eq.refl _ | (with_reducible first | apply advance_kept | apply putW_kept | apply Kept.refl)

theorem execNop_runs {e : Engine} {s : State} : Runs 70864321473 s (execNop e s) := by
  unfold execNop
  refine runInsn_runs fun i g => ?_
  repeat' split
  all_goals (intro h; cases h)
  all_goals intro t
  all_goals repeat' first | exact Eq.refl _ | (with_reducible first | apply advance_kept | apply Kept.refl)

theorem execLdi_runs {e : Engine} {s : State} : Runs 70864321473 s (execLdi e s) := by
  unfold execLdi
  refine runInsn_runs fun i g => ?_
  repeat' split
  all_goals (intro h; cases h)
  all_goals intro t
  all_goals repeat' first | exact Eq.refl _ | (with_reducible first | apply loadReg_kept | apply Kept.refl)

theorem execLdiZ_runs {e : Engine} {s : State} : Runs 70864321473 s (execLdiZ e s) := by
  unfold execLdiZ
  refine runInsn_runs fun i g => ?_
  repeat' split
  all_goals (intro h; cases h)
  all_goals intro t
  all_goals repeat' first | exact Eq.refl _ | (with_reducible first | apply loadReg_kept | apply Kept.refl)

theorem execLdiSh_runs {e : Engine} {s : State} : Runs 70864321473 s (execLdiSh e s) := by
  unfold execLdiSh
  refine runInsn_runs fun i g => ?_
  repeat' split
  all_goals (intro h; cases h)
  all_goals intro t
  all_goals repeat' first | exact Eq.refl _ | (with_reducible first | apply loadReg_kept | apply Kept.refl)

theorem loadInsn_kept {m : Nat} {o s : State} {e : Engine} {ue : Bool} {rd mode an imm : Nat} (k : Kept m o s)
    (hm : 83749223361 ||| m = m) : Kept m o (loadInsn e ue rd mode an imm s) := by
  refine k.then (a := 83749223361) ?_ hm
  unfold loadInsn
  repeat' first
    | exact Eq.refl _
    | (with_reducible first
        | apply eccIllegal_kept | apply loadReg_kept | apply modCore_kept | apply readWord_kept | apply Kept.ite | apply Kept.refl)

theorem execLd_runs {e : Engine} {ue : Bool} {s : State} : Runs 83749223361 s (execLd e ue s) := by
  unfold execLd
  refine runInsn_runs fun i g => ?_
  repeat' split
  all_goals (intro h; cases h)
  all_goals intro t
  all_goals repeat' first | exact Eq.refl _ | (with_reducible first | apply loadInsn_kept | apply Kept.refl)

theorem storeInsn_kept {m : Nat} {o s : State} {e : Engine} {rd mode an imm : Nat} (k : Kept m o s)
    (hm : 68836917249 ||| m = m) : Kept m o (storeInsn e rd mode an imm s) := by
  refine k.then (a := 68836917249) ?_ hm
  unfold storeInsn
  repeat' first | exact Eq.refl _ | (with_reducible first | apply advance_kept | apply bankWrite_kept | apply modCore_kept | apply Kept.refl)

theorem execSt_runs {e : Engine} {s : State} : Runs 70864321473 s (execSt e s) := by
  unfold execSt
  refine runInsn_runs fun i g => ?_
  repeat' split
  all_goals (intro h; cases h)
  all_goals intro t
  all_goals repeat' first | exact Eq.refl _ | (with_reducible first | apply storeInsn_kept | apply Kept.refl)

theorem aluInsn_kept {m : Nat} {o s : State} {e : Engine} {op : Alu} {rd rs1 : RegRef} {src : Src} (k : Kept m o s)
    (hm : 118489089 ||| m = m) : Kept m o (aluInsn e op rd rs1 src s) := by
  refine k.then (a := 118489089) ?_ hm
  unfold aluInsn
  repeat' first
    | exact Eq.refl _
    | (with_reducible first
        | apply advance_kept | apply readReg_kept | apply readSrc_kept | apply writeRes_kept | apply Kept.refl)

theorem execAdd_runs {e : Engine} {s : State} : Runs 70864321473 s (execAdd e s) := by
  unfold execAdd
  refine runInsn_runs fun i g => ?_
  unfold onAlu
  repeat' split
  all_goals (intro h; cases h)
  all_goals intro t
  all_goals repeat' first | exact Eq.refl _ | (with_reducible first | apply aluInsn_kept | apply Kept.refl)

theorem execSub_runs {e : Engine} {s : State} : Runs 70864321473 s (execSub e s) := by
  unfold execSub
  refine runInsn_runs fun i g => ?_
  unfold onAlu
  repeat' split
  all_goals (intro h; cases h)
  all_goals intro t
  all_goals repeat' first | exact Eq.refl _ | (with_reducible first | apply aluInsn_kept | apply Kept.refl)

theorem execAnd_runs {e : Engine} {s : State} : Runs 70864321473 s (execAnd e s) := by
  unfold execAnd
  refine runInsn_runs fun i g => ?_
  unfold onAlu
  repeat' split
  all_goals (intro h; cases h)
  all_goals intro t
  all_goals repeat' first | exact Eq.refl _ | (with_reducible first | apply aluInsn_kept | apply Kept.refl)

theorem execOr_runs {e : Engine} {s : State} : Runs 70864321473 s (execOr e s) := by
  unfold execOr
  refine runInsn_runs fun i g => ?_
  unfold onAlu
  repeat' split
  all_goals (intro h; cases h)
  all_goals intro t
  all_goals repeat' first | exact Eq.refl _ | (with_reducible first | apply aluInsn_kept | apply Kept.refl)

theorem execXor_runs {e : Engine} {s : State} : Runs 70864321473 s (execXor e s) := by
  unfold execXor
  refine runInsn_runs fun i g => ?_
  unfold onAlu
  repeat' split
  all_goals (intro h; cases h)
  all_goals intro t
  all_goals repeat' first | exact Eq.refl _ | (with_reducible first | apply aluInsn_kept | apply Kept.refl)

theorem execShl_runs {e : Engine} {s : State} : Runs 70864321473 s (execShl e s) := by
  unfold execShl
  refine runInsn_runs fun i g => ?_
  unfold onAlu
  repeat' split
  all_goals (intro h; cases h)
  all_goals intro t
  all_goals repeat' first | exact Eq.refl _ | (with_reducible first | apply aluInsn_kept | apply Kept.refl)

theorem execShr_runs {e : Engine} {s : State} : Runs 70864321473 s (execShr e s) := by
  unfold execShr
  refine runInsn_runs fun i g => ?_
  unfold onAlu
  repeat' split
  all_goals (intro h; cases h)
  all_goals intro t
  all_goals repeat' first | exact Eq.refl _ | (with_reducible first | apply aluInsn_kept | apply Kept.refl)

theorem execSra_runs {e : Engine} {s : State} : Runs 70864321473 s (execSra e s) := by
  unfold execSra
  refine runInsn_runs fun i g => ?_
  unfold onAlu
  repeat' split
  all_goals (intro h; cases h)
  all_goals intro t
  all_goals repeat' first | exact Eq.refl _ | (with_reducible first | apply aluInsn_kept | apply Kept.refl)

theorem cmpInsn_kept {m : Nat} {o s : State} {e : Engine} {f : Word → Word → Flags → Flags} {rs1 : RegRef} {src : Src} (k : Kept m o s)
    (hm : 118489089 ||| m = m) : Kept m o (cmpInsn e f rs1 src s) := by
  refine k.then (a := 118489089) ?_ hm
  unfold cmpInsn
  repeat' first
    | exact Eq.refl _
    | (with_reducible first
        | apply advance_kept | apply modCore_kept | apply readReg_kept | apply readSrc_kept | apply Kept.refl)

theorem execCmp_runs {e : Engine} {s : State} : Runs 70864321473 s (execCmp e s) := by
  unfold execCmp
  refine runInsn_runs fun i g => ?_
  repeat' split
  all_goals (intro h; cases h)
  all_goals intro t
  all_goals repeat' first | exact Eq.refl _ | (with_reducible first | apply cmpInsn_kept | apply Kept.refl)

theorem execCmpP_runs {e : Engine} {s : State} : Runs 70864321473 s (execCmpP e s) := by
  unfold execCmpP
  refine runInsn_runs fun i g => ?_
  repeat' split
  all_goals (intro h; cases h)
  all_goals intro t
  all_goals repeat' first | exact Eq.refl _ | (with_reducible first | apply cmpInsn_kept | apply Kept.refl)

theorem branchIf_kept {m : Nat} {o s : State} {e : Engine} {p : Flags → Bool} {off : Int} (k : Kept m o s)
    (hm : 117440513 ||| m = m) : Kept m o (branchIf e p off s) := by
  refine k.then (a := 117440513) ?_ hm
  unfold branchIf
  repeat' first | exact Eq.refl _ | (with_reducible first | apply modCore_kept | apply Kept.ite | apply Kept.refl)

theorem execBr_runs {e : Engine} {s : State} : Runs 70864321473 s (execBr e s) := by
  unfold execBr
  refine runInsn_runs fun i g => ?_
  repeat' split
  all_goals (intro h; cases h)
  all_goals intro t
  all_goals repeat' first | exact Eq.refl _ | (with_reducible first | apply branchIf_kept | apply Kept.refl)

theorem execBz_runs {e : Engine} {s : State} : Runs 70864321473 s (execBz e s) := by
  unfold execBz
  refine runInsn_runs fun i g => ?_
  repeat' split
  all_goals (intro h; cases h)
  all_goals intro t
  all_goals repeat' first | exact Eq.refl _ | (with_reducible first | apply branchIf_kept | apply Kept.refl)

theorem execBnz_runs {e : Engine} {s : State} : Runs 70864321473 s (execBnz e s) := by
  unfold execBnz
  refine runInsn_runs fun i g => ?_
  repeat' split
  all_goals (intro h; cases h)
  all_goals intro t
  all_goals repeat' first | exact Eq.refl _ | (with_reducible first | apply branchIf_kept | apply Kept.refl)

theorem execBn_runs {e : Engine} {s : State} : Runs 70864321473 s (execBn e s) := by
  unfold execBn
  refine runInsn_runs fun i g => ?_
  repeat' split
  all_goals (intro h; cases h)
  all_goals intro t
  all_goals repeat' first | exact Eq.refl _ | (with_reducible first | apply branchIf_kept | apply Kept.refl)

theorem callInsn_kept {m : Nat} {o s : State} {e : Engine} {off : Int} (k : Kept m o s)
    (hm : 117440513 ||| m = m) : Kept m o (callInsn e off s) := by
  refine k.then (a := 117440513) ?_ hm
  unfold callInsn
  repeat' first | exact Eq.refl _ | (with_reducible first | apply modCore_kept | apply Kept.refl)

theorem execCall_runs {e : Engine} {s : State} : Runs 70864321473 s (execCall e s) := by
  unfold execCall
  refine runInsn_runs fun i g => ?_
  repeat' split
  all_goals (intro h; cases h)
  all_goals intro t
  all_goals repeat' first | exact Eq.refl _ | (with_reducible first | apply callInsn_kept | apply Kept.refl)

theorem retInsn_kept {m : Nat} {o s : State} {e : Engine} (k : Kept m o s)
    (hm : 117440513 ||| m = m) : Kept m o (retInsn e s) := by
  refine k.then (a := 117440513) ?_ hm
  unfold retInsn
  repeat' first | exact Eq.refl _ | (with_reducible first | apply modCore_kept | apply Kept.refl)

theorem execRet_runs {e : Engine} {s : State} : Runs 70864321473 s (execRet e s) := by
  unfold execRet
  refine runInsn_runs fun i g => ?_
  repeat' split
  all_goals (intro h; cases h)
  all_goals intro t
  all_goals repeat' first | exact Eq.refl _ | (with_reducible first | apply retInsn_kept | apply Kept.refl)

theorem loopInsn_kept {m : Nat} {o s : State} {e : Engine} {wc : Nat} {off : Int} (k : Kept m o s)
    (hm : 117440513 ||| m = m) : Kept m o (loopInsn e wc off s) := by
  refine k.then (a := 117440513) ?_ hm
  unfold loopInsn
  repeat' first | exact Eq.refl _ | (with_reducible first | apply modCore_kept | apply Kept.ite | apply Kept.refl)

theorem execLoop_runs {e : Engine} {s : State} : Runs 70864321473 s (execLoop e s) := by
  unfold execLoop
  refine runInsn_runs fun i g => ?_
  repeat' split
  all_goals (intro h; cases h)
  all_goals intro t
  all_goals repeat' first | exact Eq.refl _ | (with_reducible first | apply loopInsn_kept | apply Kept.refl)

theorem evtInsn_kept {m : Nat} {o s : State} {e : Engine} {code : Nat} (k : Kept m o s)
    (hm : 117440513 ||| m = m) : Kept m o (evtInsn e code s) := by
  refine k.then (a := 117440513) ?_ hm
  unfold evtInsn
  repeat' first
    | exact Eq.refl _
    | (with_reducible first
        | apply advance_kept | apply incSat_kept | apply setCore_kept | apply setF_kept | apply Kept.ite | apply Kept.refl)

theorem execEvt_runs {e : Engine} {s : State} : Runs 70864321473 s (execEvt e s) := by
  unfold execEvt
  refine runInsn_runs fun i g => ?_
  repeat' split
  all_goals (intro h; cases h)
  all_goals intro t
  all_goals repeat' first | exact Eq.refl _ | (with_reducible first | apply evtInsn_kept | apply Kept.refl)

end Sys2Proof.Machine
end

