-- ==== Sys2Proof/Laws/Memory.lean ====
section
/-! SUPPORT. For each operation and each meaning of Sys2Proof/Machine/Memory.lean: the parts of the state it may touch, and that it keeps the laws. -/

namespace Sys2Proof.Machine

set_option Elab.async false

theorem recordBad_kept {m : Nat} {o s : State} {write : Bool} {a : Nat} (k : Kept m o s)
    (hm : 262145 ||| m = m) : Kept m o (recordBad write a s) := by
  refine k.then (a := 262145) ?_ hm
  unfold recordBad
  repeat' first
    | exact Eq.refl _
    | (with_reducible first
        | apply incSat_kept | apply setB_kept | apply setF_kept | apply signalVector_kept | apply Kept.ite | apply Kept.refl)

theorem imgWrite_kept {m : Nat} {o s : State} {a : Nat} {l : List Byte} (k : Kept m o s)
    (hm : 208185834433 ||| m = m) : Kept m o (imgWrite a l s) := by
  refine k.then (a := 208185834433) ?_ hm
  unfold imgWrite
  repeat' first | exact Eq.refl _ | (with_reducible first | apply writeWord_kept | apply Kept.ite | apply Kept.forAll | apply Kept.refl) | intro _

theorem imageWindowWrite_kept {m : Nat} {o s : State} {addr size v : Nat} (k : Kept m o s)
    (hm : 208185834433 ||| m = m) : Kept m o (imageWindowWrite addr size v s) := by
  refine k.then (a := 208185834433) ?_ hm
  unfold imageWindowWrite
  repeat' first | exact Eq.refl _ | (with_reducible first | apply imgWrite_kept | apply recordBad_kept | apply Kept.ite | apply Kept.refl)

theorem execImageStoreWrite_runs {addr size value : Nat} {s : State} : Runs 208185834433 s (execImageStoreWrite addr size value s) := by
  unfold execImageStoreWrite
  refine Runs.next ?_
  repeat' first
    | exact Eq.refl _
    | (with_reducible first
        | apply hostAccess_kept | apply imageWindowWrite_kept | apply Kept.ite | apply Kept.refl)
    | intro _

theorem execMergeDrain_runs {word : Nat} {s : State} : Runs 208185834433 s (execMergeDrain word s) := by
  unfold execMergeDrain
  refine Runs.next ?_
  repeat' first | exact Eq.refl _ | (with_reducible first | apply drain_kept | apply Kept.refl) | intro _ | split

theorem ddrWrite_kept {m : Nat} {o s : State} {a : Nat} {l : List Byte} (k : Kept m o s) (hm : 343597383680 ||| m = m) : Kept m o (ddrWrite a l s) :=
  k.then (a := 343597383680) (Kept.forAll (Kept.refl _ _) fun _ _ => Kept.memory (Kept.refl _ _) rfl id (by intro h; dsimp only; exact spPut_wf _ _ _ h) (.inl rfl) (.inr rfl)) hm

theorem placeWrite_kept {m : Nat} {o s : State} {n addr : Nat} {l : List Byte} (k : Kept m o s) (hm : 483181706177 ||| m = m) :
    Kept m o (placeWrite n addr l s) := by
  refine k.then (a := 483181706177) ?_ hm
  unfold placeWrite
  split
  · exact imgWrite_kept (Kept.refl _ _) rfl
  · exact Kept.forAll (Kept.refl _ _) fun k t => dataWrite_kept (Kept.refl _ _) rfl
  · exact ddrWrite_kept (Kept.refl _ _) rfl
  · exact Kept.hostMemory (Kept.refl _ _) rfl (cellWrite_wf _ _)
  · exact Kept.refl _ _

end Sys2Proof.Machine
end

