-- ==== Sys2Proof/Laws/ProfileF.lean ====
section
/-! SUPPORT. For each operation and each meaning of Sys2Proof/Machine/ProfileF.lean: the parts of the state it may touch, and that it keeps the laws. -/

namespace Sys2Proof.Machine

set_option Elab.async false

theorem touchWatchdog_kept {m : Nat} {o s : State} {n : Nat} (k : Kept m o s)
    (hm : 16777216 ||| m = m) : Kept m o (touchWatchdog n s) := by
  refine k.then (a := 16777216) ?_ hm
  unfold touchWatchdog
  repeat' first | exact Eq.refl _ | (with_reducible first | apply setSeq_kept | apply Kept.refl)

theorem goOn_kept {m : Nat} {o s : State} {n : Nat} (k : Kept m o s)
    (hm : 117440513 ||| m = m) : Kept m o (goOn n s) := by
  refine k.then (a := 117440513) ?_ hm
  unfold goOn
  repeat' first | exact Eq.refl _ | (with_reducible first | apply advance_kept | apply modCore_kept | apply Kept.refl)

theorem finish_kept {m : Nat} {o s : State} {n : Nat} (k : Kept m o s)
    (hm : 117440513 ||| m = m) : Kept m o (finish n s) := by
  refine k.then (a := 117440513) ?_ hm
  unfold finish
  repeat' first | exact Eq.refl _ | (with_reducible first | apply goOn_kept | apply touchWatchdog_kept | apply Kept.refl)

theorem waitpInsn_kept {m : Nat} {o s : State} {n wb : Nat} {off : Int} (k : Kept m o s)
    (hm : 117440513 ||| m = m) : Kept m o (waitpInsn n wb off s) := by
  refine k.then (a := 117440513) ?_ hm
  unfold waitpInsn
  repeat' first
    | exact Eq.refl _
    | (with_reducible first
        | apply goOn_kept | apply modCore_kept | apply setSeq_kept | apply touchWatchdog_kept | apply Kept.ite | apply Kept.refl)

theorem execWaitp_runs {n : Nat} {s : State} : Runs 70864321473 s (execWaitp n s) := by
  unfold execWaitp
  refine runInsn_runs fun i g => ?_
  repeat' split
  all_goals (intro h; cases h)
  all_goals intro t
  all_goals repeat' first | exact Eq.refl _ | (with_reducible first | apply waitpInsn_kept | apply Kept.ite | apply Kept.refl)

theorem execWaitpReached_runs {n : Nat} {s : State} : Runs 117440513 s (execWaitpReached n s) := by
  unfold execWaitpReached
  refine Runs.next ?_
  repeat' first | exact Eq.refl _ | (with_reducible first | apply finish_kept | apply Kept.ite | apply Kept.refl)

theorem setZ_kept {m : Nat} {o s : State} {n : Nat} {z : Bool} (k : Kept m o s)
    (hm : 117440513 ||| m = m) : Kept m o (setZ n z s) := by
  refine k.then (a := 117440513) ?_ hm
  unfold setZ
  repeat' first | exact Eq.refl _ | (with_reducible first | apply modCore_kept | apply Kept.refl)

theorem ldcolInsn_kept {m : Nat} {o s : State} {n h j : Nat} {ue : Bool} (k : Kept m o s)
    (hm : 79454256065 ||| m = m) : Kept m o (ldcolInsn n h j ue s) := by
  refine k.then (a := 79454256065) ?_ hm
  unfold ldcolInsn
  repeat' first
    | exact Eq.refl _
    | (with_reducible first
        | apply advance_kept | apply consume_kept | apply dataLate_kept | apply dropCr_kept | apply engineRead_kept | apply flagJob_kept
        | apply incSat_kept | apply readWords_kept | apply setF_kept | apply setPath_kept | apply setSeq_kept | apply setZ_kept | apply Kept.ite
        | apply Kept.refl)
    | intro _ | split | (dsimp only)

theorem execLdcol_runs {n : Nat} {ue : Bool} {s : State} : Runs 79454256065 s (execLdcol n ue s) := by
  unfold execLdcol
  refine runInsn_runs fun i g => ?_
  repeat' split
  all_goals (intro h; cases h)
  all_goals intro t
  all_goals repeat' first | exact Eq.refl _ | (with_reducible first | apply ldcolInsn_kept | apply Kept.ite | apply Kept.refl)

theorem maskInsn_kept {m : Nat} {o s : State} {n h j row : Nat} (k : Kept m o s)
    (hm : 117440513 ||| m = m) : Kept m o (maskInsn n h j row s) := by
  refine k.then (a := 117440513) ?_ hm
  unfold maskInsn
  repeat' first | exact Eq.refl _ | (with_reducible first | apply advance_kept | apply setSeq_kept | apply Kept.ite | apply Kept.refl)

theorem execMask_runs {n : Nat} {s : State} : Runs 70864321473 s (execMask n s) := by
  unfold execMask
  refine runInsn_runs fun i g => ?_
  repeat' split
  all_goals (intro h; cases h)
  all_goals intro t
  all_goals repeat' first | exact Eq.refl _ | (with_reducible first | apply maskInsn_kept | apply Kept.refl)

theorem strobeWidth_kept {m : Nat} {o s : State} {n h g : Nat} (k : Kept m o s)
    (hm : 1048576 ||| m = m) : Kept m o (strobeWidth n h g s).2 := by
  refine k.then (a := 1048576) ?_ hm
  unfold strobeWidth
  repeat' first | exact Eq.refl _ | (with_reducible first | apply drawFree_kept | apply Kept.ite | apply Kept.refl) | intro _ | split | (dsimp only)

theorem enrgInsn_kept {m : Nat} {o s : State} {n h rd wg : Nat} (k : Kept m o s)
    (hm : 118489089 ||| m = m) : Kept m o (enrgInsn n h rd wg s) := by
  refine k.then (a := 118489089) ?_ hm
  unfold enrgInsn
  repeat' first
    | exact Eq.refl _
    | (with_reducible first
        | apply advance_kept | apply putW_kept | apply setZ_kept | apply strobeWidth_kept | apply Kept.refl)

theorem execEnrg_runs {n : Nat} {s : State} : Runs 70864321473 s (execEnrg n s) := by
  unfold execEnrg
  refine runInsn_runs fun i g => ?_
  repeat' split
  all_goals (intro h; cases h)
  all_goals intro t
  all_goals repeat' first | exact Eq.refl _ | (with_reducible first | apply enrgInsn_kept | apply Kept.refl)

theorem setPhase_kept {m : Nat} {o s : State} {n h : Nat} {x : Int} (k : Kept m o s)
    (hm : 251658241 ||| m = m) : Kept m o (setPhase n h x s) := by
  refine k.then (a := 251658241) ?_ hm
  unfold setPhase
  repeat' first | exact Eq.refl _ | (with_reducible first | apply advance_kept | apply setPath_kept | apply Kept.refl)

theorem execGrpAdv_runs {n : Nat} {s : State} : Runs 70864321473 s (execGrpAdv n s) := by
  unfold execGrpAdv
  refine runInsn_runs fun i g => ?_
  repeat' split
  all_goals (intro h; cases h)
  all_goals intro t
  all_goals repeat' first | exact Eq.refl _ | (with_reducible first | apply setPhase_kept | apply Kept.refl)

theorem execGrpSet_runs {n : Nat} {s : State} : Runs 70864321473 s (execGrpSet n s) := by
  unfold execGrpSet
  refine runInsn_runs fun i g => ?_
  repeat' split
  all_goals (intro h; cases h)
  all_goals intro t
  all_goals repeat' first | exact Eq.refl _ | (with_reducible first | apply setPhase_kept | apply Kept.refl)

theorem execGrpGet_runs {n : Nat} {s : State} : Runs 70864321473 s (execGrpGet n s) := by
  unfold execGrpGet
  refine runInsn_runs fun i g => ?_
  repeat' split
  all_goals (intro h; cases h)
  all_goals intro t
  all_goals repeat' first | exact Eq.refl _ | (with_reducible first | apply loadReg_kept | apply Kept.refl)

theorem showFires_kept {m : Nat} {o s : State} (k : Kept m o s)
    (hm : 1 ||| m = m) : Kept m o (showFires s) := by
  refine k.then (a := 1) ?_ hm
  unfold showFires
  repeat' first | exact Eq.refl _ | (with_reducible first | apply State.setReg_kept | apply Kept.forAll | apply Kept.refl) | intro _

theorem countFire_kept {m : Nat} {o s : State} {h g : Nat} (k : Kept m o s)
    (hm : 4294967297 ||| m = m) : Kept m o (countFire h g s) := by
  refine k.then (a := 4294967297) ?_ hm
  unfold countFire
  repeat' first | exact Eq.refl _ | (with_reducible first | apply modPort_kept | apply showFires_kept | apply Kept.refl)

theorem driveStrobe_kept {m : Nat} {o s : State} {h g w : Nat} (k : Kept m o s)
    (hm : 4303355905 ||| m = m) : Kept m o (driveStrobe h g w s) := by
  refine k.then (a := 4303355905) ?_ hm
  unfold driveStrobe
  repeat' first | exact Eq.refl _ | (with_reducible first | apply countFire_kept | apply modPort_kept | apply send_kept | apply Kept.refl)

theorem startStrobe_kept {m : Nat} {o s : State} {h g w : Nat} (k : Kept m o s)
    (hm : 4303355905 ||| m = m) : Kept m o (startStrobe h g w s) := by
  refine k.then (a := 4303355905) ?_ hm
  unfold startStrobe
  repeat' first | exact Eq.refl _ | (with_reducible first | apply driveStrobe_kept | apply Kept.refl)

theorem startGroups_kept {m : Nat} {o s : State} {h w : Nat} {left : List Nat} (k : Kept m o s) (hm : 4303355905 ||| m = m) :
    Kept m o (startGroups h w left s).2 := by
  induction left generalizing s with
  | nil => exact k
  | cons g t ih =>
    unfold startGroups
    split
    · exact ih (startStrobe_kept k hm)
    · exact k

theorem strobeOn_kept {m : Nat} {o s : State} {n h : Nat} {left : List Nat} {w : Nat} (k : Kept m o s)
    (hm : 4420796417 ||| m = m) : Kept m o (strobeOn n h left w s) := by
  refine k.then (a := 4420796417) ?_ hm
  unfold strobeOn
  repeat' first
    | exact Eq.refl _
    | (with_reducible first
        | apply goOn_kept | apply modCore_kept | apply startGroups_kept | apply touchWatchdog_kept | apply Kept.ite | apply Kept.doIf
        | apply Kept.refl)
    | intro _ | split

theorem strbInsn_kept {m : Nat} {o s : State} {n h wm ww : Nat} (k : Kept m o s)
    (hm : 4420796417 ||| m = m) : Kept m o (strbInsn n h wm ww s) := by
  refine k.then (a := 4420796417) ?_ hm
  unfold strbInsn
  repeat' first | exact Eq.refl _ | (with_reducible first | apply goOn_kept | apply strobeOn_kept | apply Kept.ite | apply Kept.refl)

theorem execStrb_runs {n : Nat} {s : State} : Runs 75159288769 s (execStrb n s) := by
  unfold execStrb
  refine runInsn_runs fun i g => ?_
  repeat' split
  all_goals (intro h; cases h)
  all_goals intro t
  all_goals repeat' first | exact Eq.refl _ | (with_reducible first | apply strbInsn_kept | apply Kept.refl)

theorem execStrbGroupStart_runs {n : Nat} {s : State} : Runs 4420796417 s (execStrbGroupStart n s) := by
  unfold execStrbGroupStart
  refine Runs.next ?_
  repeat' first | exact Eq.refl _ | (with_reducible first | apply strobeOn_kept | apply Kept.ite | apply Kept.refl) | intro _ | split

theorem execStrobeEnd_runs {h g : Nat} {s : State} : Runs 4294967296 s (execStrobeEnd h g s) := by
  unfold execStrobeEnd
  refine Runs.next ?_
  repeat' first | exact Eq.refl _ | (with_reducible first | apply modPort_kept | apply Kept.refl)

theorem execWfselGet_runs {n : Nat} {s : State} : Runs 70864321473 s (execWfselGet n s) := by
  unfold execWfselGet
  refine runInsn_runs fun i g => ?_
  repeat' split
  all_goals (intro h; cases h)
  all_goals intro t
  all_goals repeat' first | exact Eq.refl _ | (with_reducible first | apply loadReg_kept | apply Kept.ite | apply Kept.refl)

theorem execWfselSet_runs {n : Nat} {s : State} : Runs 70864321473 s (execWfselSet n s) := by
  unfold execWfselSet
  refine runInsn_runs fun i g => ?_
  repeat' split
  all_goals (intro h; cases h)
  all_goals intro t
  all_goals repeat' first | exact Eq.refl _ | (with_reducible first | apply advance_kept | apply setPath_kept | apply Kept.ite | apply Kept.refl)

theorem skipColumn_kept {m : Nat} {o s : State} {n h j : Nat} (k : Kept m o s)
    (hm : 8841593409 ||| m = m) : Kept m o (skipColumn n h j s) := by
  refine k.then (a := 8841593409) ?_ hm
  unfold skipColumn
  repeat' first
    | exact Eq.refl _
    | (with_reducible first
        | apply consume_kept | apply earlyLate_kept | apply firstColumn_kept | apply flagJob_kept | apply goOn_kept | apply incSat_kept
        | apply modCore_kept | apply noteOverrun_kept | apply setSeq_kept | apply Kept.refl)
    | intro _ | split

theorem colInsn_kept {m : Nat} {o s : State} {n h j : Nat} (k : Kept m o s)
    (hm : 8841593409 ||| m = m) : Kept m o (colInsn n h j s) := by
  refine k.then (a := 8841593409) ?_ hm
  unfold colInsn
  repeat' first
    | exact Eq.refl _
    | (with_reducible first
        | apply modCore_kept | apply skipColumn_kept | apply touchWatchdog_kept | apply Kept.ite | apply Kept.refl)

theorem execCol_runs {n : Nat} {s : State} : Runs 79454256065 s (execCol n s) := by
  unfold execCol
  refine runInsn_runs fun i g => ?_
  repeat' split
  all_goals (intro h; cases h)
  all_goals intro t
  all_goals repeat' first | exact Eq.refl _ | (with_reducible first | apply colInsn_kept | apply Kept.refl)

theorem sendFrame_kept {m : Nat} {o s : State} {h : Nat} {test : Bool} {payload : List Byte} (k : Kept m o s)
    (hm : 4304404480 ||| m = m) : Kept m o (sendFrame h test payload s) := by
  refine k.then (a := 4304404480) ?_ hm
  unfold sendFrame
  repeat' first
    | exact Eq.refl _
    | (with_reducible first
        | apply drawFree_kept | apply send_kept | apply setPort_kept | apply Kept.ite | apply Kept.refl)

theorem portTake_kept {m : Nat} {o s : State} {h j : Nat} {cr : List Byte} (k : Kept m o s)
    (hm : 4304405057 ||| m = m) : Kept m o (portTake h j cr s) := by
  refine k.then (a := 4304405057) ?_ hm
  unfold portTake
  repeat' first
    | exact Eq.refl _
    | (with_reducible first
        | apply dropLine_kept | apply modPort_kept | apply sendFrame_kept | apply Kept.ite | apply Kept.refl)

theorem elongation_kept {m : Nat} {o s : State} {n h : Nat} (k : Kept m o s)
    (hm : 1048576 ||| m = m) : Kept m o (elongation n h s).2 := by
  refine k.then (a := 1048576) ?_ hm
  unfold elongation
  repeat' first | exact Eq.refl _ | (with_reducible first | apply drawFree_kept | apply Kept.ite | apply Kept.refl) | intro _ | split | (dsimp only)

theorem classify_kept {m : Nat} {o s : State} {n h j : Nat} (k : Kept m o s)
    (hm : 135266880 ||| m = m) : Kept m o (classify n h j s) := by
  refine k.then (a := 135266880) ?_ hm
  unfold classify
  repeat' first
    | exact Eq.refl _
    | (with_reducible first
        | apply elongation_kept | apply modJob_kept | apply setPath_kept | apply Kept.ite | apply Kept.refl)
    | intro _ | split | (dsimp only)

theorem emitColumn_kept {m : Nat} {o s : State} {n h j : Nat} (k : Kept m o s)
    (hm : 13150692033 ||| m = m) : Kept m o (emitColumn n h j s) := by
  refine k.then (a := 13150692033) ?_ hm
  unfold emitColumn
  repeat' first
    | exact Eq.refl _
    | (with_reducible first
        | apply addMod_kept | apply classify_kept | apply consume_kept | apply earlyLate_kept | apply finish_kept | apply firstColumn_kept
        | apply firstEmission_kept | apply modJob_kept | apply portTake_kept | apply setPath_kept | apply setSeq_kept | apply Kept.ite
        | apply Kept.refl)
    | intro _ | split

theorem execColEmit_runs {n : Nat} {s : State} : Runs 13150692033 s (execColEmit n s) := by
  unfold execColEmit
  refine Runs.next ?_
  repeat' first | exact Eq.refl _ | (with_reducible first | apply emitColumn_kept | apply Kept.ite | apply Kept.refl) | intro _ | split

theorem ckptInsn_kept {m : Nat} {o s : State} {n h wc : Nat} {bad : Bool} (k : Kept m o s)
    (hm : 75158236097 ||| m = m) : Kept m o (ckptInsn n h wc bad s) := by
  refine k.then (a := 75158236097) ?_ hm
  unfold ckptInsn
  repeat' first
    | exact Eq.refl _
    | (with_reducible first
        | apply advance_kept | apply seqFault_kept | apply setPath_kept | apply writeCkpt_kept | apply Kept.ite | apply Kept.refl)

theorem execCkpt_runs {n : Nat} {bad : Bool} {s : State} : Runs 75159288769 s (execCkpt n bad s) := by
  unfold execCkpt
  refine runInsn_runs fun i g => ?_
  repeat' split
  all_goals (intro h; cases h)
  all_goals intro t
  all_goals repeat' first | exact Eq.refl _ | (with_reducible first | apply ckptInsn_kept | apply Kept.refl)

theorem stretchPut_kept {m : Nat} {o s : State} {n rd : Nat} {x : Word} (k : Kept m o s)
    (hm : 117440513 ||| m = m) : Kept m o (stretchPut n rd x s) := by
  refine k.then (a := 117440513) ?_ hm
  unfold stretchPut
  repeat' first | exact Eq.refl _ | (with_reducible first | apply loadReg_kept | apply setZ_kept | apply Kept.refl)

theorem execStretchLep_runs {n : Nat} {s : State} : Runs 70864321473 s (execStretchLep n s) := by
  unfold execStretchLep
  refine runInsn_runs fun i g => ?_
  unfold onStretch
  repeat' split
  all_goals (intro h; cases h)
  all_goals intro t
  all_goals repeat' first | exact Eq.refl _ | (with_reducible first | apply stretchPut_kept | apply Kept.refl)

theorem execStretchNext_runs {n : Nat} {s : State} : Runs 70864321473 s (execStretchNext n s) := by
  unfold execStretchNext
  refine runInsn_runs fun i g => ?_
  unfold onStretch
  repeat' split
  all_goals (intro h; cases h)
  all_goals intro t
  all_goals repeat' first | exact Eq.refl _ | (with_reducible first | apply stretchPut_kept | apply Kept.refl)

theorem execStretchRatio_runs {n : Nat} {s : State} : Runs 70864321473 s (execStretchRatio n s) := by
  unfold execStretchRatio
  refine runInsn_runs fun i g => ?_
  unfold onStretch
  repeat' split
  all_goals (intro h; cases h)
  all_goals intro t
  all_goals repeat' first | exact Eq.refl _ | (with_reducible first | apply elongation_kept | apply stretchPut_kept | apply Kept.refl)

theorem execStretchState_runs {n : Nat} {s : State} : Runs 70864321473 s (execStretchState n s) := by
  unfold execStretchState
  refine runInsn_runs fun i g => ?_
  unfold onStretch
  repeat' split
  all_goals (intro h; cases h)
  all_goals intro t
  all_goals repeat' first | exact Eq.refl _ | (with_reducible first | apply stretchPut_kept | apply Kept.refl)

end Sys2Proof.Machine
end

