-- ==== Sys2Proof/Laws/ProfileL.lean ====
section
/-! SUPPORT. For each operation and each meaning of Sys2Proof/Machine/ProfileL.lean: the parts of the state it may touch, and that it keeps the laws. -/

namespace Sys2Proof.Machine

set_option Elab.async false

theorem read2_kept {m : Nat} {o s : State} {e : Engine} {a b : RegRef} (k : Kept m o s)
    (hm : 118489089 ||| m = m) : Kept m o (read2 e a b s).2.2 := by
  refine k.then (a := 118489089) ?_ hm
  unfold read2
  repeat' first | exact Eq.refl _ | (with_reducible first | apply readReg_kept | apply Kept.refl)

theorem mulInsn_kept {m : Nat} {o s : State} {e : Engine} {sh : Nat} {rnd : Bool} {rd a b : RegRef} (k : Kept m o s)
    (hm : 118489089 ||| m = m) : Kept m o (mulInsn e sh rnd rd a b s) := by
  refine k.then (a := 118489089) ?_ hm
  unfold mulInsn
  repeat' first
    | exact Eq.refl _
    | (with_reducible first
        | apply advance_kept | apply read2_kept | apply writeRes_kept | apply Kept.ite | apply Kept.refl)

theorem execMul_runs {n : Nat} {s : State} : Runs 70864321473 s (execMul n s) := by
  unfold execMul
  refine runInsn_runs fun i g => ?_
  repeat' split
  all_goals (intro h; cases h)
  all_goals intro t
  all_goals repeat' first | exact Eq.refl _ | (with_reducible first | apply mulInsn_kept | apply Kept.refl)

theorem setAcc_kept {m : Nat} {o s : State} {n : Nat} {exact : Int} (k : Kept m o s)
    (hm : 117440513 ||| m = m) : Kept m o (setAcc n exact s) := by
  refine k.then (a := 117440513) ?_ hm
  unfold setAcc
  repeat' first
    | exact Eq.refl _
    | (with_reducible first
        | apply modCore_kept | apply modCtl_kept | apply noteSaturation_kept | apply Kept.doIf | apply Kept.refl)
    | intro _

theorem macInsn_kept {m : Nat} {o s : State} {n : Nat} {f : Int → Int → Int} {a b : RegRef} (k : Kept m o s)
    (hm : 118489089 ||| m = m) : Kept m o (macInsn n f a b s) := by
  refine k.then (a := 118489089) ?_ hm
  unfold macInsn
  repeat' first | exact Eq.refl _ | (with_reducible first | apply advance_kept | apply read2_kept | apply setAcc_kept | apply Kept.refl)

theorem execMacAcc_runs {n : Nat} {s : State} : Runs 70864321473 s (execMacAcc n s) := by
  unfold execMacAcc
  refine runInsn_runs fun i g => ?_
  repeat' split
  all_goals (intro h; cases h)
  all_goals intro t
  all_goals repeat' first | exact Eq.refl _ | (with_reducible first | apply macInsn_kept | apply Kept.refl)

theorem execMacSet_runs {n : Nat} {s : State} : Runs 70864321473 s (execMacSet n s) := by
  unfold execMacSet
  refine runInsn_runs fun i g => ?_
  repeat' split
  all_goals (intro h; cases h)
  all_goals intro t
  all_goals repeat' first | exact Eq.refl _ | (with_reducible first | apply macInsn_kept | apply Kept.refl)

theorem execMacSub_runs {n : Nat} {s : State} : Runs 70864321473 s (execMacSub n s) := by
  unfold execMacSub
  refine runInsn_runs fun i g => ?_
  repeat' split
  all_goals (intro h; cases h)
  all_goals intro t
  all_goals repeat' first | exact Eq.refl _ | (with_reducible first | apply macInsn_kept | apply Kept.refl)

theorem macReadInsn_kept {m : Nat} {o s : State} {n sh : Nat} {rd : RegRef} (k : Kept m o s)
    (hm : 117440513 ||| m = m) : Kept m o (macReadInsn n sh rd s) := by
  refine k.then (a := 117440513) ?_ hm
  unfold macReadInsn
  repeat' first | exact Eq.refl _ | (with_reducible first | apply advance_kept | apply writeRes_kept | apply Kept.refl)

theorem execMacRead_runs {n : Nat} {s : State} : Runs 70864321473 s (execMacRead n s) := by
  unfold execMacRead
  refine runInsn_runs fun i g => ?_
  repeat' split
  all_goals (intro h; cases h)
  all_goals intro t
  all_goals repeat' first | exact Eq.refl _ | (with_reducible first | apply macReadInsn_kept | apply Kept.refl)

theorem limInsn_kept {m : Nat} {o s : State} {e : Engine} {rd a b : RegRef} (k : Kept m o s)
    (hm : 118489089 ||| m = m) : Kept m o (limInsn e rd a b s) := by
  refine k.then (a := 118489089) ?_ hm
  unfold limInsn
  repeat' first
    | exact Eq.refl _
    | (with_reducible first
        | apply advance_kept | apply read2_kept | apply readReg_kept | apply writeRes_kept | apply Kept.refl)

theorem execLim_runs {n : Nat} {s : State} : Runs 70864321473 s (execLim n s) := by
  unfold execLim
  refine runInsn_runs fun i g => ?_
  repeat' split
  all_goals (intro h; cases h)
  all_goals intro t
  all_goals repeat' first | exact Eq.refl _ | (with_reducible first | apply limInsn_kept | apply Kept.refl)

theorem minsInsn_kept {m : Nat} {o s : State} {e : Engine} {rd a b : RegRef} (k : Kept m o s)
    (hm : 118489089 ||| m = m) : Kept m o (minsInsn e rd a b s) := by
  refine k.then (a := 118489089) ?_ hm
  unfold minsInsn
  repeat' first
    | exact Eq.refl _
    | (with_reducible first
        | apply advance_kept | apply read2_kept | apply writeRes_kept | apply Kept.ite | apply Kept.refl)

theorem execMins_runs {n : Nat} {s : State} : Runs 70864321473 s (execMins n s) := by
  unfold execMins
  refine runInsn_runs fun i g => ?_
  repeat' split
  all_goals (intro h; cases h)
  all_goals intro t
  all_goals repeat' first | exact Eq.refl _ | (with_reducible first | apply minsInsn_kept | apply Kept.refl)

theorem preInsn_kept {m : Nat} {o s : State} {e : Engine} {cond : Bool} {rd a b : RegRef} (k : Kept m o s)
    (hm : 118489089 ||| m = m) : Kept m o (preInsn e cond rd a b s) := by
  refine k.then (a := 118489089) ?_ hm
  unfold preInsn
  repeat' first
    | exact Eq.refl _
    | (with_reducible first
        | apply advance_kept | apply read2_kept | apply writeRes_kept | apply Kept.ite | apply Kept.refl)

theorem execPre_runs {n : Nat} {s : State} : Runs 70864321473 s (execPre n s) := by
  unfold execPre
  refine runInsn_runs fun i g => ?_
  repeat' split
  all_goals (intro h; cases h)
  all_goals intro t
  all_goals repeat' first | exact Eq.refl _ | (with_reducible first | apply preInsn_kept | apply Kept.refl)

theorem diffInsn_kept {m : Nat} {o s : State} {e : Engine} {rd a : RegRef} {w2 : Nat} (k : Kept m o s)
    (hm : 118489089 ||| m = m) : Kept m o (diffInsn e rd a w2 s) := by
  refine k.then (a := 118489089) ?_ hm
  unfold diffInsn
  repeat' first
    | exact Eq.refl _
    | (with_reducible first
        | apply advance_kept | apply putW_kept | apply read2_kept | apply writeRes_kept | apply Kept.refl)

theorem execDiff_runs {n : Nat} {s : State} : Runs 70864321473 s (execDiff n s) := by
  unfold execDiff
  refine runInsn_runs fun i g => ?_
  repeat' split
  all_goals (intro h; cases h)
  all_goals intro t
  all_goals repeat' first | exact Eq.refl _ | (with_reducible first | apply diffInsn_kept | apply Kept.refl)

theorem tbliInsn_kept {m : Nat} {o s : State} {e : Engine} {rd a : RegRef} {an : Nat} (k : Kept m o s)
    (hm : 83749223361 ||| m = m) : Kept m o (tbliInsn e rd a an s) := by
  refine k.then (a := 83749223361) ?_ hm
  unfold tbliInsn
  repeat' first
    | exact Eq.refl _
    | (with_reducible first
        | apply advance_kept | apply eccIllegal_kept | apply readReg_kept | apply readWords_kept | apply writeRes_kept | apply Kept.ite
        | apply Kept.refl)
    | intro _ | split | (dsimp only)

theorem execTbli_runs {n : Nat} {s : State} : Runs 83749223361 s (execTbli n s) := by
  unfold execTbli
  refine runInsn_runs fun i g => ?_
  repeat' split
  all_goals (intro h; cases h)
  all_goals intro t
  all_goals repeat' first | exact Eq.refl _ | (with_reducible first | apply tbliInsn_kept | apply Kept.refl)

theorem feedbackFault_kept {m : Nat} {o s : State} {n xi : Nat} (k : Kept m o s)
    (hm : 33554433 ||| m = m) : Kept m o (feedbackFault n xi s) := by
  refine k.then (a := 33554433) ?_ hm
  unfold feedbackFault
  repeat' first
    | exact Eq.refl _
    | (with_reducible first
        | apply modCtl_kept | apply noteRaised_kept | apply safeCause_kept | apply setF_kept | apply Kept.ite | apply Kept.refl)

theorem freshInsn_kept {msk : Nat} {o s : State} {n rd xi ws k m : Nat} (hk : Kept msk o s)
    (hm : 117440513 ||| msk = msk) : Kept msk o (freshInsn n rd xi ws k m s) := by
  refine hk.then (a := 117440513) ?_ hm
  unfold freshInsn
  repeat' first
    | exact Eq.refl _
    | (with_reducible first
        | apply advance_kept | apply feedbackFault_kept | apply modCore_kept | apply putW_kept | apply setF_kept | apply Kept.ite | apply Kept.doIf
        | apply Kept.refl)
    | intro _

theorem execFresh_runs {n : Nat} {s : State} : Runs 70864321473 s (execFresh n s) := by
  unfold execFresh
  refine runInsn_runs fun i g => ?_
  repeat' split
  all_goals (intro h; cases h)
  all_goals intro t
  all_goals repeat' first | exact Eq.refl _ | (with_reducible first | apply freshInsn_kept | apply Kept.refl)

theorem haltCycle_kept {m : Nat} {o s : State} {n : Nat} (k : Kept m o s)
    (hm : 33554433 ||| m = m) : Kept m o (haltCycle n s) := by
  refine k.then (a := 33554433) ?_ hm
  unfold haltCycle
  repeat' first
    | exact Eq.refl _
    | (with_reducible first
        | apply commitY_kept | apply cycleEnd_kept | apply modCtl_kept | apply setEngState_kept | apply setF_kept | apply Kept.forAll
        | apply Kept.refl)
    | intro _

end Sys2Proof.Machine
end

