-- ==== Sys2Proof/Laws/ProfileM.lean ====
section
/-! SUPPORT. For each operation and each meaning of Sys2Proof/Machine/ProfileM.lean: the parts of the state it may touch, and that it keeps the laws. -/

namespace Sys2Proof.Machine

set_option Elab.async false

theorem modMover_kept {m : Nat} {o s : State} {n : Nat} {f : Mover → Mover} (k : Kept m o s)
    (hm : 67108864 ||| m = m) : Kept m o (modMover n f s) := by
  refine k.then (a := 67108864) ?_ hm
  unfold modMover
  repeat' first | exact Eq.refl _ | (with_reducible first | apply setMover_kept | apply Kept.refl)

theorem showQueue_kept {m : Nat} {o s : State} {n : Nat} (k : Kept m o s)
    (hm : 1 ||| m = m) : Kept m o (showQueue n s) := by
  refine k.then (a := 1) ?_ hm
  unfold showQueue
  repeat' first | exact Eq.refl _ | (with_reducible first | apply setF_kept | apply Kept.refl)

theorem finishMover_kept {m : Nat} {o s : State} {n : Nat} (k : Kept m o s)
    (hm : 117440513 ||| m = m) : Kept m o (finishMover n s) := by
  refine k.then (a := 117440513) ?_ hm
  unfold finishMover
  repeat' first
    | exact Eq.refl _
    | (with_reducible first
        | apply advance_kept | apply modCore_kept | apply setEngState_kept | apply Kept.doIf | apply Kept.refl)
    | intro _

theorem moveFailed_kept {m : Nat} {o s : State} {n addr why : Nat} (k : Kept m o s)
    (hm : 122028033 ||| m = m) : Kept m o (moveFailed n addr why s) := by
  refine k.then (a := 122028033) ?_ hm
  unfold moveFailed
  repeat' first | exact Eq.refl _ | (with_reducible first | apply moverFault_kept | apply recordIllegal_kept | apply setF_kept | apply Kept.refl)

theorem beginMove_kept {m : Nat} {o s : State} {n : Nat} (k : Kept m o s)
    (hm : 67108864 ||| m = m) : Kept m o (beginMove n s) := by
  refine k.then (a := 67108864) ?_ hm
  unfold beginMove
  repeat' first | exact Eq.refl _ | (with_reducible first | apply modMover_kept | apply Kept.refl)

theorem queueMove_kept {msk : Nat} {o s : State} {n : Nat} {m : Move} {block : Bool} (k : Kept msk o s)
    (hm : 122028033 ||| msk = msk) : Kept msk o (queueMove n m block s) := by
  refine k.then (a := 122028033) ?_ hm
  unfold queueMove
  repeat' first
    | exact Eq.refl _
    | (with_reducible first
        | apply beginMove_kept | apply finishMover_kept | apply modCore_kept | apply modMover_kept | apply moveFailed_kept | apply showQueue_kept
        | apply Kept.ite | apply Kept.refl)
    | intro _ | split

theorem movInsn_kept {m : Nat} {o s : State} {n wd ws wn : Nat} {block : Bool} (k : Kept m o s)
    (hm : 122028033 ||| m = m) : Kept m o (movInsn n wd ws wn block s) := by
  refine k.then (a := 122028033) ?_ hm
  unfold movInsn
  repeat' first
    | exact Eq.refl _
    | (with_reducible first
        | apply advance_kept | apply modCore_kept | apply queueMove_kept | apply Kept.ite | apply Kept.refl)

theorem execMov_runs {n : Nat} {s : State} : Runs 70864321473 s (execMov n s) := by
  unfold execMov
  refine runInsn_runs fun i g => ?_
  repeat' split
  all_goals (intro h; cases h)
  all_goals intro t
  all_goals repeat' first | exact Eq.refl _ | (with_reducible first | apply movInsn_kept | apply Kept.refl)

theorem execMovb_runs {n : Nat} {s : State} : Runs 70864321473 s (execMovb n s) := by
  unfold execMovb
  refine runInsn_runs fun i g => ?_
  repeat' split
  all_goals (intro h; cases h)
  all_goals intro t
  all_goals repeat' first | exact Eq.refl _ | (with_reducible first | apply movInsn_kept | apply Kept.refl)

theorem movbDone_kept {m : Nat} {o s : State} {n : Nat} (k : Kept m o s)
    (hm : 208303274945 ||| m = m) : Kept m o (movbDone n s) := by
  refine k.then (a := 208303274945) ?_ hm
  unfold movbDone
  repeat' first
    | exact Eq.refl _
    | (with_reducible first
        | apply drain_kept | apply finishMover_kept | apply modMover_kept | apply Kept.ite | apply Kept.forAll | apply Kept.refl)
    | intro _ | split | (dsimp only)

theorem execMovbDone_runs {n : Nat} {s : State} : Runs 208303274945 s (execMovbDone n s) := by
  unfold execMovbDone
  refine Runs.next ?_
  repeat' first | exact Eq.refl _ | (with_reducible first | apply movbDone_kept | apply Kept.ite | apply Kept.refl)

theorem takeEvents_kept {m : Nat} {o s : State} {n rd mask : Nat} (k : Kept m o s)
    (hm : 117440513 ||| m = m) : Kept m o (takeEvents n rd mask s) := by
  refine k.then (a := 117440513) ?_ hm
  unfold takeEvents
  repeat' first | exact Eq.refl _ | (with_reducible first | apply finishMover_kept | apply modCore_kept | apply putW_kept | apply Kept.refl)

theorem waitInsn_kept {m : Nat} {o s : State} {n rd mask : Nat} (k : Kept m o s)
    (hm : 117440513 ||| m = m) : Kept m o (waitInsn n rd mask s) := by
  refine k.then (a := 117440513) ?_ hm
  unfold waitInsn
  repeat' first | exact Eq.refl _ | (with_reducible first | apply modCore_kept | apply takeEvents_kept | apply Kept.ite | apply Kept.refl)

theorem execWait_runs {n : Nat} {s : State} : Runs 70864321473 s (execWait n s) := by
  unfold execWait
  refine runInsn_runs fun i g => ?_
  repeat' split
  all_goals (intro h; cases h)
  all_goals intro t
  all_goals repeat' first | exact Eq.refl _ | (with_reducible first | apply waitInsn_kept | apply Kept.refl)

theorem execWaitWake_runs {n : Nat} {s : State} : Runs 117440513 s (execWaitWake n s) := by
  unfold execWaitWake
  refine Runs.next ?_
  repeat' first | exact Eq.refl _ | (with_reducible first | apply takeEvents_kept | apply Kept.ite | apply Kept.refl) | intro _ | split

theorem sigInsn_kept {m : Nat} {o s : State} {n kind signal idx : Nat} (k : Kept m o s)
    (hm : 117440513 ||| m = m) : Kept m o (sigInsn n kind signal idx s) := by
  refine k.then (a := 117440513) ?_ hm
  unfold sigInsn
  repeat' first | exact Eq.refl _ | (with_reducible first | apply advance_kept | apply setEvi_kept | apply Kept.refl)

theorem execSig_runs {n : Nat} {s : State} : Runs 70864321473 s (execSig n s) := by
  unfold execSig
  refine runInsn_runs fun i g => ?_
  repeat' split
  all_goals (intro h; cases h)
  all_goals intro t
  all_goals repeat' first | exact Eq.refl _ | (with_reducible first | apply sigInsn_kept | apply Kept.refl)

theorem copyPiece_kept {msk : Nat} {o s : State} {n : Nat} {m : Move} {p : Nat × Nat} (k : Kept msk o s)
    (hm : 483181706177 ||| msk = msk) : Kept msk o (copyPiece n m p s) := by
  refine k.then (a := 483181706177) ?_ hm
  unfold copyPiece
  repeat' first | exact Eq.refl _ | (with_reducible first | apply addMod_kept | apply modMover_kept | apply placeWrite_kept | apply Kept.refl)

theorem movePiece_kept {msk : Nat} {o s : State} {n : Nat} {m : Move} {p : Nat × Nat} (k : Kept msk o s)
    (hm : 483181706177 ||| msk = msk) : Kept msk o (movePiece n m p s).1 := by
  refine k.then (a := 483181706177) ?_ hm
  unfold movePiece
  repeat' first
    | exact Eq.refl _
    | (with_reducible first
        | apply copyPiece_kept | apply readWords_kept | apply Kept.doIf | apply Kept.refl)
    | intro _ | split

theorem pieceEnv_kept {msk : Nat} {o s : State} {n : Nat} {m : Move} {p : Nat × Nat} {ecc : Bool} (k : Kept msk o s)
    (hm : 2027404225 ||| msk = msk) : Kept msk o (pieceEnv n m p ecc s).1 := by
  refine k.then (a := 2027404225) ?_ hm
  unfold pieceEnv
  repeat' first | exact Eq.refl _ | (with_reducible first | apply ddrUe_kept | apply memUe_kept | apply Kept.ite | apply Kept.refl) | intro _ | split

theorem copyPieces_kept {m : Nat} {o s : State} {n : Nat} {mv : Move} {env : Option (Nat × Bool)} {l : List (Nat × Nat)} {i : Nat}
    (k : Kept m o s) (hm : 483181706177 ||| m = m) : Kept m o (copyPieces n mv env l i s).1 := by
  refine k.then (a := 483181706177) ?_ hm
  clear k hm o m
  induction l generalizing s i with
  | nil => exact Kept.refl _ _
  | cons p t ih =>
    unfold copyPieces
    have e := movePiece_kept (n := n) (m := mv) (p := p) (Kept.refl 483181706177 s) rfl
    split
    · exact pieceEnv_kept (Kept.refl _ _) rfl
    · split
      · next s1 f h => rw [h] at e; exact e
      · next s1 h => rw [h] at e; exact e.then ih rfl

theorem readBack_kept {m : Nat} {o : State} {n : Nat} {mv : Move} {env : Option (Nat × Bool)} {pieces : Nat} {r : State × Option (Nat × Nat)}
    (k : Kept m o r.1) : Kept m o (readBack n mv env pieces r).1 := by
  unfold readBack
  repeat' first | exact k | split | dsimp only

theorem placeFreed_kept {m : Nat} {o s : State} {n : Nat} (k : Kept m o s)
    (hm : 122028033 ||| m = m) : Kept m o (placeFreed n s) := by
  refine k.then (a := 122028033) ?_ hm
  unfold placeFreed
  repeat' first
    | exact Eq.refl _
    | (with_reducible first
        | apply modCore_kept | apply queueMove_kept | apply Kept.ite | apply Kept.refl)
    | intro _ | split | (dsimp only)

theorem moveComplete_kept {m : Nat} {o s : State} {n : Nat} {env : Option (Nat × Bool)} (k : Kept m o s)
    (hm : 483181706177 ||| m = m) : Kept m o (moveComplete n env s) := by
  refine k.then (a := 483181706177) ?_ hm
  unfold moveComplete
  repeat' first
    | exact Eq.refl _
    | (with_reducible first
        | apply addMod_kept | apply beginMove_kept | apply copyPieces_kept | apply modMover_kept | apply moveFailed_kept | apply placeFreed_kept
        | apply readBack_kept | apply showQueue_kept | apply Kept.ite | apply Kept.refl)
    | intro _ | split | (dsimp only)

theorem execMoveComplete_runs {n : Nat} {env : Option (Nat × Bool)} {s : State} : Runs 483181706177 s (execMoveComplete n env s) := by
  unfold execMoveComplete
  refine Runs.next ?_
  repeat' first | exact Eq.refl _ | (with_reducible first | apply moveComplete_kept | apply Kept.ite | apply Kept.refl)

theorem haltInsn_kept {m : Nat} {o s : State} {e : Engine} (k : Kept m o s)
    (hm : 1875356609 ||| m = m) : Kept m o (haltInsn e s) := by
  refine k.then (a := 1875356609) ?_ hm
  unfold haltInsn
  repeat' first
    | exact Eq.refl _
    | (with_reducible first
        | apply haltCycle_kept | apply haltJob_kept | apply setEngState_kept | apply Kept.refl)
    | intro _ | split

theorem execHalt_runs {e : Engine} {s : State} : Runs 70864321473 s (execHalt e s) := by
  unfold execHalt
  refine runInsn_runs fun i g => ?_
  repeat' split
  all_goals (intro h; cases h)
  all_goals intro t
  all_goals repeat' first | exact Eq.refl _ | (with_reducible first | apply haltInsn_kept | apply Kept.refl)

end Sys2Proof.Machine
end

