-- ==== Sys2Proof/Laws/HeadPorts.lean ====
section
/-! SUPPORT. For each operation and each meaning of Sys2Proof/Machine/HeadPorts.lean: the parts of the state it may touch, and that it keeps the laws. -/

namespace Sys2Proof.Machine

set_option Elab.async false

theorem becamePresent_kept {m : Nat} {o s : State} {h : Nat} (k : Kept m o s)
    (hm : 134217729 ||| m = m) : Kept m o (becamePresent h s) := by
  refine k.then (a := 134217729) ?_ hm
  unfold becamePresent
  repeat' first
    | exact Eq.refl _
    | (with_reducible first
        | apply refreshHead_kept | apply setB_kept | apply setF_kept | apply setHeadState_kept | apply setPath_kept | apply Kept.ite | apply Kept.refl)

theorem becameAbsent_kept {m : Nat} {o s : State} {h : Nat} (k : Kept m o s)
    (hm : 1 ||| m = m) : Kept m o (becameAbsent h s) := by
  refine k.then (a := 1) ?_ hm
  unfold becameAbsent
  repeat' first | exact Eq.refl _ | (with_reducible first | apply refreshHead_kept | apply setB_kept | apply Kept.refl)

theorem presentTest_kept {m : Nat} {o s : State} {h : Nat} (k : Kept m o s)
    (hm : 138805249 ||| m = m) : Kept m o (presentTest h s) := by
  refine k.then (a := 138805249) ?_ hm
  unfold presentTest
  repeat' first
    | exact Eq.refl _
    | (with_reducible first
        | apply becameAbsent_kept | apply becamePresent_kept | apply raiseSimple_kept | apply refreshHead_kept | apply setB_kept
        | apply setHeadState_kept | apply Kept.ite | apply Kept.doIf | apply Kept.refl)
    | intro _

theorem idRead_kept {m : Nat} {o s : State} {h : Nat} {record : List Byte} (k : Kept m o s)
    (hm : 4442161153 ||| m = m) : Kept m o (idRead h record s) := by
  refine k.then (a := 4442161153) ?_ hm
  unfold idRead
  repeat' first
    | exact Eq.refl _
    | (with_reducible first
        | apply State.setReg_kept | apply modPort_kept | apply presentTest_kept | apply send_kept | apply Kept.ite | apply Kept.forAll
        | apply Kept.refl)
    | intro _

theorem execIdRead_runs {h : Nat} {record : List Byte} {s : State} : Runs 4442161153 s (execIdRead h record s) := by
  unfold execIdRead
  refine Runs.next ?_
  repeat' first | exact Eq.refl _ | (with_reducible first | apply idRead_kept | apply Kept.ite | apply Kept.refl)

theorem hpCfgWrite_kept {m : Nat} {o s : State} {h v : Nat} (k : Kept m o s)
    (hm : 4442161731 ||| m = m) : Kept m o (hpCfgWrite h v s) := by
  refine k.then (a := 4442161731) ?_ hm
  unfold hpCfgWrite
  repeat' first
    | exact Eq.refl _
    | (with_reducible first
        | apply acquireOnWrite_kept | apply modLaser_kept | apply plainWrite_kept | apply portSafe_kept | apply presentTest_kept | apply setB_kept
        | apply setF_kept | apply showGate_kept | apply showPair_kept | apply showPort_kept | apply Kept.ite | apply Kept.refl)

theorem execHpCfgWrite_runs {h value : Nat} {s : State} : Runs 4442161731 s (execHpCfgWrite h value s) := by
  unfold execHpCfgWrite
  refine Runs.next ?_
  repeat' first
    | exact Eq.refl _
    | (with_reducible first
        | apply hostAccess_kept | apply hpCfgWrite_kept | apply Kept.ite | apply Kept.refl)
    | intro _

theorem bandStep_kept {m : Nat} {o s : State} {h : Nat} {t : Int} (k : Kept m o s)
    (hm : 1 ||| m = m) : Kept m o (bandStep h t s) := by
  refine k.then (a := 1) ?_ hm
  unfold bandStep
  repeat' first | exact Eq.refl _ | (with_reducible first | apply setB_kept | apply setF_kept | apply Kept.ite | apply Kept.refl)

theorem unplug_kept {m : Nat} {o s : State} {h : Nat} (k : Kept m o s)
    (hm : 6338096065 ||| m = m) : Kept m o (unplug h s) := by
  refine k.then (a := 6338096065) ?_ hm
  unfold unplug
  repeat' first
    | exact Eq.refl _
    | (with_reducible first
        | apply headGoes_kept | apply incSat_kept | apply modPort_kept | apply raiseSimple_kept | apply setB_kept | apply setF_kept
        | apply setPath_kept | apply Kept.ite | apply Kept.refl)

theorem tempPoll_kept {m : Nat} {o s : State} {h : Nat} {reply : List Byte} (k : Kept m o s)
    (hm : 6338096065 ||| m = m) : Kept m o (tempPoll h reply s) := by
  refine k.then (a := 6338096065) ?_ hm
  unfold tempPoll
  repeat' first
    | exact Eq.refl _
    | (with_reducible first
        | apply bandStep_kept | apply send_kept | apply setF_kept | apply unplug_kept | apply Kept.ite | apply Kept.refl)

theorem execTempPoll_runs {h : Nat} {reply : List Byte} {s : State} : Runs 6338096065 s (execTempPoll h reply s) := by
  unfold execTempPoll
  refine Runs.next ?_
  repeat' first | exact Eq.refl _ | (with_reducible first | apply tempPoll_kept | apply Kept.ite | apply Kept.refl)

theorem acceptHead_kept {m : Nat} {o s : State} {h : Nat} (k : Kept m o s)
    (hm : 4299554817 ||| m = m) : Kept m o (acceptHead h s) := by
  refine k.then (a := 4299554817) ?_ hm
  unfold acceptHead
  repeat' first
    | exact Eq.refl _
    | (with_reducible first
        | apply modPort_kept | apply refreshHead_kept | apply setB_kept | apply tableChanged_kept | apply Kept.ite | apply Kept.refl)

theorem execHeadAccept_runs {h : Nat} {s : State} : Runs 4299554817 s (execHeadAccept h s) := by
  unfold execHeadAccept
  refine Runs.next ?_
  repeat' first | exact Eq.refl _ | (with_reducible first | apply acceptHead_kept | apply Kept.ite | apply Kept.refl)

theorem alignStore_kept {m : Nat} {o s : State} {h : Nat} (k : Kept m o s)
    (hm : 4294967297 ||| m = m) : Kept m o (alignStore h s) := by
  refine k.then (a := 4294967297) ?_ hm
  unfold alignStore
  repeat' first | exact Eq.refl _ | (with_reducible first | apply modPort_kept | apply setB_kept | apply setF_kept | apply Kept.ite | apply Kept.refl)

theorem execAlignStore_runs {h : Nat} {s : State} : Runs 4294967297 s (execAlignStore h s) := by
  unfold execAlignStore
  refine Runs.next ?_
  repeat' first
    | exact Eq.refl _
    | (with_reducible first
        | apply alignStore_kept | apply hostAccess_kept | apply Kept.ite | apply Kept.refl)
    | intro _

theorem alignStoreDone_kept {m : Nat} {o s : State} {h : Nat} {ok : Bool} (k : Kept m o s)
    (hm : 4300603393 ||| m = m) : Kept m o (alignStoreDone h ok s) := by
  refine k.then (a := 4300603393) ?_ hm
  unfold alignStoreDone
  repeat' first
    | exact Eq.refl _
    | (with_reducible first
        | apply flashFault_kept | apply modPort_kept | apply setB_kept | apply setF_kept | apply Kept.ite | apply Kept.refl)
    | intro _ | split

theorem execAlignStoreDone_runs {h : Nat} {ok : Bool} {s : State} : Runs 4300603393 s (execAlignStoreDone h ok s) := by
  unfold execAlignStoreDone
  refine Runs.next ?_
  repeat' first | exact Eq.refl _ | (with_reducible first | apply alignStoreDone_kept | apply Kept.ite | apply Kept.refl)

theorem alignCmdWrite_kept {m : Nat} {o s : State} {h v : Nat} (k : Kept m o s)
    (hm : 4299554817 ||| m = m) : Kept m o (alignCmdWrite h v s) := by
  refine k.then (a := 4299554817) ?_ hm
  unfold alignCmdWrite
  repeat' first | exact Eq.refl _ | (with_reducible first | apply acceptHead_kept | apply alignStore_kept | apply Kept.ite | apply Kept.refl)

theorem wfSettingWrite_kept {m : Nat} {o s : State} {a v : Nat} (k : Kept m o s)
    (hm : 3 ||| m = m) : Kept m o (wfSettingWrite a v s) := by
  refine k.then (a := 3) ?_ hm
  unfold wfSettingWrite
  repeat' first
    | exact Eq.refl _
    | (with_reducible first
        | apply plainWrite_kept | apply setB_kept | apply shadowLate_kept | apply Kept.ite | apply Kept.refl)
    | intro _ | split

theorem execWfSettingWrite_runs {addr value : Nat} {s : State} : Runs 3 s (execWfSettingWrite addr value s) := by
  unfold execWfSettingWrite
  refine Runs.next ?_
  repeat' first | exact Eq.refl _ | (with_reducible first | apply hostAccess_kept | apply wfSettingWrite_kept | apply Kept.refl) | intro _

theorem waveAccess_kept {m : Nat} {o s : State} {h : Nat} {write : Option Nat} (k : Kept m o s)
    (hm : 4303355905 ||| m = m) : Kept m o (waveAccess h write s) := by
  refine k.then (a := 4303355905) ?_ hm
  unfold waveAccess
  repeat' first
    | exact Eq.refl _
    | (with_reducible first
        | apply modPort_kept | apply send_kept | apply setB_kept | apply setF_kept | apply Kept.ite | apply Kept.refl)
    | intro _ | split

theorem execWfSampleWrite_runs {h : Nat} {write : Option Nat} {s : State} : Runs 4303355905 s (execWfSampleWrite h write s) := by
  unfold execWfSampleWrite
  refine Runs.next ?_
  repeat' first
    | exact Eq.refl _
    | (with_reducible first
        | apply hostAccess_kept | apply waveAccess_kept | apply Kept.ite | apply Kept.refl)
    | intro _

theorem wflenWrite_kept {m : Nat} {o s : State} {h b v : Nat} (k : Kept m o s)
    (hm : 3 ||| m = m) : Kept m o (wflenWrite h b v s) := by
  refine k.then (a := 3) ?_ hm
  unfold wflenWrite
  repeat' first
    | exact Eq.refl _
    | (with_reducible first
        | apply plainWrite_kept | apply setB_kept | apply shadowLate_kept | apply Kept.ite | apply Kept.refl)

theorem execWflenWrite_runs {h b value : Nat} {s : State} : Runs 3 s (execWflenWrite h b value s) := by
  unfold execWflenWrite
  refine Runs.next ?_
  repeat' first
    | exact Eq.refl _
    | (with_reducible first
        | apply hostAccess_kept | apply wflenWrite_kept | apply Kept.ite | apply Kept.refl)
    | intro _

theorem playback_kept {m : Nat} {o s : State} {h : Nat} (k : Kept m o s)
    (hm : 4303355905 ||| m = m) : Kept m o (playback h s) := by
  refine k.then (a := 4303355905) ?_ hm
  unfold playback
  repeat' first
    | exact Eq.refl _
    | (with_reducible first
        | apply countFire_kept | apply modPort_kept | apply send_kept | apply Kept.forAll | apply Kept.refl)
    | intro _

theorem testStrobe_kept {m : Nat} {o s : State} {h e : Nat} (k : Kept m o s)
    (hm : 4303355905 ||| m = m) : Kept m o (testStrobe h e s) := by
  refine k.then (a := 4303355905) ?_ hm
  unfold testStrobe
  repeat' first | exact Eq.refl _ | (with_reducible first | apply driveStrobe_kept | apply Kept.refl)

theorem latFire_kept {m : Nat} {o s : State} {h : Nat} (k : Kept m o s)
    (hm : 4303355905 ||| m = m) : Kept m o (latFire h s) := by
  refine k.then (a := 4303355905) ?_ hm
  unfold latFire
  repeat' first
    | exact Eq.refl _
    | (with_reducible first
        | apply modPort_kept | apply playback_kept | apply send_kept | apply testStrobe_kept | apply Kept.ite | apply Kept.refl)
    | intro _ | split | (dsimp only)

theorem execLatFire_runs {h : Nat} {s : State} : Runs 4303355905 s (execLatFire h s) := by
  unfold execLatFire
  refine Runs.next ?_
  repeat' first | exact Eq.refl _ | (with_reducible first | apply latFire_kept | apply Kept.ite | apply Kept.refl)

theorem burstStart_kept {m : Nat} {o s : State} {h : Nat} (k : Kept m o s)
    (hm : 4294967297 ||| m = m) : Kept m o (burstStart h s) := by
  refine k.then (a := 4294967297) ?_ hm
  unfold burstStart
  repeat' first
    | exact Eq.refl _
    | (with_reducible first
        | apply addMod_kept | apply modPort_kept | apply setB_kept | apply setF_kept | apply Kept.ite | apply Kept.refl)

theorem execBurstStart_runs {h : Nat} {s : State} : Runs 4294967297 s (execBurstStart h s) := by
  unfold execBurstStart
  refine Runs.next ?_
  repeat' first | exact Eq.refl _ | (with_reducible first | apply burstStart_kept | apply Kept.ite | apply Kept.refl)

theorem testFiring_kept {m : Nat} {o s : State} {h : Nat} (k : Kept m o s)
    (hm : 4304404481 ||| m = m) : Kept m o (testFiring h s) := by
  refine k.then (a := 4304404481) ?_ hm
  unfold testFiring
  repeat' first
    | exact Eq.refl _
    | (with_reducible first
        | apply endBurst_kept | apply modPort_kept | apply sendFrame_kept | apply setF_kept | apply Kept.ite | apply Kept.refl)
    | intro _ | split

theorem execTestFiring_runs {h : Nat} {s : State} : Runs 4304404481 s (execTestFiring h s) := by
  unfold execTestFiring
  refine Runs.next ?_
  repeat' first | exact Eq.refl _ | (with_reducible first | apply testFiring_kept | apply Kept.ite | apply Kept.refl)

theorem showResults_kept {m : Nat} {o s : State} {h : Nat} (k : Kept m o s)
    (hm : 1 ||| m = m) : Kept m o (showResults h s) := by
  refine k.then (a := 1) ?_ hm
  unfold showResults
  repeat' first | exact Eq.refl _ | (with_reducible first | apply setF_kept | apply Kept.refl)

theorem applyResult_kept {m : Nat} {o s : State} {h e r : Nat} (k : Kept m o s)
    (hm : 4299554817 ||| m = m) : Kept m o (applyResult h e r s) := by
  refine k.then (a := 4299554817) ?_ hm
  unfold applyResult
  repeat' first | exact Eq.refl _ | (with_reducible first | apply setNozzle_kept | apply tableChanged_kept | apply Kept.ite | apply Kept.refl)

theorem countTime_kept {m : Nat} {o s : State} {h r t : Nat} (k : Kept m o s)
    (hm : 4294967296 ||| m = m) : Kept m o (countTime h r t s) := by
  refine k.then (a := 4294967296) ?_ hm
  unfold countTime
  repeat' first | exact Eq.refl _ | (with_reducible first | apply modPort_kept | apply Kept.ite | apply Kept.refl)

theorem queueResult_kept {m : Nat} {o s : State} {h e r t : Nat} (k : Kept m o s)
    (hm : 4294967297 ||| m = m) : Kept m o (queueResult h e r t s) := by
  refine k.then (a := 4294967297) ?_ hm
  unfold queueResult
  repeat' first
    | exact Eq.refl _
    | (with_reducible first
        | apply modPort_kept | apply setB_kept | apply showResults_kept | apply Kept.ite | apply Kept.refl)

theorem dropResult_kept {m : Nat} {o s : State} {h : Nat} {before after : List Nat} (k : Kept m o s)
    (hm : 4300603393 ||| m = m) : Kept m o (dropResult h before after s) := by
  refine k.then (a := 4300603393) ?_ hm
  unfold dropResult
  repeat' first
    | exact Eq.refl _
    | (with_reducible first
        | apply applyResult_kept | apply countTime_kept | apply drawFree_kept | apply endBurst_kept | apply incSat_kept | apply modPort_kept
        | apply queueResult_kept | apply setF_kept | apply Kept.ite | apply Kept.refl)
    | intro _ | split

theorem execDropTestResult_runs {h : Nat} {before after : List Nat} {s : State} : Runs 4300603393 s (execDropTestResult h before after s) := by
  unfold execDropTestResult
  refine Runs.next ?_
  repeat' first | exact Eq.refl _ | (with_reducible first | apply dropResult_kept | apply Kept.ite | apply Kept.refl)

theorem testresWrite_kept {m : Nat} {o s : State} {h v : Nat} (k : Kept m o s)
    (hm : 4294967299 ||| m = m) : Kept m o (testresWrite h v s) := by
  refine k.then (a := 4294967299) ?_ hm
  unfold testresWrite
  repeat' first
    | exact Eq.refl _
    | (with_reducible first
        | apply modPort_kept | apply plainWrite_kept | apply showResults_kept | apply Kept.ite | apply Kept.refl)

theorem execTestresPop_runs {h : Nat} {s : State} : Runs 4294967299 s (execTestresPop h s) := by
  unfold execTestresPop
  refine Runs.next ?_
  repeat' first | exact Eq.refl _ | (with_reducible first | apply testresWrite_kept | apply Kept.ite | apply Kept.refl)

theorem nozAccess_kept {m : Nat} {o s : State} {h : Nat} {write : Option Nat} (k : Kept m o s)
    (hm : 4307943425 ||| m = m) : Kept m o (nozAccess h write s) := by
  refine k.then (a := 4307943425) ?_ hm
  unfold nozAccess
  repeat' first
    | exact Eq.refl _
    | (with_reducible first
        | apply send_kept | apply setF_kept | apply setNozzle_kept | apply tableChanged_kept | apply Kept.forAll | apply Kept.refl)
    | intro _ | split

theorem execNzDataAccess_runs {h : Nat} {write : Option Nat} {s : State} : Runs 4307943425 s (execNzDataAccess h write s) := by
  unfold execNzDataAccess
  refine Runs.next ?_
  repeat' first | exact Eq.refl _ | (with_reducible first | apply hostAccess_kept | apply nozAccess_kept | apply Kept.ite | apply Kept.refl) | intro _

theorem nzcfgWrite_kept {m : Nat} {o s : State} {h v : Nat} (k : Kept m o s)
    (hm : 4299554819 ||| m = m) : Kept m o (nzcfgWrite h v s) := by
  refine k.then (a := 4299554819) ?_ hm
  unfold nzcfgWrite
  repeat' first
    | exact Eq.refl _
    | (with_reducible first
        | apply plainWrite_kept | apply setB_kept | apply tableChanged_kept | apply Kept.ite | apply Kept.refl)

end Sys2Proof.Machine
end

