-- ==== Sys2Proof/Laws/Trust.lean ====
section
/-! SUPPORT. For each operation and each meaning of Sys2Proof/Machine/Trust.lean: the parts of the state it may touch, and that it keeps the laws. -/

namespace Sys2Proof.Machine

set_option Elab.async false

theorem refuse_kept {m : Nat} {o s : State} {st : Nat} (k : Kept m o s)
    (hm : 0 ||| m = m) : Kept m o (refuse st s).2 := by
  refine k.then (a := 0) ?_ hm
  unfold refuse
  repeat' first | exact Eq.refl _ | exact Kept.refl _ _

theorem answer_kept {m : Nat} {o s : State} {l : List Byte} (k : Kept m o s)
    (hm : 0 ||| m = m) : Kept m o (answer l s).2 := by
  refine k.then (a := 0) ?_ hm
  unfold answer
  repeat' first | exact Eq.refl _ | exact Kept.refl _ _

theorem putWords_kept {m : Nat} {o s : State} {base : Nat → Nat} {l : List Byte} (k : Kept m o s)
    (hm : 1 ||| m = m) : Kept m o (putWords base l s) := by
  refine k.then (a := 1) ?_ hm
  unfold putWords
  repeat' first | exact Eq.refl _ | (with_reducible first | apply State.setReg_kept | apply Kept.forAll | apply Kept.refl) | intro _

theorem mailboxReply_kept {m : Nat} {o s : State} {ty tag : Nat} {r : Reply} (k : Kept m o s)
    (hm : 262145 ||| m = m) : Kept m o (mailboxReply ty tag r s) := by
  refine k.then (a := 262145) ?_ hm
  unfold mailboxReply
  repeat' first
    | exact Eq.refl _
    | (with_reducible first
        | apply putWords_kept | apply setB_kept | apply setF_kept | apply signalVector_kept | apply Kept.refl)

theorem serveWith_kept {m : Nat} {o s : State} {ty : Nat} {h : Handler} {payload : List Byte} (k : Kept m o s)
    (hm : 0 ||| m = m) (h_h : ∀ a0 a1, Kept m a1 (h a0 a1).2) : Kept m o (serveWith ty h payload s).2 := by
  unfold serveWith
  repeat' first
    | exact lor_sub hm rfl | exact k | (with_reducible first | apply refuse_kept | apply Kept.ite | apply Kept.refl)
    | (refine Kept.then ?_ (h_h _ _) (Nat.or_self _)) | intro _ | split

theorem mailboxGo_kept {m : Nat} {o s : State} {ty tag : Nat} {payload : List Byte} {h : Handler} (k : Kept m o s)
    (hm : 270337 ||| m = m) (h_h : ∀ a0 a1, Kept m a1 (h a0 a1).2) : Kept m o (mailboxGo ty tag payload h s) := by
  unfold mailboxGo
  repeat' first
    | exact lor_sub hm rfl | exact k
    | (with_reducible first
        | apply mailboxReply_kept | apply serveWith_kept | apply setB_kept | apply Kept.ite | apply Kept.refl)
    | (refine Kept.then ?_ (h_h _ _) (Nat.or_self _)) | intro _ | split | refine Kept.then ?_ (Kept.upd (m := 270337) (Kept.refl _ _) rfl) hm

theorem mailboxMessage_kept {m : Nat} {o s : State} {ty tag : Nat} {payload : List Byte} {h : Handler} (k : Kept m o s)
    (hm : 270337 ||| m = m) (h_h : ∀ a0 a1, Kept m a1 (h a0 a1).2) : Kept m o (mailboxMessage ty tag payload h s) := by
  unfold mailboxMessage
  repeat' first
    | exact lor_sub hm rfl | exact k
    | (with_reducible first
        | apply mailboxGo_kept | apply putWords_kept | apply setF_kept | apply Kept.refl)
    | (refine Kept.then ?_ (h_h _ _) (Nat.or_self _)) | intro _

theorem execMailboxRspRelease_runs {s : State} : Runs 1 s (execMailboxRspRelease s) := by
  unfold execMailboxRspRelease
  refine Runs.next ?_
  repeat' first | exact Eq.refl _ | (with_reducible first | apply setB_kept | apply Kept.refl)

theorem drawNonce_kept {m : Nat} {o s : State} (k : Kept m o s)
    (hm : 8192 ||| m = m) : Kept m o (drawNonce s).2 := by
  refine k.then (a := 8192) ?_ hm
  unfold drawNonce
  repeat' first | exact Eq.refl _ | exact Kept.refl _ _ | intro _ | split | (dsimp only) | (with_reducible refine Kept.putTrust ?_ rfl)

theorem addCause_kept {m : Nat} {o s : State} {c : TrustCause} (k : Kept m o s)
    (hm : 8192 ||| m = m) : Kept m o (addCause c s) := by
  refine k.then (a := 8192) ?_ hm
  unfold addCause
  repeat' first
    | exact Eq.refl _ | (with_reducible first | apply Kept.ite | apply Kept.refl) | intro _ | split | (with_reducible refine Kept.putTrust ?_ rfl)

theorem timeNonce_kept {m : Nat} {o s : State} {q_ : _} (k : Kept m o s)
    (hm : 8192 ||| m = m) : Kept m o (timeNonce q_ s).2 := by
  refine k.then (a := 8192) ?_ hm
  unfold timeNonce
  repeat' first
    | exact Eq.refl _
    | (with_reducible first
        | apply answer_kept | apply drawNonce_kept | apply refuse_kept | apply Kept.ite | apply Kept.refl)
    | intro _ | split | (dsimp only) | (with_reducible refine Kept.putTrust ?_ rfl)

theorem timeToken_kept {m : Nat} {o s : State} {q_ : _} (k : Kept m o s)
    (hm : 4661249 ||| m = m) : Kept m o (timeToken q_ s).2 := by
  refine k.then (a := 4661249) ?_ hm
  unfold timeToken
  repeat' first
    | exact Eq.refl _
    | (with_reducible first
        | apply answer_kept | apply auditAppend_kept | apply journalWrite_kept | apply refuse_kept | apply setF_kept | apply Kept.ite
        | apply Kept.refl)
    | intro _ | split | (dsimp only) | (with_reducible refine Kept.putTrust ?_ rfl)

theorem timeStatus_kept {m : Nat} {o s : State} {q_ : _} (k : Kept m o s)
    (hm : 0 ||| m = m) : Kept m o (timeStatus q_ s).2 := by
  refine k.then (a := 0) ?_ hm
  unfold timeStatus
  repeat' first
    | exact Eq.refl _ | (with_reducible first | apply answer_kept | apply refuse_kept | apply Kept.ite | apply Kept.refl) | intro _ | split

theorem ptpHint_kept {m : Nat} {o s : State} {hint : Nat} {utc leap : Int} (k : Kept m o s)
    (hm : 8193 ||| m = m) : Kept m o (ptpHint hint utc leap s) := by
  refine k.then (a := 8193) ?_ hm
  unfold ptpHint
  repeat' first
    | exact Eq.refl _ | (with_reducible first | apply addCause_kept | apply setI_kept | apply Kept.ite | apply Kept.refl) | intro _ | split
    | (with_reducible refine Kept.putTrust ?_ rfl)

theorem execPtpHint_runs {hint : Nat} {utc leap : Int} {s : State} : Runs 8193 s (execPtpHint hint utc leap s) := by
  unfold execPtpHint
  refine Runs.next ?_
  repeat' first | exact Eq.refl _ | (with_reducible first | apply ptpHint_kept | apply Kept.refl)

theorem reserveBlock_kept {m : Nat} {o s : State} {k : Nat} (hk : Kept m o s)
    (hm : 40960 ||| m = m) : Kept m o (reserveBlock k s) := by
  refine hk.then (a := 40960) ?_ hm
  unfold reserveBlock
  repeat' first
    | exact Eq.refl _
    | (with_reducible first
        | apply putCounter_kept | apply countDetected_law | apply countClosed_law | apply countPrinted_law | apply countVoided_law
        | apply Ledger.law_zero | apply Kept.ite | apply Kept.refl)
    | exact fun _ h => h | exact fun h => (counter_law h (by assumption : counter _ _ = some _) :)
    | (intro h; have e := counter_law h (by assumption : counter _ _ = some _); simp only [Counter.law] at e ⊢; omega) | intro _ | split
    | (with_reducible refine Kept.putTrust ?_ rfl)

theorem runState_kept {m : Nat} {o s : State} {k : Nat} (hk : Kept m o s)
    (hm : 5677057 ||| m = m) : Kept m o (runState k s) := by
  refine hk.then (a := 5677057) ?_ hm
  unfold runState
  repeat' first
    | exact Eq.refl _
    | (with_reducible first
        | apply flashFault_kept | apply putCounter_kept | apply countDetected_law | apply countClosed_law | apply countPrinted_law
        | apply countVoided_law | apply Ledger.law_zero | apply Kept.ite | apply Kept.refl)
    | exact fun _ h => h | exact fun h => (counter_law h (by assumption : counter _ _ = some _) :)
    | (intro h; have e := counter_law h (by assumption : counter _ _ = some _); simp only [Counter.law] at e ⊢; omega) | intro _ | split

theorem setPreQueue_kept {m : Nat} {o s : State} {sl : Nat} {l : List Nat} (k : Kept m o s)
    (hm : 8192 ||| m = m) : Kept m o (setPreQueue sl l s) := by
  refine k.then (a := 8192) ?_ hm
  unfold setPreQueue
  repeat' first
    | exact Eq.refl _ | (with_reducible first | apply Kept.ite | apply Kept.refl) | intro _ | split | (with_reducible refine Kept.putTrust ?_ rfl)

theorem refill_kept {m : Nat} {o s : State} {k sl pre : Nat} (hk : Kept m o s)
    (hm : 40960 ||| m = m) : Kept m o (refill k sl pre s) := by
  refine hk.then (a := 40960) ?_ hm
  unfold refill
  repeat' first
    | exact Eq.refl _
    | (with_reducible first
        | apply putCounter_kept | apply setPreQueue_kept | apply countDetected_law | apply countClosed_law | apply countPrinted_law
        | apply countVoided_law | apply Ledger.law_zero | apply Kept.ite | apply Kept.refl)
    | exact fun _ h => h | exact fun h => (counter_law h (by assumption : counter _ _ = some _) :)
    | (intro h; have e := counter_law h (by assumption : counter _ _ = some _); simp only [Counter.law] at e ⊢; omega) | intro _ | split

theorem feedCounter_kept {m : Nat} {o s : State} {k : Nat} (hk : Kept m o s)
    (hm : 5677057 ||| m = m) : Kept m o (feedCounter k s) := by
  refine hk.then (a := 5677057) ?_ hm
  unfold feedCounter
  repeat' first
    | exact Eq.refl _
    | (with_reducible first
        | apply refill_kept | apply reserveBlock_kept | apply runState_kept | apply Kept.forAll | apply Kept.refl)
    | intro _ | split

theorem blockWriteDone_kept {m : Nat} {o s0 : State} {k : Nat} {ok : Bool} (hk : Kept m o s0)
    (hm : 5742593 ||| m = m) : Kept m o (blockWriteDone k ok s0) := by
  have k1 : Kept 5742593 s0 (compareCounter k s0) := compareCounter_kept (Kept.refl _ _) rfl
  refine hk.then (a := 5742593) (k1.then (a := 5742593) ?_ rfl) hm
  unfold blockWriteDone
  dsimp only
  generalize compareCounter k s0 = s
  split
  · exact Kept.refl _ _
  · next c hc =>
    split
    · exact Kept.refl _ _
    · split
      · refine feedCounter_kept (putCounter_kept (journalWrite_kept (Kept.refl _ _) rfl) rfl fun h => ?_) rfl
        have e := counter_law h hc
        simp only [Counter.law] at e ⊢
        omega
      · exact flashFault_kept (putCounter_kept (journalWrite_kept (Kept.refl _ _) rfl) rfl fun h => (counter_law h hc :)) rfl

theorem execBlockWriteDone_runs {k : Nat} {ok : Bool} {s : State} : Runs 5742593 s (execBlockWriteDone k ok s) := by
  unfold execBlockWriteDone
  refine Runs.next ?_
  repeat' first | exact Eq.refl _ | (with_reducible first | apply blockWriteDone_kept | apply Kept.refl)

theorem voidReserved_kept {m : Nat} {o s : State} {k : Nat} (hk : Kept m o s)
    (hm : 4694209 ||| m = m) : Kept m o (voidReserved k s) := by
  refine hk.then (a := 4694209) ?_ hm
  unfold voidReserved
  repeat' first
    | exact Eq.refl _
    | (with_reducible first
        | apply auditAppend_kept | apply modCounter_kept | apply setPreQueue_kept | apply countDetected_law | apply countClosed_law
        | apply countPrinted_law | apply countVoided_law | apply Ledger.law_zero | apply Kept.ite | apply Kept.forAll | apply Kept.refl)
    | exact fun _ h => h | exact fun h => (counter_law h (by assumption : counter _ _ = some _) :)
    | (intro h; have e := counter_law h (by assumption : counter _ _ = some _); simp only [Counter.law] at e ⊢; omega)
    | (intro _ h; simp only [Counter.law] at h ⊢; omega) | intro _ | split | (with_reducible refine Kept.putSch ?_ rfl)

theorem serialLedger_kept {m : Nat} {o s : State} {q_ : _} (k : Kept m o s)
    (hm : 0 ||| m = m) : Kept m o (serialLedger q_ s).2 := by
  refine k.then (a := 0) ?_ hm
  unfold serialLedger
  repeat' first
    | exact Eq.refl _ | (with_reducible first | apply answer_kept | apply refuse_kept | apply Kept.ite | apply Kept.refl) | intro _ | split

theorem counterRebase_kept {m : Nat} {o s : State} {q_ : _} (k : Kept m o s)
    (hm : 4694209 ||| m = m) : Kept m o (counterRebase q_ s).2 := by
  refine k.then (a := 4694209) ?_ hm
  unfold counterRebase
  repeat' first
    | exact Eq.refl _
    | (with_reducible first
        | apply answer_kept | apply auditAppend_kept | apply journalWrite_kept | apply modCounter_kept | apply refuse_kept | apply reserveBlock_kept
        | apply voidReserved_kept | apply countDetected_law | apply countClosed_law | apply countPrinted_law | apply countVoided_law
        | apply Ledger.law_zero | apply Kept.ite | apply Kept.refl)
    | exact fun _ h => h | exact fun h => (counter_law h (by assumption : counter _ _ = some _) :)
    | (intro h; have e := counter_law h (by assumption : counter _ _ = some _); simp only [Counter.law] at e ⊢; omega)
    | (intro _ h; simp only [Counter.law] at h ⊢; omega) | intro _ | split | (dsimp only) | (with_reducible refine Kept.putTrust ?_ rfl)

theorem execCkptTimer_runs {s : State} : Runs 8192 s (execCkptTimer s) := by
  unfold execCkptTimer
  refine Runs.next ?_
  repeat' first | exact Eq.refl _ | (with_reducible first | apply checkpointDue_kept | apply Kept.ite | apply Kept.refl)

theorem trustRestart_kept {m : Nat} {o s : State} (k : Kept m o s)
    (hm : 1 ||| m = m) : Kept m o (trustRestart s) := by
  refine k.then (a := 1) ?_ hm
  unfold trustRestart
  repeat' first | exact Eq.refl _ | (with_reducible first | apply setB_kept | apply Kept.refl)

theorem trialFault_kept {m : Nat} {o s : State} (k : Kept m o s)
    (hm : 4194304 ||| m = m) : Kept m o (trialFault s) := by
  refine k.then (a := 4194304) ?_ hm
  unfold trialFault
  repeat' first | exact Eq.refl _ | exact Kept.refl _ _ | intro _ | split | (with_reducible refine Kept.putPrimer ?_ rfl)

theorem trustCoreFault_kept {m : Nat} {o s : State} (k : Kept m o s)
    (hm : 32091126721 ||| m = m) : Kept m o (trustCoreFault s) := by
  refine k.then (a := 32091126721) ?_ hm
  unfold trustCoreFault
  repeat' first
    | exact Eq.refl _
    | (with_reducible first
        | apply incSat_kept | apply raiseDeviceSafe_kept | apply raiseShared_kept | apply setF_kept | apply trialFault_kept | apply trustRestart_kept
        | apply Kept.ite | apply Kept.refl)
    | intro _ | split | (with_reducible refine Kept.putPrimer ?_ rfl)

theorem execTrustCoreFault_runs {s : State} : Runs 32091126721 s (execTrustCoreFault s) := by
  unfold execTrustCoreFault
  refine Runs.next ?_
  repeat' first | exact Eq.refl _ | (with_reducible first | apply trustCoreFault_kept | apply Kept.refl)

end Sys2Proof.Machine
end

