-- ==== Sys2Proof/Laws/Compose.lean ====
section
/-! SUPPORT. For each operation and each meaning of Sys2Proof/Machine/Compose.lean: the parts of the state it may touch, and that it keeps the laws. -/

namespace Sys2Proof.Machine

set_option Elab.async false

theorem putBatch_kept {m : Nat} {o s : State} {b : Batch} {pnum : Nat} (k : Kept m o s)
    (hm : 8192 ||| m = m) : Kept m o (putBatch b pnum s) := by
  refine k.then (a := 8192) ?_ hm
  unfold putBatch
  repeat' first | exact Eq.refl _ | exact Kept.refl _ _ | intro _ | split | (with_reducible refine Kept.putTrust ?_ rfl)

theorem takeSerial_kept {m : Nat} {o s : State} {handle k : Nat} (hk : Kept m o s)
    (hm : 5742593 ||| m = m) : Kept m o (takeSerial handle k s) := by
  refine hk.then (a := 5742593) ?_ hm
  unfold takeSerial
  repeat' first
    | exact Eq.refl _
    | (with_reducible first
        | apply feedCounter_kept | apply modCounter_kept | apply setPreQueue_kept | apply countDetected_law | apply countClosed_law
        | apply countPrinted_law | apply countVoided_law | apply Ledger.law_zero | apply Kept.refl)
    | exact fun _ h => h | exact fun h => (counter_law h (by assumption : counter _ _ = some _) :)
    | (intro h; have e := counter_law h (by assumption : counter _ _ = some _); simp only [Counter.law] at e ⊢; omega) | intro _ | split
    | (dsimp only)

theorem refuseComposition_kept {m : Nat} {o s : State} {i : Nat} {q : Product} (k : Kept m o s)
    (hm : 2026351553 ||| m = m) : Kept m o (refuseComposition i q s) := by
  refine k.then (a := 2026351553) ?_ hm
  unfold refuseComposition
  repeat' first
    | exact Eq.refl _
    | (with_reducible first
        | apply closeIfDone_kept | apply dropRenders_kept | apply modProduct_kept | apply notStarted_kept | apply Kept.doIf | apply Kept.forAll
        | apply Kept.refl)
    | intro _

theorem renderComposed_kept {m : Nat} {o s : State} {prod : Nat} (k : Kept m o s)
    (hm : 268435456 ||| m = m) : Kept m o (renderComposed prod s) := by
  refine k.then (a := 268435456) ?_ hm
  unfold renderComposed
  repeat' first | exact Eq.refl _ | exact Kept.refl _ _ | intro _ | split | (with_reducible refine Kept.putRen ?_ rfl)

theorem fieldCompose_kept {m : Nat} {o s0 : State} (k : Kept m o s0) (hm : 2027400129 ||| m = m) : Kept m o (fieldCompose s0) := by
  refine k.then (a := 2027400129) ?_ hm
  have hr : ∀ (i : Nat) (q : Product) (t : State), Kept 2027400129 s0 t → Kept 2027400129 s0 (refuseComposition i q t) :=
    fun i q t h => refuseComposition_kept h rfl
  have k1 : ∀ k : Option Nat, Kept 2027400129 s0 ((k.map fun c => compareCounter c s0).getD s0) := by
    intro k
    cases k
    · exact Kept.refl _ _
    · exact compareCounter_kept (Kept.refl _ _) rfl
  unfold fieldCompose
  split
  · exact Kept.refl _ _
  · split
    · exact hr _ _ _ (Kept.refl _ _)
    · next i q _ _ img _ =>
      dsimp only
      generalize serialSlot img s0 = k
      replace k1 := k1 k
      generalize (k.map fun c => compareCounter c s0).getD s0 = s at k1 ⊢
      split
      · refine hr _ _ _ ?_
        split
        · cases k
          · exact k1
          · exact runState_kept k1 rfl
        · exact k1
      · split
        · exact hr _ _ _ k1
        · refine renderComposed_kept (modProduct_kept ?_ rfl) rfl
          split
          · split
            · refine takeSerial_kept ?_ rfl
              split
              · exact putBatch_kept k1 rfl
              · exact k1
            · split
              · exact putBatch_kept k1 rfl
              · exact k1
          · split
            · exact putBatch_kept k1 rfl
            · exact k1

theorem execFieldCompose_runs {s : State} : Runs 2027400129 s (execFieldCompose s) := by
  unfold execFieldCompose
  refine Runs.next ?_
  repeat' first | exact Eq.refl _ | (with_reducible first | apply fieldCompose_kept | apply Kept.refl)

end Sys2Proof.Machine
end

