-- ==== Sys2Proof/Laws/Mailbox.lean ====
section
/-! SUPPORT. For each operation and each meaning of Sys2Proof/Machine/Mailbox.lean: the parts of the state it may touch, and that it keeps the laws. -/

namespace Sys2Proof.Machine

set_option Elab.async false

theorem stencilBegin_kept {m : Nat} {o s : State} {q_ : _} (k : Kept m o s)
    (hm : 8192 ||| m = m) : Kept m o (stencilBegin q_ s).2 := by
  refine k.then (a := 8192) ?_ hm
  unfold stencilBegin
  repeat' first
    | exact Eq.refl _ | (with_reducible first | apply answer_kept | apply refuse_kept | apply Kept.ite | apply Kept.refl) | intro _ | split
    | (dsimp only) | (with_reducible refine Kept.putTrust ?_ rfl)

theorem stencilData_kept {m : Nat} {o s : State} {q_ : _} (k : Kept m o s)
    (hm : 8192 ||| m = m) : Kept m o (stencilData q_ s).2 := by
  refine k.then (a := 8192) ?_ hm
  unfold stencilData
  repeat' first
    | exact Eq.refl _ | (with_reducible first | apply answer_kept | apply refuse_kept | apply Kept.ite | apply Kept.refl) | intro _ | split
    | (dsimp only) | (with_reducible refine Kept.putTrust ?_ rfl)

theorem allocateCounter_kept {m : Nat} {o s : State} {img : List Byte} (k : Kept m o s)
    (hm : 40960 ||| m = m) : Kept m o (allocateCounter img s) := by
  refine k.then (a := 40960) ?_ hm
  unfold allocateCounter
  repeat' first
    | exact Eq.refl _
    | (with_reducible first
        | apply putCounter_kept | apply reserveBlock_kept | apply countDetected_law | apply countClosed_law | apply countPrinted_law
        | apply countVoided_law | apply Ledger.law_zero | apply Kept.ite | apply Kept.refl)
    | exact fun _ h => h | exact fun h => (counter_law h (by assumption : counter _ _ = some _) :)
    | (intro h; have e := counter_law h (by assumption : counter _ _ = some _); simp only [Counter.law] at e ⊢; omega)
    | (intro _ h; simp only [Counter.law] at h ⊢; omega) | intro _ | split

theorem fillQueue_kept {m : Nat} {o s : State} {img : List Byte} (k : Kept m o s)
    (hm : 5677057 ||| m = m) : Kept m o (fillQueue img s) := by
  refine k.then (a := 5677057) ?_ hm
  unfold fillQueue
  repeat' first | exact Eq.refl _ | (with_reducible first | apply feedCounter_kept | apply Kept.refl) | intro _ | split

theorem storeStencil_kept {m : Nat} {o s : State} {k id rev : Nat} {x : StencilSlot} (hk : Kept m o s)
    (hm : 24576 ||| m = m) : Kept m o (storeStencil k id rev x s) := by
  refine hk.then (a := 24576) ?_ hm
  unfold storeStencil
  repeat' first | exact Eq.refl _ | exact Kept.refl _ _ | intro _ | split | (with_reducible refine Kept.putTrust ?_ rfl)

theorem stencilEnd_kept {m : Nat} {o s : State} {q_ : _} (k : Kept m o s)
    (hm : 5758977 ||| m = m) : Kept m o (stencilEnd q_ s).2 := by
  refine k.then (a := 5758977) ?_ hm
  unfold stencilEnd
  repeat' first
    | exact Eq.refl _
    | (with_reducible first
        | apply allocateCounter_kept | apply answer_kept | apply auditAppend_kept | apply fillQueue_kept | apply journalWrite_kept | apply refuse_kept
        | apply storeStencil_kept | apply Kept.ite | apply Kept.refl)
    | intro _ | split | (dsimp only) | (with_reducible refine Kept.putTrust ?_ rfl)

theorem stencilUnload_kept {m : Nat} {o s : State} {q_ : _} (k : Kept m o s)
    (hm : 4710401 ||| m = m) : Kept m o (stencilUnload q_ s).2 := by
  refine k.then (a := 4710401) ?_ hm
  unfold stencilUnload
  repeat' first
    | exact Eq.refl _
    | (with_reducible first
        | apply answer_kept | apply modCounter_kept | apply refuse_kept | apply setPreQueue_kept | apply countDetected_law | apply countClosed_law
        | apply countPrinted_law | apply countVoided_law | apply Ledger.law_zero | apply Kept.ite | apply Kept.refl)
    | exact fun _ h => h | exact fun h => (counter_law h (by assumption : counter _ _ = some _) :)
    | (intro h; have e := counter_law h (by assumption : counter _ _ = some _); simp only [Counter.law] at e ⊢; omega) | intro _ | split
    | (dsimp only) | (with_reducible refine Kept.putTrust ?_ rfl)

theorem stencilInfo_kept {m : Nat} {o s : State} {q_ : _} (k : Kept m o s)
    (hm : 0 ||| m = m) : Kept m o (stencilInfo q_ s).2 := by
  refine k.then (a := 0) ?_ hm
  unfold stencilInfo
  repeat' first
    | exact Eq.refl _ | (with_reducible first | apply answer_kept | apply refuse_kept | apply Kept.ite | apply Kept.refl) | intro _ | split

theorem openSet_kept {m : Nat} {o s : State} {q_ : _} (k : Kept m o s)
    (hm : 4661249 ||| m = m) : Kept m o (openSet q_ s).2 := by
  refine k.then (a := 4661249) ?_ hm
  unfold openSet
  repeat' first
    | exact Eq.refl _
    | (with_reducible first
        | apply answer_kept | apply auditAppend_kept | apply refuse_kept | apply Kept.ite | apply Kept.refl)
    | intro _ | split | (dsimp only) | (with_reducible refine Kept.putTrust ?_ rfl)

theorem batchAdvance_kept {m : Nat} {o s : State} {q_ : _} (k : Kept m o s)
    (hm : 4661249 ||| m = m) : Kept m o (batchAdvance q_ s).2 := by
  refine k.then (a := 4661249) ?_ hm
  unfold batchAdvance
  repeat' first
    | exact Eq.refl _
    | (with_reducible first
        | apply answer_kept | apply auditAppend_kept | apply refuse_kept | apply Kept.ite | apply Kept.refl)
    | intro _ | split | (dsimp only) | (with_reducible refine Kept.putTrust ?_ rfl)

theorem auditRead_kept {m : Nat} {o s : State} {q_ : _} (k : Kept m o s)
    (hm : 0 ||| m = m) : Kept m o (auditRead q_ s).2 := by
  refine k.then (a := 0) ?_ hm
  unfold auditRead
  repeat' first
    | exact Eq.refl _ | (with_reducible first | apply answer_kept | apply refuse_kept | apply Kept.ite | apply Kept.refl) | intro _ | split
    | (dsimp only)

theorem auditAck_kept {m : Nat} {o s : State} {q_ : _} (k : Kept m o s)
    (hm : 4661249 ||| m = m) : Kept m o (auditAck q_ s).2 := by
  refine k.then (a := 4661249) ?_ hm
  unfold auditAck
  repeat' first
    | exact Eq.refl _
    | (with_reducible first
        | apply answer_kept | apply auditAppend_kept | apply auditLevels_kept | apply refuse_kept | apply Kept.ite | apply Kept.refl)
    | intro _ | split | (dsimp only) | (with_reducible refine Kept.putTrust ?_ rfl)

theorem ckptRead_kept {m : Nat} {o s : State} {q_ : _} (k : Kept m o s)
    (hm : 0 ||| m = m) : Kept m o (ckptRead q_ s).2 := by
  refine k.then (a := 0) ?_ hm
  unfold ckptRead
  repeat' first
    | exact Eq.refl _ | (with_reducible first | apply answer_kept | apply refuse_kept | apply Kept.ite | apply Kept.refl) | intro _ | split

theorem identityInfo_kept {m : Nat} {o s : State} {q_ : _} (k : Kept m o s)
    (hm : 0 ||| m = m) : Kept m o (identityInfo q_ s).2 := by
  refine k.then (a := 0) ?_ hm
  unfold identityInfo
  repeat' first
    | exact Eq.refl _ | (with_reducible first | apply answer_kept | apply refuse_kept | apply Kept.ite | apply Kept.refl) | intro _ | split

theorem execStencilBegin_runs {tag : Nat} {payload : List Byte} {s : State} : Runs 270337 s (execStencilBegin tag payload s) := by
  unfold execStencilBegin
  refine Runs.next ?_
  repeat' first | exact Eq.refl _ | (with_reducible first | apply mailboxMessage_kept | apply stencilBegin_kept | apply Kept.refl) | intro _

theorem execStencilData_runs {tag : Nat} {payload : List Byte} {s : State} : Runs 270337 s (execStencilData tag payload s) := by
  unfold execStencilData
  refine Runs.next ?_
  repeat' first | exact Eq.refl _ | (with_reducible first | apply mailboxMessage_kept | apply stencilData_kept | apply Kept.refl) | intro _

theorem execStencilEnd_runs {tag : Nat} {payload : List Byte} {s : State} : Runs 5758977 s (execStencilEnd tag payload s) := by
  unfold execStencilEnd
  refine Runs.next ?_
  repeat' first | exact Eq.refl _ | (with_reducible first | apply mailboxMessage_kept | apply stencilEnd_kept | apply Kept.refl) | intro _

theorem execStencilUnload_runs {tag : Nat} {payload : List Byte} {s : State} : Runs 4710401 s (execStencilUnload tag payload s) := by
  unfold execStencilUnload
  refine Runs.next ?_
  repeat' first | exact Eq.refl _ | (with_reducible first | apply mailboxMessage_kept | apply stencilUnload_kept | apply Kept.refl) | intro _

theorem execStencilInfo_runs {tag : Nat} {payload : List Byte} {s : State} : Runs 270337 s (execStencilInfo tag payload s) := by
  unfold execStencilInfo
  refine Runs.next ?_
  repeat' first | exact Eq.refl _ | (with_reducible first | apply mailboxMessage_kept | apply stencilInfo_kept | apply Kept.refl) | intro _

theorem execOpenSet_runs {tag : Nat} {payload : List Byte} {s : State} : Runs 4661249 s (execOpenSet tag payload s) := by
  unfold execOpenSet
  refine Runs.next ?_
  repeat' first | exact Eq.refl _ | (with_reducible first | apply mailboxMessage_kept | apply openSet_kept | apply Kept.refl) | intro _

theorem execBatchAdvance_runs {tag : Nat} {payload : List Byte} {s : State} : Runs 4661249 s (execBatchAdvance tag payload s) := by
  unfold execBatchAdvance
  refine Runs.next ?_
  repeat' first | exact Eq.refl _ | (with_reducible first | apply batchAdvance_kept | apply mailboxMessage_kept | apply Kept.refl) | intro _

theorem execTimeNonce_runs {tag : Nat} {payload : List Byte} {s : State} : Runs 270337 s (execTimeNonce tag payload s) := by
  unfold execTimeNonce
  refine Runs.next ?_
  repeat' first | exact Eq.refl _ | (with_reducible first | apply mailboxMessage_kept | apply timeNonce_kept | apply Kept.refl) | intro _

theorem execTimeToken_runs {tag : Nat} {payload : List Byte} {s : State} : Runs 4661249 s (execTimeToken tag payload s) := by
  unfold execTimeToken
  refine Runs.next ?_
  repeat' first | exact Eq.refl _ | (with_reducible first | apply mailboxMessage_kept | apply timeToken_kept | apply Kept.refl) | intro _

theorem execTimeStatus_runs {tag : Nat} {payload : List Byte} {s : State} : Runs 270337 s (execTimeStatus tag payload s) := by
  unfold execTimeStatus
  refine Runs.next ?_
  repeat' first | exact Eq.refl _ | (with_reducible first | apply mailboxMessage_kept | apply timeStatus_kept | apply Kept.refl) | intro _

theorem execSerialLedger_runs {tag : Nat} {payload : List Byte} {s : State} : Runs 270337 s (execSerialLedger tag payload s) := by
  unfold execSerialLedger
  refine Runs.next ?_
  repeat' first | exact Eq.refl _ | (with_reducible first | apply mailboxMessage_kept | apply serialLedger_kept | apply Kept.refl) | intro _

theorem execCounterRebase_runs {tag : Nat} {payload : List Byte} {s : State} : Runs 4694209 s (execCounterRebase tag payload s) := by
  unfold execCounterRebase
  refine Runs.next ?_
  repeat' first | exact Eq.refl _ | (with_reducible first | apply counterRebase_kept | apply mailboxMessage_kept | apply Kept.refl) | intro _

theorem execAuditRead_runs {tag : Nat} {payload : List Byte} {s : State} : Runs 270337 s (execAuditRead tag payload s) := by
  unfold execAuditRead
  refine Runs.next ?_
  repeat' first | exact Eq.refl _ | (with_reducible first | apply auditRead_kept | apply mailboxMessage_kept | apply Kept.refl) | intro _

theorem execAuditAck_runs {tag : Nat} {payload : List Byte} {s : State} : Runs 4661249 s (execAuditAck tag payload s) := by
  unfold execAuditAck
  refine Runs.next ?_
  repeat' first | exact Eq.refl _ | (with_reducible first | apply auditAck_kept | apply mailboxMessage_kept | apply Kept.refl) | intro _

theorem execCkptRead_runs {tag : Nat} {payload : List Byte} {s : State} : Runs 270337 s (execCkptRead tag payload s) := by
  unfold execCkptRead
  refine Runs.next ?_
  repeat' first | exact Eq.refl _ | (with_reducible first | apply ckptRead_kept | apply mailboxMessage_kept | apply Kept.refl) | intro _

theorem execIdentity_runs {tag : Nat} {payload : List Byte} {s : State} : Runs 270337 s (execIdentity tag payload s) := by
  unfold execIdentity
  refine Runs.next ?_
  repeat' first | exact Eq.refl _ | (with_reducible first | apply identityInfo_kept | apply mailboxMessage_kept | apply Kept.refl) | intro _

end Sys2Proof.Machine
end

