-- ==== Sys2Proof/Laws/Render.lean ====
section
/-! SUPPORT. For each operation and each meaning of Sys2Proof/Machine/Render.lean: the parts of the state it may touch, and that it keeps the laws. -/

namespace Sys2Proof.Machine

set_option Elab.async false

theorem takeGranules_kept {m : Nat} {o s : State} {ow : Option Nat} {n : Nat} {x : Nat × State} (h : takeGranules ow n s = some x)
    (k : Kept m o s) (hm : 268435456 ||| m = m) : Kept m o x.2 := by
  unfold takeGranules at h
  dsimp only at h
  split at h
  · cases h
  · cases h
    exact Kept.putRen k hm

theorem takeBlocks_kept {m : Nat} {o s : State} {i : Made} {l : List Nat} {y : List Nat × State} (h : takeBlocks i l s = some y)
    (k : Kept m o s) (hm : 268435456 ||| m = m) : Kept m o y.2 := by
  induction l generalizing s y with
  | nil => cases h; exact k
  | cons a t ih =>
    obtain ⟨x, hx, h⟩ := Option.bind_eq_some_iff.mp h
    obtain ⟨z, hz, rfl⟩ := Option.map_eq_some_iff.mp h
    exact ih (y := z) hz (takeGranules_kept hx k hm)

theorem allocImage_kept {m : Nat} {o s : State} {i : Made} {y : Made × State} (h : allocImage i s = some y)
    (k : Kept m o s) (hm : 208185834433 ||| m = m) : Kept m o y.2 := by
  obtain ⟨x, hx, h⟩ := Option.bind_eq_some_iff.mp h
  obtain ⟨z, hz, rfl⟩ := Option.map_eq_some_iff.mp h
  exact imgWrite_kept (takeBlocks_kept hz (takeGranules_kept hx k (lor_sub hm rfl)) (lor_sub hm rfl)) hm

theorem allocAll_kept {m : Nat} {o s : State} {l : List Made} {y : List Made × State} (h : allocAll l s = some y)
    (k : Kept m o s) (hm : 208185834433 ||| m = m) : Kept m o y.2 := by
  induction l generalizing s y with
  | nil => cases h; exact k
  | cons a t ih =>
    obtain ⟨x, hx, h⟩ := Option.bind_eq_some_iff.mp h
    obtain ⟨z, hz, rfl⟩ := Option.map_eq_some_iff.mp h
    exact ih (y := z) hz (allocImage_kept hx k hm)

theorem refuseRender_kept {m : Nat} {o s : State} {r : RenderReq} (k : Kept m o s)
    (hm : 2026351553 ||| m = m) : Kept m o (refuseRender r s) := by
  refine k.then (a := 2026351553) ?_ hm
  unfold refuseRender
  repeat' first
    | exact Eq.refl _
    | (with_reducible first
        | apply closeIfDone_kept | apply incSat_kept | apply notStarted_kept | apply showRenders_kept | apply Kept.doIf | apply Kept.forAll
        | apply Kept.refl)
    | intro _ | split | (with_reducible refine Kept.putRen ?_ rfl)

theorem renderStart_kept {m : Nat} {o s : State} (k : Kept m o s) (hm : 208185834433 ||| m = m) : Kept m o (renderStart s) := by
  refine k.then (a := 208185834433) ?_ hm
  unfold renderStart
  split
  · dsimp only
    split
    · exact Kept.refl _ _
    split
    · exact showRenders_kept (Kept.putRen (Kept.refl _ _) rfl) rfl
    · split
      · exact refuseRender_kept (Kept.refl _ _) rfl
      · have hr : ∀ (l : List Nat), Kept 208185834433 s (forAll l (fun k t => match t.ren.himg.getD k none with
            | some m => forAll (wordsOf (himgBase k m.buf) (m.w * ceilDiv m.h 8)) (fun w => readWord w 3) t
            | none => t) s) := by
          intro l
          refine Kept.forAll (Kept.refl _ _) fun k t => ?_
          split
          · exact Kept.forAll (Kept.refl _ _) fun w u => readWord_kept (Kept.refl _ _) rfl
          · exact Kept.refl _ _
        split
        · exact refuseRender_kept (hr _) rfl
        · split
          · split
            · exact Kept.refl _ _
            · exact incSat_kept (Kept.putRen (Kept.refl _ _) rfl) rfl
          · next made s1 he =>
            have h1 := allocAll_kept he (hr _) rfl
            exact showAlloc_kept (showRenders_kept (Kept.putRen h1 rfl) rfl) rfl
  · exact Kept.refl _ _

theorem execRenderStart_runs {s : State} : Runs 208185834433 s (execRenderStart s) := by
  unfold execRenderStart
  refine Runs.next ?_
  repeat' first | exact Eq.refl _ | (with_reducible first | apply renderStart_kept | apply Kept.refl)

theorem writeImage_kept {msk : Nat} {o s : State} {m : Made} {grid : List (List Bool)} (k : Kept msk o s)
    (hm : 208185834433 ||| msk = msk) : Kept msk o (writeImage m grid s) := by
  refine k.then (a := 208185834433) ?_ hm
  unfold writeImage
  repeat' first | exact Eq.refl _ | (with_reducible first | apply imgWrite_kept | apply Kept.forAll | apply Kept.refl) | intro _

theorem giveImage_kept {msk : Nat} {o s : State} {r : RenderReq} {m : Made} (k : Kept msk o s)
    (hm : 576 ||| msk = msk) : Kept msk o (giveImage r m s) := by
  refine k.then (a := 576) ?_ hm
  unfold giveImage
  repeat' first
    | exact Eq.refl _ | (with_reducible first | apply Kept.ite | apply Kept.refl) | intro _ | split | (with_reducible refine Kept.putSch ?_ rfl)

theorem renderComplete_kept {m : Nat} {o s : State} (k : Kept m o s)
    (hm : 208185834433 ||| m = m) : Kept m o (renderComplete s) := by
  refine k.then (a := 208185834433) ?_ hm
  unfold renderComplete
  repeat' first
    | exact Eq.refl _
    | (with_reducible first
        | apply addMod_kept | apply dropRenders_kept | apply freeImages_kept | apply giveImage_kept | apply incSat_kept | apply renderAgain_kept
        | apply writeImage_kept | apply Kept.doIf | apply Kept.forAll | apply Kept.refl)
    | intro _ | split | (with_reducible refine Kept.putRen ?_ rfl)

theorem execRenderComplete_runs {s : State} : Runs 208185834433 s (execRenderComplete s) := by
  unfold execRenderComplete
  refine Runs.next ?_
  repeat' first | exact Eq.refl _ | (with_reducible first | apply renderComplete_kept | apply Kept.refl)

theorem firstBufferStage_kept {m : Nat} {o s : State} {h : Nat} (k : Kept m o s)
    (hm : 134218304 ||| m = m) : Kept m o (firstBufferStage h s) := by
  refine k.then (a := 134218304) ?_ hm
  unfold firstBufferStage
  repeat' first
    | exact Eq.refl _ | (with_reducible first | apply modJob_kept | apply setPath_kept | apply Kept.ite | apply Kept.refl) | intro _ | split

theorem execFirstBufferStage_runs {h : Nat} {s : State} : Runs 134218304 s (execFirstBufferStage h s) := by
  unfold execFirstBufferStage
  refine Runs.next ?_
  repeat' first | exact Eq.refl _ | (with_reducible first | apply firstBufferStage_kept | apply Kept.ite | apply Kept.refl)

theorem jobResident_kept {m : Nat} {o s : State} {j : Nat} (k : Kept m o s)
    (hm : 268436032 ||| m = m) : Kept m o (jobResident j s) := by
  refine k.then (a := 268436032) ?_ hm
  unfold jobResident
  repeat' first
    | exact Eq.refl _ | (with_reducible first | apply modJob_kept | apply Kept.ite | apply Kept.refl) | intro _ | split
    | (with_reducible refine Kept.putRen ?_ rfl)

theorem execJobResident_runs {j : Nat} {s : State} : Runs 268436032 s (execJobResident j s) := by
  unfold execJobResident
  refine Runs.next ?_
  repeat' first | exact Eq.refl _ | (with_reducible first | apply jobResident_kept | apply Kept.refl)

theorem imageDamage_kept {m : Nat} {o s : State} {h j header : Nat} {read : State → State} (k : Kept m o s)
    (hm : 273022977 ||| m = m) (h_read : ∀ a0, Kept m a0 (read a0)) : Kept m o (imageDamage h j header read s) := by
  unfold imageDamage
  repeat' first
    | exact lor_sub hm rfl | exact k
    | (with_reducible first
        | apply raiseSimple_kept | apply renderAgain_kept | apply Kept.ite | apply Kept.refl)
    | (refine Kept.then ?_ (h_read _) (Nat.or_self _)) | intro _ | split | refine Kept.then ?_ (Kept.upd (m := 273022977) (Kept.refl _ _) rfl) hm

theorem stageColumn_kept {m : Nat} {o s : State} {header idx : Nat} (k : Kept m o s)
    (hm : 1 ||| m = m) : Kept m o (stageColumn header idx s).2 := by
  refine k.then (a := 1) ?_ hm
  unfold stageColumn
  repeat' first
    | exact Eq.refl _
    | (with_reducible first
        | apply addMod_kept | apply incSat_kept | apply Kept.ite | apply Kept.doIf | apply Kept.refl)
    | intro _ | split | (dsimp only)

theorem fabricError_kept {m : Nat} {o s : State} {h : Nat} (k : Kept m o s)
    (hm : 2026355649 ||| m = m) : Kept m o (fabricError h s) := by
  refine k.then (a := 2026355649) ?_ hm
  unfold fabricError
  repeat' first | exact Eq.refl _ | (with_reducible first | apply modPath_kept | apply raiseFault_kept | apply showWindows_kept | apply Kept.refl)

theorem bufferColumn_kept {m : Nat} {o s : State} {h j idx : Nat} {data : List Byte} (k : Kept m o s)
    (hm : 77477184065 ||| m = m) : Kept m o (bufferColumn h j idx data s) := by
  refine k.then (a := 77477184065) ?_ hm
  unfold bufferColumn
  repeat' first
    | exact Eq.refl _
    | (with_reducible first
        | apply addMod_kept | apply bankWrite_kept | apply buAdvanceAll_kept | apply earlyLate_kept | apply modJob_kept | apply setPath_kept
        | apply showPath_kept | apply Kept.ite | apply Kept.doIf | apply Kept.forAll | apply Kept.refl)
    | intro _

theorem columnDeliver_kept {m : Nat} {o s : State} {h : Nat} {fabric ue : Bool} (k : Kept m o s) (hm : 79370369985 ||| m = m) :
    Kept m o (columnDeliver h fabric ue s) := by
  refine k.then (a := 79370369985) ?_ hm
  unfold columnDeliver
  split
  · exact fabricError_kept (Kept.refl _ _) rfl
  · split
    · exact Kept.refl _ _
    · split
      · exact Kept.refl _ _
      · next j x _ =>
        have e := stageColumn_kept (header := (x.image - 0x1000000) / 256) (idx := x.colsRes)
          (readWords_kept (l := stagedWords ((x.image - 0x1000000) / 256) x.colsRes s) (agent := 3) (Kept.refl 79370369985 s) rfl) rfl
        dsimp only
        split
        · exact imageDamage_kept (Kept.refl _ _) rfl fun t => readWords_kept (Kept.refl _ _) rfl
        · split
          · exact imageDamage_kept (Kept.refl _ _) rfl fun t => memUe_kept (Kept.refl _ _) rfl
          · split
            · next s1 he =>
              rw [he] at e
              exact imageDamage_kept e rfl fun t => Kept.refl _ _
            · next data s1 he =>
              rw [he] at e
              exact bufferColumn_kept e rfl

theorem execColumnDeliver_runs {h : Nat} {fabric ue : Bool} {s : State} : Runs 79370369985 s (execColumnDeliver h fabric ue s) := by
  unfold execColumnDeliver
  refine Runs.next ?_
  repeat' first | exact Eq.refl _ | (with_reducible first | apply columnDeliver_kept | apply Kept.ite | apply Kept.refl)

theorem pathRestartDone_kept {m : Nat} {o s : State} {h : Nat} (k : Kept m o s)
    (hm : 134217729 ||| m = m) : Kept m o (pathRestartDone h s) := by
  refine k.then (a := 134217729) ?_ hm
  unfold pathRestartDone
  repeat' first | exact Eq.refl _ | (with_reducible first | apply modPath_kept | apply showWindows_kept | apply Kept.ite | apply Kept.refl)

theorem execPathRestartDone_runs {h : Nat} {s : State} : Runs 134217729 s (execPathRestartDone h s) := by
  unfold execPathRestartDone
  refine Runs.next ?_
  repeat' first | exact Eq.refl _ | (with_reducible first | apply pathRestartDone_kept | apply Kept.ite | apply Kept.refl)

theorem trowelCompress_kept {m : Nat} {o s : State} {out : List Byte} (k : Kept m o s) (hm : 208185834433 ||| m = m) :
    Kept m o (trowelCompress out s) := by
  refine k.then (a := 208185834433) ?_ hm
  unfold trowelCompress
  split
  · exact Kept.refl _ _
  · dsimp only
    refine Kept.ite (Kept.refl _ _) ?_
    split
    · split
      · exact imageDamage_kept (Kept.putRen (Kept.refl _ _) rfl) rfl fun t => readWords_kept (Kept.refl _ _) rfl
      · exact readWords_kept (Kept.putRen (Kept.refl _ _) rfl) rfl
    · have hr : ∀ l x, Kept 208185834433 s (readWords l 3 { s with ren := x }) := fun l x => readWords_kept (Kept.putRen (Kept.refl _ _) rfl) rfl
      split
      · exact Kept.refl _ _
      split
      · exact incSat_kept (hr _ _) rfl
      · split
        · exact Kept.refl _ _
        · next g s2 he =>
          have h2 := takeGranules_kept he (hr _ _) rfl
          have h3 : ∀ a l b n, Kept 208185834433 s (imgWrite b n (imgWrite a l s2)) :=
            fun a l b n => imgWrite_kept (imgWrite_kept h2 rfl) rfl
          exact addMod_kept (showAlloc_kept (Kept.putRen (h3 _ _ _ _) rfl) rfl) rfl

theorem execTrowelCompress_runs {out : List Byte} {s : State} : Runs 208185834433 s (execTrowelCompress out s) := by
  unfold execTrowelCompress
  refine Runs.next ?_
  repeat' first | exact Eq.refl _ | (with_reducible first | apply trowelCompress_kept | apply Kept.refl)

theorem showFonts_kept {m : Nat} {o s : State} (k : Kept m o s)
    (hm : 1 ||| m = m) : Kept m o (showFonts s) := by
  refine k.then (a := 1) ?_ hm
  unfold showFonts
  repeat' first | exact Eq.refl _ | (with_reducible first | apply setF_kept | apply Kept.ite | apply Kept.refl)

theorem fontLoad_kept {m : Nat} {o s : State} (k : Kept m o s)
    (hm : 1 ||| m = m) : Kept m o (fontLoad s) := by
  refine k.then (a := 1) ?_ hm
  unfold fontLoad
  repeat' first | exact Eq.refl _ | (with_reducible first | apply setB_kept | apply Kept.ite | apply Kept.refl)

theorem execFontLoad_runs {s : State} : Runs 1 s (execFontLoad s) := by
  unfold execFontLoad
  refine Runs.next ?_
  repeat' first | exact Eq.refl _ | (with_reducible first | apply fontLoad_kept | apply hostAccess_kept | apply Kept.refl) | intro _

theorem fontVerifyDone_kept {m : Nat} {o s : State} (k : Kept m o s)
    (hm : 70746880961 ||| m = m) : Kept m o (fontVerifyDone s) := by
  refine k.then (a := 70746880961) ?_ hm
  unfold fontVerifyDone
  repeat' first
    | exact Eq.refl _
    | (with_reducible first
        | apply readWord_kept | apply setB_kept | apply setF_kept | apply showFonts_kept | apply Kept.ite | apply Kept.forAll | apply Kept.refl)
    | intro _ | split | (with_reducible refine Kept.putRen ?_ rfl)

theorem execFontVerifyDone_runs {s : State} : Runs 70746880961 s (execFontVerifyDone s) := by
  unfold execFontVerifyDone
  refine Runs.next ?_
  repeat' first | exact Eq.refl _ | (with_reducible first | apply fontVerifyDone_kept | apply Kept.refl)

theorem fontUnload_kept {m : Nat} {o s : State} (k : Kept m o s)
    (hm : 268435457 ||| m = m) : Kept m o (fontUnload s) := by
  refine k.then (a := 268435457) ?_ hm
  unfold fontUnload
  repeat' first
    | exact Eq.refl _ | (with_reducible first | apply setF_kept | apply showFonts_kept | apply Kept.ite | apply Kept.refl) | intro _ | split
    | (with_reducible refine Kept.putRen ?_ rfl)

theorem execFontUnload_runs {s : State} : Runs 268435457 s (execFontUnload s) := by
  unfold execFontUnload
  refine Runs.next ?_
  repeat' first | exact Eq.refl _ | (with_reducible first | apply fontUnload_kept | apply hostAccess_kept | apply Kept.refl) | intro _

theorem setBit_kept {m : Nat} {o s : State} {f : Field} {k : Nat} {b : Bool} (hk : Kept m o s)
    (hm : 1 ||| m = m) : Kept m o (setBit f k b s) := by
  refine hk.then (a := 1) ?_ hm
  unfold setBit
  repeat' first | exact Eq.refl _ | (with_reducible first | apply setF_kept | apply Kept.ite | apply Kept.refl)

theorem himgBufferFree_kept {m : Nat} {o s : State} {k : Nat} (hk : Kept m o s)
    (hm : 1 ||| m = m) : Kept m o (himgBufferFree k s) := by
  refine hk.then (a := 1) ?_ hm
  unfold himgBufferFree
  repeat' first | exact Eq.refl _ | (with_reducible first | apply setBit_kept | apply Kept.ite | apply Kept.refl) | intro _ | split

theorem execHimgBufferFree_runs {k : Nat} {s : State} : Runs 1 s (execHimgBufferFree k s) := by
  unfold execHimgBufferFree
  refine Runs.next ?_
  repeat' first | exact Eq.refl _ | (with_reducible first | apply himgBufferFree_kept | apply Kept.ite | apply Kept.refl)

theorem himgCommit_kept {m : Nat} {o s : State} {v : Nat} (k : Kept m o s)
    (hm : 268435457 ||| m = m) : Kept m o (himgCommit v s) := by
  refine k.then (a := 268435457) ?_ hm
  unfold himgCommit
  repeat' first
    | exact Eq.refl _
    | (with_reducible first
        | apply himgBufferFree_kept | apply setBit_kept | apply setF_kept | apply Kept.ite | apply Kept.refl)
    | intro _ | split | (with_reducible refine Kept.putRen ?_ rfl)

theorem execHimgCommit_runs {value : Nat} {s : State} : Runs 268435459 s (execHimgCommit value s) := by
  unfold execHimgCommit
  refine Runs.next ?_
  repeat' first
    | exact Eq.refl _
    | (with_reducible first
        | apply himgCommit_kept | apply hostAccess_kept | apply plainWrite_kept | apply Kept.refl)
    | intro _

theorem himgClear_kept {m : Nat} {o s : State} {v : Nat} (k : Kept m o s)
    (hm : 268435457 ||| m = m) : Kept m o (himgClear v s) := by
  refine k.then (a := 268435457) ?_ hm
  unfold himgClear
  repeat' first
    | exact Eq.refl _ | (with_reducible first | apply setBit_kept | apply Kept.refl) | intro _ | split | (with_reducible refine Kept.putRen ?_ rfl)

theorem execHimgClear_runs {value : Nat} {s : State} : Runs 268435459 s (execHimgClear value s) := by
  unfold execHimgClear
  refine Runs.next ?_
  repeat' first
    | exact Eq.refl _
    | (with_reducible first
        | apply himgClear_kept | apply hostAccess_kept | apply plainWrite_kept | apply Kept.refl)
    | intro _

end Sys2Proof.Machine
end

