-- ==== Sys2Proof/Laws/LifeCycle.lean ====
section
/-! SUPPORT. For each operation and each meaning of Sys2Proof/Machine/LifeCycle.lean: the parts of the state it may touch, and that it keeps the laws. -/

namespace Sys2Proof.Machine

set_option Elab.async false

theorem modLc_kept {m : Nat} {o s : State} {f : Lifecycle → Lifecycle} (k : Kept m o s)
    (hm : 2097152 ||| m = m) : Kept m o (modLc f s) := by
  refine k.then (a := 2097152) ?_ hm
  unfold modLc
  repeat' first | exact Eq.refl _ | exact Kept.refl _ _ | intro _ | split | (with_reducible refine Kept.putLc ?_ rfl)

theorem changeRecords_kept {m : Nat} {o s : State} (k : Kept m o s) (hm : 4294975552 ||| m = m) : Kept m o (changeRecords s) := by
  refine k.then (a := 4294975552) ((persist_kept (Kept.refl _ _) rfl).then (a := 4294967360) ?_ rfl) hm
  unfold changeRecords
  refine ⟨rfl, fun h => { h with
    banks := by have hb := h.banks; simp only [bankSizes, List.length_map] at hb ⊢; exact hb
    ledgersSaved := ?_ }, fun p hp => ?_⟩
  · intro x hx l hl
    obtain rfl := Option.mem_some.mp hx
    obtain rfl := List.eq_of_mem_replicate hl
    exact Ledger.law_zero
  · cases p <;> first | exact absurd hp (by decide) | rfl | exact ⟨rfl, rfl⟩ | exact ⟨rfl, rfl, rfl⟩

theorem enterState_kept {m : Nat} {o s : State} {x : LcState} {fuse : Bool} (k : Kept m o s)
    (hm : 4297072704 ||| m = m) : Kept m o (enterState x fuse s) := by
  refine k.then (a := 4297072704) ?_ hm
  unfold enterState
  repeat' first | exact Eq.refl _ | (with_reducible first | apply changeRecords_kept | apply modLc_kept | apply Kept.ite | apply Kept.refl)

theorem lcStatus_kept {m : Nat} {o s : State} {q_ : _} (k : Kept m o s)
    (hm : 0 ||| m = m) : Kept m o (lcStatus q_ s).2 := by
  refine k.then (a := 0) ?_ hm
  unfold lcStatus
  repeat' first
    | exact Eq.refl _ | (with_reducible first | apply answer_kept | apply refuse_kept | apply Kept.ite | apply Kept.refl) | intro _ | split

theorem lcNonce_kept {m : Nat} {o s : State} {q_ : _} (k : Kept m o s)
    (hm : 2105344 ||| m = m) : Kept m o (lcNonce q_ s).2 := by
  refine k.then (a := 2105344) ?_ hm
  unfold lcNonce
  repeat' first
    | exact Eq.refl _
    | (with_reducible first
        | apply answer_kept | apply drawNonce_kept | apply modLc_kept | apply refuse_kept | apply Kept.ite | apply Kept.refl)
    | intro _ | split

theorem lcProvision_kept {m : Nat} {o s : State} {q_ : List Byte} (k : Kept m o s) (hm : 4301758529 ||| m = m) :
    Kept m o (lcProvision q_ s).2 := by
  refine k.then (a := 4301758529) ?_ hm
  unfold lcProvision
  split
  · exact refuse_kept (Kept.refl _ _) rfl
  · split
    · exact refuse_kept (Kept.refl _ _) rfl
    · split
      · exact refuse_kept (Kept.refl _ _) rfl
      · dsimp only
        refine answer_kept (enterState_kept (auditAppend_kept (Kept.then (a := 106496)
          (modLc_kept (f := fun l => { l with identity := l.identity + 1, auth := List.replicate 8 none, check := List.replicate 16 none, cosign := none })
            (Kept.refl _ s) rfl) ?_ rfl) rfl) rfl) rfl
        refine ⟨rfl, fun h => { h with counters := nofun, counterCopies := nofun }, fun p hp => ?_⟩
        cases p <;> first | exact absurd hp (by decide) | rfl | exact ⟨rfl, rfl⟩ | exact ⟨rfl, rfl, rfl⟩

theorem lcDeploy_kept {m : Nat} {o s : State} {q_ : _} (k : Kept m o s)
    (hm : 4297072704 ||| m = m) : Kept m o (lcDeploy q_ s).2 := by
  refine k.then (a := 4297072704) ?_ hm
  unfold lcDeploy
  repeat' first
    | exact Eq.refl _
    | (with_reducible first
        | apply answer_kept | apply enterState_kept | apply refuse_kept | apply Kept.ite | apply Kept.refl)
    | intro _ | split

theorem lcServiceEnter_kept {m : Nat} {o s : State} {q_ : _} (k : Kept m o s)
    (hm : 4297072704 ||| m = m) : Kept m o (lcServiceEnter q_ s).2 := by
  refine k.then (a := 4297072704) ?_ hm
  unfold lcServiceEnter
  repeat' first
    | exact Eq.refl _
    | (with_reducible first
        | apply answer_kept | apply enterState_kept | apply modLc_kept | apply refuse_kept | apply Kept.ite | apply Kept.refl)
    | intro _ | split

theorem lcServiceExit_kept {m : Nat} {o s : State} {q_ : _} (k : Kept m o s)
    (hm : 4297072704 ||| m = m) : Kept m o (lcServiceExit q_ s).2 := by
  refine k.then (a := 4297072704) ?_ hm
  unfold lcServiceExit
  repeat' first
    | exact Eq.refl _
    | (with_reducible first
        | apply answer_kept | apply enterState_kept | apply refuse_kept | apply Kept.ite | apply Kept.refl)
    | intro _ | split

theorem eraseAll_kept {m : Nat} {o s : State} (k : Kept m o s) (hm : 2203712 ||| m = m) : Kept m o (eraseAll s) := by
  refine k.then (a := 2203712) ⟨rfl, fun h => { h with ledgersSaved := nofun, counters := nofun, counterCopies := nofun },
    fun p hp => ?_⟩ hm
  cases p <;> first | exact absurd hp (by decide) | rfl | exact ⟨rfl, rfl⟩ | exact ⟨rfl, rfl, rfl⟩

theorem retire_kept {m : Nat} {o s : State} (k : Kept m o s)
    (hm : 4297171008 ||| m = m) : Kept m o (retire s).2 := by
  refine k.then (a := 4297171008) ?_ hm
  unfold retire
  repeat' first
    | exact Eq.refl _
    | (with_reducible first
        | apply answer_kept | apply enterState_kept | apply eraseAll_kept | apply signCheckpoint_kept | apply Kept.refl)

theorem lcRetire_kept {m : Nat} {o s : State} {q_ : _} (k : Kept m o s)
    (hm : 4297171008 ||| m = m) : Kept m o (lcRetire q_ s).2 := by
  refine k.then (a := 4297171008) ?_ hm
  unfold lcRetire
  repeat' first
    | exact Eq.refl _ | (with_reducible first | apply refuse_kept | apply retire_kept | apply Kept.ite | apply Kept.refl) | intro _ | split

theorem execServiceExpiry_runs {s : State} : Runs 2097152 s (execServiceExpiry s) := by
  unfold execServiceExpiry
  refine Runs.next ?_
  repeat' first | exact Eq.refl _ | (with_reducible first | apply modLc_kept | apply Kept.ite | apply Kept.refl)

theorem keyStatus_kept {m : Nat} {o s : State} {q_ : _} (k : Kept m o s)
    (hm : 0 ||| m = m) : Kept m o (keyStatus q_ s).2 := by
  refine k.then (a := 0) ?_ hm
  unfold keyStatus
  repeat' first
    | exact Eq.refl _ | (with_reducible first | apply answer_kept | apply refuse_kept | apply Kept.ite | apply Kept.refl) | intro _ | split

theorem keyMessage_kept {m : Nat} {o s : State} {n : Nat} {tok : TokenFor} {bad used : Bool} {p : List Byte} {f : State → Reply × State} (k : Kept m o s)
    (hm : 0 ||| m = m) (h_f : ∀ a0, Kept m a0 (f a0).2) : Kept m o (keyMessage n tok bad used p s f).2 := by
  unfold keyMessage
  repeat' first
    | exact lor_sub hm rfl | exact k | (with_reducible first | apply refuse_kept | apply Kept.ite | apply Kept.refl)
    | (refine Kept.then ?_ (h_f _) (Nat.or_self _)) | intro _ | split

theorem keyAuthSet_kept {m : Nat} {o s : State} {q_ : _} (k : Kept m o s)
    (hm : 2097152 ||| m = m) : Kept m o (keyAuthSet q_ s).2 := by
  refine k.then (a := 2097152) ?_ hm
  unfold keyAuthSet
  repeat' first | exact Eq.refl _ | (with_reducible first | apply answer_kept | apply keyMessage_kept | apply modLc_kept | apply Kept.refl) | intro _

theorem keyCheckSet_kept {m : Nat} {o s : State} {q_ : _} (k : Kept m o s)
    (hm : 2097152 ||| m = m) : Kept m o (keyCheckSet q_ s).2 := by
  refine k.then (a := 2097152) ?_ hm
  unfold keyCheckSet
  repeat' first
    | exact Eq.refl _
    | (with_reducible first
        | apply answer_kept | apply keyMessage_kept | apply modLc_kept | apply refuse_kept | apply Kept.refl)
    | intro _ | split

theorem keyCosignSet_kept {m : Nat} {o s : State} {q_ : _} (k : Kept m o s)
    (hm : 2097152 ||| m = m) : Kept m o (keyCosignSet q_ s).2 := by
  refine k.then (a := 2097152) ?_ hm
  unfold keyCosignSet
  repeat' first | exact Eq.refl _ | (with_reducible first | apply answer_kept | apply keyMessage_kept | apply modLc_kept | apply Kept.refl) | intro _

theorem keyClear_kept {m : Nat} {o s : State} {q_ : _} (k : Kept m o s)
    (hm : 2097152 ||| m = m) : Kept m o (keyClear q_ s).2 := by
  refine k.then (a := 2097152) ?_ hm
  unfold keyClear
  repeat' first
    | exact Eq.refl _
    | (with_reducible first
        | apply answer_kept | apply keyMessage_kept | apply modLc_kept | apply Kept.ite | apply Kept.refl)
    | intro _

theorem execLcStatus_runs {tag : Nat} {payload : List Byte} {s : State} : Runs 270337 s (execLcStatus tag payload s) := by
  unfold execLcStatus
  refine Runs.next ?_
  repeat' first | exact Eq.refl _ | (with_reducible first | apply lcStatus_kept | apply mailboxMessage_kept | apply Kept.refl) | intro _

theorem execLcNonce_runs {tag : Nat} {payload : List Byte} {s : State} : Runs 2367489 s (execLcNonce tag payload s) := by
  unfold execLcNonce
  refine Runs.next ?_
  repeat' first | exact Eq.refl _ | (with_reducible first | apply lcNonce_kept | apply mailboxMessage_kept | apply Kept.refl) | intro _

theorem execLcProvision_runs {tag : Nat} {payload : List Byte} {s : State} : Runs 4301758529 s (execLcProvision tag payload s) := by
  unfold execLcProvision
  refine Runs.next ?_
  repeat' first | exact Eq.refl _ | (with_reducible first | apply lcProvision_kept | apply mailboxMessage_kept | apply Kept.refl) | intro _

theorem execLcDeploy_runs {tag : Nat} {payload : List Byte} {s : State} : Runs 4297334849 s (execLcDeploy tag payload s) := by
  unfold execLcDeploy
  refine Runs.next ?_
  repeat' first | exact Eq.refl _ | (with_reducible first | apply lcDeploy_kept | apply mailboxMessage_kept | apply Kept.refl) | intro _

theorem execLcServiceEnter_runs {tag : Nat} {payload : List Byte} {s : State} : Runs 4297334849 s (execLcServiceEnter tag payload s) := by
  unfold execLcServiceEnter
  refine Runs.next ?_
  repeat' first | exact Eq.refl _ | (with_reducible first | apply lcServiceEnter_kept | apply mailboxMessage_kept | apply Kept.refl) | intro _

theorem execLcServiceExit_runs {tag : Nat} {payload : List Byte} {s : State} : Runs 4297334849 s (execLcServiceExit tag payload s) := by
  unfold execLcServiceExit
  refine Runs.next ?_
  repeat' first | exact Eq.refl _ | (with_reducible first | apply lcServiceExit_kept | apply mailboxMessage_kept | apply Kept.refl) | intro _

theorem execLcRetire_runs {tag : Nat} {payload : List Byte} {s : State} : Runs 4297433153 s (execLcRetire tag payload s) := by
  unfold execLcRetire
  refine Runs.next ?_
  repeat' first | exact Eq.refl _ | (with_reducible first | apply lcRetire_kept | apply mailboxMessage_kept | apply Kept.refl) | intro _

theorem execKeyStatus_runs {tag : Nat} {payload : List Byte} {s : State} : Runs 270337 s (execKeyStatus tag payload s) := by
  unfold execKeyStatus
  refine Runs.next ?_
  repeat' first | exact Eq.refl _ | (with_reducible first | apply keyStatus_kept | apply mailboxMessage_kept | apply Kept.refl) | intro _

theorem execKeyAuthSet_runs {tag : Nat} {payload : List Byte} {s : State} : Runs 2367489 s (execKeyAuthSet tag payload s) := by
  unfold execKeyAuthSet
  refine Runs.next ?_
  repeat' first | exact Eq.refl _ | (with_reducible first | apply keyAuthSet_kept | apply mailboxMessage_kept | apply Kept.refl) | intro _

theorem execKeyCheckSet_runs {tag : Nat} {payload : List Byte} {s : State} : Runs 2367489 s (execKeyCheckSet tag payload s) := by
  unfold execKeyCheckSet
  refine Runs.next ?_
  repeat' first | exact Eq.refl _ | (with_reducible first | apply keyCheckSet_kept | apply mailboxMessage_kept | apply Kept.refl) | intro _

theorem execKeyCosignSet_runs {tag : Nat} {payload : List Byte} {s : State} : Runs 2367489 s (execKeyCosignSet tag payload s) := by
  unfold execKeyCosignSet
  refine Runs.next ?_
  repeat' first | exact Eq.refl _ | (with_reducible first | apply keyCosignSet_kept | apply mailboxMessage_kept | apply Kept.refl) | intro _

theorem execKeyClear_runs {tag : Nat} {payload : List Byte} {s : State} : Runs 2367489 s (execKeyClear tag payload s) := by
  unfold execKeyClear
  refine Runs.next ?_
  repeat' first | exact Eq.refl _ | (with_reducible first | apply keyClear_kept | apply mailboxMessage_kept | apply Kept.refl) | intro _

theorem handlerOf_kept {m : Nat} {o s : State} {ty : Nat} {q_ : _} (k : Kept m o s)
    (hm : 4302823617 ||| m = m) : Kept m o (handlerOf ty q_ s).2 := by
  refine k.then (a := 4302823617) ?_ hm
  unfold handlerOf
  repeat' first
    | exact Eq.refl _
    | (with_reducible first
        | apply auditAck_kept | apply auditRead_kept | apply batchAdvance_kept | apply ckptRead_kept | apply counterRebase_kept
        | apply identityInfo_kept | apply keyAuthSet_kept | apply keyCheckSet_kept | apply keyClear_kept | apply keyCosignSet_kept
        | apply keyStatus_kept | apply lcDeploy_kept | apply lcNonce_kept | apply lcProvision_kept | apply lcRetire_kept | apply lcServiceEnter_kept
        | apply lcServiceExit_kept | apply lcStatus_kept | apply openSet_kept | apply refuse_kept | apply serialLedger_kept | apply stencilBegin_kept
        | apply stencilData_kept | apply stencilEnd_kept | apply stencilInfo_kept | apply stencilUnload_kept | apply timeNonce_kept
        | apply timeStatus_kept | apply timeToken_kept | apply Kept.refl)
    | intro _ | split

theorem mailboxTake_kept {m : Nat} {o s : State} (k : Kept m o s)
    (hm : 4302823617 ||| m = m) : Kept m o (mailboxTake s) := by
  refine k.then (a := 4302823617) ?_ hm
  unfold mailboxTake
  repeat' first | exact Eq.refl _ | (with_reducible first | apply handlerOf_kept | apply mailboxGo_kept | apply Kept.refl) | intro _

theorem serveWaiting_kept {m : Nat} {o s : State} (k : Kept m o s)
    (hm : 4302823617 ||| m = m) : Kept m o (serveWaiting s) := by
  refine k.then (a := 4302823617) ?_ hm
  unfold serveWaiting
  repeat' first
    | exact Eq.refl _
    | (with_reducible first
        | apply handlerOf_kept | apply mailboxReply_kept | apply serveWith_kept | apply Kept.ite | apply Kept.refl)
    | intro _ | split | (with_reducible refine Kept.putTrust ?_ rfl)

end Sys2Proof.Machine
end

