-- ==== Sys2Proof/Laws/Schedule.lean ====
section
/-! SUPPORT. For each operation and each meaning of Sys2Proof/Machine/Schedule.lean: the parts of the state it may touch, and that it keeps the laws. -/

namespace Sys2Proof.Machine

set_option Elab.async false

theorem burstDue_kept {m : Nat} {o s : State} {e : Event} (k : Kept m o s)
    (hm : 4294967297 ||| m = m) : Kept m o (burstDue e s) := by
  refine k.then (a := 4294967297) ?_ hm
  unfold burstDue
  repeat' first | exact Eq.refl _ | (with_reducible first | apply abortBurst_kept | apply Kept.refl) | intro _ | split

theorem execReadyBy_runs {i : Nat} {s : State} : Runs 6338096065 s (execReadyBy i s) := by
  unfold execReadyBy
  refine Runs.next ?_
  repeat' first
    | exact Eq.refl _
    | (with_reducible first
        | apply burstDue_kept | apply dispatch_kept | apply petErase_kept | apply readyBy_kept | apply tidy_kept | apply Kept.refl)
    | intro _

theorem execStartChk_runs {i : Nat} {s : State} : Runs 2026351553 s (execStartChk i s) := by
  unfold execStartChk
  refine Runs.next ?_
  repeat' first
    | exact Eq.refl _
    | (with_reducible first
        | apply dispatch_kept | apply petErase_kept | apply startChk_kept | apply tidy_kept | apply Kept.ite | apply Kept.refl)
    | intro _ | split | (with_reducible refine Kept.putSch ?_ rfl)

theorem execEndChk_runs {i : Nat} {s : State} : Runs 4694977 s (execEndChk i s) := by
  unfold execEndChk
  refine Runs.next ?_
  repeat' first
    | exact Eq.refl _
    | (with_reducible first
        | apply dispatch_kept | apply endChk_kept | apply petErase_kept | apply tidy_kept | apply Kept.refl)
    | intro _

theorem execRejDecide_runs {i : Nat} {s : State} : Runs 2026351553 s (execRejDecide i s) := by
  unfold execRejDecide
  refine Runs.next ?_
  repeat' first
    | exact Eq.refl _
    | (with_reducible first
        | apply dispatch_kept | apply petErase_kept | apply rejDecide_kept | apply Kept.refl)
    | intro _

theorem execRejGate_runs {i : Nat} {s : State} : Runs 4699073 s (execRejGate i s) := by
  unfold execRejGate
  refine Runs.next ?_
  repeat' first | exact Eq.refl _ | (with_reducible first | apply dispatch_kept | apply rejGate_kept | apply Kept.refl) | intro _

theorem execRejOff_runs {i : Nat} {s : State} : Runs 4417 s (execRejOff i s) := by
  unfold execRejOff
  refine Runs.next ?_
  repeat' first | exact Eq.refl _ | (with_reducible first | apply dispatch_kept | apply petErase_kept | apply rejOff_kept | apply Kept.refl) | intro _

theorem execRejPulseTimer_runs {r : Nat} {s : State} : Runs 4161 s (execRejPulseTimer r s) := by
  unfold execRejPulseTimer
  refine Runs.next ?_
  repeat' first | exact Eq.refl _ | (with_reducible first | apply State.setRej_kept | apply showRej_kept | apply Kept.ite | apply Kept.refl)

theorem petHostInsert_kept {m : Nat} {o s : State} {v : Nat} (k : Kept m o s)
    (hm : 321 ||| m = m) : Kept m o (petHostInsert v s) := by
  refine k.then (a := 321) ?_ hm
  unfold petHostInsert
  repeat' first | exact Eq.refl _ | (with_reducible first | apply petInsert_kept | apply setF_kept | apply Kept.ite | apply Kept.refl)

theorem execPetInsert_runs {value : Nat} {s : State} : Runs 321 s (execPetInsert value s) := by
  unfold execPetInsert
  refine Runs.next ?_
  repeat' first | exact Eq.refl _ | (with_reducible first | apply hostAccess_kept | apply petHostInsert_kept | apply Kept.refl) | intro _

theorem loadSlot_kept {m : Nat} {o s : State} {b : Nat} (k : Kept m o s)
    (hm : 1089 ||| m = m) : Kept m o (loadSlot b s) := by
  refine k.then (a := 1089) ?_ hm
  unfold loadSlot
  repeat' first
    | exact Eq.refl _
    | (with_reducible first
        | apply publishTerms_kept | apply setB_kept | apply setF_kept | apply Kept.ite | apply Kept.forAll | apply Kept.refl)
    | intro _ | split | (with_reducible refine Kept.putSch ?_ rfl)

theorem unloadSlot_kept {m : Nat} {o s : State} {b : Nat} (k : Kept m o s)
    (hm : 1089 ||| m = m) : Kept m o (unloadSlot b s) := by
  refine k.then (a := 1089) ?_ hm
  unfold unloadSlot
  repeat' first
    | exact Eq.refl _ | (with_reducible first | apply setB_kept | apply Kept.refl) | intro _ | split | (with_reducible refine Kept.putSch ?_ rfl)

theorem bindCtlWrite_kept {m : Nat} {o s : State} {b v : Nat} (k : Kept m o s)
    (hm : 1091 ||| m = m) : Kept m o (bindCtlWrite b v s) := by
  refine k.then (a := 1091) ?_ hm
  unfold bindCtlWrite
  repeat' first
    | exact Eq.refl _
    | (with_reducible first
        | apply loadSlot_kept | apply plainWrite_kept | apply setB_kept | apply setF_kept | apply unloadSlot_kept | apply Kept.ite | apply Kept.doIf
        | apply Kept.refl)
    | intro _

theorem bindRegWrite_kept {m : Nat} {o s : State} {a v : Nat} (k : Kept m o s)
    (hm : 1091 ||| m = m) : Kept m o (bindRegWrite a v s) := by
  refine k.then (a := 1091) ?_ hm
  unfold bindRegWrite
  repeat' first
    | exact Eq.refl _
    | (with_reducible first
        | apply bindCtlWrite_kept | apply plainWrite_kept | apply setB_kept | apply Kept.ite | apply Kept.doIf | apply Kept.refl)
    | intro _ | split

theorem execBindLoad_runs {b value : Nat} {s : State} : Runs 1091 s (execBindLoad b value s) := by
  unfold execBindLoad
  refine Runs.next ?_
  repeat' first | exact Eq.refl _ | (with_reducible first | apply bindCtlWrite_kept | apply hostAccess_kept | apply Kept.refl) | intro _

theorem execBindUnload_runs {b value : Nat} {s : State} : Runs 1091 s (execBindUnload b value s) := by
  unfold execBindUnload
  refine Runs.next ?_
  repeat' first | exact Eq.refl _ | (with_reducible first | apply bindCtlWrite_kept | apply hostAccess_kept | apply Kept.refl) | intro _

theorem execBindRegWrite_runs {addr value : Nat} {s : State} : Runs 1091 s (execBindRegWrite addr value s) := by
  unfold execBindRegWrite
  refine Runs.next ?_
  repeat' first | exact Eq.refl _ | (with_reducible first | apply bindRegWrite_kept | apply hostAccess_kept | apply Kept.refl) | intro _

theorem retested_kept {m : Nat} {o s : State} {w : State → State} (k : Kept m o s)
    (hm : 1 ||| m = m) (h_w : ∀ a0, Kept m a0 (w a0)) : Kept m o (retested w s) := by
  unfold retested
  repeat' first
    | exact lor_sub hm rfl | exact k | (with_reducible first | apply setB_kept | apply Kept.ite | apply Kept.forAll | apply Kept.refl)
    | (refine Kept.then ?_ (h_w _) (Nat.or_self _)) | intro _

theorem schLineCtlWrite_kept {m : Nat} {o s : State} {n v : Nat} (k : Kept m o s)
    (hm : 3 ||| m = m) : Kept m o (schLineCtlWrite n v s) := by
  refine k.then (a := 3) ?_ hm
  unfold schLineCtlWrite
  repeat' first
    | exact Eq.refl _
    | (with_reducible first
        | apply plainWrite_kept | apply retested_kept | apply setB_kept | apply Kept.ite | apply Kept.doIf | apply Kept.refl)
    | intro _

theorem settingWrite_kept {m : Nat} {o s : State} {a v : Nat} (k : Kept m o s)
    (hm : 4163 ||| m = m) : Kept m o (settingWrite a v s) := by
  refine k.then (a := 4163) ?_ hm
  unfold settingWrite
  repeat' first
    | exact Eq.refl _
    | (with_reducible first
        | apply plainWrite_kept | apply retested_kept | apply schLineCtlWrite_kept | apply shadowLate_kept | apply trackRejs_kept | apply Kept.ite
        | apply Kept.refl)
    | intro _

theorem execSettingRetestWrite_runs {addr value : Nat} {s : State} : Runs 4163 s (execSettingRetestWrite addr value s) := by
  unfold execSettingRetestWrite
  refine Runs.next ?_
  repeat' first | exact Eq.refl _ | (with_reducible first | apply hostAccess_kept | apply settingWrite_kept | apply Kept.refl) | intro _

theorem execSchLineCtlWrite_runs {line value : Nat} {s : State} : Runs 3 s (execSchLineCtlWrite line value s) := by
  unfold execSchLineCtlWrite
  refine Runs.next ?_
  repeat' first | exact Eq.refl _ | (with_reducible first | apply hostAccess_kept | apply schLineCtlWrite_kept | apply Kept.refl) | intro _

theorem vmaxWrite_kept {m : Nat} {o s : State} {n v : Nat} (k : Kept m o s)
    (hm : 1091 ||| m = m) : Kept m o (vmaxWrite n v s) := by
  refine k.then (a := 1091) ?_ hm
  unfold vmaxWrite
  repeat' first | exact Eq.refl _ | (with_reducible first | apply plainWrite_kept | apply republish_kept | apply Kept.ite | apply Kept.refl)

theorem execVmaxWrite_runs {line value : Nat} {s : State} : Runs 1091 s (execVmaxWrite line value s) := by
  unfold execVmaxWrite
  refine Runs.next ?_
  repeat' first | exact Eq.refl _ | (with_reducible first | apply hostAccess_kept | apply vmaxWrite_kept | apply Kept.refl) | intro _

theorem lineSafeExit_kept {m : Nat} {o s : State} {n : Nat} (k : Kept m o s)
    (hm : 545525825 ||| m = m) : Kept m o (lineSafeExit n s) := by
  refine k.then (a := 545525825) ?_ hm
  unfold lineSafeExit
  repeat' first
    | exact Eq.refl _
    | (with_reducible first
        | apply lineStateChanged_kept | apply setB_kept | apply setF_kept | apply showArming_kept | apply trackRejs_kept | apply Kept.ite
        | apply Kept.refl)
    | intro _ | split | (with_reducible refine Kept.putSch ?_ rfl)

theorem execLineSafeExit_runs {line : Nat} {s : State} : Runs 545525825 s (execLineSafeExit line s) := by
  unfold execLineSafeExit
  refine Runs.next ?_
  repeat' first | exact Eq.refl _ | (with_reducible first | apply hostAccess_kept | apply lineSafeExit_kept | apply Kept.refl) | intro _

theorem snapReq_kept {m : Nat} {o s : State} {n : Nat} (k : Kept m o s)
    (hm : 64 ||| m = m) : Kept m o (snapReq n s) := by
  refine k.then (a := 64) ?_ hm
  unfold snapReq
  repeat' first
    | exact Eq.refl _ | (with_reducible first | apply Kept.ite | apply Kept.refl) | intro _ | split | (with_reducible refine Kept.putSch ?_ rfl)

theorem execSnapReq_runs {line : Nat} {s : State} : Runs 64 s (execSnapReq line s) := by
  unfold execSnapReq
  refine Runs.next ?_
  repeat' first | exact Eq.refl _ | (with_reducible first | apply hostAccess_kept | apply snapReq_kept | apply Kept.refl) | intro _

theorem snapCopy_kept {m : Nat} {o s : State} {n : Nat} (k : Kept m o s)
    (hm : 1 ||| m = m) : Kept m o (snapCopy n s) := by
  refine k.then (a := 1) ?_ hm
  unfold snapCopy
  repeat' first
    | exact Eq.refl _
    | (with_reducible first
        | apply State.setReg_kept | apply addMod_kept | apply Kept.forAll | apply Kept.refl)
    | intro _

theorem snapshotCopy_kept {m : Nat} {o s : State} {n : Nat} (k : Kept m o s)
    (hm : 65 ||| m = m) : Kept m o (snapshotCopy n s) := by
  refine k.then (a := 65) ?_ hm
  unfold snapshotCopy
  repeat' first
    | exact Eq.refl _ | (with_reducible first | apply snapCopy_kept | apply Kept.ite | apply Kept.refl) | intro _ | split
    | (with_reducible refine Kept.putSch ?_ rfl)

end Sys2Proof.Machine
end

