-- ==== Sys2Proof/Laws/Host.lean ====
section
/-! SUPPORT. For each operation and each meaning of Sys2Proof/Machine/Host.lean: the parts of the state it may touch, and that it keeps the laws. -/

namespace Sys2Proof.Machine

set_option Elab.async false

theorem setPhaseBit_kept {m : Nat} {o s : State} {k : Nat} {b : Bool} (hk : Kept m o s)
    (hm : 262144 ||| m = m) : Kept m o (setPhaseBit k b s) := by
  refine hk.then (a := 262144) ?_ hm
  unfold setPhaseBit
  repeat' first | exact Eq.refl _ | exact Kept.refl _ _ | intro _ | split | (with_reducible refine Kept.putHost ?_ rfl)

theorem writeEntry_kept {m : Nat} {o s : State} {r base n pi type status tag : Nat} {payload : List Byte} (k : Kept m o s)
    (hm : 786432 ||| m = m) : Kept m o (writeEntry r base n pi type status tag payload s) := by
  refine k.then (a := 786432) ?_ hm
  unfold writeEntry
  exact Kept.doIf (Kept.hostMemory (Kept.refl _ _) rfl (cellWrite_wf _ _)) fun t => setPhaseBit_kept (Kept.refl _ _) rfl

theorem respond_kept {m : Nat} {o s : State} {q type tag : Nat} {noResp : Bool} {r : Nat × List Byte} (k : Kept m o s)
    (hm : 786433 ||| m = m) : Kept m o (respond q type tag noResp r s) := by
  refine k.then (a := 786433) ?_ hm
  unfold respond
  repeat' first
    | exact Eq.refl _
    | (with_reducible first
        | apply addMod_kept | apply signalVector_kept | apply writeEntry_kept | apply Kept.ite | apply Kept.refl)

theorem reply_kept {m : Nat} {o s : State} {status : Nat} {payload : List Byte} (k : Kept m o s)
    (hm : 0 ||| m = m) : Kept m o (reply status payload s).2 := by
  refine k.then (a := 0) ?_ hm
  unfold reply
  repeat' first | exact Eq.refl _ | exact Kept.refl _ _

theorem countTaken_kept {m : Nat} {o s : State} {q tag : Nat} (k : Kept m o s) (hm : 786433 ||| m = m) :
    Kept m o (countTaken q tag s) := by
  refine k.then (a := 786433) ?_ hm
  unfold countTaken
  have h1 : Kept 786433 s (addMod (fHST_QP_RQ_CI_INDEX q) 1 { s with host.lastTag := s.host.lastTag.set q tag, host.turn := (q + 1) % 4 }) :=
    addMod_kept (Kept.putHost (Kept.refl _ _) rfl) rfl
  generalize addMod (fHST_QP_RQ_CI_INDEX q) 1 { s with host.lastTag := s.host.lastTag.set q tag, host.turn := (q + 1) % 4 } = t at *
  dsimp only
  split
  · exact h1
  · exact h1.hostMemory rfl (cellWrite_wf _ _)

theorem placeRequest_kept {m : Nat} {o s : State} {q : Nat} {entry : List Byte} {readable : Bool} {payload : List Byte} (k : Kept m o s)
    (hm : 786432 ||| m = m) : Kept m o (placeRequest q entry readable payload s) := by
  refine k.hostMemory hm fun h => ?_
  have h1 := cellWrite_wf (requestAddress q s) (padTo 128 entry) h
  dsimp only
  repeat' split
  all_goals first | exact cellWrite_wf _ _ h1 | exact h1

theorem serveRequest_kept {m : Nat} {o s : State} {q : Nat} {e : List Byte} {readable : Bool} {serve : Serve} (k : Kept m o s)
    (hm : 0 ||| m = m) (h_serve : ∀ a0 a1 a2 a3 a4, Kept m a4 (serve a0 a1 a2 a3 a4).2) : Kept m o (serveRequest q e readable serve s).2 := by
  unfold serveRequest
  repeat' first
    | exact lor_sub hm rfl | exact k | (with_reducible first | apply reply_kept | apply Kept.ite | apply Kept.refl)
    | (refine Kept.then ?_ (h_serve _ _ _ _ _) (Nat.or_self _)) | intro _ | split

theorem takeMessage_kept {m : Nat} {o s : State} {type q : Nat} {entry : List Byte} {readable : Bool} {payload : List Byte} {serve : Serve} (k : Kept m o s)
    (hm : 786433 ||| m = m) (h_serve : ∀ a0 a1 a2 a3 a4, Kept m a4 (serve a0 a1 a2 a3 a4).2) : Kept m o (takeMessage type q entry readable payload serve s) := by
  unfold takeMessage
  repeat' first
    | exact lor_sub hm rfl | exact k
    | (with_reducible first
        | apply countTaken_kept | apply placeRequest_kept | apply respond_kept | apply serveRequest_kept | apply Kept.ite | apply Kept.refl)
    | (refine Kept.then ?_ (h_serve _ _ _ _ _) (Nat.or_self _)) | intro _ | split | (dsimp only)

theorem finishReset_kept {m : Nat} {o s : State} {q done : Nat} (k : Kept m o s)
    (hm : 262145 ||| m = m) : Kept m o (finishReset q done s) := by
  refine k.then (a := 262145) ?_ hm
  unfold finishReset
  repeat' first | exact Eq.refl _ | (with_reducible first | apply postEvent_kept | apply setB_kept | apply setF_kept | apply Kept.refl)

theorem respondLater_kept {m : Nat} {o s : State} {q type tag : Nat} {noResp : Bool} {r : Nat × List Byte} (k : Kept m o s)
    (hm : 786433 ||| m = m) : Kept m o (respondLater q type tag noResp r s) := by
  refine k.then (a := 786433) ?_ hm
  unfold respondLater
  repeat' first | exact Eq.refl _ | (with_reducible first | apply finishReset_kept | apply respond_kept | apply Kept.ite | apply Kept.refl)

theorem pairReset_kept {m : Nat} {o s : State} {q : Nat} (k : Kept m o s)
    (hm : 262145 ||| m = m) : Kept m o (pairReset q s) := by
  refine k.then (a := 262145) ?_ hm
  unfold pairReset
  repeat' first | exact Eq.refl _ | (with_reducible first | apply finishReset_kept | apply setB_kept | apply Kept.ite | apply Kept.refl)

theorem execQueuePairReset_runs {q : Nat} {s : State} : Runs 262145 s (execQueuePairReset q s) := by
  unfold execQueuePairReset
  refine Runs.next ?_
  repeat' first | exact Eq.refl _ | (with_reducible first | apply hostAccess_kept | apply pairReset_kept | apply Kept.refl) | intro _

theorem eventRingReset_kept {m : Nat} {o s : State} (k : Kept m o s)
    (hm : 262145 ||| m = m) : Kept m o (eventRingReset s) := by
  refine k.then (a := 262145) ?_ hm
  unfold eventRingReset
  repeat' first
    | exact Eq.refl _ | (with_reducible first | apply addSat_kept | apply setB_kept | apply setF_kept | apply Kept.refl) | intro _ | split
    | (with_reducible refine Kept.putHost ?_ rfl)

theorem execEventRingReset_runs {s : State} : Runs 262145 s (execEventRingReset s) := by
  unfold execEventRingReset
  refine Runs.next ?_
  repeat' first | exact Eq.refl _ | (with_reducible first | apply eventRingReset_kept | apply hostAccess_kept | apply Kept.refl) | intro _

theorem muteWaits_kept {m : Nat} {o s : State} (k : Kept m o s)
    (hm : 1078198272 ||| m = m) : Kept m o (muteWaits s) := by
  refine k.then (a := 1078198272) ?_ hm
  unfold muteWaits
  repeat' first
    | exact Eq.refl _ | (with_reducible first | apply Kept.refl) | intro _ | split | (with_reducible refine Kept.putHost ?_ rfl)
    | (with_reducible refine Kept.putOcl ?_ rfl) | (with_reducible refine Kept.putPrimer ?_ rfl) | refine Kept.upd ?_ rfl

theorem hostLinkReset_kept {m : Nat} {o s : State} (k : Kept m o s)
    (hm : 1078329345 ||| m = m) : Kept m o (hostLinkReset s) := by
  refine k.then (a := 1078329345) ?_ hm
  unfold hostLinkReset
  repeat' first
    | exact Eq.refl _
    | (with_reducible first
        | apply State.setReg_kept | apply eventRingReset_kept | apply finishReset_kept | apply muteWaits_kept | apply raiseSimple_kept
        | apply setB_kept | apply Kept.ite | apply Kept.forAll | apply Kept.refl)
    | intro _ | split | (with_reducible refine Kept.putHost ?_ rfl)

theorem execHostLinkReset_runs {s : State} : Runs 1078329345 s (execHostLinkReset s) := by
  unfold execHostLinkReset
  refine Runs.next ?_
  repeat' first | exact Eq.refl _ | (with_reducible first | apply hostLinkReset_kept | apply Kept.refl)

theorem ringDoorbell_kept {m : Nat} {o s : State} {q v : Nat} (k : Kept m o s)
    (hm : 1 ||| m = m) : Kept m o (ringDoorbell q v s) := by
  refine k.then (a := 1) ?_ hm
  unfold ringDoorbell
  repeat' first | exact Eq.refl _ | (with_reducible first | apply setB_kept | apply setF_kept | apply Kept.ite | apply Kept.refl)

theorem execRingDoorbell_runs {q value : Nat} {s : State} : Runs 1 s (execRingDoorbell q value s) := by
  unfold execRingDoorbell
  refine Runs.next ?_
  repeat' first | exact Eq.refl _ | (with_reducible first | apply hostAccess_kept | apply ringDoorbell_kept | apply Kept.refl) | intro _

theorem ringConsumer_kept {m : Nat} {o s : State} {q v : Nat} (k : Kept m o s)
    (hm : 262145 ||| m = m) : Kept m o (ringConsumer q v s) := by
  refine k.then (a := 262145) ?_ hm
  unfold ringConsumer
  repeat' first
    | exact Eq.refl _
    | (with_reducible first
        | apply reportLoss_kept | apply setB_kept | apply setF_kept | apply Kept.ite | apply Kept.refl)

theorem execRingConsumerWrite_runs {q value : Nat} {s : State} : Runs 262145 s (execRingConsumerWrite q value s) := by
  unfold execRingConsumerWrite
  refine Runs.next ?_
  repeat' first | exact Eq.refl _ | (with_reducible first | apply hostAccess_kept | apply ringConsumer_kept | apply Kept.refl) | intro _

theorem pairCfgWrite_kept {m : Nat} {o s : State} {q v : Nat} (k : Kept m o s)
    (hm : 262147 ||| m = m) : Kept m o (pairCfgWrite q v s) := by
  refine k.then (a := 262147) ?_ hm
  unfold pairCfgWrite
  repeat' first
    | exact Eq.refl _
    | (with_reducible first
        | apply pairReset_kept | apply plainWrite_kept | apply setPhaseBit_kept | apply Kept.ite | apply Kept.doIf | apply Kept.refl)
    | intro _

theorem eventCfgWrite_kept {m : Nat} {o s : State} {v : Nat} (k : Kept m o s)
    (hm : 262147 ||| m = m) : Kept m o (eventCfgWrite v s) := by
  refine k.then (a := 262147) ?_ hm
  unfold eventCfgWrite
  repeat' first
    | exact Eq.refl _
    | (with_reducible first
        | apply eventRingReset_kept | apply plainWrite_kept | apply setPhaseBit_kept | apply Kept.ite | apply Kept.doIf | apply Kept.refl)
    | intro _

theorem ringAddressWrite_kept {m : Nat} {o s : State} {a align v : Nat} {enabled : Bool} (k : Kept m o s)
    (hm : 3 ||| m = m) : Kept m o (ringAddressWrite a align v enabled s) := by
  refine k.then (a := 3) ?_ hm
  unfold ringAddressWrite
  repeat' first | exact Eq.refl _ | (with_reducible first | apply plainWrite_kept | apply Kept.ite | apply Kept.refl)

theorem writeEvent_kept {m : Nat} {o s : State} {type : Nat} {payload : List Byte} (k : Kept m o s)
    (hm : 786433 ||| m = m) : Kept m o (writeEvent type payload s) := by
  refine k.then (a := 786433) ?_ hm
  unfold writeEvent
  repeat' first
    | exact Eq.refl _
    | (with_reducible first
        | apply addMod_kept | apply signalVector_kept | apply writeEntry_kept | apply Kept.refl)
    | intro _ | split | (with_reducible refine Kept.putHost ?_ rfl)

theorem takeEvent_kept {m : Nat} {o s : State} {e : Engine} (k : Kept m o s)
    (hm : 117440513 ||| m = m) : Kept m o (takeEvent e s) := by
  refine k.then (a := 117440513) ?_ hm
  unfold takeEvent
  repeat' first | exact Eq.refl _ | (with_reducible first | apply setCore_kept | apply setF_kept | apply Kept.refl)

theorem eventDeliver_kept {m : Nat} {o s : State} {src : Option Engine} (k : Kept m o s)
    (hm : 118226945 ||| m = m) : Kept m o (eventDeliver src s) := by
  refine k.then (a := 118226945) ?_ hm
  unfold eventDeliver
  repeat' first
    | exact Eq.refl _
    | (with_reducible first
        | apply reportLoss_kept | apply takeEvent_kept | apply writeEvent_kept | apply Kept.ite | apply Kept.refl)
    | intro _ | split | (with_reducible refine Kept.putHost ?_ rfl)

theorem execEventDeliver_runs {src : Option Engine} {s : State} : Runs 118226945 s (execEventDeliver src s) := by
  unfold execEventDeliver
  refine Runs.next ?_
  repeat' first | exact Eq.refl _ | (with_reducible first | apply eventDeliver_kept | apply Kept.refl)

theorem servePing_kept {m : Nat} {o s : State} {q1_ : _} {q2_ : _} {q3_ : _} {q4_ : _} (k : Kept m o s)
    (hm : 0 ||| m = m) : Kept m o (servePing q1_ q2_ q3_ q4_ s).2 := by
  refine k.then (a := 0) ?_ hm
  unfold servePing
  repeat' first | exact Eq.refl _ | (with_reducible first | apply reply_kept | apply Kept.ite | apply Kept.refl) | intro _ | split

theorem serveVersion_kept {m : Nat} {o s : State} {q1_ : _} {q2_ : _} {q3_ : _} {q4_ : _} (k : Kept m o s)
    (hm : 0 ||| m = m) : Kept m o (serveVersion q1_ q2_ q3_ q4_ s).2 := by
  refine k.then (a := 0) ?_ hm
  unfold serveVersion
  repeat' first | exact Eq.refl _ | (with_reducible first | apply reply_kept | apply Kept.ite | apply Kept.refl) | intro _ | split

theorem serveLedger_kept {m : Nat} {o s : State} {q1_ : _} {q2_ : _} {q3_ : _} {q4_ : _} (k : Kept m o s)
    (hm : 262144 ||| m = m) : Kept m o (serveLedger q1_ q2_ q3_ q4_ s).2 := by
  refine k.then (a := 262144) ?_ hm
  unfold serveLedger
  repeat' first
    | exact Eq.refl _ | (with_reducible first | apply reply_kept | apply Kept.ite | apply Kept.refl) | intro _ | split | (dsimp only)
    | (with_reducible refine Kept.putHost ?_ rfl)

theorem answerSnapshots_kept {m : Nat} {o s : State} {n : Nat} (k : Kept m o s)
    (hm : 786433 ||| m = m) : Kept m o (answerSnapshots n s) := by
  refine k.then (a := 786433) ?_ hm
  unfold answerSnapshots
  repeat' first
    | exact Eq.refl _
    | (with_reducible first
        | apply respondLater_kept | apply Kept.ite | apply Kept.forAll | apply Kept.refl)
    | intro _ | split | (with_reducible refine Kept.putHost ?_ rfl)

theorem execSnapshotCopy_runs {line : Nat} {s : State} : Runs 786497 s (execSnapshotCopy line s) := by
  unfold execSnapshotCopy
  refine Runs.next ?_
  repeat' first | exact Eq.refl _ | (with_reducible first | apply answerSnapshots_kept | apply snapshotCopy_kept | apply Kept.refl)

theorem serveSpeed_kept {m : Nat} {o s : State} {q1_ : _} {q2_ : _} {q3_ : _} {q4_ : _} (k : Kept m o s)
    (hm : 545525829 ||| m = m) : Kept m o (serveSpeed q1_ q2_ q3_ q4_ s).2 := by
  refine k.then (a := 545525829) ?_ hm
  unfold serveSpeed
  repeat' first
    | exact Eq.refl _
    | (with_reducible first
        | apply reply_kept | apply virtualSpeed_kept | apply Kept.ite | apply Kept.refl)
    | intro _ | split

theorem execPing_runs {q : Nat} {entry : List Byte} {readable : Bool} {payload : List Byte} {s : State} : Runs 786433 s (execPing q entry readable payload s) := by
  unfold execPing
  refine Runs.next ?_
  repeat' first | exact Eq.refl _ | (with_reducible first | apply servePing_kept | apply takeMessage_kept | apply Kept.refl) | intro _

theorem execVersion_runs {q : Nat} {entry : List Byte} {readable : Bool} {payload : List Byte} {s : State} : Runs 786433 s (execVersion q entry readable payload s) := by
  unfold execVersion
  refine Runs.next ?_
  repeat' first | exact Eq.refl _ | (with_reducible first | apply serveVersion_kept | apply takeMessage_kept | apply Kept.refl) | intro _

theorem execLedgerSnapshot_runs {q : Nat} {entry : List Byte} {readable : Bool} {payload : List Byte} {s : State} : Runs 786433 s (execLedgerSnapshot q entry readable payload s) := by
  unfold execLedgerSnapshot
  refine Runs.next ?_
  repeat' first | exact Eq.refl _ | (with_reducible first | apply serveLedger_kept | apply takeMessage_kept | apply Kept.refl) | intro _

theorem execLineSpeed_runs {q : Nat} {entry : List Byte} {readable : Bool} {payload : List Byte} {s : State} : Runs 546050117 s (execLineSpeed q entry readable payload s) := by
  unfold execLineSpeed
  refine Runs.next ?_
  repeat' first | exact Eq.refl _ | (with_reducible first | apply serveSpeed_kept | apply takeMessage_kept | apply Kept.refl) | intro _

theorem lineArrival_kept {m : Nat} {o s : State} {p : Nat} {x : RxFrame} {f : State → State} (k : Kept m o s)
    (hm : 1 ||| m = m) (h_f : ∀ a0, Kept m a0 (f a0)) : Kept m o (lineArrival p x f s) := by
  unfold lineArrival
  repeat' first
    | exact lor_sub hm rfl | exact k | (with_reducible first | apply incSat_kept | apply Kept.ite | apply Kept.refl)
    | (refine Kept.then ?_ (h_f _) (Nat.or_self _))

theorem lineSpeedMessage_kept {msk : Nat} {o s : State} {p srcIp : Nat} {m : List Byte} (k : Kept msk o s)
    (hm : 545525829 ||| msk = msk) : Kept msk o (lineSpeedMessage p srcIp m s) := by
  refine k.then (a := 545525829) ?_ hm
  unfold lineSpeedMessage
  repeat' first
    | exact Eq.refl _
    | (with_reducible first
        | apply incSat_kept | apply virtualSpeed_kept | apply Kept.ite | apply Kept.refl)
    | intro _ | split | (with_reducible refine Kept.putLnp ?_ rfl)

theorem lineDatagram_kept {msk : Nat} {o s : State} {p : Nat} {route : UdpRoute} {m : List Byte} (k : Kept msk o s)
    (hm : 545525829 ||| msk = msk) : Kept msk o (lineDatagram p route m s) := by
  refine k.then (a := 545525829) ?_ hm
  unfold lineDatagram
  repeat' first | exact Eq.refl _ | (with_reducible first | apply lineSpeedMessage_kept | apply Kept.ite | apply Kept.refl)

theorem execSpeed_runs {p : Nat} {route : UdpRoute} {x : RxFrame} {msg : List Byte} {s : State} : Runs 545525829 s (execSpeed p route x msg s) := by
  unfold execSpeed
  refine Runs.next ?_
  repeat' first | exact Eq.refl _ | (with_reducible first | apply lineArrival_kept | apply lineDatagram_kept | apply Kept.refl) | intro _

theorem ledgerMessage_kept {m : Nat} {o s : State} {n : Nat} (k : Kept m o s)
    (hm : 545259521 ||| m = m) : Kept m o (ledgerMessage n s) := by
  refine k.then (a := 545259521) ?_ hm
  unfold ledgerMessage
  repeat' first | exact Eq.refl _ | (with_reducible first | apply sendLineMessage_kept | apply Kept.ite | apply Kept.refl)

theorem execLedger_runs {line : Nat} {s : State} : Runs 545259521 s (execLedger line s) := by
  unfold execLedger
  refine Runs.next ?_
  repeat' first | exact Eq.refl _ | (with_reducible first | apply ledgerMessage_kept | apply Kept.refl)

theorem arpReply_kept {m : Nat} {o s : State} {p mac ip target : Nat} (k : Kept m o s)
    (hm : 8388608 ||| m = m) : Kept m o (arpReply p mac ip target s) := by
  refine k.then (a := 8388608) ?_ hm
  unfold arpReply
  repeat' first | exact Eq.refl _ | (with_reducible first | apply send_kept | apply Kept.ite | apply Kept.refl)

theorem execArpRequest_runs {p : Nat} {sender : Station} {target : Nat} {x : RxFrame} {s : State} : Runs 8388609 s (execArpRequest p sender target x s) := by
  unfold execArpRequest
  refine Runs.next ?_
  repeat' first | exact Eq.refl _ | (with_reducible first | apply arpReply_kept | apply lineArrival_kept | apply Kept.refl) | intro _

theorem icmpReply_kept {msk : Nat} {o s : State} {p mac src dst : Nat} {m : List Byte} (k : Kept msk o s)
    (hm : 8388609 ||| msk = msk) : Kept msk o (icmpReply p mac src dst m s) := by
  refine k.then (a := 8388609) ?_ hm
  unfold icmpReply
  repeat' first | exact Eq.refl _ | (with_reducible first | apply incSat_kept | apply send_kept | apply Kept.ite | apply Kept.refl)

theorem execIcmpEcho_runs {p : Nat} {route : Route} {x : RxFrame} {msg : List Byte} {s : State} : Runs 8388609 s (execIcmpEcho p route x msg s) := by
  unfold execIcmpEcho
  refine Runs.next ?_
  repeat' first | exact Eq.refl _ | (with_reducible first | apply icmpReply_kept | apply lineArrival_kept | apply Kept.refl) | intro _

theorem modPtp_kept {m : Nat} {o s : State} {f : PtpClock → PtpClock} (k : Kept m o s)
    (hm : 536870912 ||| m = m) : Kept m o (modPtp f s) := by
  refine k.then (a := 536870912) ?_ hm
  unfold modPtp
  repeat' first | exact Eq.refl _ | exact Kept.refl _ _ | intro _ | split | (with_reducible refine Kept.putLnp ?_ rfl)

theorem ptpOffset_kept {m : Nat} {os s : State} {o : Int} {lock : Bool} (k : Kept m os s)
    (hm : 1 ||| m = m) : Kept m os (ptpOffset o lock s) := by
  refine k.then (a := 1) ?_ hm
  unfold ptpOffset
  repeat' first | exact Eq.refl _ | (with_reducible first | apply setB_kept | apply setI_kept | apply Kept.refl)

theorem ptpSync_kept {m : Nat} {o s : State} {t1 t2 : Int} {lock : Bool} (k : Kept m o s)
    (hm : 536870913 ||| m = m) : Kept m o (ptpSync t1 t2 lock s) := by
  refine k.then (a := 536870913) ?_ hm
  unfold ptpSync
  repeat' first | exact Eq.refl _ | (with_reducible first | apply modPtp_kept | apply ptpOffset_kept | apply Kept.refl) | intro _ | split

theorem ptpRequest_kept {m : Nat} {o s : State} {p : Nat} {tx : Option Int} (k : Kept m o s)
    (hm : 545259520 ||| m = m) : Kept m o (ptpRequest p tx s) := by
  refine k.then (a := 545259520) ?_ hm
  unfold ptpRequest
  repeat' first | exact Eq.refl _ | (with_reducible first | apply modPtp_kept | apply send_kept | apply Kept.refl) | intro _ | split

theorem ptpResponse_kept {m : Nat} {o s : State} {seq : Nat} {t4 : Int} {lock : Bool} (k : Kept m o s)
    (hm : 536870913 ||| m = m) : Kept m o (ptpResponse seq t4 lock s) := by
  refine k.then (a := 536870913) ?_ hm
  unfold ptpResponse
  repeat' first
    | exact Eq.refl _ | (with_reducible first | apply modPtp_kept | apply ptpOffset_kept | apply Kept.ite | apply Kept.refl) | intro _ | split

theorem ptpMessage_kept {msk : Nat} {o s : State} {p : Nat} {m : PtpMsg} {lock : Bool} (k : Kept msk o s)
    (hm : 545259521 ||| msk = msk) : Kept msk o (ptpMessage p m lock s) := by
  refine k.then (a := 545259521) ?_ hm
  unfold ptpMessage
  repeat' first
    | exact Eq.refl _
    | (with_reducible first
        | apply modPtp_kept | apply ptpRequest_kept | apply ptpResponse_kept | apply ptpSync_kept | apply Kept.ite | apply Kept.refl)
    | intro _ | split

theorem execPtpMessage_runs {p : Nat} {m : PtpMsg} {lock : Bool} {s : State} : Runs 545259521 s (execPtpMessage p m lock s) := by
  unfold execPtpMessage
  refine Runs.next ?_
  repeat' first | exact Eq.refl _ | (with_reducible first | apply lineArrival_kept | apply ptpMessage_kept | apply Kept.refl) | intro _

theorem execLinePortLinkChange_runs {p : Nat} {up : Bool} {rate : Nat} {s : State} : Runs 4587521 s (execLinePortLinkChange p up rate s) := by
  unfold execLinePortLinkChange
  refine Runs.next ?_
  repeat' first
    | exact Eq.refl _
    | (with_reducible first
        | apply raiseSimple_kept | apply setB_kept | apply setF_kept | apply Kept.ite | apply Kept.refl)

end Sys2Proof.Machine
end

