-- ==== Sys2Proof/Laws/Ocing.lean ====
section
/-! SUPPORT. For each operation and each meaning of Sys2Proof/Machine/Ocing.lean: the parts of the state it may touch, and that it keeps the laws. -/

namespace Sys2Proof.Machine

set_option Elab.async false

theorem forgetSilent_kept {m : Nat} {o s : State} {p : Nat} (k : Kept m o s)
    (hm : 1074790400 ||| m = m) : Kept m o (forgetSilent p s) := by
  refine k.then (a := 1074790400) ?_ hm
  unfold forgetSilent
  repeat' first
    | exact Eq.refl _
    | (with_reducible first
        | apply drawFree_kept | apply modOclPort_kept | apply Kept.ite | apply Kept.refl)
    | intro _ | split

theorem showChain_kept {m : Nat} {o s : State} (k : Kept m o s)
    (hm : 1074003969 ||| m = m) : Kept m o (showChain s) := by
  refine k.then (a := 1074003969) ?_ hm
  unfold showChain
  repeat' first
    | exact Eq.refl _
    | (with_reducible first
        | apply postEvent_kept | apply setB_kept | apply setF_kept | apply signalVector_kept | apply Kept.ite | apply Kept.refl)
    | intro _ | split | (with_reducible refine Kept.putOcl ?_ rfl)

theorem portClosed_kept {m : Nat} {o s : State} {p : Nat} (k : Kept m o s)
    (hm : 1074003969 ||| m = m) : Kept m o (portClosed p s) := by
  refine k.then (a := 1074003969) ?_ hm
  unfold portClosed
  repeat' first
    | exact Eq.refl _
    | (with_reducible first
        | apply modOclPort_kept | apply setF_kept | apply showChain_kept | apply Kept.ite | apply Kept.refl)
    | intro _ | split | (with_reducible refine Kept.putOcl ?_ rfl)

theorem portDown_kept {m : Nat} {o s : State} {p : Nat} (k : Kept m o s)
    (hm : 1078329345 ||| m = m) : Kept m o (portDown p s) := by
  refine k.then (a := 1078329345) ?_ hm
  unfold portDown
  repeat' first | exact Eq.refl _ | (with_reducible first | apply incSat_kept | apply portClosed_kept | apply raiseSimple_kept | apply Kept.refl)

theorem oclCfgWrite_kept {m : Nat} {o s : State} {v : Nat} (k : Kept m o s)
    (hm : 1074003971 ||| m = m) : Kept m o (oclCfgWrite v s) := by
  refine k.then (a := 1074003971) ?_ hm
  unfold oclCfgWrite
  repeat' first
    | exact Eq.refl _
    | (with_reducible first
        | apply plainWrite_kept | apply portClosed_kept | apply showChain_kept | apply Kept.ite | apply Kept.refl)
    | intro _ | split | (with_reducible refine Kept.putOcl ?_ rfl)

theorem bcastWrite_kept {m : Nat} {o s : State} {v : Nat} (k : Kept m o s)
    (hm : 1074003971 ||| m = m) : Kept m o (bcastWrite v s) := by
  refine k.then (a := 1074003971) ?_ hm
  unfold bcastWrite
  repeat' first
    | exact Eq.refl _
    | (with_reducible first
        | apply plainWrite_kept | apply setB_kept | apply showChain_kept | apply Kept.ite | apply Kept.refl)

theorem receiveFrame_kept {m : Nat} {o s : State} {p type : Nat} {b : List Byte} {fwd : List Byte → State → List Byte} {act : List Byte → State → State} (k : Kept m o s)
    (hm : 1082392577 ||| m = m) (h_act : ∀ a0 a1, Kept m a1 (act a0 a1)) : Kept m o (receiveFrame p type b fwd act s) := by
  unfold receiveFrame
  repeat' first
    | exact lor_sub hm rfl | exact k
    | (with_reducible first
        | apply incSat_kept | apply modOclPort_kept | apply sendFrom_kept | apply sendOcing_kept | apply showChain_kept | apply Kept.ite
        | apply Kept.doIf | apply Kept.refl)
    | (refine Kept.then ?_ (h_act _ _) (Nat.or_self _)) | intro _

theorem ackFrame_kept {m : Nat} {o s : State} {p : Nat} {l : List Byte} (k : Kept m o s)
    (hm : 1073741824 ||| m = m) : Kept m o (ackFrame p l s) := by
  refine k.then (a := 1073741824) ?_ hm
  unfold ackFrame
  repeat' first | exact Eq.refl _ | (with_reducible first | apply modOclPort_kept | apply Kept.refl)

theorem execAck_runs {p : Nat} {body : List Byte} {s : State} : Runs 1082392577 s (execAck p body s) := by
  unfold execAck
  refine Runs.next ?_
  repeat' first | exact Eq.refl _ | (with_reducible first | apply ackFrame_kept | apply receiveFrame_kept | apply Kept.refl) | intro _

theorem retryTimeout_kept {m : Nat} {o s : State} {p lseq : Nat} (k : Kept m o s)
    (hm : 1086717953 ||| m = m) : Kept m o (retryTimeout p lseq s) := by
  refine k.then (a := 1086717953) ?_ hm
  unfold retryTimeout
  repeat' first
    | exact Eq.refl _
    | (with_reducible first
        | apply incSat_kept | apply modOclPort_kept | apply portDown_kept | apply sendBody_kept | apply Kept.ite | apply Kept.refl)
    | intro _ | split

theorem execOcingRetryTimeout_runs {p lseq : Nat} {s : State} : Runs 1086717953 s (execOcingRetryTimeout p lseq s) := by
  unfold execOcingRetryTimeout
  refine Runs.next ?_
  repeat' first | exact Eq.refl _ | (with_reducible first | apply retryTimeout_kept | apply Kept.ite | apply Kept.refl)

theorem execOcingLockLoss_runs {p : Nat} {s : State} : Runs 1078329345 s (execOcingLockLoss p s) := by
  unfold execOcingLockLoss
  refine Runs.next ?_
  repeat' first | exact Eq.refl _ | (with_reducible first | apply portDown_kept | apply Kept.ite | apply Kept.refl)

theorem symbolLock_kept {m : Nat} {o s : State} {p : Nat} (k : Kept m o s)
    (hm : 1082130433 ||| m = m) : Kept m o (symbolLock p s) := by
  refine k.then (a := 1082130433) ?_ hm
  unfold symbolLock
  repeat' first | exact Eq.refl _ | (with_reducible first | apply sendOcing_kept | apply setF_kept | apply Kept.ite | apply Kept.refl)

theorem execOcingSymbolLock_runs {p : Nat} {s : State} : Runs 1082130433 s (execOcingSymbolLock p s) := by
  unfold execOcingSymbolLock
  refine Runs.next ?_
  repeat' first | exact Eq.refl _ | (with_reducible first | apply symbolLock_kept | apply Kept.refl)

theorem sendEcho_kept {m : Nat} {o s : State} {p kind : Nat} {tick : Word} (k : Kept m o s)
    (hm : 1082130432 ||| m = m) : Kept m o (sendEcho p kind tick s) := by
  refine k.then (a := 1082130432) ?_ hm
  unfold sendEcho
  repeat' first | exact Eq.refl _ | (with_reducible first | apply sendOcing_kept | apply Kept.refl)

theorem hopMeasure_kept {m : Nat} {o s : State} {p : Nat} (k : Kept m o s)
    (hm : 1082130432 ||| m = m) : Kept m o (hopMeasure p s) := by
  refine k.then (a := 1082130432) ?_ hm
  unfold hopMeasure
  repeat' first | exact Eq.refl _ | (with_reducible first | apply modOclPort_kept | apply sendEcho_kept | apply Kept.ite | apply Kept.refl)

theorem execHopDelayMeasure_runs {p : Nat} {s : State} : Runs 1082130432 s (execHopDelayMeasure p s) := by
  unfold execHopDelayMeasure
  refine Runs.next ?_
  repeat' first | exact Eq.refl _ | (with_reducible first | apply hopMeasure_kept | apply Kept.refl)

theorem helloFrame_kept {m : Nat} {o s : State} {p : Nat} {auth : Bool} {l : List Byte} (k : Kept m o s)
    (hm : 1086717953 ||| m = m) : Kept m o (helloFrame p auth l s) := by
  refine k.then (a := 1086717953) ?_ hm
  unfold helloFrame
  repeat' first
    | exact Eq.refl _
    | (with_reducible first
        | apply hopMeasure_kept | apply modOclPort_kept | apply raiseSimple_kept | apply setB_kept | apply setF_kept | apply Kept.ite
        | apply Kept.refl)

theorem execHello_runs {p : Nat} {body : List Byte} {auth : Bool} {s : State} : Runs 1086717953 s (execHello p body auth s) := by
  unfold execHello
  refine Runs.next ?_
  repeat' first | exact Eq.refl _ | (with_reducible first | apply helloFrame_kept | apply receiveFrame_kept | apply Kept.refl) | intro _

theorem echoFrame_kept {m : Nat} {o s : State} {p : Nat} {l : List Byte} (k : Kept m o s)
    (hm : 1082130433 ||| m = m) : Kept m o (echoFrame p l s) := by
  refine k.then (a := 1082130433) ?_ hm
  unfold echoFrame
  repeat' first
    | exact Eq.refl _
    | (with_reducible first
        | apply modOclPort_kept | apply sendEcho_kept | apply setF_kept | apply Kept.ite | apply Kept.refl)

theorem execEcho_runs {p : Nat} {body : List Byte} {s : State} : Runs 1082392577 s (execEcho p body s) := by
  unfold execEcho
  refine Runs.next ?_
  repeat' first | exact Eq.refl _ | (with_reducible first | apply echoFrame_kept | apply receiveFrame_kept | apply Kept.refl) | intro _

theorem posBroadcast_kept {m : Nat} {o s : State} {n : Nat} (k : Kept m o s)
    (hm : 1082130432 ||| m = m) : Kept m o (posBroadcast n s) := by
  refine k.then (a := 1082130432) ?_ hm
  unfold posBroadcast
  repeat' first
    | exact Eq.refl _ | (with_reducible first | apply sendOcing_kept | apply Kept.ite | apply Kept.refl) | intro _ | split
    | (with_reducible refine Kept.putOcl ?_ rfl)

theorem execPosBroadcast_runs {line : Nat} {s : State} : Runs 1082130432 s (execPosBroadcast line s) := by
  unfold execPosBroadcast
  refine Runs.next ?_
  repeat' first | exact Eq.refl _ | (with_reducible first | apply posBroadcast_kept | apply Kept.refl)

theorem lineBroadcast_kept {m : Nat} {o s : State} {n : Nat} {p : Word} {v : Int} {latency : Nat} (k : Kept m o s)
    (hm : 545526629 ||| m = m) : Kept m o (lineBroadcast n p v latency s) := by
  refine k.then (a := 545526629) ?_ hm
  unfold lineBroadcast
  repeat' first
    | exact Eq.refl _
    | (with_reducible first
        | apply State.setLine_kept | apply State.setReg_kept | apply afterMotion_kept | apply bringDue_kept | apply presetLine_kept | apply setI_kept
        | apply updateRun_kept | apply Kept.ite | apply Kept.refl)

theorem posFrame_kept {m : Nat} {o s : State} {p unit : Nat} {l : List Byte} (k : Kept m o s)
    (hm : 1619268453 ||| m = m) : Kept m o (posFrame p unit l s) := by
  refine k.then (a := 1619268453) ?_ hm
  unfold posFrame
  repeat' first
    | exact Eq.refl _
    | (with_reducible first
        | apply lineBroadcast_kept | apply modOclPort_kept | apply showChain_kept | apply Kept.forAll | apply Kept.refl)
    | intro _

theorem execPos_runs {p : Nat} {body : List Byte} {resid : Nat} {s : State} : Runs 1619268453 s (execPos p body resid s) := by
  unfold execPos
  refine Runs.next ?_
  repeat' first | exact Eq.refl _ | (with_reducible first | apply posFrame_kept | apply receiveFrame_kept | apply Kept.refl) | intro _

theorem answerBarriers_kept {m : Nat} {o s : State} (k : Kept m o s)
    (hm : 1074528257 ||| m = m) : Kept m o (answerBarriers s) := by
  refine k.then (a := 1074528257) ?_ hm
  unfold answerBarriers
  repeat' first
    | exact Eq.refl _
    | (with_reducible first
        | apply respondLater_kept | apply Kept.ite | apply Kept.forAll | apply Kept.refl)
    | intro _ | split | (with_reducible refine Kept.putOcl ?_ rfl)

end Sys2Proof.Machine
end

