-- ==== Sys2Proof/Laws/Update.lean ====
section
/-! SUPPORT. For each operation and each meaning of Sys2Proof/Machine/Update.lean: the parts of the state it may touch, and that it keeps the laws. -/

namespace Sys2Proof.Machine

set_option Elab.async false

theorem modPrimer_kept {m : Nat} {o s : State} {f : Primer → Primer} (k : Kept m o s)
    (hm : 4194304 ||| m = m) : Kept m o (modPrimer f s) := by
  refine k.then (a := 4194304) ?_ hm
  unfold modPrimer
  repeat' first | exact Eq.refl _ | exact Kept.refl _ _ | intro _ | split | (with_reducible refine Kept.putPrimer ?_ rfl)

theorem setSlot_kept {m : Nat} {o s : State} {k : Nat} {x : FwSlot} (hk : Kept m o s)
    (hm : 4194304 ||| m = m) : Kept m o (setSlot k x s) := by
  refine hk.then (a := 4194304) ?_ hm
  unfold setSlot
  repeat' first | exact Eq.refl _ | (with_reducible first | apply modPrimer_kept | apply Kept.refl)

theorem setSlotState_kept {m : Nat} {o s : State} {k st : Nat} (hk : Kept m o s)
    (hm : 4194304 ||| m = m) : Kept m o (setSlotState k st s) := by
  refine hk.then (a := 4194304) ?_ hm
  unfold setSlotState
  repeat' first | exact Eq.refl _ | (with_reducible first | apply setSlot_kept | apply Kept.refl)

theorem commitHeader_kept {m : Nat} {o s : State} (k : Kept m o s)
    (hm : 4194304 ||| m = m) : Kept m o (commitHeader s) := by
  refine k.then (a := 4194304) ?_ hm
  unfold commitHeader
  repeat' first | exact Eq.refl _ | (with_reducible first | apply modPrimer_kept | apply Kept.ite | apply Kept.refl)

theorem readHeader_kept {m : Nat} {o s : State} {bad : List Nat} (k : Kept m o s)
    (hm : 6291456 ||| m = m) : Kept m o (readHeader bad s) := by
  refine k.then (a := 6291456) ?_ hm
  unfold readHeader
  repeat' first
    | exact Eq.refl _ | (with_reducible first | apply modPrimer_kept | apply Kept.ite | apply Kept.refl) | intro _ | split
    | (with_reducible refine Kept.putLc ?_ rfl)

theorem beginSwitch_kept {m : Nat} {o s : State} {w : Switch} (k : Kept m o s)
    (hm : 4194305 ||| m = m) : Kept m o (beginSwitch w s) := by
  refine k.then (a := 4194305) ?_ hm
  unfold beginSwitch
  repeat' first | exact Eq.refl _ | (with_reducible first | apply modPrimer_kept | apply setB_kept | apply Kept.refl)

theorem startTrial_kept {m : Nat} {o s : State} (k : Kept m o s)
    (hm : 4194305 ||| m = m) : Kept m o (startTrial s) := by
  refine k.then (a := 4194305) ?_ hm
  unfold startTrial
  repeat' first | exact Eq.refl _ | (with_reducible first | apply beginSwitch_kept | apply modPrimer_kept | apply setSlotState_kept | apply Kept.refl)

theorem releaseActivation_kept {m : Nat} {o s : State} (k : Kept m o s)
    (hm : 4194305 ||| m = m) : Kept m o (releaseActivation s) := by
  refine k.then (a := 4194305) ?_ hm
  unfold releaseActivation
  repeat' first
    | exact Eq.refl _
    | (with_reducible first
        | apply modPrimer_kept | apply startTrial_kept | apply Kept.ite | apply Kept.refl)
    | intro _ | split

theorem runDeferred_kept {m : Nat} {o s : State} (k : Kept m o s)
    (hm : 4194305 ||| m = m) : Kept m o (runDeferred s) := by
  refine k.then (a := 4194305) ?_ hm
  unfold runDeferred
  repeat' first | exact Eq.refl _ | (with_reducible first | apply releaseActivation_kept | apply Kept.ite | apply Kept.refl)

theorem releaseTicket_kept {m : Nat} {o s : State} {t : Nat} (k : Kept m o s)
    (hm : 4194305 ||| m = m) : Kept m o (releaseTicket t s) := by
  refine k.then (a := 4194305) ?_ hm
  unfold releaseTicket
  repeat' first | exact Eq.refl _ | (with_reducible first | apply releaseActivation_kept | apply Kept.ite | apply Kept.refl) | intro _ | split

theorem execActivationRelease_runs {s : State} : Runs 4194305 s (execActivationRelease s) := by
  unfold execActivationRelease
  refine Runs.next ?_
  repeat' first | exact Eq.refl _ | (with_reducible first | apply releaseActivation_kept | apply Kept.ite | apply Kept.refl)

theorem execActivate_runs {i : Nat} {s : State} : Runs 4194625 s (execActivate i s) := by
  unfold execActivate
  refine Runs.next ?_
  repeat' first
    | exact Eq.refl _
    | (with_reducible first
        | apply dispatch_kept | apply petErase_kept | apply releaseTicket_kept | apply Kept.refl)
    | intro _

theorem fallBack_kept {m : Nat} {o s : State} {st : Nat} (k : Kept m o s)
    (hm : 4194305 ||| m = m) : Kept m o (fallBack st s) := by
  refine k.then (a := 4194305) ?_ hm
  unfold fallBack
  repeat' first | exact Eq.refl _ | (with_reducible first | apply beginSwitch_kept | apply modPrimer_kept | apply setSlotState_kept | apply Kept.refl)

theorem readSettings_kept {m : Nat} {o s : State} (k : Kept m o s)
    (hm : 4194304 ||| m = m) : Kept m o (readSettings s) := by
  refine k.then (a := 4194304) ?_ hm
  unfold readSettings
  repeat' first | exact Eq.refl _ | (with_reducible first | apply modPrimer_kept | apply Kept.ite | apply Kept.refl) | intro _ | split

theorem supervisorUp_kept {m : Nat} {o s : State} (k : Kept m o s)
    (hm : 5377089729 ||| m = m) : Kept m o (supervisorUp s) := by
  refine k.then (a := 5377089729) ?_ hm
  unfold supervisorUp
  repeat' first
    | exact Eq.refl _
    | (with_reducible first
        | apply answerBarriers_kept | apply modPrimer_kept | apply releaseHeld_kept | apply runDeferred_kept | apply serveWaiting_kept
        | apply setB_kept | apply Kept.refl)

theorem linkTrained_kept {m : Nat} {o s : State} {speed width : Nat} (k : Kept m o s)
    (hm : 1074528257 ||| m = m) : Kept m o (linkTrained speed width s) := by
  refine k.then (a := 1074528257) ?_ hm
  unfold linkTrained
  repeat' first
    | exact Eq.refl _
    | (with_reducible first
        | apply answerBarriers_kept | apply releaseHeld_kept | apply setB_kept | apply setF_kept | apply Kept.ite | apply Kept.refl)

theorem execPcieLinkTrained_runs {speed width : Nat} {s : State} : Runs 1074528257 s (execPcieLinkTrained speed width s) := by
  unfold execPcieLinkTrained
  refine Runs.next ?_
  repeat' first | exact Eq.refl _ | (with_reducible first | apply linkTrained_kept | apply Kept.refl)

theorem switchDone_kept {m : Nat} {o s : State} (k : Kept m o s)
    (hm : 5377089729 ||| m = m) : Kept m o (switchDone s) := by
  refine k.then (a := 5377089729) ?_ hm
  unfold switchDone
  repeat' first
    | exact Eq.refl _
    | (with_reducible first
        | apply fallBack_kept | apply readSettings_kept | apply setB_kept | apply supervisorUp_kept | apply Kept.ite | apply Kept.refl)

theorem execSupervisorReadyTimeout_runs {s : State} : Runs 4194305 s (execSupervisorReadyTimeout s) := by
  unfold execSupervisorReadyTimeout
  refine Runs.next ?_
  repeat' first | exact Eq.refl _ | (with_reducible first | apply fallBack_kept | apply Kept.ite | apply Kept.refl)

theorem confirmTrial_kept {m : Nat} {o s : State} (k : Kept m o s)
    (hm : 4194304 ||| m = m) : Kept m o (confirmTrial s) := by
  refine k.then (a := 4194304) ?_ hm
  unfold confirmTrial
  repeat' first | exact Eq.refl _ | (with_reducible first | apply modPrimer_kept | apply setSlotState_kept | apply Kept.refl)

theorem execConfirmTimer_runs {s : State} : Runs 4194304 s (execConfirmTimer s) := by
  unfold execConfirmTimer
  refine Runs.next ?_
  repeat' first | exact Eq.refl _ | (with_reducible first | apply confirmTrial_kept | apply Kept.ite | apply Kept.refl)

theorem puResult_kept {m : Nat} {o s : State} {unit session block r : Nat} (k : Kept m o s)
    (hm : 1082130432 ||| m = m) : Kept m o (puResult unit session block r s) := by
  refine k.then (a := 1082130432) ?_ hm
  unfold puResult
  repeat' first | exact Eq.refl _ | (with_reducible first | apply sendOcing_kept | apply Kept.refl) | intro _ | split

theorem tellCandidate_kept {m : Nat} {o s : State} {c : Session} {r : Nat} (k : Kept m o s)
    (hm : 1082916865 ||| m = m) : Kept m o (tellCandidate c r s) := by
  refine k.then (a := 1082916865) ?_ hm
  unfold tellCandidate
  repeat' first
    | exact Eq.refl _
    | (with_reducible first
        | apply puResult_kept | apply respondLater_kept | apply Kept.ite | apply Kept.refl)
    | intro _ | split

theorem arbitrationEnd_kept {m : Nat} {o s : State} (k : Kept m o s)
    (hm : 1087111169 ||| m = m) : Kept m o (arbitrationEnd s) := by
  refine k.then (a := 1087111169) ?_ hm
  unfold arbitrationEnd
  repeat' first
    | exact Eq.refl _
    | (with_reducible first
        | apply modPrimer_kept | apply puResult_kept | apply setSlot_kept | apply tellCandidate_kept | apply Kept.ite | apply Kept.forAll
        | apply Kept.refl)
    | intro _ | split | (dsimp only)

theorem execUpdateArbitrationEnd_runs {s : State} : Runs 1087111169 s (execUpdateArbitrationEnd s) := by
  unfold execUpdateArbitrationEnd
  refine Runs.next ?_
  repeat' first | exact Eq.refl _ | (with_reducible first | apply arbitrationEnd_kept | apply Kept.refl)

theorem endSession_kept {m : Nat} {o s : State} {st : Nat} (k : Kept m o s)
    (hm : 4194304 ||| m = m) : Kept m o (endSession st s) := by
  refine k.then (a := 4194304) ?_ hm
  unfold endSession
  repeat' first | exact Eq.refl _ | (with_reducible first | apply modPrimer_kept | apply setSlotState_kept | apply Kept.refl)

theorem execUpdateSessionTimeout_runs {s : State} : Runs 4194304 s (execUpdateSessionTimeout s) := by
  unfold execUpdateSessionTimeout
  refine Runs.next ?_
  repeat' first
    | exact Eq.refl _
    | (with_reducible first
        | apply endSession_kept | apply setSlot_kept | apply Kept.ite | apply Kept.refl)
    | intro _ | split

theorem touchSession_kept {m : Nat} {o s : State} (k : Kept m o s)
    (hm : 4194304 ||| m = m) : Kept m o (touchSession s) := by
  refine k.then (a := 4194304) ?_ hm
  unfold touchSession
  repeat' first | exact Eq.refl _ | (with_reducible first | apply modPrimer_kept | apply Kept.refl)

theorem writeBlock_kept {m : Nat} {o s : State} {x : Session} {b crc : Nat} {data : List Byte} {flash : FlashWrite} (k : Kept m o s)
    (hm : 4194304 ||| m = m) : Kept m o (writeBlock x b crc data flash s).2 := by
  refine k.then (a := 4194304) ?_ hm
  unfold writeBlock
  repeat' first | exact Eq.refl _ | (with_reducible first | apply setSlot_kept | apply Kept.ite | apply Kept.refl) | intro _ | split

theorem finishImage_kept {m : Nat} {o s : State} {x : Session} (k : Kept m o s)
    (hm : 4194305 ||| m = m) : Kept m o (finishImage x s).2 := by
  refine k.then (a := 4194305) ?_ hm
  unfold finishImage
  repeat' first
    | exact Eq.refl _
    | (with_reducible first
        | apply endSession_kept | apply modPrimer_kept | apply setSlot_kept | apply startTrial_kept | apply Kept.ite | apply Kept.refl)
    | intro _ | split | (dsimp only)

theorem upReply_kept {m : Nat} {o s : State} {r : Nat} {l : List Byte} (k : Kept m o s)
    (hm : 0 ||| m = m) : Kept m o (upReply r l s).2 := by
  refine k.then (a := 0) ?_ hm
  unfold upReply
  repeat' first | exact Eq.refl _ | (with_reducible first | apply reply_kept | apply Kept.refl)

theorem serveBegin_kept {m : Nat} {o s : State} {q1_ : _} {q2_ : _} {q3_ : _} {q4_ : _} (k : Kept m o s)
    (hm : 4194304 ||| m = m) : Kept m o (serveBegin q1_ q2_ q3_ q4_ s).2 := by
  refine k.then (a := 4194304) ?_ hm
  unfold serveBegin
  repeat' first
    | exact Eq.refl _
    | (with_reducible first
        | apply modPrimer_kept | apply reply_kept | apply upReply_kept | apply Kept.ite | apply Kept.refl)
    | intro _ | split

theorem serveData_kept {m : Nat} {o s : State} {flash : FlashWrite} {q1_ : _} {q2_ : _} {q3_ : _} {q4_ : _} (k : Kept m o s)
    (hm : 4194304 ||| m = m) : Kept m o (serveData flash q1_ q2_ q3_ q4_ s).2 := by
  refine k.then (a := 4194304) ?_ hm
  unfold serveData
  repeat' first
    | exact Eq.refl _
    | (with_reducible first
        | apply reply_kept | apply touchSession_kept | apply upReply_kept | apply writeBlock_kept | apply Kept.ite | apply Kept.refl)
    | intro _ | split

theorem serveEnd_kept {m : Nat} {o s : State} {q1_ : _} {q2_ : _} {q3_ : _} {q4_ : _} (k : Kept m o s)
    (hm : 4194305 ||| m = m) : Kept m o (serveEnd q1_ q2_ q3_ q4_ s).2 := by
  refine k.then (a := 4194305) ?_ hm
  unfold serveEnd
  repeat' first
    | exact Eq.refl _
    | (with_reducible first
        | apply finishImage_kept | apply reply_kept | apply touchSession_kept | apply upReply_kept | apply Kept.ite | apply Kept.refl)
    | intro _ | split

theorem serveActivate_kept {m : Nat} {o s : State} {q1_ : _} {q2_ : _} {q3_ : _} {q4_ : _} (k : Kept m o s)
    (hm : 4194305 ||| m = m) : Kept m o (serveActivate q1_ q2_ q3_ q4_ s).2 := by
  refine k.then (a := 4194305) ?_ hm
  unfold serveActivate
  repeat' first
    | exact Eq.refl _
    | (with_reducible first
        | apply modPrimer_kept | apply releaseActivation_kept | apply reply_kept | apply upReply_kept | apply Kept.ite | apply Kept.refl)
    | intro _ | split

theorem serveAbort_kept {m : Nat} {o s : State} {q1_ : _} {q2_ : _} {q3_ : _} {q4_ : _} (k : Kept m o s)
    (hm : 4194304 ||| m = m) : Kept m o (serveAbort q1_ q2_ q3_ q4_ s).2 := by
  refine k.then (a := 4194304) ?_ hm
  unfold serveAbort
  repeat' first
    | exact Eq.refl _
    | (with_reducible first
        | apply endSession_kept | apply modPrimer_kept | apply reply_kept | apply setSlot_kept | apply upReply_kept | apply Kept.ite | apply Kept.refl)
    | intro _ | split

theorem serveStatus_kept {m : Nat} {o s : State} {q1_ : _} {q2_ : _} {q3_ : _} {q4_ : _} (k : Kept m o s)
    (hm : 0 ||| m = m) : Kept m o (serveStatus q1_ q2_ q3_ q4_ s).2 := by
  refine k.then (a := 0) ?_ hm
  unfold serveStatus
  repeat' first | exact Eq.refl _ | (with_reducible first | apply reply_kept | apply Kept.ite | apply Kept.refl) | intro _ | split

theorem serveConfirm_kept {m : Nat} {o s : State} {q1_ : _} {q2_ : _} {q3_ : _} {q4_ : _} (k : Kept m o s)
    (hm : 4194304 ||| m = m) : Kept m o (serveConfirm q1_ q2_ q3_ q4_ s).2 := by
  refine k.then (a := 4194304) ?_ hm
  unfold serveConfirm
  repeat' first
    | exact Eq.refl _
    | (with_reducible first
        | apply confirmTrial_kept | apply reply_kept | apply upReply_kept | apply Kept.ite | apply Kept.refl)
    | intro _ | split

theorem serveFallback_kept {m : Nat} {o s : State} {q1_ : _} {q2_ : _} {q3_ : _} {q4_ : _} (k : Kept m o s)
    (hm : 4194305 ||| m = m) : Kept m o (serveFallback q1_ q2_ q3_ q4_ s).2 := by
  refine k.then (a := 4194305) ?_ hm
  unfold serveFallback
  repeat' first
    | exact Eq.refl _
    | (with_reducible first
        | apply fallBack_kept | apply reply_kept | apply upReply_kept | apply Kept.ite | apply Kept.refl)
    | intro _ | split

theorem serveCfg_kept {m : Nat} {o s : State} {q1_ : _} {q2_ : _} {q3_ : _} {q4_ : _} (k : Kept m o s)
    (hm : 4194304 ||| m = m) : Kept m o (serveCfg q1_ q2_ q3_ q4_ s).2 := by
  refine k.then (a := 4194304) ?_ hm
  unfold serveCfg
  repeat' first
    | exact Eq.refl _ | (with_reducible first | apply modPrimer_kept | apply reply_kept | apply Kept.ite | apply Kept.refl) | intro _ | split

theorem sendChunks_kept {m : Nat} {o s : State} {port unit session b : Nat} {data : List Byte} {ks : List Nat} (k : Kept m o s)
    (hm : 1082130432 ||| m = m) : Kept m o (sendChunks port unit session b data ks s) := by
  refine k.then (a := 1082130432) ?_ hm
  unfold sendChunks
  repeat' first | exact Eq.refl _ | (with_reducible first | apply sendOcing_kept | apply Kept.forAll | apply Kept.refl) | intro _

theorem serveForward_kept {m : Nat} {o s : State} {q1_ : _} {q2_ : _} {q3_ : _} {q4_ : _} (k : Kept m o s)
    (hm : 1086324736 ||| m = m) : Kept m o (serveForward q1_ q2_ q3_ q4_ s).2 := by
  refine k.then (a := 1086324736) ?_ hm
  unfold serveForward
  repeat' first
    | exact Eq.refl _
    | (with_reducible first
        | apply modPrimer_kept | apply reply_kept | apply sendChunks_kept | apply sendOcing_kept | apply upReply_kept | apply Kept.ite
        | apply Kept.refl)
    | intro _ | split | (dsimp only)

theorem execUpdateBegin_runs {q : Nat} {entry : List Byte} {readable : Bool} {payload : List Byte} {s : State} : Runs 4980737 s (execUpdateBegin q entry readable payload s) := by
  unfold execUpdateBegin
  refine Runs.next ?_
  repeat' first | exact Eq.refl _ | (with_reducible first | apply serveBegin_kept | apply takeMessage_kept | apply Kept.refl) | intro _

theorem execUpdateData_runs {q : Nat} {entry : List Byte} {readable : Bool} {payload : List Byte} {flash : FlashWrite} {s : State} : Runs 4980737 s (execUpdateData q entry readable payload flash s) := by
  unfold execUpdateData
  refine Runs.next ?_
  repeat' first | exact Eq.refl _ | (with_reducible first | apply serveData_kept | apply takeMessage_kept | apply Kept.refl) | intro _

theorem execUpdateEnd_runs {q : Nat} {entry : List Byte} {readable : Bool} {payload : List Byte} {s : State} : Runs 4980737 s (execUpdateEnd q entry readable payload s) := by
  unfold execUpdateEnd
  refine Runs.next ?_
  repeat' first | exact Eq.refl _ | (with_reducible first | apply serveEnd_kept | apply takeMessage_kept | apply Kept.refl) | intro _

theorem execUpdateActivate_runs {q : Nat} {entry : List Byte} {readable : Bool} {payload : List Byte} {s : State} : Runs 4980737 s (execUpdateActivate q entry readable payload s) := by
  unfold execUpdateActivate
  refine Runs.next ?_
  repeat' first | exact Eq.refl _ | (with_reducible first | apply serveActivate_kept | apply takeMessage_kept | apply Kept.refl) | intro _

theorem execUpdateAbort_runs {q : Nat} {entry : List Byte} {readable : Bool} {payload : List Byte} {s : State} : Runs 4980737 s (execUpdateAbort q entry readable payload s) := by
  unfold execUpdateAbort
  refine Runs.next ?_
  repeat' first | exact Eq.refl _ | (with_reducible first | apply serveAbort_kept | apply takeMessage_kept | apply Kept.refl) | intro _

theorem execUpdateStatus_runs {q : Nat} {entry : List Byte} {readable : Bool} {payload : List Byte} {s : State} : Runs 786433 s (execUpdateStatus q entry readable payload s) := by
  unfold execUpdateStatus
  refine Runs.next ?_
  repeat' first | exact Eq.refl _ | (with_reducible first | apply serveStatus_kept | apply takeMessage_kept | apply Kept.refl) | intro _

theorem execUpdateConfirm_runs {q : Nat} {entry : List Byte} {readable : Bool} {payload : List Byte} {s : State} : Runs 4980737 s (execUpdateConfirm q entry readable payload s) := by
  unfold execUpdateConfirm
  refine Runs.next ?_
  repeat' first | exact Eq.refl _ | (with_reducible first | apply serveConfirm_kept | apply takeMessage_kept | apply Kept.refl) | intro _

theorem execUpdateFallback_runs {q : Nat} {entry : List Byte} {readable : Bool} {payload : List Byte} {s : State} : Runs 4980737 s (execUpdateFallback q entry readable payload s) := by
  unfold execUpdateFallback
  refine Runs.next ?_
  repeat' first | exact Eq.refl _ | (with_reducible first | apply serveFallback_kept | apply takeMessage_kept | apply Kept.refl) | intro _

theorem execUpdateForward_runs {q : Nat} {entry : List Byte} {readable : Bool} {payload : List Byte} {s : State} : Runs 1087111169 s (execUpdateForward q entry readable payload s) := by
  unfold execUpdateForward
  refine Runs.next ?_
  repeat' first | exact Eq.refl _ | (with_reducible first | apply serveForward_kept | apply takeMessage_kept | apply Kept.refl) | intro _

theorem execUpdateCfg_runs {q : Nat} {entry : List Byte} {readable : Bool} {payload : List Byte} {s : State} : Runs 4980737 s (execUpdateCfg q entry readable payload s) := by
  unfold execUpdateCfg
  refine Runs.next ?_
  repeat' first | exact Eq.refl _ | (with_reducible first | apply serveCfg_kept | apply takeMessage_kept | apply Kept.refl) | intro _

theorem putPeerIn_kept {m : Nat} {o s : State} {x : PeerIn} (k : Kept m o s)
    (hm : 4194304 ||| m = m) : Kept m o (putPeerIn x s) := by
  refine k.then (a := 4194304) ?_ hm
  unfold putPeerIn
  repeat' first | exact Eq.refl _ | (with_reducible first | apply modPrimer_kept | apply Kept.refl)

theorem puBegin_kept {m : Nat} {o s : State} {u : Nat} {l : List Byte} (k : Kept m o s)
    (hm : 1086324736 ||| m = m) : Kept m o (puBegin u l s) := by
  refine k.then (a := 1086324736) ?_ hm
  unfold puBegin
  repeat' first
    | exact Eq.refl _
    | (with_reducible first
        | apply modPrimer_kept | apply puResult_kept | apply putPeerIn_kept | apply Kept.ite | apply Kept.refl)

theorem puData_kept {m : Nat} {o s : State} {u : Nat} {l : List Byte} (k : Kept m o s) (hm : 4194304 ||| m = m) :
    Kept m o (puData u l s) := by
  refine k.then (a := 4194304) ?_ hm
  unfold puData
  have ht : ∀ t, Kept 4194304 s t → Kept 4194304 s (puData.touchIf u l t) := by
    intro t h
    unfold puData.touchIf
    split
    · exact touchSession_kept h rfl
    · exact h
  repeat' first
    | exact Eq.refl _ | (with_reducible first | apply modPrimer_kept | apply putPeerIn_kept | apply ht | apply Kept.refl) | split | (dsimp only)

theorem puBlock_kept {m : Nat} {o s : State} {u : Nat} {flash : FlashWrite} {l : List Byte} (k : Kept m o s)
    (hm : 1086324736 ||| m = m) : Kept m o (puBlock u flash l s) := by
  refine k.then (a := 1086324736) ?_ hm
  unfold puBlock
  repeat' first
    | exact Eq.refl _
    | (with_reducible first
        | apply puResult_kept | apply putPeerIn_kept | apply touchSession_kept | apply writeBlock_kept | apply Kept.refl)
    | intro _ | split | (dsimp only)

theorem puEnd_kept {m : Nat} {o s : State} {u : Nat} {l : List Byte} (k : Kept m o s)
    (hm : 1086324737 ||| m = m) : Kept m o (puEnd u l s) := by
  refine k.then (a := 1086324737) ?_ hm
  unfold puEnd
  repeat' first
    | exact Eq.refl _
    | (with_reducible first
        | apply finishImage_kept | apply puResult_kept | apply touchSession_kept | apply Kept.refl)
    | intro _ | split | (dsimp only)

theorem puAbort_kept {m : Nat} {o s : State} {u : Nat} {l : List Byte} (k : Kept m o s)
    (hm : 4194304 ||| m = m) : Kept m o (puAbort u l s) := by
  refine k.then (a := 4194304) ?_ hm
  unfold puAbort
  repeat' first
    | exact Eq.refl _
    | (with_reducible first
        | apply endSession_kept | apply modPrimer_kept | apply setSlot_kept | apply Kept.ite | apply Kept.refl)

theorem endForward_kept {m : Nat} {o s : State} {f : Forward} {r : Nat} (k : Kept m o s)
    (hm : 4980737 ||| m = m) : Kept m o (endForward f r s) := by
  refine k.then (a := 4980737) ?_ hm
  unfold endForward
  repeat' first | exact Eq.refl _ | (with_reducible first | apply modPrimer_kept | apply respondLater_kept | apply Kept.refl)

theorem forwardNext_kept {m : Nat} {o s : State} {f : Forward} (k : Kept m o s)
    (hm : 1087111169 ||| m = m) : Kept m o (forwardNext f s) := by
  refine k.then (a := 1087111169) ?_ hm
  unfold forwardNext
  repeat' first
    | exact Eq.refl _
    | (with_reducible first
        | apply endForward_kept | apply modPrimer_kept | apply sendChunks_kept | apply sendOcing_kept | apply Kept.ite | apply Kept.refl)
    | intro _ | split

theorem puResultFrame_kept {m : Nat} {o s : State} {u : Nat} {l : List Byte} (k : Kept m o s)
    (hm : 1087111169 ||| m = m) : Kept m o (puResultFrame u l s) := by
  refine k.then (a := 1087111169) ?_ hm
  unfold puResultFrame
  repeat' first
    | exact Eq.refl _
    | (with_reducible first
        | apply endForward_kept | apply forwardNext_kept | apply Kept.ite | apply Kept.refl)
    | intro _ | split

theorem execPuBegin_runs {p : Nat} {body : List Byte} {s : State} : Runs 1086586881 s (execPuBegin p body s) := by
  unfold execPuBegin
  refine Runs.next ?_
  repeat' first | exact Eq.refl _ | (with_reducible first | apply puBegin_kept | apply receiveFrame_kept | apply Kept.refl) | intro _

theorem execPuData_runs {p : Nat} {body : List Byte} {s : State} : Runs 1086586881 s (execPuData p body s) := by
  unfold execPuData
  refine Runs.next ?_
  repeat' first | exact Eq.refl _ | (with_reducible first | apply puData_kept | apply receiveFrame_kept | apply Kept.refl) | intro _

theorem execPuBlock_runs {p : Nat} {body : List Byte} {flash : FlashWrite} {s : State} : Runs 1086586881 s (execPuBlock p body flash s) := by
  unfold execPuBlock
  refine Runs.next ?_
  repeat' first | exact Eq.refl _ | (with_reducible first | apply puBlock_kept | apply receiveFrame_kept | apply Kept.refl) | intro _

theorem execPuEnd_runs {p : Nat} {body : List Byte} {s : State} : Runs 1086586881 s (execPuEnd p body s) := by
  unfold execPuEnd
  refine Runs.next ?_
  repeat' first | exact Eq.refl _ | (with_reducible first | apply puEnd_kept | apply receiveFrame_kept | apply Kept.refl) | intro _

theorem execPuResult_runs {p : Nat} {body : List Byte} {s : State} : Runs 1087111169 s (execPuResult p body s) := by
  unfold execPuResult
  refine Runs.next ?_
  repeat' first | exact Eq.refl _ | (with_reducible first | apply puResultFrame_kept | apply receiveFrame_kept | apply Kept.refl) | intro _

theorem execPuAbort_runs {p : Nat} {body : List Byte} {s : State} : Runs 1086586881 s (execPuAbort p body s) := by
  unfold execPuAbort
  refine Runs.next ?_
  repeat' first | exact Eq.refl _ | (with_reducible first | apply puAbort_kept | apply receiveFrame_kept | apply Kept.refl) | intro _

end Sys2Proof.Machine
end

