-- ==== Sys2Proof/Laws/Recovery.lean ====
section
/-! SUPPORT. For each operation and each meaning of Sys2Proof/Machine/Recovery.lean: the parts of the state it may touch, and that it keeps the laws. -/

namespace Sys2Proof.Machine

set_option Elab.async false

theorem statusClear_kept {m : Nat} {o s : State} {v : Nat} (k : Kept m o s)
    (hm : 1 ||| m = m) : Kept m o (statusClear v s) := by
  refine k.then (a := 1) ?_ hm
  unfold statusClear
  repeat' first | exact Eq.refl _ | (with_reducible first | apply setF_kept | apply Kept.ite | apply Kept.refl)

theorem execFltStatusClear_runs {value : Nat} {s : State} : Runs 1 s (execFltStatusClear value s) := by
  unfold execFltStatusClear
  refine Runs.next ?_
  repeat' first | exact Eq.refl _ | (with_reducible first | apply hostAccess_kept | apply statusClear_kept | apply Kept.refl) | intro _

theorem execFaultPinPulseEnd_runs {s : State} : Runs 131073 s (execFaultPinPulseEnd s) := by
  unfold execFaultPinPulseEnd
  refine Runs.next ?_
  repeat' first
    | exact Eq.refl _ | (with_reducible first | apply showPin_kept | apply Kept.refl) | intro _ | split | (with_reducible refine Kept.putFlt ?_ rfl)

theorem holdWrite_kept {m : Nat} {o s : State} {v : Nat} (k : Kept m o s)
    (hm : 3 ||| m = m) : Kept m o (holdWrite v s) := by
  refine k.then (a := 3) ?_ hm
  unfold holdWrite
  repeat' first | exact Eq.refl _ | (with_reducible first | apply plainWrite_kept | apply showPin_kept | apply Kept.ite | apply Kept.refl)

theorem execHoldWrite_runs {value : Nat} {s : State} : Runs 3 s (execHoldWrite value s) := by
  unfold execHoldWrite
  refine Runs.next ?_
  repeat' first | exact Eq.refl _ | (with_reducible first | apply holdWrite_kept | apply hostAccess_kept | apply Kept.refl) | intro _

theorem histPop_kept {m : Nat} {o s : State} (k : Kept m o s)
    (hm : 131073 ||| m = m) : Kept m o (histPop s) := by
  refine k.then (a := 131073) ?_ hm
  unfold histPop
  repeat' first
    | exact Eq.refl _ | (with_reducible first | apply showHist_kept | apply Kept.refl) | intro _ | split | (with_reducible refine Kept.putFlt ?_ rfl)

theorem execHistPop_runs {s : State} : Runs 131073 s (execHistPop s) := by
  unfold execHistPop
  refine Runs.next ?_
  repeat' first | exact Eq.refl _ | (with_reducible first | apply histPop_kept | apply hostAccess_kept | apply Kept.refl) | intro _

theorem pllLockLoss_kept {m : Nat} {o s : State} {p : Nat} (k : Kept m o s)
    (hm : 4587521 ||| m = m) : Kept m o (pllLockLoss p s) := by
  refine k.then (a := 4587521) ?_ hm
  unfold pllLockLoss
  repeat' first | exact Eq.refl _ | (with_reducible first | apply raiseSimple_kept | apply setF_kept | apply Kept.ite | apply Kept.refl)

theorem execPllLockLoss_runs {pll : Nat} {s : State} : Runs 4587521 s (execPllLockLoss pll s) := by
  unfold execPllLockLoss
  refine Runs.next ?_
  repeat' first | exact Eq.refl _ | (with_reducible first | apply pllLockLoss_kept | apply Kept.refl)

theorem execReferenceLost_runs {s : State} : Runs 32091126721 s (execReferenceLost s) := by
  unfold execReferenceLost
  refine Runs.next ?_
  repeat' first | exact Eq.refl _ | (with_reducible first | apply raiseDeviceSafe_kept | apply Kept.refl)

theorem execCrystal32kLost_runs {s : State} : Runs 4595713 s (execCrystal32kLost s) := by
  unfold execCrystal32kLost
  refine Runs.next ?_
  repeat' first
    | exact Eq.refl _ | (with_reducible first | apply raiseSimple_kept | apply Kept.refl) | intro _ | split
    | (with_reducible refine Kept.putTrust ?_ rfl)

theorem supervisorDown_kept {m : Nat} {o s : State} (k : Kept m o s)
    (hm : 4194305 ||| m = m) : Kept m o (supervisorDown s) := by
  refine k.then (a := 4194305) ?_ hm
  unfold supervisorDown
  repeat' first | exact Eq.refl _ | (with_reducible first | apply modPrimer_kept | apply setB_kept | apply Kept.ite | apply Kept.refl)

theorem supervisorMiscompare_kept {m : Nat} {o s : State} (k : Kept m o s)
    (hm : 32091126721 ||| m = m) : Kept m o (supervisorMiscompare s) := by
  refine k.then (a := 32091126721) ?_ hm
  unfold supervisorMiscompare
  repeat' first
    | exact Eq.refl _
    | (with_reducible first
        | apply fallBack_kept | apply incSat_kept | apply modPrimer_kept | apply raiseDeviceSafe_kept | apply raiseShared_kept | apply setF_kept
        | apply supervisorDown_kept | apply trialFault_kept | apply Kept.ite | apply Kept.refl)

theorem execSupervisorMiscompare_runs {s : State} : Runs 32091126721 s (execSupervisorMiscompare s) := by
  unfold execSupervisorMiscompare
  refine Runs.next ?_
  repeat' first | exact Eq.refl _ | (with_reducible first | apply supervisorMiscompare_kept | apply Kept.refl)

theorem answerTaken_kept {m : Nat} {o s : State} (k : Kept m o s)
    (hm : 1078722561 ||| m = m) : Kept m o (answerTaken s) := by
  refine k.then (a := 1078722561) ?_ hm
  unfold answerTaken
  repeat' first
    | exact Eq.refl _
    | (with_reducible first
        | apply modPrimer_kept | apply respondLater_kept | apply Kept.forAll | apply Kept.refl)
    | intro _ | split | (with_reducible refine Kept.putOcl ?_ rfl)

theorem execSupervisorRestartDone_runs {s : State} : Runs 5377089729 s (execSupervisorRestartDone s) := by
  unfold execSupervisorRestartDone
  refine Runs.next ?_
  repeat' first | exact Eq.refl _ | (with_reducible first | apply answerTaken_kept | apply supervisorUp_kept | apply Kept.ite | apply Kept.refl)

theorem trustRestartDone_kept {m : Nat} {o s : State} (k : Kept m o s)
    (hm : 4302823617 ||| m = m) : Kept m o (trustRestartDone s) := by
  refine k.then (a := 4302823617) ?_ hm
  unfold trustRestartDone
  repeat' first
    | exact Eq.refl _
    | (with_reducible first
        | apply reserveBlock_kept | apply runDeferred_kept | apply serveWaiting_kept | apply setB_kept | apply signCheckpoint_kept | apply Kept.ite
        | apply Kept.forAll | apply Kept.refl)
    | intro _ | split | (with_reducible refine Kept.putTrust ?_ rfl)

theorem execTrustRestartDone_runs {s : State} : Runs 4302823617 s (execTrustRestartDone s) := by
  unfold execTrustRestartDone
  refine Runs.next ?_
  repeat' first | exact Eq.refl _ | (with_reducible first | apply trustRestartDone_kept | apply Kept.refl)

theorem openRebuild_kept {m : Nat} {o s : State} (k : Kept m o s)
    (hm : 1 ||| m = m) : Kept m o (openRebuild s) := by
  refine k.then (a := 1) ?_ hm
  unfold openRebuild
  repeat' first | exact Eq.refl _ | (with_reducible first | apply setB_kept | apply Kept.refl)

theorem copyError_kept {m : Nat} {o s : State} {bank : Nat} (k : Kept m o s)
    (hm : 2027404225 ||| m = m) : Kept m o (copyError bank s) := by
  refine k.then (a := 2027404225) ?_ hm
  unfold copyError
  repeat' first | exact Eq.refl _ | (with_reducible first | apply incSat_kept | apply logError_kept | apply raiseFault_kept | apply Kept.refl)

theorem loseLedgerCopy_kept {m : Nat} {o s : State} {c : Nat} (k : Kept m o s)
    (hm : 2027404225 ||| m = m) : Kept m o (loseLedgerCopy c s) := by
  refine k.then (a := 2027404225) ?_ hm
  unfold loseLedgerCopy
  repeat' first
    | exact Eq.refl _
    | (with_reducible first
        | apply copyError_kept | apply ledgerBreak_kept | apply openRebuild_kept | apply Kept.ite | apply Kept.forAll | apply Kept.refl)
    | intro _ | split | (with_reducible refine Kept.putSch ?_ rfl)

theorem loseCounterCopy_kept {m : Nat} {o s : State} {c : Nat} (k : Kept m o s)
    (hm : 2027404225 ||| m = m) : Kept m o (loseCounterCopy c s) := by
  refine k.then (a := 2027404225) ?_ hm
  unfold loseCounterCopy
  repeat' first
    | exact Eq.refl _
    | (with_reducible first
        | apply copyError_kept | apply counterBreak_kept | apply openRebuild_kept | apply Kept.ite | apply Kept.forAll | apply Kept.refl)
    | intro _ | split | (with_reducible refine Kept.putTrust ?_ rfl)

theorem copyRebuilt_kept {m : Nat} {o s : State} (k : Kept m o s) (hm : 43073 ||| m = m) : Kept m o (copyRebuilt s) := by
  refine k.then (a := 43073) (setB_kept (Kept.then (a := 43072) (Kept.refl _ _) ⟨rfl, fun h => ?_, fun p hp => ?_⟩ rfl) rfl) hm
  · have hl : ∀ l ∈ (List.range 4).map (fun n => ledger n s), l.law := by
      intro l hl
      obtain ⟨n, -, rfl⟩ := List.mem_map.mp hl
      exact ledger_law n h
    have hc : ∀ x ∈ (if s.trust.copyLost = some 0 then s.trust.mirror else s.trust.counters), x.2.law := by
      split
      · exact h.counterCopies
      · exact h.counters
    exact { h with banks := (by have hb := h.banks; simp [bankSizes] at hb ⊢; omega), ledgers := hl, ledgerCopies := hl, counters := hc, counterCopies := hc }
  · cases p <;> first | exact absurd hp (by decide) | rfl | exact ⟨rfl, rfl⟩ | exact ⟨rfl, rfl, rfl⟩

theorem execCopyRebuildDone_runs {s : State} : Runs 43073 s (execCopyRebuildDone s) := by
  unfold execCopyRebuildDone
  refine Runs.next ?_
  repeat' first | exact Eq.refl _ | (with_reducible first | apply copyRebuilt_kept | apply Kept.refl)

theorem replaceEvents_kept {m : Nat} {o s : State} {i : Nat} (k : Kept m o s)
    (hm : 321 ||| m = m) : Kept m o (replaceEvents i s) := by
  refine k.then (a := 321) ?_ hm
  unfold replaceEvents
  repeat' first
    | exact Eq.refl _
    | (with_reducible first
        | apply bringDue_kept | apply petErase_kept | apply Kept.ite | apply Kept.forAll | apply Kept.refl)
    | intro _ | split | (with_reducible refine Kept.putSch ?_ rfl)

theorem damageProduct_kept {m : Nat} {o s : State} {i : Nat} (k : Kept m o s)
    (hm : 2026351553 ||| m = m) : Kept m o (damageProduct i s) := by
  refine k.then (a := 2026351553) ?_ hm
  unfold damageProduct
  repeat' first
    | exact Eq.refl _
    | (with_reducible first
        | apply closeIfDone_kept | apply modProduct_kept | apply notStarted_kept | apply tidy_kept | apply Kept.forAll | apply Kept.refl)
    | intro _ | split

theorem damageFont_kept {m : Nat} {o s : State} {k : Nat} (hk : Kept m o s)
    (hm : 1 ||| m = m) : Kept m o (damageFont k s) := by
  refine hk.then (a := 1) ?_ hm
  unfold damageFont
  repeat' first | exact Eq.refl _ | (with_reducible first | apply setBit_kept | apply Kept.ite | apply Kept.refl)

theorem damageNozzle_kept {m : Nat} {o s : State} {h e : Nat} (k : Kept m o s)
    (hm : 4299554817 ||| m = m) : Kept m o (damageNozzle h e s) := by
  refine k.then (a := 4299554817) ?_ hm
  unfold damageNozzle
  repeat' first | exact Eq.refl _ | (with_reducible first | apply setNozzle_kept | apply tableChanged_kept | apply Kept.ite | apply Kept.refl)

theorem parityError_kept {m : Nat} {o s : State} {structure_ i : Nat} (k : Kept m o s)
    (hm : 2026355649 ||| m = m) : Kept m o (parityError structure_ i s) := by
  refine k.then (a := 2026355649) ?_ hm
  unfold parityError
  repeat' first
    | exact Eq.refl _
    | (with_reducible first
        | apply damageProduct_kept | apply raiseShared_kept | apply replaceEvents_kept | apply Kept.ite | apply Kept.refl)

theorem registerParity_kept {m : Nat} {o s : State} {e : Engine} (k : Kept m o s)
    (hm : 83748170689 ||| m = m) : Kept m o (registerParity e s) := by
  refine k.then (a := 83748170689) ?_ hm
  unfold registerParity
  repeat' first | exact Eq.refl _ | (with_reducible first | apply illegal_kept | apply Kept.ite | apply Kept.refl)

theorem skimWord_kept {m : Nat} {o s : State} {w : Nat} (k : Kept m o s)
    (hm : 70746880961 ||| m = m) : Kept m o (skimWord w s) := by
  refine k.then (a := 70746880961) ?_ hm
  unfold skimWord
  repeat' first | exact Eq.refl _ | (with_reducible first | apply readWord_kept | apply setFlaw_kept | apply Kept.ite | apply Kept.refl)

theorem structureDamage_kept {m : Nat} {o s : State} {w : Nat} (k : Kept m o s)
    (hm : 100810603457 ||| m = m) : Kept m o (structureDamage w s) := by
  refine k.then (a := 100810603457) ?_ hm
  unfold structureDamage
  repeat' first
    | exact Eq.refl _
    | (with_reducible first
        | apply clearFlaw_kept | apply damageNozzle_kept | apply damageProduct_kept | apply replaceEvents_kept | apply supervisorMiscompare_kept
        | apply trustCoreFault_kept | apply Kept.forAll | apply Kept.refl)
    | intro _ | split

theorem takeDamage_kept {m : Nat} {o s : State} {d : Damage} (k : Kept m o s)
    (hm : 100929092545 ||| m = m) : Kept m o (takeDamage d s) := by
  refine k.then (a := 100929092545) ?_ hm
  unfold takeDamage
  repeat' first
    | exact Eq.refl _
    | (with_reducible first
        | apply damageFont_kept | apply damageNozzle_kept | apply damageProduct_kept | apply ddrUe_kept | apply incSat_kept
        | apply loseCounterCopy_kept | apply loseLedgerCopy_kept | apply memUe_kept | apply parityError_kept | apply registerParity_kept
        | apply replaceEvents_kept | apply setFlaw_kept | apply skimWord_kept | apply supervisorMiscompare_kept | apply trustCoreFault_kept
        | apply Kept.ite | apply Kept.refl)
    | intro _ | split

theorem correctUpset_kept {m : Nat} {o s : State} {agent : Nat} {x : Nat × Nat} (k : Kept m o s)
    (hm : 70746880961 ||| m = m) : Kept m o (correctUpset agent x s) := by
  refine k.then (a := 70746880961) ?_ hm
  unfold correctUpset
  repeat' first | exact Eq.refl _ | (with_reducible first | apply readWord_kept | apply setFlaw_kept | apply Kept.ite | apply Kept.refl)

theorem endPass_kept {m : Nat} {o s : State} (k : Kept m o s)
    (hm : 68719476737 ||| m = m) : Kept m o (endPass s) := by
  refine k.then (a := 68719476737) ?_ hm
  unfold endPass
  repeat' first
    | exact Eq.refl _
    | (with_reducible first
        | apply addMod_kept | apply incSat_kept | apply setF_kept | apply Kept.ite | apply Kept.doIf | apply Kept.refl)
    | intro _ | split | (with_reducible refine Kept.putMem ?_ rfl)

theorem skimPass_kept {m : Nat} {o s : State} {corrected others : List (Nat × Nat)} {damage : List Damage} {percent : Nat} (k : Kept m o s)
    (hm : 100929092545 ||| m = m) : Kept m o (skimPass corrected others damage percent s) := by
  refine k.then (a := 100929092545) ?_ hm
  unfold skimPass
  repeat' first
    | exact Eq.refl _
    | (with_reducible first
        | apply correctUpset_kept | apply endPass_kept | apply setF_kept | apply skimWord_kept | apply structureDamage_kept | apply takeDamage_kept
        | apply Kept.ite | apply Kept.forAll | apply Kept.refl)
    | intro _

theorem execSkimPass_runs {corrected others : List (Nat × Nat)} {damage : List Damage} {percent : Nat} {s : State} : Runs 100929092545 s (execSkimPass corrected others damage percent s) := by
  unfold execSkimPass
  refine Runs.next ?_
  repeat' first | exact Eq.refl _ | (with_reducible first | apply skimPass_kept | apply Kept.refl)

theorem injWrite_kept {m : Nat} {o s : State} {v : Nat} (k : Kept m o s)
    (hm : 68720525315 ||| m = m) : Kept m o (injWrite v s) := by
  refine k.then (a := 68720525315) ?_ hm
  unfold injWrite
  repeat' first
    | exact Eq.refl _
    | (with_reducible first
        | apply drawFree_kept | apply plainWrite_kept | apply setFlaw_kept | apply Kept.ite | apply Kept.refl)
    | intro _ | split | (with_reducible refine Kept.putMem ?_ rfl)

theorem execMemInject_runs {value : Nat} {s : State} : Runs 68720525315 s (execMemInject value s) := by
  unfold execMemInject
  refine Runs.next ?_
  repeat' first | exact Eq.refl _ | (with_reducible first | apply hostAccess_kept | apply injWrite_kept | apply Kept.refl) | intro _

end Sys2Proof.Machine
end

