-- ==== Sys2Proof/Laws/Boot.lean ====
section
/-! SUPPORT. For each operation and each meaning of Sys2Proof/Machine/Boot.lean: the parts of the state it may touch, and that it keeps the laws. -/

namespace Sys2Proof.Machine

set_option Elab.async false

theorem spMap_rising {α : Type} {m : Sparse α} {o : Option Nat} {f : Nat → α → α} (h : spRising o m = true) :
    spRising o (m.map fun p => (p.1, f p.1 p.2)) = true := by
  induction m generalizing o with
  | nil => exact h
  | cons p t ih =>
    cases o with
    | none => exact ih h
    | some j =>
      simp only [spRising, List.map_cons, Bool.and_eq_true] at h ⊢
      exact ⟨h.1, ih h.2⟩

theorem keptTable_wf {wipe : Bool} {m : Sparse Word} (h : spWf regReset m = true) : spWf regReset (keptTable wipe m) = true := by
  rw [spWf_iff] at h ⊢
  refine ⟨spFilter_rising (spMap_rising h.1), fun p hp => ?_⟩
  have := (List.mem_filter.mp hp).2
  simpa using this

theorem settleLedger_law {l : Ledger} (h : l.law) : (settleLedger l).law := by
  obtain ⟨h1, h2⟩ := h
  exact ⟨by simp only [settleLedger]; rw [h1]; ring, by simp only [settleLedger]; rw [h2]; ring⟩

theorem counterFromFlash_law (s : State) (x : Nat × Counter) : (counterFromFlash s x).2.law := by
  unfold counterFromFlash Counter.law
  dsimp only
  split
  · omega
  · simp

theorem modPwr_kept {m : Nat} {o s : State} {f : Island → Island} (k : Kept m o s)
    (hm : 549755813888 ||| m = m) : Kept m o (modPwr f s) := by
  refine k.then (a := 549755813888) ?_ hm
  unfold modPwr
  repeat' first | exact Eq.refl _ | exact Kept.refl _ _ | intro _ | split | (with_reducible refine Kept.putPwr ?_ rfl)

theorem latchStraps_kept {m : Nat} {o s : State} {x : Straps} (k : Kept m o s)
    (hm : 549755813889 ||| m = m) : Kept m o (latchStraps x s) := by
  refine k.then (a := 549755813889) ?_ hm
  unfold latchStraps
  repeat' first | exact Eq.refl _ | (with_reducible first | apply modPwr_kept | apply setB_kept | apply setF_kept | apply Kept.ite | apply Kept.refl)

theorem resetState_kept {m : Nat} {o s : State} {wipe : Bool} (k : Kept m o s) (hm : 4398046511103 ||| m = m) :
    Kept m o (resetState wipe s) := by
  refine k.then (a := 4398046511103) ?_ hm
  unfold resetState
  refine showFires_kept (Kept.forAll ?_ fun a t => State.setReg_kept (Kept.refl _ _) rfl) rfl
  refine ⟨rfl, fun h => ?_, fun p hp => ?_⟩
  · exact {
      banks := by have hb := h.banks; simp [bankSizes] at hb ⊢; simp [State.reset, hb]
      regs := keptTable_wf h.regs
      shadow := keptTable_wf h.shadow
      image := rfl, ddr := rfl
      hostMem := h.hostMem
      ledgers := fun l hl => (List.eq_of_mem_replicate hl) ▸ Ledger.law_zero
      ledgerCopies := fun l hl => (List.eq_of_mem_replicate hl) ▸ Ledger.law_zero
      ledgersSaved := h.ledgersSaved
      counters := by
        show ∀ x ∈ (if s.trust.copyLost = some 0 then s.trust.mirror else s.trust.counters), x.2.law
        split
        · exact h.counterCopies
        · exact h.counters
      counterCopies := nofun }
  · cases p <;> first | exact absurd hp (by decide) | rfl | exact ⟨rfl, rfl⟩ | exact ⟨rfl, rfl, rfl⟩

theorem clearWriting_kept {m : Nat} {o s : State} (k : Kept m o s)
    (hm : 4194304 ||| m = m) : Kept m o (clearWriting s) := by
  refine k.then (a := 4194304) ?_ hm
  unfold clearWriting
  repeat' first | exact Eq.refl _ | (with_reducible first | apply setSlot_kept | apply Kept.ite | apply Kept.forAll | apply Kept.refl) | intro _

theorem countTrialBoot_kept {m : Nat} {o s : State} (k : Kept m o s)
    (hm : 4194304 ||| m = m) : Kept m o (countTrialBoot s) := by
  refine k.then (a := 4194304) ?_ hm
  unfold countTrialBoot
  repeat' first | exact Eq.refl _ | (with_reducible first | apply modPrimer_kept | apply setSlotState_kept | apply Kept.ite | apply Kept.refl)

theorem chooseSlot_kept {m : Nat} {o s : State} (k : Kept m o s)
    (hm : 4194304 ||| m = m) : Kept m o (chooseSlot s).2 := by
  refine k.then (a := 4194304) ?_ hm
  unfold chooseSlot
  repeat' first
    | exact Eq.refl _
    | (with_reducible first
        | apply modPrimer_kept | apply setSlotState_kept | apply Kept.ite | apply Kept.refl)
    | intro _ | split | (dsimp only)

theorem restExhausted_kept {m : Nat} {o s : State} {n : Nat} (k : Kept m o s) (hm : 4694017 ||| m = m) : Kept m o (restExhausted n s) := by
  refine modCounter_kept k hm fun c h => ?_
  split
  · exact h
  · exact h

theorem readCounters_kept {m : Nat} {o s : State} (k : Kept m o s) (hm : 40960 ||| m = m) : Kept m o (readCounters s) := by
  refine k.then (a := 40960) ⟨rfl, fun h => ?_, fun p hp => ?_⟩ hm
  · have hc : ∀ x ∈ s.trust.counters.map (counterFromFlash s), x.2.law := by
      intro x hx
      obtain ⟨c, -, rfl⟩ := List.mem_map.mp hx
      exact counterFromFlash_law s c
    exact { h with counters := hc, counterCopies := hc }
  · cases p <;> first | exact absurd hp (by decide) | rfl | exact ⟨rfl, rfl⟩ | exact ⟨rfl, rfl, rfl⟩

theorem restoreCounters_kept {m : Nat} {o s : State} (k : Kept m o s)
    (hm : 4694209 ||| m = m) : Kept m o (restoreCounters s) := by
  refine k.then (a := 4694209) ?_ hm
  unfold restoreCounters
  repeat' first
    | exact Eq.refl _
    | (with_reducible first
        | apply reserveBlock_kept | apply restExhausted_kept | apply voidReserved_kept | apply Kept.forAll | apply Kept.refl)
    | intro _

theorem resumeChain_kept {m : Nat} {o s : State} (k : Kept m o s)
    (hm : 73729 ||| m = m) : Kept m o (resumeChain s) := by
  refine k.then (a := 73729) ?_ hm
  unfold resumeChain
  repeat' first
    | exact Eq.refl _ | (with_reducible first | apply auditLevels_kept | apply setF_kept | apply Kept.refl) | intro _ | split
    | (with_reducible refine Kept.putTrust ?_ rfl)

theorem appendTailLost_kept {m : Nat} {o s : State} (k : Kept m o s)
    (hm : 5709825 ||| m = m) : Kept m o (appendTailLost s) := by
  refine k.then (a := 5709825) ?_ hm
  unfold appendTailLost
  repeat' first
    | exact Eq.refl _
    | (with_reducible first
        | apply auditAppend_kept | apply drawFree_kept | apply Kept.ite | apply Kept.refl)
    | intro _ | split

theorem restoreLedgers_kept {m : Nat} {o s : State} {l : List Ledger} (k : Kept m o s) (hm : 2113 ||| m = m)
    (hl : Sound o → ∀ x ∈ l, x.law) : Kept m o (restoreLedgers l s) := by
  unfold restoreLedgers
  refine Kept.forAll ?_ fun n t => setF_kept (Kept.refl _ _) (lor_sub hm rfl)
  refine ⟨k.queue, fun h0 => ?_, fun p hp => ?_⟩
  · have h := k.sound h0
    have hs : ∀ x ∈ (List.range 4).map (fun n => settleLedger (l.getD n {})), x.law := by
      intro x hx
      obtain ⟨n, -, rfl⟩ := List.mem_map.mp hx
      exact settleLedger_law (getD_law (hl h0))
    exact { h with
      banks := by have hb := h.banks; simp [bankSizes] at hb ⊢; omega
      ledgers := hs, ledgerCopies := hs, ledgersSaved := nofun }
  · have hp := testBit_of_lor hm hp
    refine Part.same_trans (k.same p (by assumption)) ?_
    cases p <;> first | exact absurd hp (by decide) | rfl | exact ⟨rfl, rfl⟩ | exact ⟨rfl, rfl, rfl⟩

theorem restoreLaws_kept {m : Nat} {o s : State} {persisted : Bool} (k : Kept m o s) (hm : 5744833 ||| m = m) :
    Kept m o (restoreLaws persisted s) := by
  refine k.then (a := 5744833) ?_ hm
  unfold restoreLaws
  have h1 : Kept 5744833 s (readCounters (resumeChain s)) := readCounters_kept (resumeChain_kept (Kept.refl _ _) rfl) rfl
  generalize readCounters (resumeChain s) = t at h1 ⊢
  have h2 : Kept 5744833 s (match t.sch.saved with
      | some l => restoreLedgers l t
      | none => forAll (List.range 4) ledgerBreak t) := by
    split
    · next l e => exact restoreLedgers_kept h1 rfl fun h x hx => (h1.sound h).ledgersSaved l e x hx
    · exact Kept.forAll h1 fun n t => ledgerBreak_kept (Kept.refl _ _) rfl
  refine restoreCounters_kept (appendTailLost_kept ?_ rfl) rfl
  split
  · exact h2
  · exact Kept.forAll h2 fun n t => counterBreak_kept (Kept.refl _ _) rfl

theorem restoreAlign_kept {m : Nat} {o s : State} {bad : List Nat} {h : Nat} (k : Kept m o s)
    (hm : 4294967299 ||| m = m) : Kept m o (restoreAlign bad h s) := by
  refine k.then (a := 4294967299) ?_ hm
  unfold restoreAlign
  repeat' first
    | exact Eq.refl _
    | (with_reducible first
        | apply State.setReg_kept | apply State.setShadow_kept | apply modPort_kept | apply setB_kept | apply Kept.ite | apply Kept.refl)
    | intro _ | split

theorem restorePort_kept {m : Nat} {o s : State} {bad : List Nat} {h : Nat} (k : Kept m o s)
    (hm : 4294967296 ||| m = m) : Kept m o (restorePort bad h s) := by
  refine k.then (a := 4294967296) ?_ hm
  unfold restorePort
  repeat' first | exact Eq.refl _ | (with_reducible first | apply modPort_kept | apply Kept.ite | apply Kept.refl)

theorem restoreViews_kept {m : Nat} {o s : State} (k : Kept m o s)
    (hm : 4299554817 ||| m = m) : Kept m o (restoreViews s) := by
  refine k.then (a := 4299554817) ?_ hm
  unfold restoreViews
  repeat' first
    | exact Eq.refl _
    | (with_reducible first
        | apply modPort_kept | apply showNozzles_kept | apply Kept.forAll | apply Kept.refl)
    | intro _

theorem showCal_kept {m : Nat} {o s : State} (k : Kept m o s)
    (hm : 1 ||| m = m) : Kept m o (showCal s) := by
  refine k.then (a := 1) ?_ hm
  unfold showCal
  repeat' first | exact Eq.refl _ | (with_reducible first | apply setF_kept | apply setI_kept | apply Kept.forAll | apply Kept.refl) | intro _ | split

theorem restoreCal_kept {m : Nat} {o s : State} {bad : List Nat} (k : Kept m o s)
    (hm : 2199027843073 ||| m = m) : Kept m o (restoreCal bad s) := by
  refine k.then (a := 2199027843073) ?_ hm
  unfold restoreCal
  repeat' first
    | exact Eq.refl _
    | (with_reducible first
        | apply raiseSimple_kept | apply showCal_kept | apply Kept.forAll | apply Kept.refl)
    | intro _ | split | (with_reducible refine Kept.putCal ?_ rfl)

theorem requestCore_kept {m : Nat} {o s : State} (k : Kept m o s)
    (hm : 8388609 ||| m = m) : Kept m o (requestCore s) := by
  refine k.then (a := 8388609) ?_ hm
  unfold requestCore
  repeat' first | exact Eq.refl _ | (with_reducible first | apply send_kept | apply setB_kept | apply setF_kept | apply Kept.ite | apply Kept.refl)

theorem restoreRecords_kept {m : Nat} {o s : State} {persisted : Bool} (k : Kept m o s)
    (hm : 2753088170179 ||| m = m) : Kept m o (restoreRecords persisted s) := by
  refine k.then (a := 2753088170179) ?_ hm
  unfold restoreRecords
  repeat' first
    | exact Eq.refl _
    | (with_reducible first
        | apply modPwr_kept | apply requestCore_kept | apply restoreAlign_kept | apply restoreCal_kept | apply restoreLaws_kept
        | apply restorePort_kept | apply restoreViews_kept | apply setB_kept | apply setCauses_kept | apply setF_kept | apply showRate_kept
        | apply Kept.ite | apply Kept.doIf | apply Kept.forAll | apply Kept.comp | apply Kept.refl)
    | intro _

theorem stopStart_kept {m : Nat} {o s : State} (k : Kept m o s)
    (hm : 131073 ||| m = m) : Kept m o (stopStart s) := by
  refine k.then (a := 131073) ?_ hm
  unfold stopStart
  repeat' first
    | exact Eq.refl _ | (with_reducible first | apply showPin_kept | apply Kept.refl) | intro _ | split | (with_reducible refine Kept.putFlt ?_ rfl)

theorem selfTest_kept {m : Nat} {o s : State} (k : Kept m o s)
    (hm : 131073 ||| m = m) : Kept m o (selfTest s).1 := by
  refine k.then (a := 131073) ?_ hm
  unfold selfTest
  repeat' first
    | exact Eq.refl _
    | (with_reducible first
        | apply setB_kept | apply setF_kept | apply stopStart_kept | apply Kept.ite | apply Kept.forAll | apply Kept.refl)
    | intro _ | split | (dsimp only)

theorem startFirmware_kept {m : Nat} {o s : State} {k : Nat} {persisted : Bool} (hk : Kept m o s)
    (hm : 2754164549827 ||| m = m) : Kept m o (startFirmware k persisted s) := by
  refine hk.then (a := 2754164549827) ?_ hm
  unfold startFirmware
  repeat' first
    | exact Eq.refl _
    | (with_reducible first
        | apply modPrimer_kept | apply modPwr_kept | apply readSettings_kept | apply restoreRecords_kept | apply setB_kept | apply supervisorUp_kept
        | apply Kept.ite | apply Kept.refl)

theorem primerBoot_kept {m : Nat} {o s : State} {persisted : Bool} (k : Kept m o s)
    (hm : 2754164549827 ||| m = m) : Kept m o (primerBoot persisted s) := by
  refine k.then (a := 2754164549827) ?_ hm
  unfold primerBoot
  repeat' first
    | exact Eq.refl _
    | (with_reducible first
        | apply chooseSlot_kept | apply clearWriting_kept | apply commitHeader_kept | apply countTrialBoot_kept | apply modPrimer_kept
        | apply modPwr_kept | apply readHeader_kept | apply startFirmware_kept | apply Kept.ite | apply Kept.refl)
    | intro _ | split | (dsimp only)

theorem expireAtReset_kept {m : Nat} {o s : State} (k : Kept m o s) (hm : 4297064512 ||| m = m) : Kept m o (expireAtReset s) := by
  refine k.then (a := 4297064512) ((modLc_kept (f := fun l => { l with state := .deployed, expiry := none, expired := false })
    (Kept.refl _ _) rfl).then (a := 4294967360) ⟨rfl, fun h => { h with
    banks := by have hb := h.banks; simp [bankSizes, modLc, expireAtReset] at hb ⊢; omega
    ledgersSaved := ?_ }, fun p hp => ?_⟩ rfl) hm
  · intro x hx l hl
    obtain rfl := Option.mem_some.mp hx
    obtain rfl := List.eq_of_mem_replicate hl
    exact Ledger.law_zero
  · cases p <;> first | exact absurd hp (by decide) | rfl | exact ⟨rfl, rfl⟩ | exact ⟨rfl, rfl, rfl⟩

theorem beginOverwrite_kept {m : Nat} {o s : State} {persisted : Bool} (k : Kept m o s)
    (hm : 618475290625 ||| m = m) : Kept m o (beginOverwrite persisted s) := by
  refine k.then (a := 618475290625) ?_ hm
  unfold beginOverwrite
  repeat' first
    | exact Eq.refl _ | (with_reducible first | apply modPwr_kept | apply setB_kept | apply Kept.refl) | intro _ | split
    | (with_reducible refine Kept.putMem ?_ rfl)

theorem overwriteTick_kept {m : Nat} {o s : State} (k : Kept m o s)
    (hm : 2822884026563 ||| m = m) : Kept m o (overwriteTick s) := by
  refine k.then (a := 2822884026563) ?_ hm
  unfold overwriteTick
  repeat' first
    | exact Eq.refl _ | (with_reducible first | apply primerBoot_kept | apply setB_kept | apply Kept.ite | apply Kept.refl) | intro _ | split
    | (with_reducible refine Kept.putMem ?_ rfl)

theorem restartDevice_kept {m : Nat} {o s : State} {cause : Nat} {wipe : Bool} (k : Kept m o s)
    (hm : 4398046511103 ||| m = m) : Kept m o (restartDevice cause wipe s) := by
  refine k.then (a := 4398046511103) ?_ hm
  unfold restartDevice
  repeat' first
    | exact Eq.refl _
    | (with_reducible first
        | apply beginOverwrite_kept | apply expireAtReset_kept | apply primerBoot_kept | apply resetState_kept | apply selfTest_kept | apply setB_kept
        | apply setF_kept | apply showHist_kept | apply Kept.ite | apply Kept.refl)

theorem switchVerified_kept {m : Nat} {o s : State} (k : Kept m o s)
    (hm : 5377089729 ||| m = m) : Kept m o (switchVerified s) := by
  refine k.then (a := 5377089729) ?_ hm
  unfold switchVerified
  repeat' first
    | exact Eq.refl _
    | (with_reducible first
        | apply chooseSlot_kept | apply modPrimer_kept | apply switchDone_kept | apply Kept.ite | apply Kept.refl)
    | intro _ | split | (dsimp only)

theorem switchEnd_kept {m : Nat} {o s : State} (k : Kept m o s)
    (hm : 2754164549827 ||| m = m) : Kept m o (switchEnd s) := by
  refine k.then (a := 2754164549827) ?_ hm
  unfold switchEnd
  repeat' first
    | exact Eq.refl _
    | (with_reducible first
        | apply restoreRecords_kept | apply switchVerified_kept | apply Kept.ite | apply Kept.refl)
    | intro _ | split | (dsimp only)

theorem execSwitchDone_runs {s : State} : Runs 2754164549827 s (execSwitchDone s) := by
  unfold execSwitchDone
  refine Runs.next ?_
  repeat' first | exact Eq.refl _ | (with_reducible first | apply switchEnd_kept | apply Kept.refl)

theorem serveReset_kept {m : Nat} {o s : State} {q1_ : _} {q2_ : _} {q3_ : _} {q4_ : _} (k : Kept m o s)
    (hm : 549755822144 ||| m = m) : Kept m o (serveReset q1_ q2_ q3_ q4_ s).2 := by
  refine k.then (a := 549755822144) ?_ hm
  unfold serveReset
  repeat' first
    | exact Eq.refl _
    | (with_reducible first
        | apply modPwr_kept | apply persist_kept | apply reply_kept | apply Kept.ite | apply Kept.refl)
    | intro _ | split

theorem execResetRequest_runs {q : Nat} {entry : List Byte} {readable : Bool} {payload : List Byte} {straps : Straps} {found : Found} {s : State} : Runs 4398046511103 s (execResetRequest q entry readable payload straps found s) := by
  unfold execResetRequest
  refine Runs.next ?_
  repeat' first
    | exact Eq.refl _
    | (with_reducible first
        | apply latchStraps_kept | apply modPwr_kept | apply restartDevice_kept | apply serveReset_kept | apply takeMessage_kept | apply Kept.ite
        | apply Kept.refl)
    | intro _

theorem lifeCycleReset_kept {m : Nat} {o s : State} (k : Kept m o s)
    (hm : 4398046511103 ||| m = m) : Kept m o (lifeCycleReset s) := by
  refine k.then (a := 4398046511103) ?_ hm
  unfold lifeCycleReset
  repeat' first | exact Eq.refl _ | (with_reducible first | apply latchStraps_kept | apply restartDevice_kept | apply Kept.ite | apply Kept.refl)

theorem execLcChangeDeferred_runs {s : State} : Runs 4398046511103 s (execLcChangeDeferred s) := by
  unfold execLcChangeDeferred
  refine Runs.next ?_
  repeat' first | exact Eq.refl _ | (with_reducible first | apply enterState_kept | apply lifeCycleReset_kept | apply Kept.ite | apply Kept.refl)

theorem restartsTick_kept {m : Nat} {o s : State} (k : Kept m o s)
    (hm : 1 ||| m = m) : Kept m o (restartsTick s) := by
  refine k.then (a := 1) ?_ hm
  unfold restartsTick
  repeat' first | exact Eq.refl _ | (with_reducible first | apply setF_kept | apply Kept.ite | apply Kept.refl)

end Sys2Proof.Machine
end

