-- ==== Sys2Proof/Laws/Power.lean ====
section
/-! SUPPORT. For each operation and each meaning of Sys2Proof/Machine/Power.lean: the parts of the state it may touch, and that it keeps the laws. -/

namespace Sys2Proof.Machine

set_option Elab.async false

theorem enableRail_kept {m : Nat} {o s : State} {i : Nat} (k : Kept m o s)
    (hm : 549755813889 ||| m = m) : Kept m o (enableRail i s) := by
  refine k.then (a := 549755813889) ?_ hm
  unfold enableRail
  repeat' first | exact Eq.refl _ | (with_reducible first | apply railSet_kept | apply Kept.refl)

theorem disableRail_kept {m : Nat} {o s : State} {i : Nat} (k : Kept m o s)
    (hm : 549755813889 ||| m = m) : Kept m o (disableRail i s) := by
  refine k.then (a := 549755813889) ?_ hm
  unfold disableRail
  repeat' first | exact Eq.refl _ | (with_reducible first | apply railSet_kept | apply Kept.refl)

theorem railDown_kept {m : Nat} {o s : State} {i : Nat} (k : Kept m o s)
    (hm : 549755813889 ||| m = m) : Kept m o (railDown i s) := by
  refine k.then (a := 549755813889) ?_ hm
  unfold railDown
  repeat' first | exact Eq.refl _ | (with_reducible first | apply railSet_kept | apply Kept.refl)

theorem showSnaps_kept {m : Nat} {o s : State} (k : Kept m o s)
    (hm : 1 ||| m = m) : Kept m o (showSnaps s) := by
  refine k.then (a := 1) ?_ hm
  unfold showSnaps
  repeat' first | exact Eq.refl _ | (with_reducible first | apply State.setReg_kept | apply setF_kept | apply Kept.forAll | apply Kept.refl) | intro _

theorem takeSnap_kept {m : Nat} {o s : State} {reason : Nat} {rail : Option Nat} (k : Kept m o s)
    (hm : 549761449985 ||| m = m) : Kept m o (takeSnap reason rail s) := by
  refine k.then (a := 549761449985) ?_ hm
  unfold takeSnap
  repeat' first
    | exact Eq.refl _
    | (with_reducible first
        | apply drawFree_kept | apply incSat_kept | apply modPwr_kept | apply raiseSimple_kept | apply showSnaps_kept | apply Kept.ite
        | apply Kept.refl)
    | intro _ | split

theorem execHostSnapshot_runs {s : State} : Runs 549761449985 s (execHostSnapshot s) := by
  unfold execHostSnapshot
  refine Runs.next ?_
  repeat' first | exact Eq.refl _ | (with_reducible first | apply hostAccess_kept | apply takeSnap_kept | apply Kept.refl) | intro _

theorem snapPop_kept {m : Nat} {o s : State} (k : Kept m o s)
    (hm : 549755813889 ||| m = m) : Kept m o (snapPop s) := by
  refine k.then (a := 549755813889) ?_ hm
  unfold snapPop
  repeat' first | exact Eq.refl _ | (with_reducible first | apply modPwr_kept | apply showSnaps_kept | apply Kept.refl)

theorem execSnapPop_runs {s : State} : Runs 549755813889 s (execSnapPop s) := by
  unfold execSnapPop
  refine Runs.next ?_
  repeat' first | exact Eq.refl _ | (with_reducible first | apply hostAccess_kept | apply snapPop_kept | apply Kept.refl) | intro _

theorem broadcastRail_kept {m : Nat} {o s : State} {cmd : Nat} {data : List Byte} (k : Kept m o s)
    (hm : 8388608 ||| m = m) : Kept m o (broadcastRail cmd data s) := by
  refine k.then (a := 8388608) ?_ hm
  unfold broadcastRail
  repeat' first | exact Eq.refl _ | (with_reducible first | apply send_kept | apply Kept.refl)

theorem commandRail_kept {m : Nat} {o s : State} {addr cmd : Nat} {data : List Byte} (k : Kept m o s)
    (hm : 8388608 ||| m = m) : Kept m o (commandRail addr cmd data s) := by
  refine k.then (a := 8388608) ?_ hm
  unfold commandRail
  repeat' first | exact Eq.refl _ | (with_reducible first | apply send_kept | apply Kept.refl)

theorem askUnit_kept {m : Nat} {o s : State} {answers : Bool} {u cmd : Nat} (k : Kept m o s)
    (hm : 8388609 ||| m = m) : Kept m o (askUnit answers u cmd s) := by
  refine k.then (a := 8388609) ?_ hm
  unfold askUnit
  repeat' first
    | exact Eq.refl _
    | (with_reducible first
        | apply addSat_kept | apply commandRail_kept | apply Kept.ite | apply Kept.forAll | apply Kept.refl)
    | intro _

theorem pollStep_kept {m : Nat} {o s : State} (k : Kept m o s)
    (hm : 8388608 ||| m = m) : Kept m o (pollStep s) := by
  refine k.then (a := 8388608) ?_ hm
  unfold pollStep
  repeat' first | exact Eq.refl _ | (with_reducible first | apply commandRail_kept | apply Kept.forAll | apply Kept.refl) | intro _

theorem replyRail_kept {m : Nat} {o s : State} {status : Nat} {data : List Byte} (k : Kept m o s)
    (hm : 8388608 ||| m = m) : Kept m o (replyRail status data s) := by
  refine k.then (a := 8388608) ?_ hm
  unfold replyRail
  repeat' first | exact Eq.refl _ | (with_reducible first | apply send_kept | apply Kept.refl)

theorem beginStep_kept {m : Nat} {o s : State} {k : Nat} (hk : Kept m o s)
    (hm : 549764202497 ||| m = m) : Kept m o (beginStep k s) := by
  refine hk.then (a := 549764202497) ?_ hm
  unfold beginStep
  repeat' first
    | exact Eq.refl _
    | (with_reducible first
        | apply broadcastRail_kept | apply enableRail_kept | apply modPwr_kept | apply pollStep_kept | apply Kept.ite | apply Kept.forAll
        | apply Kept.refl)
    | intro _

theorem sequenceDone_kept {m : Nat} {o s : State} (k : Kept m o s)
    (hm : 4398046511103 ||| m = m) : Kept m o (sequenceDone s) := by
  refine k.then (a := 4398046511103) ?_ hm
  unfold sequenceDone
  repeat' first
    | exact Eq.refl _
    | (with_reducible first
        | apply modPwr_kept | apply railSet_kept | apply restartDevice_kept | apply Kept.forAll | apply Kept.refl)
    | intro _

theorem advanceStep_kept {m : Nat} {o s : State} (k : Kept m o s)
    (hm : 4398046511103 ||| m = m) : Kept m o (advanceStep s) := by
  refine k.then (a := 4398046511103) ?_ hm
  unfold advanceStep
  repeat' first
    | exact Eq.refl _
    | (with_reducible first
        | apply beginStep_kept | apply sequenceDone_kept | apply Kept.ite | apply Kept.refl)
    | intro _ | split

theorem startSequence_kept {m : Nat} {o s : State} {cause : Nat} {straps : Straps} (k : Kept m o s)
    (hm : 4398046511103 ||| m = m) : Kept m o (startSequence cause straps s) := by
  refine k.then (a := 4398046511103) ?_ hm
  unfold startSequence
  repeat' first
    | exact Eq.refl _
    | (with_reducible first
        | apply advanceStep_kept | apply latchStraps_kept | apply modPwr_kept | apply setF_kept | apply Kept.refl)

theorem stepStable_kept {m : Nat} {o s : State} {found : Found} (k : Kept m o s)
    (hm : 4398046511103 ||| m = m) : Kept m o (stepStable found s) := by
  refine k.then (a := 4398046511103) ?_ hm
  unfold stepStable
  repeat' first
    | exact Eq.refl _
    | (with_reducible first
        | apply advanceStep_kept | apply modPwr_kept | apply railSet_kept | apply Kept.ite | apply Kept.forAll | apply Kept.refl)
    | intro _

theorem execRailStepStable_runs {found : Found} {s : State} : Runs 4398046511103 s (execRailStepStable found s) := by
  unfold execRailStepStable
  refine Runs.next ?_
  repeat' first | exact Eq.refl _ | (with_reducible first | apply stepStable_kept | apply Kept.refl)

theorem outage_kept {m : Nat} {o s : State} {elapsed : Nat} (k : Kept m o s)
    (hm : 8193 ||| m = m) : Kept m o (outage elapsed s) := by
  refine k.then (a := 8193) ?_ hm
  unfold outage
  repeat' first
    | exact Eq.refl _ | (with_reducible first | apply setF_kept | apply Kept.ite | apply Kept.refl) | intro _ | split
    | (with_reducible refine Kept.putTrust ?_ rfl)

theorem setPresent_kept {m : Nat} {o s : State} {x : Nat} (k : Kept m o s)
    (hm : 549755813889 ||| m = m) : Kept m o (setPresent x s) := by
  refine k.then (a := 549755813889) ?_ hm
  unfold setPresent
  repeat' first | exact Eq.refl _ | (with_reducible first | apply modPwr_kept | apply setF_kept | apply Kept.refl)

theorem aonPowerOn_kept {m : Nat} {o s : State} {straps : Straps} {found : AonFound} (k : Kept m o s)
    (hm : 4398046511103 ||| m = m) : Kept m o (aonPowerOn straps found s) := by
  refine k.then (a := 4398046511103) ?_ hm
  unfold aonPowerOn
  repeat' first
    | exact Eq.refl _
    | (with_reducible first
        | apply askUnit_kept | apply latchStraps_kept | apply modPwr_kept | apply outage_kept | apply setPresent_kept | apply startSequence_kept
        | apply Kept.ite | apply Kept.forAll | apply Kept.refl)
    | intro _

theorem execAonPowerOn_runs {straps : Straps} {found : AonFound} {s : State} : Runs 4398046511103 s (execAonPowerOn straps found s) := by
  unfold execAonPowerOn
  refine Runs.next ?_
  repeat' first | exact Eq.refl _ | (with_reducible first | apply aonPowerOn_kept | apply Kept.refl)

theorem downDone_kept {m : Nat} {o s : State} (k : Kept m o s)
    (hm : 4398046511103 ||| m = m) : Kept m o (downDone s) := by
  refine k.then (a := 4398046511103) ?_ hm
  unfold downDone
  repeat' first
    | exact Eq.refl _
    | (with_reducible first
        | apply modPwr_kept | apply setF_kept | apply showPin_kept | apply startSequence_kept | apply Kept.ite | apply Kept.refl)
    | intro _ | split | (with_reducible refine Kept.putFlt ?_ rfl)

theorem beginDown_kept {m : Nat} {o s : State} {cause : Nat} {again : Bool} (k : Kept m o s)
    (hm : 4398046511103 ||| m = m) : Kept m o (beginDown cause again s) := by
  refine k.then (a := 4398046511103) ?_ hm
  unfold beginDown
  repeat' first
    | exact Eq.refl _
    | (with_reducible first
        | apply disableRail_kept | apply downDone_kept | apply modPwr_kept | apply setB_kept | apply setF_kept | apply Kept.ite | apply Kept.forAll
        | apply Kept.refl)
    | intro _

theorem earlyCollapse_kept {m : Nat} {o s : State} (k : Kept m o s)
    (hm : 549761449985 ||| m = m) : Kept m o (earlyCollapse s) := by
  refine k.then (a := 549761449985) ?_ hm
  unfold earlyCollapse
  repeat' first
    | exact Eq.refl _
    | (with_reducible first
        | apply modPwr_kept | apply takeSnap_kept | apply Kept.ite | apply Kept.forAll | apply Kept.refl)
    | intro _

theorem readRail_kept {m : Nat} {o s : State} {i mv : Nat} {pg : Bool} (k : Kept m o s)
    (hm : 549755813889 ||| m = m) : Kept m o (readRail i mv pg s) := by
  refine k.then (a := 549755813889) ?_ hm
  unfold readRail
  repeat' first | exact Eq.refl _ | (with_reducible first | apply railSet_kept | apply Kept.refl)

theorem downStep_kept {m : Nat} {o s : State} {mv : List Nat} {pg : Nat} (k : Kept m o s)
    (hm : 4398046511103 ||| m = m) : Kept m o (downStep mv pg s) := by
  refine k.then (a := 4398046511103) ?_ hm
  unfold downStep
  repeat' first
    | exact Eq.refl _
    | (with_reducible first
        | apply disableRail_kept | apply downDone_kept | apply earlyCollapse_kept | apply modPwr_kept | apply railDown_kept | apply railSet_kept
        | apply readRail_kept | apply takeSnap_kept | apply Kept.ite | apply Kept.forAll | apply Kept.refl)
    | intro _ | split | (dsimp only)

theorem execPowerDownStep_runs {mv : List Nat} {pg : Nat} {s : State} : Runs 4398046511103 s (execPowerDownStep mv pg s) := by
  unfold execPowerDownStep
  refine Runs.next ?_
  repeat' first | exact Eq.refl _ | (with_reducible first | apply downStep_kept | apply Kept.refl)

theorem abortSequence_kept {m : Nat} {o s : State} {reason : Nat} {rail : Option Nat} (k : Kept m o s)
    (hm : 4398046511103 ||| m = m) : Kept m o (abortSequence reason rail s) := by
  refine k.then (a := 4398046511103) ?_ hm
  unfold abortSequence
  repeat' first
    | exact Eq.refl _
    | (with_reducible first
        | apply beginDown_kept | apply broadcastRail_kept | apply takeSnap_kept | apply Kept.ite | apply Kept.refl)

theorem execRailRiseTimeout_runs {rail : Nat} {s : State} : Runs 4398046511103 s (execRailRiseTimeout rail s) := by
  unfold execRailRiseTimeout
  refine Runs.next ?_
  repeat' first | exact Eq.refl _ | (with_reducible first | apply abortSequence_kept | apply Kept.ite | apply Kept.refl)

theorem execRailRetry_runs {straps : Straps} {s : State} : Runs 4398046511103 s (execRailRetry straps s) := by
  unfold execRailRetry
  refine Runs.next ?_
  repeat' first | exact Eq.refl _ | (with_reducible first | apply modPwr_kept | apply startSequence_kept | apply Kept.ite | apply Kept.refl)

theorem outputsSafe_kept {m : Nat} {o s : State} (k : Kept m o s)
    (hm : 23764927041 ||| m = m) : Kept m o (outputsSafe s) := by
  refine k.then (a := 23764927041) ?_ hm
  unfold outputsSafe
  repeat' first
    | exact Eq.refl _
    | (with_reducible first
        | apply outputsLow_kept | apply portSafe_kept | apply setF_kept | apply Kept.forAll | apply Kept.comp | apply Kept.refl)
    | intro _ | split | (with_reducible refine Kept.putAlertHeld ?_ rfl)

theorem failRail_kept {m : Nat} {o s : State} {i : Nat} {chatter : Bool} (k : Kept m o s)
    (hm : 4398046511103 ||| m = m) : Kept m o (failRail i chatter s) := by
  refine k.then (a := 4398046511103) ?_ hm
  unfold failRail
  repeat' first
    | exact Eq.refl _
    | (with_reducible first
        | apply beginDown_kept | apply drawFree_kept | apply outputsSafe_kept | apply persist_kept | apply railSet_kept | apply raiseSimple_kept
        | apply takeSnap_kept | apply Kept.ite | apply Kept.refl)

theorem execRailChatter_runs {rail : Nat} {s : State} : Runs 4398046511103 s (execRailChatter rail s) := by
  unfold execRailChatter
  refine Runs.next ?_
  repeat' first
    | exact Eq.refl _
    | (with_reducible first
        | apply abortSequence_kept | apply failRail_kept | apply Kept.ite | apply Kept.refl)
    | intro _ | split

theorem scanRail_kept {m : Nat} {o s : State} {i mv : Nat} {pg : Bool} (k : Kept m o s)
    (hm : 4398046511103 ||| m = m) : Kept m o (scanRail i mv pg s) := by
  refine k.then (a := 4398046511103) ?_ hm
  unfold scanRail
  repeat' first
    | exact Eq.refl _
    | (with_reducible first
        | apply State.setReg_kept | apply failRail_kept | apply modPwr_kept | apply railSet_kept | apply readRail_kept | apply Kept.ite
        | apply Kept.refl)

theorem railScan_kept {m : Nat} {o s : State} {mv : List Nat} {pg : Nat} {vin : Nat} (k : Kept m o s)
    (hm : 4398046511103 ||| m = m) : Kept m o (railScan mv pg vin s) := by
  refine k.then (a := 4398046511103) ?_ hm
  unfold railScan
  repeat' first
    | exact Eq.refl _
    | (with_reducible first
        | apply modPwr_kept | apply scanRail_kept | apply setF_kept | apply Kept.forAll | apply Kept.refl)
    | intro _

theorem execRailScan_runs {mv : List Nat} {pg vin : Nat} {s : State} : Runs 4398046511103 s (execRailScan mv pg vin s) := by
  unfold execRailScan
  refine Runs.next ?_
  repeat' first | exact Eq.refl _ | (with_reducible first | apply railScan_kept | apply Kept.refl)

theorem supplyWarn_kept {m : Nat} {o s : State} {us : Nat} (k : Kept m o s)
    (hm : 549760409665 ||| m = m) : Kept m o (supplyWarn us s) := by
  refine k.then (a := 549760409665) ?_ hm
  unfold supplyWarn
  repeat' first
    | exact Eq.refl _
    | (with_reducible first
        | apply incSat_kept | apply modPwr_kept | apply persist_kept | apply raiseSimple_kept | apply setB_kept | apply setF_kept
        | apply showArming_kept | apply Kept.ite | apply Kept.forAll | apply Kept.comp | apply Kept.refl)
    | intro _

theorem execSupplyWarn_runs {us : Nat} {s : State} : Runs 549760409665 s (execSupplyWarn us s) := by
  unfold execSupplyWarn
  refine Runs.next ?_
  repeat' first | exact Eq.refl _ | (with_reducible first | apply supplyWarn_kept | apply Kept.refl)

theorem dropSaved_kept {m : Nat} {o s : State} (k : Kept m o s) (hm : 8256 ||| m = m) : Kept m o (dropSaved s) := by
  refine k.then (a := 8256) ⟨rfl, fun h => { h with ledgersSaved := nofun }, fun p hp => ?_⟩ hm
  cases p <;> first | exact absurd hp (by decide) | rfl | exact ⟨rfl, rfl⟩ | exact ⟨rfl, rfl, rfl⟩

theorem armingResume_kept {m : Nat} {o s : State} (k : Kept m o s)
    (hm : 549760016449 ||| m = m) : Kept m o (armingResume s) := by
  refine k.then (a := 549760016449) ?_ hm
  unfold armingResume
  repeat' first
    | exact Eq.refl _
    | (with_reducible first
        | apply dropSaved_kept | apply modPwr_kept | apply runDeferred_kept | apply setB_kept | apply setF_kept | apply showArming_kept
        | apply Kept.ite | apply Kept.forAll | apply Kept.comp | apply Kept.refl)
    | intro _

theorem execArmingResume_runs {s : State} : Runs 549760016449 s (execArmingResume s) := by
  unfold execArmingResume
  refine Runs.next ?_
  repeat' first | exact Eq.refl _ | (with_reducible first | apply armingResume_kept | apply Kept.refl)

theorem resetLevel_kept {m : Nat} {o s : State} {short : Bool} (k : Kept m o s)
    (hm : 4398046511103 ||| m = m) : Kept m o (resetLevel short s) := by
  refine k.then (a := 4398046511103) ?_ hm
  unfold resetLevel
  repeat' first
    | exact Eq.refl _
    | (with_reducible first
        | apply beginDown_kept | apply dropSaved_kept | apply modPwr_kept | apply outputsSafe_kept | apply persist_kept | apply setB_kept
        | apply takeSnap_kept | apply Kept.ite | apply Kept.refl)

theorem execResetLevel_runs {short : Bool} {s : State} : Runs 4398046511103 s (execResetLevel short s) := by
  unfold execResetLevel
  refine Runs.next ?_
  repeat' first | exact Eq.refl _ | (with_reducible first | apply resetLevel_kept | apply Kept.refl)

theorem execResetLevelRestart_runs {straps : Straps} {s : State} : Runs 4398046511103 s (execResetLevelRestart straps s) := by
  unfold execResetLevelRestart
  refine Runs.next ?_
  repeat' first | exact Eq.refl _ | (with_reducible first | apply modPwr_kept | apply startSequence_kept | apply Kept.ite | apply Kept.refl)

theorem resetPin_kept {m : Nat} {o s : State} {straps : Straps} (k : Kept m o s)
    (hm : 4398046511103 ||| m = m) : Kept m o (resetPin straps s) := by
  refine k.then (a := 4398046511103) ?_ hm
  unfold resetPin
  repeat' first
    | exact Eq.refl _
    | (with_reducible first
        | apply beginDown_kept | apply modPwr_kept | apply showPin_kept | apply startSequence_kept | apply Kept.ite | apply Kept.refl)
    | intro _ | split | (with_reducible refine Kept.putFlt ?_ rfl)

theorem execResetL_runs {straps : Straps} {s : State} : Runs 4398046511103 s (execResetL straps s) := by
  unfold execResetL
  refine Runs.next ?_
  repeat' first | exact Eq.refl _ | (with_reducible first | apply resetPin_kept | apply Kept.refl)

theorem execThermalTrip_runs {s : State} : Runs 4398046511103 s (execThermalTrip s) := by
  unfold execThermalTrip
  refine Runs.next ?_
  repeat' first
    | exact Eq.refl _
    | (with_reducible first
        | apply beginDown_kept | apply raiseDeviceSafe_kept | apply takeSnap_kept | apply Kept.ite | apply Kept.refl)

theorem aonLoss_kept {m : Nat} {o s : State} (k : Kept m o s)
    (hm : 549755944961 ||| m = m) : Kept m o (aonLoss s) := by
  refine k.then (a := 549755944961) ?_ hm
  unfold aonLoss
  repeat' first
    | exact Eq.refl _
    | (with_reducible first
        | apply State.setReg_kept | apply modPwr_kept | apply setB_kept | apply setF_kept | apply setPresent_kept | apply showHist_kept
        | apply showPin_kept | apply showSnaps_kept | apply Kept.forAll | apply Kept.refl)
    | intro _ | split | (with_reducible refine Kept.putFlt ?_ rfl)

theorem execAonPowerLoss_runs {s : State} : Runs 549755944961 s (execAonPowerLoss s) := by
  unfold execAonPowerLoss
  refine Runs.next ?_
  repeat' first | exact Eq.refl _ | (with_reducible first | apply aonLoss_kept | apply Kept.refl)

theorem execVbatLost_runs {s : State} : Runs 1056769 s (execVbatLost s) := by
  unfold execVbatLost
  refine Runs.next ?_
  repeat' first
    | exact Eq.refl _ | (with_reducible first | apply drawFree_kept | apply setF_kept | apply Kept.ite | apply Kept.refl) | intro _ | split
    | (with_reducible refine Kept.putTrust ?_ rfl)

theorem planBurn_kept {m : Nat} {o s : State} {ok : Bool} (k : Kept m o s)
    (hm : 549755813889 ||| m = m) : Kept m o (planBurn ok s) := by
  refine k.then (a := 549755813889) ?_ hm
  unfold planBurn
  repeat' first | exact Eq.refl _ | (with_reducible first | apply modPwr_kept | apply setF_kept | apply Kept.ite | apply Kept.refl)

theorem execPlanBurn_runs {index : Nat} {ok : Bool} {s : State} : Runs 549755813889 s (execPlanBurn index ok s) := by
  unfold execPlanBurn
  refine Runs.next ?_
  repeat' first | exact Eq.refl _ | (with_reducible first | apply planBurn_kept | apply setF_kept | apply Kept.refl)

theorem countRail_kept {m : Nat} {o s : State} {repeats crcErrors : Nat} (k : Kept m o s)
    (hm : 1 ||| m = m) : Kept m o (countRail repeats crcErrors s) := by
  refine k.then (a := 1) ?_ hm
  unfold countRail
  repeat' first | exact Eq.refl _ | (with_reducible first | apply addSat_kept | apply Kept.refl)

theorem takeRail_kept {m : Nat} {o s : State} {addr : Nat} {crcOk : Bool} {f : State → (Nat × List Byte) × State} (k : Kept m o s)
    (hm : 8388609 ||| m = m) (h_f : ∀ a0, Kept m a0 (f a0).2) : Kept m o (takeRail addr crcOk f s) := by
  unfold takeRail
  repeat' first
    | exact lor_sub hm rfl | exact k | (with_reducible first | apply incSat_kept | apply replyRail_kept | apply Kept.ite | apply Kept.refl)
    | (refine Kept.then ?_ (h_f _) (Nat.or_self _)) | intro _ | split

theorem railExchange_kept {m : Nat} {o s : State} {e : RailLink} {own : List Byte → State → (Nat × List Byte) × State} {done : Nat → Nat → List Byte → State → State} {gone : Nat → State → State} (k : Kept m o s)
    (hm : 8388609 ||| m = m) (h_own : ∀ a0 a1, Kept m a1 (own a0 a1).2) (h_done : ∀ a0 a1 a2 a3, Kept m a3 (done a0 a1 a2 a3)) (h_gone : ∀ a0 a1, Kept m a1 (gone a0 a1)) : Kept m o (railExchange e own done gone s) := by
  unfold railExchange
  repeat' first
    | exact lor_sub hm rfl | exact k | (with_reducible first | apply countRail_kept | apply takeRail_kept | apply Kept.refl)
    | (refine Kept.then ?_ (h_own _ _) (Nat.or_self _)) | (refine Kept.then ?_ (h_done _ _ _ _) (Nat.or_self _))
    | (refine Kept.then ?_ (h_gone _ _) (Nat.or_self _)) | intro _ | split

theorem markPresent_kept {m : Nat} {o s : State} {u : Nat} {here : Bool} (k : Kept m o s)
    (hm : 549755813889 ||| m = m) : Kept m o (markPresent u here s) := by
  refine k.then (a := 549755813889) ?_ hm
  unfold markPresent
  repeat' first | exact Eq.refl _ | (with_reducible first | apply setPresent_kept | apply Kept.ite | apply Kept.refl)

theorem pollMissed_kept {m : Nat} {o s : State} {u : Nat} (k : Kept m o s)
    (hm : 549761449985 ||| m = m) : Kept m o (pollMissed u s) := by
  refine k.then (a := 549761449985) ?_ hm
  unfold pollMissed
  repeat' first
    | exact Eq.refl _
    | (with_reducible first
        | apply drawFree_kept | apply modPwr_kept | apply raiseSimple_kept | apply setF_kept | apply Kept.ite | apply Kept.refl)

theorem unitGone_kept {m : Nat} {o s : State} {u : Nat} (k : Kept m o s)
    (hm : 4398046511103 ||| m = m) : Kept m o (unitGone u s) := by
  refine k.then (a := 4398046511103) ?_ hm
  unfold unitGone
  repeat' first
    | exact Eq.refl _
    | (with_reducible first
        | apply advanceStep_kept | apply markPresent_kept | apply pollMissed_kept | apply Kept.ite | apply Kept.refl)

theorem railPing_kept {m : Nat} {o s : State} {e : RailLink} (k : Kept m o s)
    (hm : 549764202497 ||| m = m) : Kept m o (railPing e s) := by
  refine k.then (a := 549764202497) ?_ hm
  unfold railPing
  repeat' first | exact Eq.refl _ | (with_reducible first | apply markPresent_kept | apply railExchange_kept | apply Kept.refl) | intro _

theorem railStepUp_kept {m : Nat} {o s : State} {e : RailLink} (k : Kept m o s)
    (hm : 4398046511103 ||| m = m) : Kept m o (railStepUp e s) := by
  refine k.then (a := 4398046511103) ?_ hm
  unfold railStepUp
  repeat' first
    | exact Eq.refl _
    | (with_reducible first
        | apply beginStep_kept | apply railExchange_kept | apply unitGone_kept | apply Kept.ite | apply Kept.refl)
    | intro _ | split

theorem railStepDown_kept {m : Nat} {o s : State} {e : RailLink} (k : Kept m o s)
    (hm : 4398046511103 ||| m = m) : Kept m o (railStepDown e s) := by
  refine k.then (a := 4398046511103) ?_ hm
  unfold railStepDown
  repeat' first
    | exact Eq.refl _
    | (with_reducible first
        | apply disableRail_kept | apply railExchange_kept | apply unitGone_kept | apply Kept.forAll | apply Kept.refl)
    | intro _

theorem railStatusOf_kept {m : Nat} {o s : State} {e : RailLink} (k : Kept m o s)
    (hm : 4398046511103 ||| m = m) : Kept m o (railStatusOf e s) := by
  refine k.then (a := 4398046511103) ?_ hm
  unfold railStatusOf
  repeat' first
    | exact Eq.refl _
    | (with_reducible first
        | apply abortSequence_kept | apply advanceStep_kept | apply commandRail_kept | apply modPwr_kept | apply railExchange_kept
        | apply unitGone_kept | apply Kept.ite | apply Kept.refl)
    | intro _

theorem railAbort_kept {m : Nat} {o s : State} {e : RailLink} (k : Kept m o s)
    (hm : 4398046511103 ||| m = m) : Kept m o (railAbort e s) := by
  refine k.then (a := 4398046511103) ?_ hm
  unfold railAbort
  repeat' first
    | exact Eq.refl _
    | (with_reducible first
        | apply beginDown_kept | apply railExchange_kept | apply takeSnap_kept | apply Kept.ite | apply Kept.refl)
    | intro _ | split

theorem coreSilent_kept {m : Nat} {o s : State} (k : Kept m o s)
    (hm : 4587521 ||| m = m) : Kept m o (coreSilent s) := by
  refine k.then (a := 4587521) ?_ hm
  unfold coreSilent
  repeat' first
    | exact Eq.refl _
    | (with_reducible first
        | apply raiseSimple_kept | apply setB_kept | apply setF_kept | apply Kept.ite | apply Kept.refl)

theorem railSetVout_kept {m : Nat} {o s : State} {e : RailLink} (k : Kept m o s)
    (hm : 12976129 ||| m = m) : Kept m o (railSetVout e s) := by
  refine k.then (a := 12976129) ?_ hm
  unfold railSetVout
  repeat' first
    | exact Eq.refl _
    | (with_reducible first
        | apply commandRail_kept | apply coreSilent_kept | apply railExchange_kept | apply Kept.ite | apply Kept.refl)
    | intro _

theorem railGetVout_kept {m : Nat} {o s : State} {e : RailLink} (k : Kept m o s)
    (hm : 549768790017 ||| m = m) : Kept m o (railGetVout e s) := by
  refine k.then (a := 549768790017) ?_ hm
  unfold railGetVout
  repeat' first
    | exact Eq.refl _
    | (with_reducible first
        | apply coreSilent_kept | apply modPwr_kept | apply railExchange_kept | apply requestCore_kept | apply setB_kept | apply setF_kept
        | apply Kept.ite | apply Kept.refl)
    | intro _

theorem slavePoll_kept {m : Nat} {o s : State} {answered : List Nat} (k : Kept m o s)
    (hm : 549769838593 ||| m = m) : Kept m o (slavePoll answered s) := by
  refine k.then (a := 549769838593) ?_ hm
  unfold slavePoll
  repeat' first
    | exact Eq.refl _
    | (with_reducible first
        | apply askUnit_kept | apply modPwr_kept | apply pollMissed_kept | apply Kept.ite | apply Kept.forAll | apply Kept.refl)
    | intro _

theorem execRlkPing_runs {e : RailLink} {s : State} : Runs 549764202497 s (execRlkPing e s) := by
  unfold execRlkPing
  refine Runs.next ?_
  repeat' first | exact Eq.refl _ | (with_reducible first | apply railPing_kept | apply Kept.refl)

theorem execRlkStepUp_runs {e : RailLink} {s : State} : Runs 4398046511103 s (execRlkStepUp e s) := by
  unfold execRlkStepUp
  refine Runs.next ?_
  repeat' first | exact Eq.refl _ | (with_reducible first | apply railStepUp_kept | apply Kept.refl)

theorem execRlkStepDown_runs {e : RailLink} {s : State} : Runs 4398046511103 s (execRlkStepDown e s) := by
  unfold execRlkStepDown
  refine Runs.next ?_
  repeat' first | exact Eq.refl _ | (with_reducible first | apply railStepDown_kept | apply Kept.refl)

theorem execRlkStatus_runs {e : RailLink} {s : State} : Runs 4398046511103 s (execRlkStatus e s) := by
  unfold execRlkStatus
  refine Runs.next ?_
  repeat' first | exact Eq.refl _ | (with_reducible first | apply railStatusOf_kept | apply Kept.refl)

theorem execRlkAbort_runs {e : RailLink} {s : State} : Runs 4398046511103 s (execRlkAbort e s) := by
  unfold execRlkAbort
  refine Runs.next ?_
  repeat' first | exact Eq.refl _ | (with_reducible first | apply railAbort_kept | apply Kept.refl)

theorem execRlkSetVout_runs {e : RailLink} {s : State} : Runs 12976129 s (execRlkSetVout e s) := by
  unfold execRlkSetVout
  refine Runs.next ?_
  repeat' first | exact Eq.refl _ | (with_reducible first | apply railSetVout_kept | apply Kept.refl)

theorem execRlkGetVout_runs {e : RailLink} {s : State} : Runs 549768790017 s (execRlkGetVout e s) := by
  unfold execRlkGetVout
  refine Runs.next ?_
  repeat' first | exact Eq.refl _ | (with_reducible first | apply railGetVout_kept | apply Kept.refl)

theorem execRlkSlavePoll_runs {answered : List Nat} {s : State} : Runs 549769838593 s (execRlkSlavePoll answered s) := by
  unfold execRlkSlavePoll
  refine Runs.next ?_
  repeat' first | exact Eq.refl _ | (with_reducible first | apply slavePoll_kept | apply Kept.refl)

end Sys2Proof.Machine
end

