-- ==== Sys2Proof/Laws/Ageing.lean ====
section
/-! SUPPORT. For each operation and each meaning of Sys2Proof/Machine/Ageing.lean: the parts of the state it may touch, and that it keeps the laws. -/

namespace Sys2Proof.Machine

set_option Elab.async false

theorem setDerate_kept {m : Nat} {o s : State} {kAge kTherm : Nat} (k : Kept m o s)
    (hm : 1099511628865 ||| m = m) : Kept m o (setDerate kAge kTherm s) := by
  refine k.then (a := 1099511628865) ?_ hm
  unfold setDerate
  repeat' first
    | exact Eq.refl _
    | (with_reducible first
        | apply publishPort_kept | apply republish_kept | apply setF_kept | apply showRate_kept | apply Kept.ite | apply Kept.forAll | apply Kept.refl)
    | intro _ | split | (with_reducible refine Kept.putAge ?_ rfl)

theorem clockSwitch_kept {m : Nat} {o s : State} (k : Kept m o s)
    (hm : 1099511627777 ||| m = m) : Kept m o (clockSwitch s) := by
  refine k.then (a := 1099511627777) ?_ hm
  unfold clockSwitch
  repeat' first
    | exact Eq.refl _ | (with_reducible first | apply setF_kept | apply Kept.ite | apply Kept.refl) | intro _ | split
    | (with_reducible refine Kept.putAge ?_ rfl)

theorem execDerateClockSwitch_runs {s : State} : Runs 1099511627777 s (execDerateClockSwitch s) := by
  unfold execDerateClockSwitch
  refine Runs.next ?_
  repeat' first | exact Eq.refl _ | (with_reducible first | apply clockSwitch_kept | apply Kept.refl)

theorem hkChannel_kept {m : Nat} {o s0 : State} {c raw : Nat} {value : Int} (k : Kept m o s0)
    (hm : 34603009 ||| m = m) : Kept m o (hkChannel c raw value s0) := by
  refine k.then (a := 34603009) ?_ hm
  unfold hkChannel
  repeat' first
    | exact Eq.refl _
    | (with_reducible first
        | apply addMod_kept | apply bandStep_kept | apply deliver_kept | apply drawFree_kept | apply setF_kept | apply Kept.ite | apply Kept.doIf
        | apply Kept.forAll | apply Kept.refl)
    | intro _ | split

theorem oscRound_kept {m : Nat} {o s : State} {bad : Bool} (k : Kept m o s)
    (hm : 8192 ||| m = m) : Kept m o (oscRound bad s) := by
  refine k.then (a := 8192) ?_ hm
  unfold oscRound
  repeat' first
    | exact Eq.refl _ | (with_reducible first | apply addCause_kept | apply Kept.ite | apply Kept.refl) | intro _ | split
    | (with_reducible refine Kept.putTrust ?_ rfl)

theorem setThrottle_kept {m : Nat} {o s : State} {l : Nat} (k : Kept m o s)
    (hm : 1099578737729 ||| m = m) : Kept m o (setThrottle l s) := by
  refine k.then (a := 1099578737729) ?_ hm
  unfold setThrottle
  repeat' first
    | exact Eq.refl _
    | (with_reducible first
        | apply beginMove_kept | apply setB_kept | apply setDerate_kept | apply setF_kept | apply Kept.ite | apply Kept.forAll | apply Kept.refl)
    | intro _

theorem setGraces_kept {m : Nat} {o s : State} {l : List Nat} (k : Kept m o s)
    (hm : 549755813889 ||| m = m) : Kept m o (setGraces l s) := by
  refine k.then (a := 549755813889) ?_ hm
  unfold setGraces
  repeat' first | exact Eq.refl _ | (with_reducible first | apply modPwr_kept | apply setB_kept | apply setF_kept | apply Kept.ite | apply Kept.refl)

theorem askThrottle_kept {m : Nat} {o s : State} {b : Nat} (k : Kept m o s)
    (hm : 1649334813761 ||| m = m) : Kept m o (askThrottle b s) := by
  refine k.then (a := 1649334813761) ?_ hm
  unfold askThrottle
  repeat' first
    | exact Eq.refl _
    | (with_reducible first
        | apply postEvent_kept | apply setF_kept | apply setGraces_kept | apply setThrottle_kept | apply Kept.ite | apply Kept.refl)

theorem bandChange_kept {m : Nat} {o s : State} {b : Nat} (k : Kept m o s)
    (hm : 1649339139137 ||| m = m) : Kept m o (bandChange b s) := by
  refine k.then (a := 1649339139137) ?_ hm
  unfold bandChange
  repeat' first
    | exact Eq.refl _
    | (with_reducible first
        | apply askThrottle_kept | apply raiseSimple_kept | apply setF_kept | apply setGraces_kept | apply setThrottle_kept | apply Kept.ite
        | apply Kept.doIf | apply Kept.refl)
    | intro _

theorem heatRound_kept {m : Nat} {o s : State} {mr4 : Bool} (k : Kept m o s)
    (hm : 1649339139137 ||| m = m) : Kept m o (heatRound mr4 s) := by
  refine k.then (a := 1649339139137) ?_ hm
  unfold heatRound
  repeat' first
    | exact Eq.refl _
    | (with_reducible first
        | apply bandChange_kept | apply setB_kept | apply setF_kept | apply setI_kept | apply Kept.ite | apply Kept.refl)

theorem hkRound_kept {m : Nat} {o s : State} {raw : List Nat} {values : List Int} {mr4 oscBad : Bool} (k : Kept m o s)
    (hm : 1649373750337 ||| m = m) : Kept m o (hkRound raw values mr4 oscBad s) := by
  refine k.then (a := 1649373750337) ?_ hm
  unfold hkRound
  repeat' first
    | exact Eq.refl _
    | (with_reducible first
        | apply heatRound_kept | apply hkChannel_kept | apply oscRound_kept | apply Kept.ite | apply Kept.forAll | apply Kept.refl)
    | intro _

theorem execHkRound_runs {raw : List Nat} {values : List Int} {mr4 oscBad : Bool} {s : State} : Runs 1649373750337 s (execHkRound raw values mr4 oscBad s) := by
  unfold execHkRound
  refine Runs.next ?_
  repeat' first | exact Eq.refl _ | (with_reducible first | apply hkRound_kept | apply Kept.refl)

theorem graceExpiry_kept {m : Nat} {o s : State} {band : Nat} (k : Kept m o s)
    (hm : 1649334551617 ||| m = m) : Kept m o (graceExpiry band s) := by
  refine k.then (a := 1649334551617) ?_ hm
  unfold graceExpiry
  repeat' first | exact Eq.refl _ | (with_reducible first | apply setGraces_kept | apply setThrottle_kept | apply Kept.ite | apply Kept.refl)

theorem execGraceExpiry_runs {band : Nat} {s : State} : Runs 1649334551617 s (execGraceExpiry band s) := by
  unfold execGraceExpiry
  refine Runs.next ?_
  repeat' first | exact Eq.refl _ | (with_reducible first | apply graceExpiry_kept | apply Kept.refl)

theorem modAge_kept {m : Nat} {o s : State} {f : Ageing → Ageing} (k : Kept m o s)
    (hm : 1099511627776 ||| m = m) : Kept m o (modAge f s) := by
  refine k.then (a := 1099511627776) ?_ hm
  unfold modAge
  repeat' first | exact Eq.refl _ | exact Kept.refl _ _ | intro _ | split | (with_reducible refine Kept.putAge ?_ rfl)

theorem showMonitor_kept {m : Nat} {o s : State} {first : Bool} {i v : Nat} (k : Kept m o s)
    (hm : 1 ||| m = m) : Kept m o (showMonitor first i v s) := by
  refine k.then (a := 1) ?_ hm
  unfold showMonitor
  repeat' first | exact Eq.refl _ | (with_reducible first | apply setF_kept | apply Kept.ite | apply Kept.refl)

theorem showMonitors_kept {m : Nat} {o s : State} {l : List Nat} (k : Kept m o s)
    (hm : 1099511627777 ||| m = m) : Kept m o (showMonitors l s) := by
  refine k.then (a := 1099511627777) ?_ hm
  unfold showMonitors
  repeat' first
    | exact Eq.refl _
    | (with_reducible first
        | apply modAge_kept | apply setF_kept | apply showMonitor_kept | apply Kept.forAll | apply Kept.refl)
    | intro _

theorem awaitCore_kept {m : Nat} {o s : State} {x : CoreStep} (k : Kept m o s)
    (hm : 1649280417793 ||| m = m) : Kept m o (awaitCore x s) := by
  refine k.then (a := 1649280417793) ?_ hm
  unfold awaitCore
  repeat' first
    | exact Eq.refl _
    | (with_reducible first
        | apply commandRail_kept | apply coreSilent_kept | apply modPwr_kept | apply setB_kept | apply setF_kept | apply showMonitors_kept
        | apply Kept.ite | apply Kept.refl)

theorem stepCore_kept {m : Nat} {o s : State} {n : Nat} {x : CoreStep} (k : Kept m o s)
    (hm : 1649280417793 ||| m = m) : Kept m o (stepCore n x s) := by
  refine k.then (a := 1649280417793) ?_ hm
  unfold stepCore
  repeat' first
    | exact Eq.refl _
    | (with_reducible first
        | apply awaitCore_kept | apply commandRail_kept | apply setB_kept | apply setF_kept | apply Kept.refl)

theorem settleCore_kept {m : Nat} {o s : State} {l : List CoreStep} (k : Kept m o s)
    (hm : 1649280417793 ||| m = m) : Kept m o (settleCore l s).1 := by
  refine k.then (a := 1649280417793) ?_ hm
  unfold settleCore
  repeat' first | exact Eq.refl _ | (with_reducible first | apply awaitCore_kept | apply Kept.ite | apply Kept.refl) | intro _ | split

theorem raiseCore_kept {m : Nat} {o s : State} {n : Nat} {l : List CoreStep} (k : Kept m o s) (hm : 1649280417793 ||| m = m) :
    Kept m o (raiseCore n l s) := by
  refine k.then (a := 1649280417793) ?_ hm
  clear k hm
  induction n generalizing s l with
  | zero => exact Kept.refl _ _
  | succ n ih =>
    unfold raiseCore
    refine Kept.ite (Kept.refl _ _) ?_
    dsimp only
    refine Kept.then ?_ ih rfl
    have h := stepCore_kept (n := getF fPWR_CORE_ACT s + 1) (x := l.headD (false, [])) (Kept.refl 1649280417793 s) rfl
    exact Kept.ite (modAge_kept h rfl) h

theorem moveCore_kept {m : Nat} {o s : State} {n k : Nat} {l : List CoreStep} (h : Kept m o s) (hm : 1649280417793 ||| m = m) :
    Kept m o (moveCore n k l s).1 := by
  refine h.then (a := 1649280417793) ?_ hm
  clear h hm
  induction k generalizing s l with
  | zero => exact Kept.refl _ _
  | succ k ih =>
    unfold moveCore
    dsimp only
    split
    · exact Kept.refl _ _
    · have h (x : Nat) : Kept 1649280417793 s (stepCore x (l.headD (false, [])) s) := stepCore_kept (Kept.refl _ _) rfl
      repeat' first | exact h _ | exact (h _).then ih rfl | split

theorem replan_kept {m : Nat} {o s : State} {steps : List CoreStep} (k : Kept m o s)
    (hm : 1649280418881 ||| m = m) : Kept m o (replan steps s) := by
  refine k.then (a := 1649280418881) ?_ hm
  unfold replan
  repeat' first
    | exact Eq.refl _
    | (with_reducible first
        | apply modAge_kept | apply raiseCore_kept | apply raiseSimple_kept | apply requestCore_kept | apply setB_kept | apply setDerate_kept
        | apply Kept.ite | apply Kept.refl)

theorem applyReplan_kept {m : Nat} {o s : State} {l : List CoreStep} (k : Kept m o s)
    (hm : 1649280418881 ||| m = m) : Kept m o (applyReplan l s).1 := by
  refine k.then (a := 1649280418881) ?_ hm
  unfold applyReplan
  repeat' first
    | exact Eq.refl _
    | (with_reducible first
        | apply modAge_kept | apply moveCore_kept | apply setDerate_kept | apply Kept.ite | apply Kept.refl)
    | intro _ | split

theorem replanCommand_kept {m : Nat} {o s : State} (k : Kept m o s)
    (hm : 1099511627776 ||| m = m) : Kept m o (replanCommand s) := by
  refine k.then (a := 1099511627776) ?_ hm
  unfold replanCommand
  repeat' first | exact Eq.refl _ | (with_reducible first | apply modAge_kept | apply Kept.ite | apply Kept.refl)

theorem execReplan_runs {s : State} : Runs 1099511627776 s (execReplan s) := by
  unfold execReplan
  refine Runs.next ?_
  repeat' first | exact Eq.refl _ | (with_reducible first | apply hostAccess_kept | apply replanCommand_kept | apply Kept.refl) | intro _

theorem trackAmp_kept {m : Nat} {o s : State} {h : Nat} (k : Kept m o s)
    (hm : 4294967299 ||| m = m) : Kept m o (trackAmp h s) := by
  refine k.then (a := 4294967299) ?_ hm
  unfold trackAmp
  repeat' first
    | exact Eq.refl _
    | (with_reducible first
        | apply State.setShadow_kept | apply modPort_kept | apply setB_kept | apply setF_kept | apply Kept.ite | apply Kept.refl)

theorem ampRef_kept {m : Nat} {o s : State} {h : Nat} (k : Kept m o s)
    (hm : 4294967296 ||| m = m) : Kept m o (ampRef h s) := by
  refine k.then (a := 4294967296) ?_ hm
  unfold ampRef
  repeat' first | exact Eq.refl _ | (with_reducible first | apply modPort_kept | apply Kept.ite | apply Kept.refl)

theorem execAmpRef_runs {h : Nat} {s : State} : Runs 4294967296 s (execAmpRef h s) := by
  unfold execAmpRef
  refine Runs.next ?_
  repeat' first | exact Eq.refl _ | (with_reducible first | apply ampRef_kept | apply hostAccess_kept | apply Kept.refl) | intro _

theorem driftBaseline_kept {m : Nat} {o s : State} {n : Nat} (k : Kept m o s)
    (hm : 1099511627777 ||| m = m) : Kept m o (driftBaseline n s) := by
  refine k.then (a := 1099511627777) ?_ hm
  unfold driftBaseline
  repeat' first | exact Eq.refl _ | (with_reducible first | apply modAge_kept | apply setB_kept | apply Kept.ite | apply Kept.refl) | intro _ | split

theorem execDriftBaseline_runs {n : Nat} {s : State} : Runs 1099511627777 s (execDriftBaseline n s) := by
  unfold execDriftBaseline
  refine Runs.next ?_
  repeat' first | exact Eq.refl _ | (with_reducible first | apply driftBaseline_kept | apply Kept.refl)

theorem trackDrift_kept {m : Nat} {o s : State} {n : Nat} (k : Kept m o s)
    (hm : 1048577 ||| m = m) : Kept m o (trackDrift n s) := by
  refine k.then (a := 1048577) ?_ hm
  unfold trackDrift
  repeat' first
    | exact Eq.refl _
    | (with_reducible first
        | apply drawFree_kept | apply setB_kept | apply setF_kept | apply Kept.ite | apply Kept.refl)
    | intro _ | split

theorem forecast_kept {m : Nat} {o s : State} (k : Kept m o s)
    (hm : 1048577 ||| m = m) : Kept m o (forecast s) := by
  refine k.then (a := 1048577) ?_ hm
  unfold forecast
  repeat' first
    | exact Eq.refl _ | (with_reducible first | apply drawFree_kept | apply setF_kept | apply Kept.ite | apply Kept.refl) | intro _ | split

theorem countErases_kept {m : Nat} {o s : State} {sectors : List Nat} (k : Kept m o s)
    (hm : 8192 ||| m = m) : Kept m o (countErases sectors s) := by
  refine k.then (a := 8192) ?_ hm
  unfold countErases
  repeat' first
    | exact Eq.refl _ | (with_reducible first | apply Kept.forAll | apply Kept.refl) | intro _ | split | (with_reducible refine Kept.putTrust ?_ rfl)

theorem evaluateNow_kept {m : Nat} {o s : State} {mons : List Nat} {steps : List CoreStep} {erased : List Nat} {flash : Bool} (k : Kept m o s)
    (hm : 1653576442947 ||| m = m) : Kept m o (evaluateNow mons steps erased flash s) := by
  refine k.then (a := 1653576442947) ?_ hm
  unfold evaluateNow
  repeat' first
    | exact Eq.refl _
    | (with_reducible first
        | apply addMod_kept | apply applyReplan_kept | apply countErases_kept | apply flashFault_kept | apply forecast_kept | apply modAge_kept
        | apply replan_kept | apply setF_kept | apply settleCore_kept | apply showMonitors_kept | apply trackAmp_kept | apply trackDrift_kept
        | apply Kept.ite | apply Kept.forAll | apply Kept.refl)
    | intro _ | split | (with_reducible refine Kept.putPorts ?_ rfl)

theorem evaluate_kept {m : Nat} {o s : State} {mons : List Nat} {steps : List CoreStep} {erased : List Nat} {flash : Bool} (k : Kept m o s)
    (hm : 1653576442947 ||| m = m) : Kept m o (evaluate mons steps erased flash s) := by
  refine k.then (a := 1653576442947) ?_ hm
  unfold evaluate
  repeat' first | exact Eq.refl _ | (with_reducible first | apply evaluateNow_kept | apply modAge_kept | apply Kept.ite | apply Kept.refl)

theorem execAgeingEvaluation_runs {mons : List Nat} {steps : List (Bool × List Nat)} {erased : List Nat} {flash : Bool} {s : State} : Runs 1653576442947 s (execAgeingEvaluation mons steps erased flash s) := by
  unfold execAgeingEvaluation
  refine Runs.next ?_
  repeat' first | exact Eq.refl _ | (with_reducible first | apply evaluate_kept | apply Kept.refl)

theorem heldEvaluation_kept {m : Nat} {o s : State} (k : Kept m o s)
    (hm : 1653576442947 ||| m = m) : Kept m o (heldEvaluation s) := by
  refine k.then (a := 1653576442947) ?_ hm
  unfold heldEvaluation
  repeat' first
    | exact Eq.refl _
    | (with_reducible first
        | apply evaluateNow_kept | apply modAge_kept | apply Kept.ite | apply Kept.refl)
    | intro _ | split

theorem calCommand_kept {m : Nat} {o s : State} {v : Nat} (k : Kept m o s)
    (hm : 2199023255555 ||| m = m) : Kept m o (calCommand v s) := by
  refine k.then (a := 2199023255555) ?_ hm
  unfold calCommand
  repeat' first
    | exact Eq.refl _
    | (with_reducible first
        | apply plainWrite_kept | apply setB_kept | apply setF_kept | apply Kept.ite | apply Kept.forAll | apply Kept.refl)
    | intro _ | split | (with_reducible refine Kept.putCal ?_ rfl)

theorem execCalGo_runs {value : Nat} {s : State} : Runs 2199023255555 s (execCalGo value s) := by
  unfold execCalGo
  refine Runs.next ?_
  repeat' first | exact Eq.refl _ | (with_reducible first | apply calCommand_kept | apply hostAccess_kept | apply Kept.refl) | intro _

theorem calRecord_kept {m : Nat} {o s : State} {soft : Bool} {l : List (Nat × Nat × Int)} (k : Kept m o s)
    (hm : 2199023255553 ||| m = m) : Kept m o (calRecord soft l s) := by
  refine k.then (a := 2199023255553) ?_ hm
  unfold calRecord
  repeat' first
    | exact Eq.refl _
    | (with_reducible first
        | apply incSat_kept | apply setB_kept | apply setF_kept | apply showCal_kept | apply Kept.refl)
    | intro _ | split | (with_reducible refine Kept.putCal ?_ rfl)

theorem calComplete_kept {m : Nat} {o s : State} {codes : List (Nat × Int × Int)} {took : Bool} (k : Kept m o s)
    (hm : 2199028891649 ||| m = m) : Kept m o (calComplete codes took s) := by
  refine k.then (a := 2199028891649) ?_ hm
  unfold calComplete
  repeat' first
    | exact Eq.refl _
    | (with_reducible first
        | apply calRecord_kept | apply flashFault_kept | apply raiseSimple_kept | apply setB_kept | apply setF_kept | apply Kept.ite
        | apply Kept.forAll | apply Kept.refl)
    | intro _ | split | (with_reducible refine Kept.putCal ?_ rfl)

theorem execCalComplete_runs {codes : List (Nat × Int × Int)} {took : Bool} {s : State} : Runs 2199028891649 s (execCalComplete codes took s) := by
  unfold execCalComplete
  refine Runs.next ?_
  repeat' first | exact Eq.refl _ | (with_reducible first | apply calComplete_kept | apply Kept.refl)

theorem execTrackingTick_runs {s : State} : Runs 4398046511103 s (execTrackingTick s) := by
  unfold execTrackingTick
  refine Runs.next ?_
  repeat' first
    | exact Eq.refl _
    | (with_reducible first
        | apply buAdvanceAll_kept | apply carrierTick_kept | apply commitHeader_kept | apply endLines_kept | apply heldEvaluation_kept
        | apply lifeCycleReset_kept | apply overwriteTick_kept | apply releaseView_kept | apply restartsTick_kept | apply trackingTick_kept
        | apply Kept.ite | apply Kept.forAll | apply Kept.refl)
    | intro _

end Sys2Proof.Machine
end

