-- ==== Sys2Proof/Laws/Registers.lean ====
section
/-! SUPPORT. Fields of a word, and what a read of a register or a field gives after a write of another or of the same one. -/

namespace Sys2Proof.Machine

set_option Elab.async false

theorem wordGet_testBit (w : Word) (lo width i : Nat) :
    (wordGet w lo width).testBit i = (decide (i < width) && w.getLsbD (lo + i)) := by
  simp [wordGet, Nat.testBit_mod_two_pow, Nat.testBit_shiftRight, BitVec.getLsbD]

theorem wordPut_getLsbD (w : Word) {lo width : Nat} (x i : Nat) (h : lo + width ≤ 48) :
    (wordPut w lo width x).getLsbD i = if lo ≤ i ∧ i < lo + width then x.testBit (i - lo) else w.getLsbD i := by
  unfold wordPut
  have hm : ∀ k, k < 48 → (BitVec.ofNat 48 (2 ^ width - 1)).getLsbD k = decide (k < width) := by
    intro k hk
    rw [BitVec.getLsbD_ofNat, Nat.testBit_two_pow_sub_one]
    simp [hk]
  by_cases hi : i < 48
  · simp only [BitVec.getLsbD_or, BitVec.getLsbD_and, BitVec.getLsbD_not, BitVec.getLsbD_shiftLeft, hi, decide_true, Bool.true_and]
    by_cases h1 : i < lo
    · simp [h1, show ¬ lo ≤ i by omega]
    · have h2 : i - lo < 48 := by omega
      rw [hm _ h2, BitVec.getLsbD_ofNat]
      by_cases h3 : i < lo + width
      · simp [h1, h2, h3, show lo ≤ i by omega, show i - lo < width by omega]
      · simp [h1, h3, show ¬ i - lo < width by omega]
  · rw [BitVec.getLsbD_of_ge _ _ (by omega), if_neg (by omega), BitVec.getLsbD_of_ge _ _ (by omega)]

theorem wordGet_put_same (w : Word) {lo width : Nat} (x : Nat) (h : lo + width ≤ 48) :
    wordGet (wordPut w lo width x) lo width = x % 2 ^ width := by
  apply Nat.eq_of_testBit_eq
  intro i
  rw [wordGet_testBit, wordPut_getLsbD _ _ _ h, Nat.testBit_mod_two_pow]
  by_cases hi : i < width
  · simp [hi]
  · simp [hi]

theorem wordGet_put_other (w : Word) {lo width l k : Nat} (x : Nat) (h : lo + width ≤ 48) (hd : l + k ≤ lo ∨ lo + width ≤ l) :
    wordGet (wordPut w lo width x) l k = wordGet w l k := by
  apply Nat.eq_of_testBit_eq
  intro i
  rw [wordGet_testBit, wordGet_testBit, wordPut_getLsbD _ _ _ h]
  by_cases hi : i < k
  · rw [if_neg (by omega)]
  · simp [hi]

theorem reg_setReg_same {s : State} (h : Sound s) (a : Nat) (w : Word) : (s.setReg a w).reg a = w :=
  spGet_put_same _ _ ((spWf_iff _ _).mp h.regs).1

theorem reg_setReg_other (s : State) {a b : Nat} (w : Word) (h : b ≠ a) : (s.setReg a w).reg b = s.reg b :=
  spGet_put_other _ _ _ h

theorem getF_setF_same {s : State} (hs : Sound s) {f : Field} (x : Nat) (h : f.lo + f.width ≤ 48) :
    getF f (setF f x s) = x % 2 ^ f.width := by
  unfold getF setF
  rw [reg_setReg_same hs, wordGet_put_same _ _ h]

theorem getF_setF_other {s : State} (hs : Sound s) {f g : Field} (x : Nat) (h : f.lo + f.width ≤ 48)
    (hd : g.reg ≠ f.reg ∨ g.lo + g.width ≤ f.lo ∨ f.lo + f.width ≤ g.lo) : getF g (setF f x s) = getF g s := by
  unfold getF setF
  by_cases e : g.reg = f.reg
  · rw [e, reg_setReg_same hs, wordGet_put_other _ _ h (hd.resolve_left (fun n => n e))]
  · rw [reg_setReg_other _ _ e]

theorem getF_setReg_other (s : State) {a : Nat} {g : Field} (w : Word) (h : g.reg ≠ a) : getF g (s.setReg a w) = getF g s := by
  unfold getF
  rw [reg_setReg_other _ _ h]

theorem getF_lt (f : Field) (s : State) : getF f s < 2 ^ f.width := Nat.mod_lt _ (Nat.two_pow_pos _)

theorem getB_setB_same {s : State} (hs : Sound s) {f : Field} (b : Bool) (h : f.lo + f.width ≤ 48) (hw : f.width = 1) :
    getB f (setB f b s) = b := by
  show (getF f (setF f (if b then 1 else 0) s) == 1) = b
  rw [getF_setF_same hs _ h, hw]
  cases b <;> rfl

end Sys2Proof.Machine
end

