-- ==== Sys2Proof/Laws/Engine.lean ====
section
/-! SUPPORT. What a change of an engine's common state does, and when an instruction runs. -/

namespace Sys2Proof.Machine

set_option Elab.async false

/-! ### Sizes of the banks -/

theorem Sound.sqs_length {s : State} (h : Sound s) : s.sqs.length = 20 := by have := h.banks; simp [bankSizes] at this; omega
theorem Sound.ces_length {s : State} (h : Sound s) : s.ces.length = 8 := by have := h.banks; simp [bankSizes] at this; omega
theorem Sound.mvs_length {s : State} (h : Sound s) : s.mvs.length = 8 := by have := h.banks; simp [bankSizes] at this; omega

/-! ### The common state of an engine -/

theorem coreOf_putCore {e : Engine} {c : Core} {s : State} (h : Sound s) (he : e.exists_ = true) : coreOf e (putCore e c s) = c := by
  cases e <;> simp [Engine.exists_] at he <;>
    simp [coreOf, putCore, seqOf, setSeq, ctlOf, setCtl, moverOf, setMover, h.sqs_length, h.ces_length, h.mvs_length, he]

theorem putCore_putCore (e : Engine) (c d : Core) (s : State) : putCore e d (putCore e c s) = putCore e d s := by
  cases e with
  | sq n =>
    simp only [putCore, seqOf, setSeq, List.set_set]
    by_cases h : n < s.sqs.length
    · simp [h]
    · rw [List.set_eq_of_length_le (by omega), List.set_eq_of_length_le (by omega)]
  | ce n =>
    simp only [putCore, ctlOf, setCtl, List.set_set]
    by_cases h : n < s.ces.length
    · simp [h]
    · rw [List.set_eq_of_length_le (by omega), List.set_eq_of_length_le (by omega)]
  | mv n =>
    simp only [putCore, moverOf, setMover, List.set_set]
    by_cases h : n < s.mvs.length
    · simp [h]
    · rw [List.set_eq_of_length_le (by omega), List.set_eq_of_length_le (by omega)]

theorem putCore_regs (e : Engine) (c : Core) (s : State) (r : Sparse Word) (x : List (Nat × Nat)) :
    putCore e c { s with regs := r, raised := x } = { putCore e c s with regs := r, raised := x } := by cases e <;> rfl

theorem putCore_reg (e : Engine) (c : Core) (s : State) (a : Nat) : (putCore e c s).reg a = s.reg a := by cases e <;> rfl

theorem Sound.putCore {e : Engine} {c : Core} {s : State} (h : Sound s) : Sound (putCore e c s) := by
  cases e
  · exact (setSeq_kept (m := 16777216) (Kept.refl _ s) rfl).sound h
  · exact (setCtl_kept (m := 33554432) (Kept.refl _ s) rfl).sound h
  · exact (setMover_kept (m := 67108864) (Kept.refl _ s) rfl).sound h

/-! ### What a change of it does -/

theorem showFlag_rest (f : Field) (b : Bool) (s : State) :
    showFlag f b s = { s with regs := (showFlag f b s).regs, raised := (showFlag f b s).raised } := by
  unfold showFlag doIf; split <;> rfl

theorem reg_showFlag (f : Field) (b : Bool) (s : State) (a : Nat) : (showFlag f b s).reg a = (setF f b.toNat s).reg a := by
  unfold showFlag doIf; split <;> rfl

theorem sound_showFlag {s : State} (h : Sound s) (f : Field) (b : Bool) : Sound (showFlag f b s) :=
  (showFlag_kept (m := 1) (Kept.refl _ s) rfl).sound h

theorem getF_showFlag (f g : Field) (b : Bool) (s : State) : getF g (showFlag f b s) = getF g (setF f b.toNat s) := by
  unfold getF; rw [reg_showFlag]

/-- Two flags of one register: no other register changes, and no field below them in that register. -/
theorem showFlag_two {a b g : Field} {x y : Bool} {s : State} (h : Sound s) (hr : a.reg = b.reg) (hg : g.reg = a.reg)
    (ha : a.lo + a.width ≤ 48) (hb : b.lo + b.width ≤ 48) (da : g.lo + g.width ≤ a.lo) (db : g.lo + g.width ≤ b.lo) :
    let t := showFlag a x (showFlag b y s)
    t = { s with regs := t.regs, raised := t.raised } ∧ RegsBut [g.reg] s t ∧ getF g t = getF g s := by
  refine ⟨?_, fun c hc => ?_, ?_⟩
  · have e1 := showFlag_rest b y s
    generalize showFlag b y s = u at e1
    rw [showFlag_rest a x u, e1]
  · rw [List.mem_singleton] at hc
    rw [reg_showFlag, setF, reg_setReg_other _ _ (hg ▸ hc), reg_showFlag, setF, reg_setReg_other _ _ (hr ▸ hg ▸ hc)]
  · rw [getF_showFlag, getF_setF_other (sound_showFlag h b y) _ ha (.inr (.inl da)), getF_showFlag, getF_setF_other h _ hb (.inr (.inl db))]

theorem showSticky_spec (e : Engine) (f : Flags) {s : State} (h : Sound s) :
    showSticky e f s = { s with regs := (showSticky e f s).regs, raised := (showSticky e f s).raised } ∧ RegsBut [(stateField e).reg] s (showSticky e f s) ∧
      engState e (showSticky e f s) = engState e s := by
  cases e with
  | sq n =>
    exact showFlag_two (a := fSQ_STAT_S n) (b := fSQ_STAT_O n) (g := fSQ_STAT_STATE n) h rfl rfl (by simp [fSQ_STAT_S]) (by simp [fSQ_STAT_O])
      (by simp [fSQ_STAT_STATE, fSQ_STAT_S]) (by simp [fSQ_STAT_STATE, fSQ_STAT_O])
  | ce n =>
    exact showFlag_two (a := fCE_STAT_S n) (b := fCE_STAT_O n) (g := fCE_STAT_STATE n) h rfl rfl (by simp [fCE_STAT_S]) (by simp [fCE_STAT_O])
      (by simp [fCE_STAT_STATE, fCE_STAT_S]) (by simp [fCE_STAT_STATE, fCE_STAT_O])
  | mv n => exact ⟨rfl, fun _ _ => rfl, rfl⟩

theorem engState_putCore (e f : Engine) (c : Core) (s : State) : engState e (Machine.putCore f c s) = engState e s := by
  unfold engState getF
  rw [putCore_reg]

theorem setCore_becomes {e : Engine} {c : Core} {s : State} (h : Sound s) : CoreBecomes e c s (setCore e c s) := by
  have h1 : setCore e c s = showSticky e c.fl (Machine.putCore e c s) := by cases e <;> rfl
  obtain ⟨a, b, d⟩ := showSticky_spec e c.fl (s := Machine.putCore e c s) h.putCore
  rw [h1]
  refine ⟨a, fun x hx => ?_, ?_⟩
  · rw [b x hx, putCore_reg]
  · rw [d, engState_putCore]

theorem coreOf_regs (e : Engine) (s : State) (r : Sparse Word) (x : List (Nat × Nat)) :
    coreOf e { s with regs := r, raised := x } = coreOf e s := by cases e <;> rfl

theorem CoreBecomes.core {e : Engine} {c : Core} {s t : State} (k : CoreBecomes e c s t) (h : Sound s) (he : e.exists_ = true) :
    coreOf e t = c := by
  rw [k.1, coreOf_regs, coreOf_putCore h he]

theorem CoreBecomes.trans {e : Engine} {c d : Core} {s t u : State} (h : CoreBecomes e c s t) (k : CoreBecomes e d t u) :
    CoreBecomes e d s u := by
  refine ⟨?_, fun a ha => (k.2.1 a ha).trans (h.2.1 a ha), k.2.2.trans h.2.2⟩
  have h1 := k.1
  rw [h.1, putCore_regs, putCore_putCore] at h1
  exact h1

theorem CoreBecomes.only {e : Engine} {c : Core} {s t : State} (k : CoreBecomes e c s t) : Only [.regs, .sqs, .ces, .mvs] s t := by
  intro p hp
  rw [k.1]
  cases e <;> cases p <;> first | rfl | exact ⟨rfl, rfl⟩ | exact ⟨rfl, rfl, rfl⟩ | exact absurd (by decide) hp

theorem modCore_becomes {e : Engine} {f : Core → Core} {s : State} (h : Sound s) : CoreBecomes e (f (coreOf e s)) s (modCore e f s) :=
  setCore_becomes h

theorem setCore_sound {e : Engine} {c : Core} {s : State} (h : Sound s) : Sound (setCore e c s) :=
  (setCore_kept (m := 117440513) (Kept.refl _ s) rfl).sound h

/-- Two changes of the common state, one after the other. -/
theorem modCore_modCore_becomes {e : Engine} {f g : Core → Core} {s : State} (h : Sound s) (he : e.exists_ = true) :
    CoreBecomes e (g (f (coreOf e s))) s (modCore e g (modCore e f s)) := by
  have h1 := modCore_becomes (e := e) (f := f) h
  have h2 := modCore_becomes (e := e) (f := g) (s := modCore e f s) (setCore_sound h)
  rw [h1.core h he] at h2
  exact h1.trans h2

/-! ### When an instruction runs -/

theorem runInsn_next {e : Engine} {f : Insn → Option (State → State)} {s : State} {i : Insn} {g : State → State}
    (hi : nextInsn e s = some i) (hf : f i = some g) : runInsn e f s = .next (g (fetched e s)) := by
  simp [runInsn, hi, hf]

theorem nextInsn_exists {e : Engine} {s : State} {i : Insn} (h : nextInsn e s = some i) : e.exists_ = true := by
  unfold nextInsn executing at h
  split at h
  · next hx => simp at hx; exact hx.1.1
  · cases h

/-- A word that the checker of its bank reads changes nothing of an engine. -/
theorem coreOf_readWord (e : Engine) (w a : Nat) (s : State) : coreOf e (readWord w a s) = coreOf e s := by
  have k : Kept 70746880961 s (readWord w a s) := readWord_kept (Kept.refl _ s) rfl
  have h1 : (readWord w a s).sqs = s.sqs := k.same .sqs (by decide)
  have h2 : (readWord w a s).ces = s.ces := k.same .ces (by decide)
  have h3 : (readWord w a s).mvs = s.mvs := k.same .mvs (by decide)
  cases e <;> simp only [coreOf, seqOf, ctlOf, moverOf, h1, h2, h3]

/-- The fetch of an instruction changes nothing of the engine that the program sees. -/
theorem coreOf_fetched {e : Engine} {s : State} (h : Sound s) (he : e.exists_ = true) :
    coreOf e (fetched e s) = { coreOf e s with cycHeld := false } := by
  have hs : Sound (readWord (progWord e (coreOf e s).pc) 0 s) := (readWord_kept (m := 70746880961) (Kept.refl _ s) rfl).sound h
  have k := modCore_becomes (e := e) (f := fun c => { c with cycHeld := false }) hs
  rw [coreOf_readWord] at k
  exact k.core hs he

theorem fetched_sound {e : Engine} {s : State} (h : Sound s) : Sound (fetched e s) :=
  (fetched_kept (m := 70864321473) (Kept.refl _ s) rfl).sound h

/-- Where the word needs no correction, the fetch is no more than that. -/
theorem fetched_clean {e : Engine} {s : State} (h : Sound s) (hf : flawAt (progWord e (coreOf e s).pc) s = none) :
    CoreBecomes e { coreOf e s with cycHeld := false } s (fetched e s) := by
  have : readWord (progWord e (coreOf e s).pc) 0 s = s := by simp [readWord, hf]
  unfold fetched
  rw [this]
  exact modCore_becomes h

theorem stateCause_held (e : Engine) (c : Core) (i : Insn) : stateCause e { c with cycHeld := false } i = stateCause e c i := by
  cases i <;> rfl

/-- The engine that comes to an instruction has fetched it, and the state it is in allows it. -/
theorem nextInsn_legal {e : Engine} {s : State} {i : Insn} (h : nextInsn e s = some i) : stateCause e (coreOf e s) i = 0 := by
  unfold nextInsn at h
  split at h
  · unfold fetchInsn at h
    dsimp only at h
    split at h
    · next hx =>
      split at hx
      · cases hx
      · split at hx
        · cases hx
        · split at hx
          · cases hx
          · split at hx
            · next hz => cases hx; cases h; exact hz
            · cases hx
    · cases h
  · cases h

/-- So does the state that the fetch leaves. -/
theorem nextInsn_fetched {e : Engine} {s : State} {i : Insn} (hs : Sound s) (h : nextInsn e s = some i) :
    stateCause e (coreOf e (fetched e s)) i = 0 := by
  rw [coreOf_fetched hs (nextInsn_exists h), stateCause_held]
  exact nextInsn_legal h

end Sys2Proof.Machine
end

