-- ==== Sys2Proof/Laws/Motors.lean ====
section
/-! SUPPORT. For each operation and each meaning of Sys2Proof/Machine/Motors.lean: the parts of the state it may touch, and that it keeps the laws. -/

namespace Sys2Proof.Machine

set_option Elab.async false

theorem modBus_kept {msk : Nat} {o s : State} {m : Nat} {f : Bus → Bus} (k : Kept msk o s)
    (hm : 34359738368 ||| msk = msk) : Kept msk o (modBus m f s) := by
  refine k.then (a := 34359738368) ?_ hm
  unfold modBus
  repeat' first | exact Eq.refl _ | exact Kept.refl _ _ | intro _ | split | (with_reducible refine Kept.putBuses ?_ rfl)

theorem trip_kept {m : Nat} {o s : State} {c cause : Nat} (k : Kept m o s)
    (hm : 30211965505 ||| m = m) : Kept m o (trip c cause s) := by
  refine k.then (a := 30211965505) ?_ hm
  unfold trip
  repeat' first | exact Eq.refl _ | (with_reducible first | apply polygonSample_kept | apply tripChannel_kept | apply Kept.ite | apply Kept.refl)

theorem enterRun_kept {m : Nat} {o s : State} {c : Nat} (k : Kept m o s)
    (hm : 17179869185 ||| m = m) : Kept m o (enterRun c s) := by
  refine k.then (a := 17179869185) ?_ hm
  unfold enterRun
  repeat' first | exact Eq.refl _ | (with_reducible first | apply modMotor_kept | apply setB_kept | apply setF_kept | apply Kept.refl)

theorem enterOff_kept {m : Nat} {o s : State} {c : Nat} (k : Kept m o s)
    (hm : 30211965505 ||| m = m) : Kept m o (enterOff c s) := by
  refine k.then (a := 30211965505) ?_ hm
  unfold enterOff
  repeat' first
    | exact Eq.refl _
    | (with_reducible first
        | apply buCheck_kept | apply clearQuantities_kept | apply modMotor_kept | apply polygonSample_kept | apply setB_kept | apply setF_kept
        | apply Kept.forAll | apply Kept.refl)
    | intro _

theorem mcStart_kept {m : Nat} {o s : State} {c : Nat} (k : Kept m o s)
    (hm : 30211965505 ||| m = m) : Kept m o (mcStart c s) := by
  refine k.then (a := 30211965505) ?_ hm
  unfold mcStart
  repeat' first
    | exact Eq.refl _
    | (with_reducible first
        | apply enterRun_kept | apply modMotor_kept | apply setB_kept | apply setF_kept | apply trip_kept | apply Kept.ite | apply Kept.refl)
    | intro _ | split

theorem execMcStart_runs {c : Nat} {s : State} : Runs 30211965505 s (execMcStart c s) := by
  unfold execMcStart
  refine Runs.next ?_
  repeat' first | exact Eq.refl _ | (with_reducible first | apply hostAccess_kept | apply mcStart_kept | apply Kept.ite | apply Kept.refl) | intro _

theorem catchEnd_kept {m : Nat} {o s : State} {c code angle : Nat} {speed : Int} (k : Kept m o s)
    (hm : 17179869185 ||| m = m) : Kept m o (catchEnd c code angle speed s) := by
  refine k.then (a := 17179869185) ?_ hm
  unfold catchEnd
  repeat' first
    | exact Eq.refl _
    | (with_reducible first
        | apply State.setReg_kept | apply enterRun_kept | apply modMotor_kept | apply setB_kept | apply setF_kept | apply Kept.ite | apply Kept.refl)

theorem execCatchEnd_runs {c code angle : Nat} {speed : Int} {s : State} : Runs 17179869185 s (execCatchEnd c code angle speed s) := by
  unfold execCatchEnd
  refine Runs.next ?_
  repeat' first | exact Eq.refl _ | (with_reducible first | apply catchEnd_kept | apply Kept.ite | apply Kept.refl)

theorem mcStop_kept {m : Nat} {o s : State} {c : Nat} (k : Kept m o s)
    (hm : 30211965505 ||| m = m) : Kept m o (mcStop c s) := by
  refine k.then (a := 30211965505) ?_ hm
  unfold mcStop
  repeat' first | exact Eq.refl _ | (with_reducible first | apply enterOff_kept | apply Kept.ite | apply Kept.refl)

theorem execMcStop_runs {c : Nat} {s : State} : Runs 30211965505 s (execMcStop c s) := by
  unfold execMcStop
  refine Runs.next ?_
  repeat' first | exact Eq.refl _ | (with_reducible first | apply hostAccess_kept | apply mcStop_kept | apply Kept.ite | apply Kept.refl) | intro _

theorem mcClear_kept {m : Nat} {o s : State} {c : Nat} (k : Kept m o s)
    (hm : 30211965505 ||| m = m) : Kept m o (mcClear c s) := by
  refine k.then (a := 30211965505) ?_ hm
  unfold mcClear
  repeat' first | exact Eq.refl _ | (with_reducible first | apply enterOff_kept | apply setF_kept | apply Kept.ite | apply Kept.refl)

theorem execMcClear_runs {c : Nat} {s : State} : Runs 30211965505 s (execMcClear c s) := by
  unfold execMcClear
  refine Runs.next ?_
  repeat' first | exact Eq.refl _ | (with_reducible first | apply mcClear_kept | apply Kept.ite | apply Kept.refl)

theorem mcCtlWrite_kept {m : Nat} {o s : State} {c v : Nat} (k : Kept m o s)
    (hm : 30211965507 ||| m = m) : Kept m o (mcCtlWrite c v s) := by
  refine k.then (a := 30211965507) ?_ hm
  unfold mcCtlWrite
  repeat' first
    | exact Eq.refl _
    | (with_reducible first
        | apply mcClear_kept | apply mcStart_kept | apply mcStop_kept | apply plainWrite_kept | apply Kept.ite | apply Kept.refl)

theorem mcConfigWrite_kept {m : Nat} {o s : State} {a v : Nat} (k : Kept m o s)
    (hm : 17179869187 ||| m = m) : Kept m o (mcConfigWrite a v s) := by
  refine k.then (a := 17179869187) ?_ hm
  unfold mcConfigWrite
  repeat' first
    | exact Eq.refl _
    | (with_reducible first
        | apply carrierFollows_kept | apply plainWrite_kept | apply setB_kept | apply Kept.ite | apply Kept.refl)
    | intro _ | split

theorem execMcConfigWrite_runs {addr value : Nat} {s : State} : Runs 17179869187 s (execMcConfigWrite addr value s) := by
  unfold execMcConfigWrite
  refine Runs.next ?_
  repeat' first | exact Eq.refl _ | (with_reducible first | apply hostAccess_kept | apply mcConfigWrite_kept | apply Kept.refl) | intro _

theorem execGateFault_runs {c : Nat} {low : Bool} {s : State} : Runs 30211965505 s (execGateFault c low s) := by
  unfold execGateFault
  refine Runs.next ?_
  repeat' first | exact Eq.refl _ | (with_reducible first | apply modMotor_kept | apply trip_kept | apply Kept.ite | apply Kept.refl)

theorem execBuTimeout_runs {c : Nat} {s : State} : Runs 8623489601 s (execBuTimeout c s) := by
  unfold execBuTimeout
  refine Runs.next ?_
  repeat' first | exact Eq.refl _ | (with_reducible first | apply buTimeout_kept | apply Kept.ite | apply Kept.refl)

theorem encoderAngle_kept {m : Nat} {o s : State} {c : Nat} (k : Kept m o s)
    (hm : 1048576 ||| m = m) : Kept m o (encoderAngle c s).2 := by
  refine k.then (a := 1048576) ?_ hm
  unfold encoderAngle
  repeat' first | exact Eq.refl _ | (with_reducible first | apply drawFree_kept | apply Kept.ite | apply Kept.refl) | intro _ | split | (dsimp only)

theorem sourceAngle_kept {m : Nat} {o s : State} {c : Nat} (k : Kept m o s)
    (hm : 1048576 ||| m = m) : Kept m o (sourceAngle c s).2 := by
  refine k.then (a := 1048576) ?_ hm
  unfold sourceAngle
  repeat' first | exact Eq.refl _ | (with_reducible first | apply encoderAngle_kept | apply Kept.refl) | intro _ | split

theorem rotorAngle_kept {m : Nat} {o s : State} {c : Nat} (k : Kept m o s)
    (hm : 1048576 ||| m = m) : Kept m o (rotorAngle c s).2 := by
  refine k.then (a := 1048576) ?_ hm
  unfold rotorAngle
  repeat' first
    | exact Eq.refl _ | (with_reducible first | apply sourceAngle_kept | apply Kept.ite | apply Kept.refl) | intro _ | split | (dsimp only)

theorem takeSample_kept {m : Nat} {o s : State} {c th : Nat} {codes : List Int} (k : Kept m o s)
    (hm : 17179869185 ||| m = m) : Kept m o (takeSample c th codes s).2 := by
  refine k.then (a := 17179869185) ?_ hm
  unfold takeSample
  repeat' first
    | exact Eq.refl _
    | (with_reducible first
        | apply addMod_kept | apply addSat_kept | apply incSat_kept | apply modMotor_kept | apply setB_kept | apply Kept.ite | apply Kept.refl)
    | intro _ | split | (dsimp only)

theorem onTimes_kept {m : Nat} {o s : State} {c : Nat} {v : List Int} {vbus : Int} (k : Kept m o s)
    (hm : 1048576 ||| m = m) : Kept m o (onTimes c v vbus s).2 := by
  refine k.then (a := 1048576) ?_ hm
  unfold onTimes
  repeat' first | exact Eq.refl _ | (with_reducible first | apply drawFree_kept | apply Kept.ite | apply Kept.refl) | intro _ | split

theorem currentControl_kept {m : Nat} {o s : State} {c th : Nat} {w inj iqRef idRef : Int} {x : Sample} (k : Kept m o s)
    (hm : 17180917761 ||| m = m) : Kept m o (currentControl c th w inj iqRef idRef x s) := by
  refine k.then (a := 17180917761) ?_ hm
  unfold currentControl
  repeat' first
    | exact Eq.refl _
    | (with_reducible first
        | apply State.setReg_kept | apply modMotor_kept | apply onTimes_kept | apply Kept.ite | apply Kept.refl)

theorem putQ_kept {m : Nat} {o s : State} {c q : Nat} {v : Int} (k : Kept m o s)
    (hm : 1 ||| m = m) : Kept m o (putQ c q v s) := by
  refine k.then (a := 1) ?_ hm
  unfold putQ
  repeat' first | exact Eq.refl _ | (with_reducible first | apply State.setReg_kept | apply Kept.refl)

theorem atSpeed_kept {m : Nat} {o s : State} {c : Nat} {mech : Int} (k : Kept m o s)
    (hm : 17179869185 ||| m = m) : Kept m o (atSpeed c mech s) := by
  refine k.then (a := 17179869185) ?_ hm
  unfold atSpeed
  repeat' first | exact Eq.refl _ | (with_reducible first | apply modMotor_kept | apply setB_kept | apply Kept.ite | apply Kept.refl)

theorem trackInjection_kept {m : Nat} {o s : State} {c : Nat} {inj q : Int} (k : Kept m o s)
    (hm : 17179869184 ||| m = m) : Kept m o (trackInjection c inj q s) := by
  refine k.then (a := 17179869184) ?_ hm
  unfold trackInjection
  repeat' first | exact Eq.refl _ | (with_reducible first | apply modMotor_kept | apply Kept.ite | apply Kept.refl)

theorem polarityResponse_kept {m : Nat} {o s : State} {c : Nat} {d : Int} (k : Kept m o s)
    (hm : 17179869184 ||| m = m) : Kept m o (polarityResponse c d s) := by
  refine k.then (a := 17179869184) ?_ hm
  unfold polarityResponse
  repeat' first | exact Eq.refl _ | (with_reducible first | apply modMotor_kept | apply Kept.ite | apply Kept.refl)

theorem resolvePolarity_kept {m : Nat} {o s : State} {c : Nat} (k : Kept m o s)
    (hm : 17179869185 ||| m = m) : Kept m o (resolvePolarity c s) := by
  refine k.then (a := 17179869185) ?_ hm
  unfold resolvePolarity
  repeat' first | exact Eq.refl _ | (with_reducible first | apply enterRun_kept | apply modMotor_kept | apply Kept.ite | apply Kept.refl)

theorem startStep_kept {m : Nat} {o s : State} {c : Nat} (k : Kept m o s)
    (hm : 30211965505 ||| m = m) : Kept m o (startStep c s) := by
  refine k.then (a := 30211965505) ?_ hm
  unfold startStep
  repeat' first
    | exact Eq.refl _
    | (with_reducible first
        | apply modMotor_kept | apply resolvePolarity_kept | apply trip_kept | apply Kept.ite | apply Kept.refl)

theorem activeSample_kept {m : Nat} {o s : State} {c : Nat} {th : Nat} {w inj : Int} {codes : List Int} (k : Kept m o s)
    (hm : 30213014081 ||| m = m) : Kept m o (activeSample c th w inj codes s) := by
  refine k.then (a := 30213014081) ?_ hm
  unfold activeSample
  repeat' first
    | exact Eq.refl _
    | (with_reducible first
        | apply currentControl_kept | apply modMotor_kept | apply polarityResponse_kept | apply putQ_kept | apply setB_kept | apply startStep_kept
        | apply takeSample_kept | apply trackInjection_kept | apply trip_kept | apply Kept.ite | apply Kept.doIf | apply Kept.forAll | apply Kept.refl)
    | intro _

theorem currentSample_kept {m : Nat} {o s0 : State} {c : Nat} {codes : List Int} (k : Kept m o s0)
    (hm : 30246568513 ||| m = m) : Kept m o (currentSample c codes s0) := by
  refine k.then (a := 30246568513) ?_ hm
  unfold currentSample
  repeat' first
    | exact Eq.refl _
    | (with_reducible first
        | apply activeSample_kept | apply atSpeed_kept | apply buCheckAll_kept | apply deliver_kept | apply modMotor_kept | apply polygonSample_kept
        | apply putQ_kept | apply rotorAngle_kept | apply setB_kept | apply sourceEvent_kept | apply trip_kept | apply Kept.ite | apply Kept.refl)

theorem execCurrentSample_runs {c : Nat} {u v w : Int} {dc : Int × Int} {s : State} : Runs 30246568513 s (execCurrentSample c u v w dc s) := by
  unfold execCurrentSample
  refine Runs.next ?_
  repeat' first | exact Eq.refl _ | (with_reducible first | apply currentSample_kept | apply Kept.refl)

theorem busSample_kept {msk : Nat} {o s : State} {m code : Nat} {fb : Bool} (k : Kept msk o s)
    (hm : 64605258305 ||| msk = msk) : Kept msk o (busSample m code fb s) := by
  refine k.then (a := 64605258305) ?_ hm
  unfold busSample
  repeat' first
    | exact Eq.refl _
    | (with_reducible first
        | apply deliver_kept | apply modBus_kept | apply setB_kept | apply setF_kept | apply trip_kept | apply Kept.ite | apply Kept.forAll
        | apply Kept.refl)
    | intro _

theorem execBusSample_runs {m code : Nat} {fb : Bool} {s : State} : Runs 64605258305 s (execBusSample m code fb s) := by
  unfold execBusSample
  refine Runs.next ?_
  repeat' first | exact Eq.refl _ | (with_reducible first | apply busSample_kept | apply Kept.refl)

theorem execChopFbMismatch_runs {m : Nat} {s : State} : Runs 4587521 s (execChopFbMismatch m s) := by
  unfold execChopFbMismatch
  refine Runs.next ?_
  repeat' first | exact Eq.refl _ | (with_reducible first | apply raiseSimple_kept | apply setB_kept | apply Kept.ite | apply Kept.refl)

theorem execChopTestPulse_runs {m : Nat} {s : State} : Runs 34368126976 s (execChopTestPulse m s) := by
  unfold execChopTestPulse
  refine Runs.next ?_
  repeat' first | exact Eq.refl _ | (with_reducible first | apply modBus_kept | apply send_kept | apply Kept.ite | apply Kept.refl) | intro _ | split

end Sys2Proof.Machine
end

