-- ==== Sys2Proof/Laws/HostWrite.lean ====
section
/-! SUPPORT. For each operation and each meaning of Sys2Proof/Machine/HostWrite.lean: the parts of the state it may touch, and that it keeps the laws. -/

namespace Sys2Proof.Machine

set_option Elab.async false

theorem engineCtlWrite_kept {m : Nat} {o s : State} {e : Engine} {reg : Nat} {run stop bell : Field} {v : Nat} (k : Kept m o s)
    (hm : 13149537123 ||| m = m) : Kept m o (engineCtlWrite e reg run stop bell v s) := by
  refine k.then (a := 13149537123) ?_ hm
  unfold engineCtlWrite
  repeat' first
    | exact Eq.refl _
    | (with_reducible first
        | apply engineDoorbell_kept | apply engineRun_kept | apply engineStop_kept | apply plainWrite_kept | apply Kept.doIf | apply Kept.refl)
    | intro _

theorem sqCtlWrite_kept {m : Nat} {o s : State} {n v : Nat} (k : Kept m o s)
    (hm : 13149537123 ||| m = m) : Kept m o (sqCtlWrite n v s) := by
  refine k.then (a := 13149537123) ?_ hm
  unfold sqCtlWrite
  repeat' first
    | exact Eq.refl _
    | (with_reducible first
        | apply engineCtlWrite_kept | apply giveback_kept | apply restoreHead_kept | apply Kept.doIf | apply Kept.refl)
    | intro _

theorem ceCtlWrite_kept {m : Nat} {o s : State} {n v : Nat} (k : Kept m o s)
    (hm : 13149537123 ||| m = m) : Kept m o (ceCtlWrite n v s) := by
  refine k.then (a := 13149537123) ?_ hm
  unfold ceCtlWrite
  repeat' first
    | exact Eq.refl _
    | (with_reducible first
        | apply clearSafe_kept | apply engineCtlWrite_kept | apply forceSafe_kept | apply Kept.doIf | apply Kept.refl)
    | intro _

theorem mvCtlWrite_kept {m : Nat} {o s : State} {n v : Nat} (k : Kept m o s)
    (hm : 13149537123 ||| m = m) : Kept m o (mvCtlWrite n v s) := by
  refine k.then (a := 13149537123) ?_ hm
  unfold mvCtlWrite
  repeat' first | exact Eq.refl _ | (with_reducible first | apply engineCtlWrite_kept | apply Kept.refl)

theorem stickyWrite_kept {m : Nat} {o s : State} {e : Engine} {fs fo : Field} {v : Nat} (k : Kept m o s)
    (hm : 117440515 ||| m = m) : Kept m o (stickyWrite e fs fo v s) := by
  refine k.then (a := 117440515) ?_ hm
  unfold stickyWrite
  repeat' first | exact Eq.refl _ | (with_reducible first | apply modCore_kept | apply plainWrite_kept | apply Kept.refl)

theorem lineStatWrite_kept {m : Nat} {o s : State} {n v : Nat} (k : Kept m o s)
    (hm : 545525827 ||| m = m) : Kept m o (lineStatWrite n v s) := by
  refine k.then (a := 545525827) ?_ hm
  unfold lineStatWrite
  repeat' first
    | exact Eq.refl _
    | (with_reducible first
        | apply lineSafeExit_kept | apply plainWrite_kept | apply Kept.doIf | apply Kept.refl)
    | intro _

theorem pgCmdWrite_kept {m : Nat} {o s : State} {n v : Nat} (k : Kept m o s)
    (hm : 33554433 ||| m = m) : Kept m o (pgCmdWrite n v s) := by
  refine k.then (a := 33554433) ?_ hm
  unfold pgCmdWrite
  repeat' first | exact Eq.refl _ | (with_reducible first | apply pgCommand_kept | apply Kept.ite | apply Kept.refl)

theorem fontCmdWrite_kept {m : Nat} {o s : State} {v : Nat} (k : Kept m o s)
    (hm : 268435457 ||| m = m) : Kept m o (fontCmdWrite v s) := by
  refine k.then (a := 268435457) ?_ hm
  unfold fontCmdWrite
  repeat' first | exact Eq.refl _ | (with_reducible first | apply fontLoad_kept | apply fontUnload_kept | apply Kept.doIf | apply Kept.refl) | intro _

theorem himgCmdWrite_kept {m : Nat} {o s : State} {v : Nat} (k : Kept m o s)
    (hm : 268435459 ||| m = m) : Kept m o (himgCmdWrite v s) := by
  refine k.then (a := 268435459) ?_ hm
  unfold himgCmdWrite
  repeat' first
    | exact Eq.refl _
    | (with_reducible first
        | apply himgClear_kept | apply himgCommit_kept | apply plainWrite_kept | apply Kept.doIf | apply Kept.refl)
    | intro _

theorem requestHeaderWrite_kept {m : Nat} {o s : State} {v : Nat} (k : Kept m o s)
    (hm : 4302823619 ||| m = m) : Kept m o (requestHeaderWrite v s) := by
  refine k.then (a := 4302823619) ?_ hm
  unfold requestHeaderWrite
  repeat' first
    | exact Eq.refl _
    | (with_reducible first
        | apply mailboxTake_kept | apply plainWrite_kept | apply Kept.doIf | apply Kept.refl)
    | intro _

theorem powerCmdWrite_kept {m : Nat} {o s : State} {v : Nat} (k : Kept m o s)
    (hm : 549761449987 ||| m = m) : Kept m o (powerCmdWrite v s) := by
  refine k.then (a := 549761449987) ?_ hm
  unfold powerCmdWrite
  repeat' first
    | exact Eq.refl _
    | (with_reducible first
        | apply drawFree_kept | apply plainWrite_kept | apply planBurn_kept | apply takeSnap_kept | apply Kept.ite | apply Kept.doIf | apply Kept.refl)
    | intro _

theorem vinWrite_kept {m : Nat} {o s : State} {v : Nat} (k : Kept m o s)
    (hm : 3 ||| m = m) : Kept m o (vinWrite v s) := by
  refine k.then (a := 3) ?_ hm
  unfold vinWrite
  repeat' first | exact Eq.refl _ | (with_reducible first | apply plainWrite_kept | apply Kept.ite | apply Kept.refl)

theorem msixUnmask_kept {m : Nat} {o s : State} {v : Nat} (k : Kept m o s)
    (hm : 262144 ||| m = m) : Kept m o (msixUnmask v s) := by
  refine k.then (a := 262144) ?_ hm
  unfold msixUnmask
  repeat' first
    | exact Eq.refl _ | (with_reducible first | apply signalVector_kept | apply Kept.ite | apply Kept.refl) | intro _ | split
    | (with_reducible refine Kept.putHost ?_ rfl)

theorem putMsixEntry_kept {m : Nat} {o s : State} {v x : Nat} (k : Kept m o s)
    (hm : 262144 ||| m = m) : Kept m o (putMsixEntry v x s) := by
  refine k.then (a := 262144) ?_ hm
  unfold putMsixEntry
  repeat' first
    | exact Eq.refl _ | (with_reducible first | apply msixUnmask_kept | apply Kept.ite | apply Kept.refl) | intro _ | split
    | (with_reducible refine Kept.putHost ?_ rfl)

theorem msixWrite_kept {m : Nat} {o s : State} {a size v : Nat} (k : Kept m o s)
    (hm : 262144 ||| m = m) : Kept m o (msixWrite a size v s) := by
  refine k.then (a := 262144) ?_ hm
  unfold msixWrite
  repeat' first | exact Eq.refl _ | (with_reducible first | apply putMsixEntry_kept | apply Kept.ite | apply Kept.refl)

theorem hostRead_kept {m : Nat} {o s : State} {a size : Nat} (k : Kept m o s)
    (hm : 70746880961 ||| m = m) : Kept m o (hostRead a size s).2 := by
  refine k.then (a := 70746880961) ?_ hm
  unfold hostRead
  repeat' first | exact Eq.refl _ | (with_reducible first | apply readWords_kept | apply Kept.refl)

theorem actTracking_kept : ∀ b ∈ actTracking, ∀ i j v s, Kept 3949221902335 s (b.act i j v s) := by
  simp only [actTracking, List.forall_mem_cons]
  repeat' apply And.intro
  all_goals first | (intro b hb; cases hb; done) | skip
  all_goals
    intro i j v s
    try dsimp only [bank0, bank1, bank2]
    repeat' first
      | exact Eq.refl _
      | (with_reducible first
          | apply alignCmdWrite_kept | apply ampRef_kept | apply bcastWrite_kept | apply calCommand_kept | apply ceConfigWrite_kept
          | apply ceCtlWrite_kept | apply ceModeWrite_kept | apply dllCfgWrite_kept | apply driftBaseline_kept | apply encCfgWrite_kept
          | apply eventCfgWrite_kept | apply fontCmdWrite_kept | apply himgCmdWrite_kept | apply histPop_kept | apply holdWrite_kept
          | apply hostxWrite_kept | apply hpCfgWrite_kept | apply injWrite_kept | apply lineCtlWrite_kept | apply linePreset_kept
          | apply lineStatWrite_kept | apply lsrCfgWrite_kept | apply maskWrite_kept | apply mcConfigWrite_kept | apply mcCtlWrite_kept
          | apply mvCtlWrite_kept | apply nozAccess_kept | apply nzcfgWrite_kept | apply oclCfgWrite_kept | apply pairCfgWrite_kept
          | apply pdCfgWrite_kept | apply petHostInsert_kept | apply pgCmdWrite_kept | apply plainWrite_kept | apply powerCmdWrite_kept
          | apply replanCommand_kept | apply requestHeaderWrite_kept | apply ringAddressWrite_kept | apply ringConsumer_kept | apply ringDoorbell_kept
          | apply settingWrite_kept | apply showFires_kept | apply showPair_kept | apply showPort_kept | apply snapPop_kept | apply snapReq_kept
          | apply sqCtlWrite_kept | apply statusClear_kept | apply stickyWrite_kept | apply testresWrite_kept | apply vinWrite_kept
          | apply virtualSpeed_kept | apply vmaxWrite_kept | apply waveAccess_kept | apply wfSettingWrite_kept | apply wflenWrite_kept
          | apply Kept.doIf | apply Kept.refl)
      | intro _

theorem actMarking_kept : ∀ b ∈ actMarking, ∀ i j v s, Kept 3949221902335 s (b.act i j v s) := by
  simp only [actMarking, List.forall_mem_cons]
  repeat' apply And.intro
  all_goals first | (intro b hb; cases hb; done) | skip
  all_goals
    intro i j v s
    try dsimp only [bank0, bank1, bank2]
    repeat' first
      | exact Eq.refl _
      | (with_reducible first
          | apply alignCmdWrite_kept | apply ampRef_kept | apply bcastWrite_kept | apply calCommand_kept | apply ceConfigWrite_kept
          | apply ceCtlWrite_kept | apply ceModeWrite_kept | apply dllCfgWrite_kept | apply driftBaseline_kept | apply encCfgWrite_kept
          | apply eventCfgWrite_kept | apply fontCmdWrite_kept | apply himgCmdWrite_kept | apply histPop_kept | apply holdWrite_kept
          | apply hostxWrite_kept | apply hpCfgWrite_kept | apply injWrite_kept | apply lineCtlWrite_kept | apply linePreset_kept
          | apply lineStatWrite_kept | apply lsrCfgWrite_kept | apply maskWrite_kept | apply mcConfigWrite_kept | apply mcCtlWrite_kept
          | apply mvCtlWrite_kept | apply nozAccess_kept | apply nzcfgWrite_kept | apply oclCfgWrite_kept | apply pairCfgWrite_kept
          | apply pdCfgWrite_kept | apply petHostInsert_kept | apply pgCmdWrite_kept | apply plainWrite_kept | apply powerCmdWrite_kept
          | apply replanCommand_kept | apply requestHeaderWrite_kept | apply ringAddressWrite_kept | apply ringConsumer_kept | apply ringDoorbell_kept
          | apply settingWrite_kept | apply showFires_kept | apply showPair_kept | apply showPort_kept | apply snapPop_kept | apply snapReq_kept
          | apply sqCtlWrite_kept | apply statusClear_kept | apply stickyWrite_kept | apply testresWrite_kept | apply vinWrite_kept
          | apply virtualSpeed_kept | apply vmaxWrite_kept | apply waveAccess_kept | apply wfSettingWrite_kept | apply wflenWrite_kept
          | apply Kept.doIf | apply Kept.refl)

theorem actMotion_kept : ∀ b ∈ actMotion, ∀ i j v s, Kept 3949221902335 s (b.act i j v s) := by
  simp only [actMotion, List.forall_mem_cons]
  repeat' apply And.intro
  all_goals first | (intro b hb; cases hb; done) | skip
  all_goals
    intro i j v s
    try dsimp only [bank0, bank1, bank2]
    repeat' first
      | exact Eq.refl _
      | (with_reducible first
          | apply alignCmdWrite_kept | apply ampRef_kept | apply bcastWrite_kept | apply calCommand_kept | apply ceConfigWrite_kept
          | apply ceCtlWrite_kept | apply ceModeWrite_kept | apply dllCfgWrite_kept | apply driftBaseline_kept | apply encCfgWrite_kept
          | apply eventCfgWrite_kept | apply fontCmdWrite_kept | apply himgCmdWrite_kept | apply histPop_kept | apply holdWrite_kept
          | apply hostxWrite_kept | apply hpCfgWrite_kept | apply injWrite_kept | apply lineCtlWrite_kept | apply linePreset_kept
          | apply lineStatWrite_kept | apply lsrCfgWrite_kept | apply maskWrite_kept | apply mcConfigWrite_kept | apply mcCtlWrite_kept
          | apply mvCtlWrite_kept | apply nozAccess_kept | apply nzcfgWrite_kept | apply oclCfgWrite_kept | apply pairCfgWrite_kept
          | apply pdCfgWrite_kept | apply petHostInsert_kept | apply pgCmdWrite_kept | apply plainWrite_kept | apply powerCmdWrite_kept
          | apply replanCommand_kept | apply requestHeaderWrite_kept | apply ringAddressWrite_kept | apply ringConsumer_kept | apply ringDoorbell_kept
          | apply settingWrite_kept | apply showFires_kept | apply showPair_kept | apply showPort_kept | apply snapPop_kept | apply snapReq_kept
          | apply sqCtlWrite_kept | apply statusClear_kept | apply stickyWrite_kept | apply testresWrite_kept | apply vinWrite_kept
          | apply virtualSpeed_kept | apply vmaxWrite_kept | apply waveAccess_kept | apply wfSettingWrite_kept | apply wflenWrite_kept
          | apply Kept.doIf | apply Kept.refl)

theorem actSystem_kept : ∀ b ∈ actSystem, ∀ i j v s, Kept 3949221902335 s (b.act i j v s) := by
  simp only [actSystem, List.forall_mem_cons]
  repeat' apply And.intro
  all_goals first | (intro b hb; cases hb; done) | skip
  all_goals
    intro i j v s
    try dsimp only [bank0, bank1, bank2]
    repeat' first
      | exact Eq.refl _
      | (with_reducible first
          | apply alignCmdWrite_kept | apply ampRef_kept | apply bcastWrite_kept | apply calCommand_kept | apply ceConfigWrite_kept
          | apply ceCtlWrite_kept | apply ceModeWrite_kept | apply dllCfgWrite_kept | apply driftBaseline_kept | apply encCfgWrite_kept
          | apply eventCfgWrite_kept | apply fontCmdWrite_kept | apply himgCmdWrite_kept | apply histPop_kept | apply holdWrite_kept
          | apply hostxWrite_kept | apply hpCfgWrite_kept | apply injWrite_kept | apply lineCtlWrite_kept | apply linePreset_kept
          | apply lineStatWrite_kept | apply lsrCfgWrite_kept | apply maskWrite_kept | apply mcConfigWrite_kept | apply mcCtlWrite_kept
          | apply mvCtlWrite_kept | apply nozAccess_kept | apply nzcfgWrite_kept | apply oclCfgWrite_kept | apply pairCfgWrite_kept
          | apply pdCfgWrite_kept | apply petHostInsert_kept | apply pgCmdWrite_kept | apply plainWrite_kept | apply powerCmdWrite_kept
          | apply replanCommand_kept | apply requestHeaderWrite_kept | apply ringAddressWrite_kept | apply ringConsumer_kept | apply ringDoorbell_kept
          | apply settingWrite_kept | apply showFires_kept | apply showPair_kept | apply showPort_kept | apply snapPop_kept | apply snapReq_kept
          | apply sqCtlWrite_kept | apply statusClear_kept | apply stickyWrite_kept | apply testresWrite_kept | apply vinWrite_kept
          | apply virtualSpeed_kept | apply vmaxWrite_kept | apply waveAccess_kept | apply wfSettingWrite_kept | apply wflenWrite_kept
          | apply Kept.doIf | apply Kept.refl)
      | intro _

theorem actIn_kept {a : Nat} {l : List ActBank} {f : Nat → State → State} (hl : ∀ b ∈ l, ∀ i j v s, Kept 3949221902335 s (b.act i j v s))
    (h : l.findSome? (actIn a) = some f) (v : Nat) (s : State) : Kept 3949221902335 s (f v s) := by
  obtain ⟨b, hb, hf⟩ := List.exists_of_findSome?_eq_some h
  obtain ⟨j, -, rfl⟩ := Option.map_eq_some_iff.mp hf
  exact hl b hb _ _ _ _

theorem actAt_kept {a : Nat} {f : Nat → State → State} (h : actAt a = some f) (v : Nat) (s : State) : Kept 3949221902335 s (f v s) := by
  unfold actAt at h
  refine actIn_kept ?_ h v s
  repeat' split
  · exact actMotion_kept
  · exact actMarking_kept
  · exact actTracking_kept
  · exact actSystem_kept

theorem wordWrite_kept {m : Nat} {o s : State} {a v : Nat} (k : Kept m o s) (hm : 4086660857855 ||| m = m) : Kept m o (wordWrite a v s) := by
  refine k.then (a := 4086660857855) ?_ hm
  unfold wordWrite
  repeat' first
    | exact Eq.refl _
    | (with_reducible first
        | apply progWrite_kept | apply dataWrite_kept | apply bindRegWrite_kept | apply shadowLate_kept | apply plainWrite_kept | apply Kept.refl)
    | split | (refine (actAt_kept (by assumption) v s).mono ?_)

theorem hostWrite_kept {m : Nat} {o s : State} {a size v : Nat} (k : Kept m o s)
    (hm : 4086660857855 ||| m = m) : Kept m o (hostWrite a size v s) := by
  refine k.then (a := 4086660857855) ?_ hm
  unfold hostWrite
  repeat' first
    | exact Eq.refl _
    | (with_reducible first
        | apply imageWindowWrite_kept | apply msixWrite_kept | apply recordBad_kept | apply wordWrite_kept | apply Kept.ite | apply Kept.refl)

theorem execRegisterWrite_runs {addr size value : Nat} {s : State} : Runs 4086660857855 s (execRegisterWrite addr size value s) := by
  unfold execRegisterWrite
  refine Runs.next ?_
  repeat' first | exact Eq.refl _ | (with_reducible first | apply hostAccess_kept | apply hostWrite_kept | apply Kept.refl) | intro _

theorem execBadAddressAccess_runs {write : Bool} {addr size : Nat} {s : State} : Runs 262145 s (execBadAddressAccess write addr size s) := by
  unfold execBadAddressAccess
  refine Runs.next ?_
  repeat' first | exact Eq.refl _ | (with_reducible first | apply hostAccess_kept | apply recordBad_kept | apply Kept.ite | apply Kept.refl) | intro _

end Sys2Proof.Machine
end

