-- ==== Sys2Proof/Laws/State.lean ====
section
/-! SUPPORT. What each update of one record leaves in each field of the state. -/

namespace Sys2Proof.Machine

set_option Elab.async false

@[simp] theorem State.setReg_raised (s : State) (a : Nat) (w : Word) : (s.setReg a w).raised = s.raised := rfl
@[simp] theorem State.setReg_shadow (s : State) (a : Nat) (w : Word) : (s.setReg a w).shadow = s.shadow := rfl
@[simp] theorem State.setReg_lines (s : State) (a : Nat) (w : Word) : (s.setReg a w).lines = s.lines := rfl
@[simp] theorem State.setReg_encs (s : State) (a : Nat) (w : Word) : (s.setReg a w).encs = s.encs := rfl
@[simp] theorem State.setReg_pds (s : State) (a : Nat) (w : Word) : (s.setReg a w).pds = s.pds := rfl
@[simp] theorem State.setReg_preds (s : State) (a : Nat) (w : Word) : (s.setReg a w).preds = s.preds := rfl
@[simp] theorem State.setReg_sch (s : State) (a : Nat) (w : Word) : (s.setReg a w).sch = s.sch := rfl
@[simp] theorem State.setReg_trust (s : State) (a : Nat) (w : Word) : (s.setReg a w).trust = s.trust := rfl
@[simp] theorem State.setReg_flt (s : State) (a : Nat) (w : Word) : (s.setReg a w).flt = s.flt := rfl
@[simp] theorem State.setReg_host (s : State) (a : Nat) (w : Word) : (s.setReg a w).host = s.host := rfl
@[simp] theorem State.setReg_free (s : State) (a : Nat) (w : Word) : (s.setReg a w).free = s.free := rfl
@[simp] theorem State.setReg_lc (s : State) (a : Nat) (w : Word) : (s.setReg a w).lc = s.lc := rfl
@[simp] theorem State.setReg_primer (s : State) (a : Nat) (w : Word) : (s.setReg a w).primer = s.primer := rfl
@[simp] theorem State.setReg_sent (s : State) (a : Nat) (w : Word) : (s.setReg a w).sent = s.sent := rfl
@[simp] theorem State.setReg_sqs (s : State) (a : Nat) (w : Word) : (s.setReg a w).sqs = s.sqs := rfl
@[simp] theorem State.setReg_ces (s : State) (a : Nat) (w : Word) : (s.setReg a w).ces = s.ces := rfl
@[simp] theorem State.setReg_mvs (s : State) (a : Nat) (w : Word) : (s.setReg a w).mvs = s.mvs := rfl
@[simp] theorem State.setReg_paths (s : State) (a : Nat) (w : Word) : (s.setReg a w).paths = s.paths := rfl
@[simp] theorem State.setReg_ren (s : State) (a : Nat) (w : Word) : (s.setReg a w).ren = s.ren := rfl
@[simp] theorem State.setReg_lnp (s : State) (a : Nat) (w : Word) : (s.setReg a w).lnp = s.lnp := rfl
@[simp] theorem State.setReg_ocl (s : State) (a : Nat) (w : Word) : (s.setReg a w).ocl = s.ocl := rfl
@[simp] theorem State.setReg_alertHeld (s : State) (a : Nat) (w : Word) : (s.setReg a w).alertHeld = s.alertHeld := rfl
@[simp] theorem State.setReg_ports (s : State) (a : Nat) (w : Word) : (s.setReg a w).ports = s.ports := rfl
@[simp] theorem State.setReg_backups (s : State) (a : Nat) (w : Word) : (s.setReg a w).backups = s.backups := rfl
@[simp] theorem State.setReg_motors (s : State) (a : Nat) (w : Word) : (s.setReg a w).motors = s.motors := rfl
@[simp] theorem State.setReg_buses (s : State) (a : Nat) (w : Word) : (s.setReg a w).buses = s.buses := rfl
@[simp] theorem State.setReg_mem (s : State) (a : Nat) (w : Word) : (s.setReg a w).mem = s.mem := rfl
@[simp] theorem State.setReg_pwr (s : State) (a : Nat) (w : Word) : (s.setReg a w).pwr = s.pwr := rfl
@[simp] theorem State.setReg_age (s : State) (a : Nat) (w : Word) : (s.setReg a w).age = s.age := rfl
@[simp] theorem State.setReg_cal (s : State) (a : Nat) (w : Word) : (s.setReg a w).cal = s.cal := rfl
@[simp] theorem State.setReg_pending (s : State) (a : Nat) (w : Word) : (s.setReg a w).pending = s.pending := rfl

@[simp] theorem State.setShadow_raised (s : State) (a : Nat) (w : Word) : (s.setShadow a w).raised = s.raised := rfl
@[simp] theorem State.setShadow_regs (s : State) (a : Nat) (w : Word) : (s.setShadow a w).regs = s.regs := rfl
@[simp] theorem State.setShadow_lines (s : State) (a : Nat) (w : Word) : (s.setShadow a w).lines = s.lines := rfl
@[simp] theorem State.setShadow_encs (s : State) (a : Nat) (w : Word) : (s.setShadow a w).encs = s.encs := rfl
@[simp] theorem State.setShadow_pds (s : State) (a : Nat) (w : Word) : (s.setShadow a w).pds = s.pds := rfl
@[simp] theorem State.setShadow_preds (s : State) (a : Nat) (w : Word) : (s.setShadow a w).preds = s.preds := rfl
@[simp] theorem State.setShadow_sch (s : State) (a : Nat) (w : Word) : (s.setShadow a w).sch = s.sch := rfl
@[simp] theorem State.setShadow_trust (s : State) (a : Nat) (w : Word) : (s.setShadow a w).trust = s.trust := rfl
@[simp] theorem State.setShadow_flt (s : State) (a : Nat) (w : Word) : (s.setShadow a w).flt = s.flt := rfl
@[simp] theorem State.setShadow_host (s : State) (a : Nat) (w : Word) : (s.setShadow a w).host = s.host := rfl
@[simp] theorem State.setShadow_free (s : State) (a : Nat) (w : Word) : (s.setShadow a w).free = s.free := rfl
@[simp] theorem State.setShadow_lc (s : State) (a : Nat) (w : Word) : (s.setShadow a w).lc = s.lc := rfl
@[simp] theorem State.setShadow_primer (s : State) (a : Nat) (w : Word) : (s.setShadow a w).primer = s.primer := rfl
@[simp] theorem State.setShadow_sent (s : State) (a : Nat) (w : Word) : (s.setShadow a w).sent = s.sent := rfl
@[simp] theorem State.setShadow_sqs (s : State) (a : Nat) (w : Word) : (s.setShadow a w).sqs = s.sqs := rfl
@[simp] theorem State.setShadow_ces (s : State) (a : Nat) (w : Word) : (s.setShadow a w).ces = s.ces := rfl
@[simp] theorem State.setShadow_mvs (s : State) (a : Nat) (w : Word) : (s.setShadow a w).mvs = s.mvs := rfl
@[simp] theorem State.setShadow_paths (s : State) (a : Nat) (w : Word) : (s.setShadow a w).paths = s.paths := rfl
@[simp] theorem State.setShadow_ren (s : State) (a : Nat) (w : Word) : (s.setShadow a w).ren = s.ren := rfl
@[simp] theorem State.setShadow_lnp (s : State) (a : Nat) (w : Word) : (s.setShadow a w).lnp = s.lnp := rfl
@[simp] theorem State.setShadow_ocl (s : State) (a : Nat) (w : Word) : (s.setShadow a w).ocl = s.ocl := rfl
@[simp] theorem State.setShadow_alertHeld (s : State) (a : Nat) (w : Word) : (s.setShadow a w).alertHeld = s.alertHeld := rfl
@[simp] theorem State.setShadow_ports (s : State) (a : Nat) (w : Word) : (s.setShadow a w).ports = s.ports := rfl
@[simp] theorem State.setShadow_backups (s : State) (a : Nat) (w : Word) : (s.setShadow a w).backups = s.backups := rfl
@[simp] theorem State.setShadow_motors (s : State) (a : Nat) (w : Word) : (s.setShadow a w).motors = s.motors := rfl
@[simp] theorem State.setShadow_buses (s : State) (a : Nat) (w : Word) : (s.setShadow a w).buses = s.buses := rfl
@[simp] theorem State.setShadow_mem (s : State) (a : Nat) (w : Word) : (s.setShadow a w).mem = s.mem := rfl
@[simp] theorem State.setShadow_pwr (s : State) (a : Nat) (w : Word) : (s.setShadow a w).pwr = s.pwr := rfl
@[simp] theorem State.setShadow_age (s : State) (a : Nat) (w : Word) : (s.setShadow a w).age = s.age := rfl
@[simp] theorem State.setShadow_cal (s : State) (a : Nat) (w : Word) : (s.setShadow a w).cal = s.cal := rfl
@[simp] theorem State.setShadow_pending (s : State) (a : Nat) (w : Word) : (s.setShadow a w).pending = s.pending := rfl

@[simp] theorem setF_raised (f : Field) (x : Nat) (s : State) : (setF f x s).raised = s.raised := rfl
@[simp] theorem setF_shadow (f : Field) (x : Nat) (s : State) : (setF f x s).shadow = s.shadow := rfl
@[simp] theorem setF_lines (f : Field) (x : Nat) (s : State) : (setF f x s).lines = s.lines := rfl
@[simp] theorem setF_encs (f : Field) (x : Nat) (s : State) : (setF f x s).encs = s.encs := rfl
@[simp] theorem setF_pds (f : Field) (x : Nat) (s : State) : (setF f x s).pds = s.pds := rfl
@[simp] theorem setF_preds (f : Field) (x : Nat) (s : State) : (setF f x s).preds = s.preds := rfl
@[simp] theorem setF_sch (f : Field) (x : Nat) (s : State) : (setF f x s).sch = s.sch := rfl
@[simp] theorem setF_trust (f : Field) (x : Nat) (s : State) : (setF f x s).trust = s.trust := rfl
@[simp] theorem setF_flt (f : Field) (x : Nat) (s : State) : (setF f x s).flt = s.flt := rfl
@[simp] theorem setF_host (f : Field) (x : Nat) (s : State) : (setF f x s).host = s.host := rfl
@[simp] theorem setF_free (f : Field) (x : Nat) (s : State) : (setF f x s).free = s.free := rfl
@[simp] theorem setF_lc (f : Field) (x : Nat) (s : State) : (setF f x s).lc = s.lc := rfl
@[simp] theorem setF_primer (f : Field) (x : Nat) (s : State) : (setF f x s).primer = s.primer := rfl
@[simp] theorem setF_sent (f : Field) (x : Nat) (s : State) : (setF f x s).sent = s.sent := rfl
@[simp] theorem setF_sqs (f : Field) (x : Nat) (s : State) : (setF f x s).sqs = s.sqs := rfl
@[simp] theorem setF_ces (f : Field) (x : Nat) (s : State) : (setF f x s).ces = s.ces := rfl
@[simp] theorem setF_mvs (f : Field) (x : Nat) (s : State) : (setF f x s).mvs = s.mvs := rfl
@[simp] theorem setF_paths (f : Field) (x : Nat) (s : State) : (setF f x s).paths = s.paths := rfl
@[simp] theorem setF_ren (f : Field) (x : Nat) (s : State) : (setF f x s).ren = s.ren := rfl
@[simp] theorem setF_lnp (f : Field) (x : Nat) (s : State) : (setF f x s).lnp = s.lnp := rfl
@[simp] theorem setF_ocl (f : Field) (x : Nat) (s : State) : (setF f x s).ocl = s.ocl := rfl
@[simp] theorem setF_alertHeld (f : Field) (x : Nat) (s : State) : (setF f x s).alertHeld = s.alertHeld := rfl
@[simp] theorem setF_ports (f : Field) (x : Nat) (s : State) : (setF f x s).ports = s.ports := rfl
@[simp] theorem setF_backups (f : Field) (x : Nat) (s : State) : (setF f x s).backups = s.backups := rfl
@[simp] theorem setF_motors (f : Field) (x : Nat) (s : State) : (setF f x s).motors = s.motors := rfl
@[simp] theorem setF_buses (f : Field) (x : Nat) (s : State) : (setF f x s).buses = s.buses := rfl
@[simp] theorem setF_mem (f : Field) (x : Nat) (s : State) : (setF f x s).mem = s.mem := rfl
@[simp] theorem setF_pwr (f : Field) (x : Nat) (s : State) : (setF f x s).pwr = s.pwr := rfl
@[simp] theorem setF_age (f : Field) (x : Nat) (s : State) : (setF f x s).age = s.age := rfl
@[simp] theorem setF_cal (f : Field) (x : Nat) (s : State) : (setF f x s).cal = s.cal := rfl
@[simp] theorem setF_pending (f : Field) (x : Nat) (s : State) : (setF f x s).pending = s.pending := rfl

@[simp] theorem setB_raised (f : Field) (b : Bool) (s : State) : (setB f b s).raised = if b then (f.reg, f.lo) :: s.raised else s.raised := rfl
@[simp] theorem setB_shadow (f : Field) (b : Bool) (s : State) : (setB f b s).shadow = s.shadow := rfl
@[simp] theorem setB_lines (f : Field) (b : Bool) (s : State) : (setB f b s).lines = s.lines := rfl
@[simp] theorem setB_encs (f : Field) (b : Bool) (s : State) : (setB f b s).encs = s.encs := rfl
@[simp] theorem setB_pds (f : Field) (b : Bool) (s : State) : (setB f b s).pds = s.pds := rfl
@[simp] theorem setB_preds (f : Field) (b : Bool) (s : State) : (setB f b s).preds = s.preds := rfl
@[simp] theorem setB_sch (f : Field) (b : Bool) (s : State) : (setB f b s).sch = s.sch := rfl
@[simp] theorem setB_trust (f : Field) (b : Bool) (s : State) : (setB f b s).trust = s.trust := rfl
@[simp] theorem setB_flt (f : Field) (b : Bool) (s : State) : (setB f b s).flt = s.flt := rfl
@[simp] theorem setB_host (f : Field) (b : Bool) (s : State) : (setB f b s).host = s.host := rfl
@[simp] theorem setB_free (f : Field) (b : Bool) (s : State) : (setB f b s).free = s.free := rfl
@[simp] theorem setB_lc (f : Field) (b : Bool) (s : State) : (setB f b s).lc = s.lc := rfl
@[simp] theorem setB_primer (f : Field) (b : Bool) (s : State) : (setB f b s).primer = s.primer := rfl
@[simp] theorem setB_sent (f : Field) (b : Bool) (s : State) : (setB f b s).sent = s.sent := rfl
@[simp] theorem setB_sqs (f : Field) (b : Bool) (s : State) : (setB f b s).sqs = s.sqs := rfl
@[simp] theorem setB_ces (f : Field) (b : Bool) (s : State) : (setB f b s).ces = s.ces := rfl
@[simp] theorem setB_mvs (f : Field) (b : Bool) (s : State) : (setB f b s).mvs = s.mvs := rfl
@[simp] theorem setB_paths (f : Field) (b : Bool) (s : State) : (setB f b s).paths = s.paths := rfl
@[simp] theorem setB_ren (f : Field) (b : Bool) (s : State) : (setB f b s).ren = s.ren := rfl
@[simp] theorem setB_lnp (f : Field) (b : Bool) (s : State) : (setB f b s).lnp = s.lnp := rfl
@[simp] theorem setB_ocl (f : Field) (b : Bool) (s : State) : (setB f b s).ocl = s.ocl := rfl
@[simp] theorem setB_alertHeld (f : Field) (b : Bool) (s : State) : (setB f b s).alertHeld = s.alertHeld := rfl
@[simp] theorem setB_ports (f : Field) (b : Bool) (s : State) : (setB f b s).ports = s.ports := rfl
@[simp] theorem setB_backups (f : Field) (b : Bool) (s : State) : (setB f b s).backups = s.backups := rfl
@[simp] theorem setB_motors (f : Field) (b : Bool) (s : State) : (setB f b s).motors = s.motors := rfl
@[simp] theorem setB_buses (f : Field) (b : Bool) (s : State) : (setB f b s).buses = s.buses := rfl
@[simp] theorem setB_mem (f : Field) (b : Bool) (s : State) : (setB f b s).mem = s.mem := rfl
@[simp] theorem setB_pwr (f : Field) (b : Bool) (s : State) : (setB f b s).pwr = s.pwr := rfl
@[simp] theorem setB_age (f : Field) (b : Bool) (s : State) : (setB f b s).age = s.age := rfl
@[simp] theorem setB_cal (f : Field) (b : Bool) (s : State) : (setB f b s).cal = s.cal := rfl
@[simp] theorem setB_pending (f : Field) (b : Bool) (s : State) : (setB f b s).pending = s.pending := rfl

@[simp] theorem State.setLine_raised (s : State) (n : Nat) (x : Line) : (s.setLine n x).raised = s.raised := rfl
@[simp] theorem State.setLine_regs (s : State) (n : Nat) (x : Line) : (s.setLine n x).regs = s.regs := rfl
@[simp] theorem State.setLine_shadow (s : State) (n : Nat) (x : Line) : (s.setLine n x).shadow = s.shadow := rfl
@[simp] theorem State.setLine_lines (s : State) (n : Nat) (x : Line) : (s.setLine n x).lines = s.lines.set n x := rfl
@[simp] theorem State.setLine_encs (s : State) (n : Nat) (x : Line) : (s.setLine n x).encs = s.encs := rfl
@[simp] theorem State.setLine_pds (s : State) (n : Nat) (x : Line) : (s.setLine n x).pds = s.pds := rfl
@[simp] theorem State.setLine_preds (s : State) (n : Nat) (x : Line) : (s.setLine n x).preds = s.preds := rfl
@[simp] theorem State.setLine_sch (s : State) (n : Nat) (x : Line) : (s.setLine n x).sch = s.sch := rfl
@[simp] theorem State.setLine_trust (s : State) (n : Nat) (x : Line) : (s.setLine n x).trust = s.trust := rfl
@[simp] theorem State.setLine_flt (s : State) (n : Nat) (x : Line) : (s.setLine n x).flt = s.flt := rfl
@[simp] theorem State.setLine_host (s : State) (n : Nat) (x : Line) : (s.setLine n x).host = s.host := rfl
@[simp] theorem State.setLine_free (s : State) (n : Nat) (x : Line) : (s.setLine n x).free = s.free := rfl
@[simp] theorem State.setLine_lc (s : State) (n : Nat) (x : Line) : (s.setLine n x).lc = s.lc := rfl
@[simp] theorem State.setLine_primer (s : State) (n : Nat) (x : Line) : (s.setLine n x).primer = s.primer := rfl
@[simp] theorem State.setLine_sent (s : State) (n : Nat) (x : Line) : (s.setLine n x).sent = s.sent := rfl
@[simp] theorem State.setLine_sqs (s : State) (n : Nat) (x : Line) : (s.setLine n x).sqs = s.sqs := rfl
@[simp] theorem State.setLine_ces (s : State) (n : Nat) (x : Line) : (s.setLine n x).ces = s.ces := rfl
@[simp] theorem State.setLine_mvs (s : State) (n : Nat) (x : Line) : (s.setLine n x).mvs = s.mvs := rfl
@[simp] theorem State.setLine_paths (s : State) (n : Nat) (x : Line) : (s.setLine n x).paths = s.paths := rfl
@[simp] theorem State.setLine_ren (s : State) (n : Nat) (x : Line) : (s.setLine n x).ren = s.ren := rfl
@[simp] theorem State.setLine_lnp (s : State) (n : Nat) (x : Line) : (s.setLine n x).lnp = s.lnp := rfl
@[simp] theorem State.setLine_ocl (s : State) (n : Nat) (x : Line) : (s.setLine n x).ocl = s.ocl := rfl
@[simp] theorem State.setLine_alertHeld (s : State) (n : Nat) (x : Line) : (s.setLine n x).alertHeld = s.alertHeld := rfl
@[simp] theorem State.setLine_ports (s : State) (n : Nat) (x : Line) : (s.setLine n x).ports = s.ports := rfl
@[simp] theorem State.setLine_backups (s : State) (n : Nat) (x : Line) : (s.setLine n x).backups = s.backups := rfl
@[simp] theorem State.setLine_motors (s : State) (n : Nat) (x : Line) : (s.setLine n x).motors = s.motors := rfl
@[simp] theorem State.setLine_buses (s : State) (n : Nat) (x : Line) : (s.setLine n x).buses = s.buses := rfl
@[simp] theorem State.setLine_mem (s : State) (n : Nat) (x : Line) : (s.setLine n x).mem = s.mem := rfl
@[simp] theorem State.setLine_pwr (s : State) (n : Nat) (x : Line) : (s.setLine n x).pwr = s.pwr := rfl
@[simp] theorem State.setLine_age (s : State) (n : Nat) (x : Line) : (s.setLine n x).age = s.age := rfl
@[simp] theorem State.setLine_cal (s : State) (n : Nat) (x : Line) : (s.setLine n x).cal = s.cal := rfl
@[simp] theorem State.setLine_pending (s : State) (n : Nat) (x : Line) : (s.setLine n x).pending = s.pending := rfl

@[simp] theorem State.setEnc_raised (s : State) (n : Nat) (x : Enc) : (s.setEnc n x).raised = s.raised := rfl
@[simp] theorem State.setEnc_regs (s : State) (n : Nat) (x : Enc) : (s.setEnc n x).regs = s.regs := rfl
@[simp] theorem State.setEnc_shadow (s : State) (n : Nat) (x : Enc) : (s.setEnc n x).shadow = s.shadow := rfl
@[simp] theorem State.setEnc_lines (s : State) (n : Nat) (x : Enc) : (s.setEnc n x).lines = s.lines := rfl
@[simp] theorem State.setEnc_encs (s : State) (n : Nat) (x : Enc) : (s.setEnc n x).encs = s.encs.set n x := rfl
@[simp] theorem State.setEnc_pds (s : State) (n : Nat) (x : Enc) : (s.setEnc n x).pds = s.pds := rfl
@[simp] theorem State.setEnc_preds (s : State) (n : Nat) (x : Enc) : (s.setEnc n x).preds = s.preds := rfl
@[simp] theorem State.setEnc_sch (s : State) (n : Nat) (x : Enc) : (s.setEnc n x).sch = s.sch := rfl
@[simp] theorem State.setEnc_trust (s : State) (n : Nat) (x : Enc) : (s.setEnc n x).trust = s.trust := rfl
@[simp] theorem State.setEnc_flt (s : State) (n : Nat) (x : Enc) : (s.setEnc n x).flt = s.flt := rfl
@[simp] theorem State.setEnc_host (s : State) (n : Nat) (x : Enc) : (s.setEnc n x).host = s.host := rfl
@[simp] theorem State.setEnc_free (s : State) (n : Nat) (x : Enc) : (s.setEnc n x).free = s.free := rfl
@[simp] theorem State.setEnc_lc (s : State) (n : Nat) (x : Enc) : (s.setEnc n x).lc = s.lc := rfl
@[simp] theorem State.setEnc_primer (s : State) (n : Nat) (x : Enc) : (s.setEnc n x).primer = s.primer := rfl
@[simp] theorem State.setEnc_sent (s : State) (n : Nat) (x : Enc) : (s.setEnc n x).sent = s.sent := rfl
@[simp] theorem State.setEnc_sqs (s : State) (n : Nat) (x : Enc) : (s.setEnc n x).sqs = s.sqs := rfl
@[simp] theorem State.setEnc_ces (s : State) (n : Nat) (x : Enc) : (s.setEnc n x).ces = s.ces := rfl
@[simp] theorem State.setEnc_mvs (s : State) (n : Nat) (x : Enc) : (s.setEnc n x).mvs = s.mvs := rfl
@[simp] theorem State.setEnc_paths (s : State) (n : Nat) (x : Enc) : (s.setEnc n x).paths = s.paths := rfl
@[simp] theorem State.setEnc_ren (s : State) (n : Nat) (x : Enc) : (s.setEnc n x).ren = s.ren := rfl
@[simp] theorem State.setEnc_lnp (s : State) (n : Nat) (x : Enc) : (s.setEnc n x).lnp = s.lnp := rfl
@[simp] theorem State.setEnc_ocl (s : State) (n : Nat) (x : Enc) : (s.setEnc n x).ocl = s.ocl := rfl
@[simp] theorem State.setEnc_alertHeld (s : State) (n : Nat) (x : Enc) : (s.setEnc n x).alertHeld = s.alertHeld := rfl
@[simp] theorem State.setEnc_ports (s : State) (n : Nat) (x : Enc) : (s.setEnc n x).ports = s.ports := rfl
@[simp] theorem State.setEnc_backups (s : State) (n : Nat) (x : Enc) : (s.setEnc n x).backups = s.backups := rfl
@[simp] theorem State.setEnc_motors (s : State) (n : Nat) (x : Enc) : (s.setEnc n x).motors = s.motors := rfl
@[simp] theorem State.setEnc_buses (s : State) (n : Nat) (x : Enc) : (s.setEnc n x).buses = s.buses := rfl
@[simp] theorem State.setEnc_mem (s : State) (n : Nat) (x : Enc) : (s.setEnc n x).mem = s.mem := rfl
@[simp] theorem State.setEnc_pwr (s : State) (n : Nat) (x : Enc) : (s.setEnc n x).pwr = s.pwr := rfl
@[simp] theorem State.setEnc_age (s : State) (n : Nat) (x : Enc) : (s.setEnc n x).age = s.age := rfl
@[simp] theorem State.setEnc_cal (s : State) (n : Nat) (x : Enc) : (s.setEnc n x).cal = s.cal := rfl
@[simp] theorem State.setEnc_pending (s : State) (n : Nat) (x : Enc) : (s.setEnc n x).pending = s.pending := rfl

@[simp] theorem State.setPd_raised (s : State) (n : Nat) (x : Pd) : (s.setPd n x).raised = s.raised := rfl
@[simp] theorem State.setPd_regs (s : State) (n : Nat) (x : Pd) : (s.setPd n x).regs = s.regs := rfl
@[simp] theorem State.setPd_shadow (s : State) (n : Nat) (x : Pd) : (s.setPd n x).shadow = s.shadow := rfl
@[simp] theorem State.setPd_lines (s : State) (n : Nat) (x : Pd) : (s.setPd n x).lines = s.lines := rfl
@[simp] theorem State.setPd_encs (s : State) (n : Nat) (x : Pd) : (s.setPd n x).encs = s.encs := rfl
@[simp] theorem State.setPd_pds (s : State) (n : Nat) (x : Pd) : (s.setPd n x).pds = s.pds.set n x := rfl
@[simp] theorem State.setPd_preds (s : State) (n : Nat) (x : Pd) : (s.setPd n x).preds = s.preds := rfl
@[simp] theorem State.setPd_sch (s : State) (n : Nat) (x : Pd) : (s.setPd n x).sch = s.sch := rfl
@[simp] theorem State.setPd_trust (s : State) (n : Nat) (x : Pd) : (s.setPd n x).trust = s.trust := rfl
@[simp] theorem State.setPd_flt (s : State) (n : Nat) (x : Pd) : (s.setPd n x).flt = s.flt := rfl
@[simp] theorem State.setPd_host (s : State) (n : Nat) (x : Pd) : (s.setPd n x).host = s.host := rfl
@[simp] theorem State.setPd_free (s : State) (n : Nat) (x : Pd) : (s.setPd n x).free = s.free := rfl
@[simp] theorem State.setPd_lc (s : State) (n : Nat) (x : Pd) : (s.setPd n x).lc = s.lc := rfl
@[simp] theorem State.setPd_primer (s : State) (n : Nat) (x : Pd) : (s.setPd n x).primer = s.primer := rfl
@[simp] theorem State.setPd_sent (s : State) (n : Nat) (x : Pd) : (s.setPd n x).sent = s.sent := rfl
@[simp] theorem State.setPd_sqs (s : State) (n : Nat) (x : Pd) : (s.setPd n x).sqs = s.sqs := rfl
@[simp] theorem State.setPd_ces (s : State) (n : Nat) (x : Pd) : (s.setPd n x).ces = s.ces := rfl
@[simp] theorem State.setPd_mvs (s : State) (n : Nat) (x : Pd) : (s.setPd n x).mvs = s.mvs := rfl
@[simp] theorem State.setPd_paths (s : State) (n : Nat) (x : Pd) : (s.setPd n x).paths = s.paths := rfl
@[simp] theorem State.setPd_ren (s : State) (n : Nat) (x : Pd) : (s.setPd n x).ren = s.ren := rfl
@[simp] theorem State.setPd_lnp (s : State) (n : Nat) (x : Pd) : (s.setPd n x).lnp = s.lnp := rfl
@[simp] theorem State.setPd_ocl (s : State) (n : Nat) (x : Pd) : (s.setPd n x).ocl = s.ocl := rfl
@[simp] theorem State.setPd_alertHeld (s : State) (n : Nat) (x : Pd) : (s.setPd n x).alertHeld = s.alertHeld := rfl
@[simp] theorem State.setPd_ports (s : State) (n : Nat) (x : Pd) : (s.setPd n x).ports = s.ports := rfl
@[simp] theorem State.setPd_backups (s : State) (n : Nat) (x : Pd) : (s.setPd n x).backups = s.backups := rfl
@[simp] theorem State.setPd_motors (s : State) (n : Nat) (x : Pd) : (s.setPd n x).motors = s.motors := rfl
@[simp] theorem State.setPd_buses (s : State) (n : Nat) (x : Pd) : (s.setPd n x).buses = s.buses := rfl
@[simp] theorem State.setPd_mem (s : State) (n : Nat) (x : Pd) : (s.setPd n x).mem = s.mem := rfl
@[simp] theorem State.setPd_pwr (s : State) (n : Nat) (x : Pd) : (s.setPd n x).pwr = s.pwr := rfl
@[simp] theorem State.setPd_age (s : State) (n : Nat) (x : Pd) : (s.setPd n x).age = s.age := rfl
@[simp] theorem State.setPd_cal (s : State) (n : Nat) (x : Pd) : (s.setPd n x).cal = s.cal := rfl
@[simp] theorem State.setPd_pending (s : State) (n : Nat) (x : Pd) : (s.setPd n x).pending = s.pending := rfl

@[simp] theorem State.setPred_raised (s : State) (n : Nat) (x : Pred) : (s.setPred n x).raised = s.raised := rfl
@[simp] theorem State.setPred_regs (s : State) (n : Nat) (x : Pred) : (s.setPred n x).regs = s.regs := rfl
@[simp] theorem State.setPred_shadow (s : State) (n : Nat) (x : Pred) : (s.setPred n x).shadow = s.shadow := rfl
@[simp] theorem State.setPred_lines (s : State) (n : Nat) (x : Pred) : (s.setPred n x).lines = s.lines := rfl
@[simp] theorem State.setPred_encs (s : State) (n : Nat) (x : Pred) : (s.setPred n x).encs = s.encs := rfl
@[simp] theorem State.setPred_pds (s : State) (n : Nat) (x : Pred) : (s.setPred n x).pds = s.pds := rfl
@[simp] theorem State.setPred_preds (s : State) (n : Nat) (x : Pred) : (s.setPred n x).preds = s.preds.set n x := rfl
@[simp] theorem State.setPred_sch (s : State) (n : Nat) (x : Pred) : (s.setPred n x).sch = s.sch := rfl
@[simp] theorem State.setPred_trust (s : State) (n : Nat) (x : Pred) : (s.setPred n x).trust = s.trust := rfl
@[simp] theorem State.setPred_flt (s : State) (n : Nat) (x : Pred) : (s.setPred n x).flt = s.flt := rfl
@[simp] theorem State.setPred_host (s : State) (n : Nat) (x : Pred) : (s.setPred n x).host = s.host := rfl
@[simp] theorem State.setPred_free (s : State) (n : Nat) (x : Pred) : (s.setPred n x).free = s.free := rfl
@[simp] theorem State.setPred_lc (s : State) (n : Nat) (x : Pred) : (s.setPred n x).lc = s.lc := rfl
@[simp] theorem State.setPred_primer (s : State) (n : Nat) (x : Pred) : (s.setPred n x).primer = s.primer := rfl
@[simp] theorem State.setPred_sent (s : State) (n : Nat) (x : Pred) : (s.setPred n x).sent = s.sent := rfl
@[simp] theorem State.setPred_sqs (s : State) (n : Nat) (x : Pred) : (s.setPred n x).sqs = s.sqs := rfl
@[simp] theorem State.setPred_ces (s : State) (n : Nat) (x : Pred) : (s.setPred n x).ces = s.ces := rfl
@[simp] theorem State.setPred_mvs (s : State) (n : Nat) (x : Pred) : (s.setPred n x).mvs = s.mvs := rfl
@[simp] theorem State.setPred_paths (s : State) (n : Nat) (x : Pred) : (s.setPred n x).paths = s.paths := rfl
@[simp] theorem State.setPred_ren (s : State) (n : Nat) (x : Pred) : (s.setPred n x).ren = s.ren := rfl
@[simp] theorem State.setPred_lnp (s : State) (n : Nat) (x : Pred) : (s.setPred n x).lnp = s.lnp := rfl
@[simp] theorem State.setPred_ocl (s : State) (n : Nat) (x : Pred) : (s.setPred n x).ocl = s.ocl := rfl
@[simp] theorem State.setPred_alertHeld (s : State) (n : Nat) (x : Pred) : (s.setPred n x).alertHeld = s.alertHeld := rfl
@[simp] theorem State.setPred_ports (s : State) (n : Nat) (x : Pred) : (s.setPred n x).ports = s.ports := rfl
@[simp] theorem State.setPred_backups (s : State) (n : Nat) (x : Pred) : (s.setPred n x).backups = s.backups := rfl
@[simp] theorem State.setPred_motors (s : State) (n : Nat) (x : Pred) : (s.setPred n x).motors = s.motors := rfl
@[simp] theorem State.setPred_buses (s : State) (n : Nat) (x : Pred) : (s.setPred n x).buses = s.buses := rfl
@[simp] theorem State.setPred_mem (s : State) (n : Nat) (x : Pred) : (s.setPred n x).mem = s.mem := rfl
@[simp] theorem State.setPred_pwr (s : State) (n : Nat) (x : Pred) : (s.setPred n x).pwr = s.pwr := rfl
@[simp] theorem State.setPred_age (s : State) (n : Nat) (x : Pred) : (s.setPred n x).age = s.age := rfl
@[simp] theorem State.setPred_cal (s : State) (n : Nat) (x : Pred) : (s.setPred n x).cal = s.cal := rfl
@[simp] theorem State.setPred_pending (s : State) (n : Nat) (x : Pred) : (s.setPred n x).pending = s.pending := rfl

@[simp] theorem setSeq_raised (n : Nat) (x : Seq) (s : State) : (setSeq n x s).raised = s.raised := rfl
@[simp] theorem setSeq_regs (n : Nat) (x : Seq) (s : State) : (setSeq n x s).regs = s.regs := rfl
@[simp] theorem setSeq_shadow (n : Nat) (x : Seq) (s : State) : (setSeq n x s).shadow = s.shadow := rfl
@[simp] theorem setSeq_lines (n : Nat) (x : Seq) (s : State) : (setSeq n x s).lines = s.lines := rfl
@[simp] theorem setSeq_encs (n : Nat) (x : Seq) (s : State) : (setSeq n x s).encs = s.encs := rfl
@[simp] theorem setSeq_pds (n : Nat) (x : Seq) (s : State) : (setSeq n x s).pds = s.pds := rfl
@[simp] theorem setSeq_preds (n : Nat) (x : Seq) (s : State) : (setSeq n x s).preds = s.preds := rfl
@[simp] theorem setSeq_sch (n : Nat) (x : Seq) (s : State) : (setSeq n x s).sch = s.sch := rfl
@[simp] theorem setSeq_trust (n : Nat) (x : Seq) (s : State) : (setSeq n x s).trust = s.trust := rfl
@[simp] theorem setSeq_flt (n : Nat) (x : Seq) (s : State) : (setSeq n x s).flt = s.flt := rfl
@[simp] theorem setSeq_host (n : Nat) (x : Seq) (s : State) : (setSeq n x s).host = s.host := rfl
@[simp] theorem setSeq_free (n : Nat) (x : Seq) (s : State) : (setSeq n x s).free = s.free := rfl
@[simp] theorem setSeq_lc (n : Nat) (x : Seq) (s : State) : (setSeq n x s).lc = s.lc := rfl
@[simp] theorem setSeq_primer (n : Nat) (x : Seq) (s : State) : (setSeq n x s).primer = s.primer := rfl
@[simp] theorem setSeq_sent (n : Nat) (x : Seq) (s : State) : (setSeq n x s).sent = s.sent := rfl
@[simp] theorem setSeq_sqs (n : Nat) (x : Seq) (s : State) : (setSeq n x s).sqs = s.sqs.set n x := rfl
@[simp] theorem setSeq_ces (n : Nat) (x : Seq) (s : State) : (setSeq n x s).ces = s.ces := rfl
@[simp] theorem setSeq_mvs (n : Nat) (x : Seq) (s : State) : (setSeq n x s).mvs = s.mvs := rfl
@[simp] theorem setSeq_paths (n : Nat) (x : Seq) (s : State) : (setSeq n x s).paths = s.paths := rfl
@[simp] theorem setSeq_ren (n : Nat) (x : Seq) (s : State) : (setSeq n x s).ren = s.ren := rfl
@[simp] theorem setSeq_lnp (n : Nat) (x : Seq) (s : State) : (setSeq n x s).lnp = s.lnp := rfl
@[simp] theorem setSeq_ocl (n : Nat) (x : Seq) (s : State) : (setSeq n x s).ocl = s.ocl := rfl
@[simp] theorem setSeq_alertHeld (n : Nat) (x : Seq) (s : State) : (setSeq n x s).alertHeld = s.alertHeld := rfl
@[simp] theorem setSeq_ports (n : Nat) (x : Seq) (s : State) : (setSeq n x s).ports = s.ports := rfl
@[simp] theorem setSeq_backups (n : Nat) (x : Seq) (s : State) : (setSeq n x s).backups = s.backups := rfl
@[simp] theorem setSeq_motors (n : Nat) (x : Seq) (s : State) : (setSeq n x s).motors = s.motors := rfl
@[simp] theorem setSeq_buses (n : Nat) (x : Seq) (s : State) : (setSeq n x s).buses = s.buses := rfl
@[simp] theorem setSeq_mem (n : Nat) (x : Seq) (s : State) : (setSeq n x s).mem = s.mem := rfl
@[simp] theorem setSeq_pwr (n : Nat) (x : Seq) (s : State) : (setSeq n x s).pwr = s.pwr := rfl
@[simp] theorem setSeq_age (n : Nat) (x : Seq) (s : State) : (setSeq n x s).age = s.age := rfl
@[simp] theorem setSeq_cal (n : Nat) (x : Seq) (s : State) : (setSeq n x s).cal = s.cal := rfl
@[simp] theorem setSeq_pending (n : Nat) (x : Seq) (s : State) : (setSeq n x s).pending = s.pending := rfl

@[simp] theorem setCtl_raised (n : Nat) (x : Ctl) (s : State) : (setCtl n x s).raised = s.raised := rfl
@[simp] theorem setCtl_regs (n : Nat) (x : Ctl) (s : State) : (setCtl n x s).regs = s.regs := rfl
@[simp] theorem setCtl_shadow (n : Nat) (x : Ctl) (s : State) : (setCtl n x s).shadow = s.shadow := rfl
@[simp] theorem setCtl_lines (n : Nat) (x : Ctl) (s : State) : (setCtl n x s).lines = s.lines := rfl
@[simp] theorem setCtl_encs (n : Nat) (x : Ctl) (s : State) : (setCtl n x s).encs = s.encs := rfl
@[simp] theorem setCtl_pds (n : Nat) (x : Ctl) (s : State) : (setCtl n x s).pds = s.pds := rfl
@[simp] theorem setCtl_preds (n : Nat) (x : Ctl) (s : State) : (setCtl n x s).preds = s.preds := rfl
@[simp] theorem setCtl_sch (n : Nat) (x : Ctl) (s : State) : (setCtl n x s).sch = s.sch := rfl
@[simp] theorem setCtl_trust (n : Nat) (x : Ctl) (s : State) : (setCtl n x s).trust = s.trust := rfl
@[simp] theorem setCtl_flt (n : Nat) (x : Ctl) (s : State) : (setCtl n x s).flt = s.flt := rfl
@[simp] theorem setCtl_host (n : Nat) (x : Ctl) (s : State) : (setCtl n x s).host = s.host := rfl
@[simp] theorem setCtl_free (n : Nat) (x : Ctl) (s : State) : (setCtl n x s).free = s.free := rfl
@[simp] theorem setCtl_lc (n : Nat) (x : Ctl) (s : State) : (setCtl n x s).lc = s.lc := rfl
@[simp] theorem setCtl_primer (n : Nat) (x : Ctl) (s : State) : (setCtl n x s).primer = s.primer := rfl
@[simp] theorem setCtl_sent (n : Nat) (x : Ctl) (s : State) : (setCtl n x s).sent = s.sent := rfl
@[simp] theorem setCtl_sqs (n : Nat) (x : Ctl) (s : State) : (setCtl n x s).sqs = s.sqs := rfl
@[simp] theorem setCtl_ces (n : Nat) (x : Ctl) (s : State) : (setCtl n x s).ces = s.ces.set n x := rfl
@[simp] theorem setCtl_mvs (n : Nat) (x : Ctl) (s : State) : (setCtl n x s).mvs = s.mvs := rfl
@[simp] theorem setCtl_paths (n : Nat) (x : Ctl) (s : State) : (setCtl n x s).paths = s.paths := rfl
@[simp] theorem setCtl_ren (n : Nat) (x : Ctl) (s : State) : (setCtl n x s).ren = s.ren := rfl
@[simp] theorem setCtl_lnp (n : Nat) (x : Ctl) (s : State) : (setCtl n x s).lnp = s.lnp := rfl
@[simp] theorem setCtl_ocl (n : Nat) (x : Ctl) (s : State) : (setCtl n x s).ocl = s.ocl := rfl
@[simp] theorem setCtl_alertHeld (n : Nat) (x : Ctl) (s : State) : (setCtl n x s).alertHeld = s.alertHeld := rfl
@[simp] theorem setCtl_ports (n : Nat) (x : Ctl) (s : State) : (setCtl n x s).ports = s.ports := rfl
@[simp] theorem setCtl_backups (n : Nat) (x : Ctl) (s : State) : (setCtl n x s).backups = s.backups := rfl
@[simp] theorem setCtl_motors (n : Nat) (x : Ctl) (s : State) : (setCtl n x s).motors = s.motors := rfl
@[simp] theorem setCtl_buses (n : Nat) (x : Ctl) (s : State) : (setCtl n x s).buses = s.buses := rfl
@[simp] theorem setCtl_mem (n : Nat) (x : Ctl) (s : State) : (setCtl n x s).mem = s.mem := rfl
@[simp] theorem setCtl_pwr (n : Nat) (x : Ctl) (s : State) : (setCtl n x s).pwr = s.pwr := rfl
@[simp] theorem setCtl_age (n : Nat) (x : Ctl) (s : State) : (setCtl n x s).age = s.age := rfl
@[simp] theorem setCtl_cal (n : Nat) (x : Ctl) (s : State) : (setCtl n x s).cal = s.cal := rfl
@[simp] theorem setCtl_pending (n : Nat) (x : Ctl) (s : State) : (setCtl n x s).pending = s.pending := rfl

@[simp] theorem setMover_raised (n : Nat) (x : Mover) (s : State) : (setMover n x s).raised = s.raised := rfl
@[simp] theorem setMover_regs (n : Nat) (x : Mover) (s : State) : (setMover n x s).regs = s.regs := rfl
@[simp] theorem setMover_shadow (n : Nat) (x : Mover) (s : State) : (setMover n x s).shadow = s.shadow := rfl
@[simp] theorem setMover_lines (n : Nat) (x : Mover) (s : State) : (setMover n x s).lines = s.lines := rfl
@[simp] theorem setMover_encs (n : Nat) (x : Mover) (s : State) : (setMover n x s).encs = s.encs := rfl
@[simp] theorem setMover_pds (n : Nat) (x : Mover) (s : State) : (setMover n x s).pds = s.pds := rfl
@[simp] theorem setMover_preds (n : Nat) (x : Mover) (s : State) : (setMover n x s).preds = s.preds := rfl
@[simp] theorem setMover_sch (n : Nat) (x : Mover) (s : State) : (setMover n x s).sch = s.sch := rfl
@[simp] theorem setMover_trust (n : Nat) (x : Mover) (s : State) : (setMover n x s).trust = s.trust := rfl
@[simp] theorem setMover_flt (n : Nat) (x : Mover) (s : State) : (setMover n x s).flt = s.flt := rfl
@[simp] theorem setMover_host (n : Nat) (x : Mover) (s : State) : (setMover n x s).host = s.host := rfl
@[simp] theorem setMover_free (n : Nat) (x : Mover) (s : State) : (setMover n x s).free = s.free := rfl
@[simp] theorem setMover_lc (n : Nat) (x : Mover) (s : State) : (setMover n x s).lc = s.lc := rfl
@[simp] theorem setMover_primer (n : Nat) (x : Mover) (s : State) : (setMover n x s).primer = s.primer := rfl
@[simp] theorem setMover_sent (n : Nat) (x : Mover) (s : State) : (setMover n x s).sent = s.sent := rfl
@[simp] theorem setMover_sqs (n : Nat) (x : Mover) (s : State) : (setMover n x s).sqs = s.sqs := rfl
@[simp] theorem setMover_ces (n : Nat) (x : Mover) (s : State) : (setMover n x s).ces = s.ces := rfl
@[simp] theorem setMover_mvs (n : Nat) (x : Mover) (s : State) : (setMover n x s).mvs = s.mvs.set n x := rfl
@[simp] theorem setMover_paths (n : Nat) (x : Mover) (s : State) : (setMover n x s).paths = s.paths := rfl
@[simp] theorem setMover_ren (n : Nat) (x : Mover) (s : State) : (setMover n x s).ren = s.ren := rfl
@[simp] theorem setMover_lnp (n : Nat) (x : Mover) (s : State) : (setMover n x s).lnp = s.lnp := rfl
@[simp] theorem setMover_ocl (n : Nat) (x : Mover) (s : State) : (setMover n x s).ocl = s.ocl := rfl
@[simp] theorem setMover_alertHeld (n : Nat) (x : Mover) (s : State) : (setMover n x s).alertHeld = s.alertHeld := rfl
@[simp] theorem setMover_ports (n : Nat) (x : Mover) (s : State) : (setMover n x s).ports = s.ports := rfl
@[simp] theorem setMover_backups (n : Nat) (x : Mover) (s : State) : (setMover n x s).backups = s.backups := rfl
@[simp] theorem setMover_motors (n : Nat) (x : Mover) (s : State) : (setMover n x s).motors = s.motors := rfl
@[simp] theorem setMover_buses (n : Nat) (x : Mover) (s : State) : (setMover n x s).buses = s.buses := rfl
@[simp] theorem setMover_mem (n : Nat) (x : Mover) (s : State) : (setMover n x s).mem = s.mem := rfl
@[simp] theorem setMover_pwr (n : Nat) (x : Mover) (s : State) : (setMover n x s).pwr = s.pwr := rfl
@[simp] theorem setMover_age (n : Nat) (x : Mover) (s : State) : (setMover n x s).age = s.age := rfl
@[simp] theorem setMover_cal (n : Nat) (x : Mover) (s : State) : (setMover n x s).cal = s.cal := rfl
@[simp] theorem setMover_pending (n : Nat) (x : Mover) (s : State) : (setMover n x s).pending = s.pending := rfl

@[simp] theorem setPath_raised (h : Nat) (p : Path) (s : State) : (setPath h p s).raised = s.raised := rfl
@[simp] theorem setPath_regs (h : Nat) (p : Path) (s : State) : (setPath h p s).regs = s.regs := rfl
@[simp] theorem setPath_shadow (h : Nat) (p : Path) (s : State) : (setPath h p s).shadow = s.shadow := rfl
@[simp] theorem setPath_lines (h : Nat) (p : Path) (s : State) : (setPath h p s).lines = s.lines := rfl
@[simp] theorem setPath_encs (h : Nat) (p : Path) (s : State) : (setPath h p s).encs = s.encs := rfl
@[simp] theorem setPath_pds (h : Nat) (p : Path) (s : State) : (setPath h p s).pds = s.pds := rfl
@[simp] theorem setPath_preds (h : Nat) (p : Path) (s : State) : (setPath h p s).preds = s.preds := rfl
@[simp] theorem setPath_sch (h : Nat) (p : Path) (s : State) : (setPath h p s).sch = s.sch := rfl
@[simp] theorem setPath_trust (h : Nat) (p : Path) (s : State) : (setPath h p s).trust = s.trust := rfl
@[simp] theorem setPath_flt (h : Nat) (p : Path) (s : State) : (setPath h p s).flt = s.flt := rfl
@[simp] theorem setPath_host (h : Nat) (p : Path) (s : State) : (setPath h p s).host = s.host := rfl
@[simp] theorem setPath_free (h : Nat) (p : Path) (s : State) : (setPath h p s).free = s.free := rfl
@[simp] theorem setPath_lc (h : Nat) (p : Path) (s : State) : (setPath h p s).lc = s.lc := rfl
@[simp] theorem setPath_primer (h : Nat) (p : Path) (s : State) : (setPath h p s).primer = s.primer := rfl
@[simp] theorem setPath_sent (h : Nat) (p : Path) (s : State) : (setPath h p s).sent = s.sent := rfl
@[simp] theorem setPath_sqs (h : Nat) (p : Path) (s : State) : (setPath h p s).sqs = s.sqs := rfl
@[simp] theorem setPath_ces (h : Nat) (p : Path) (s : State) : (setPath h p s).ces = s.ces := rfl
@[simp] theorem setPath_mvs (h : Nat) (p : Path) (s : State) : (setPath h p s).mvs = s.mvs := rfl
@[simp] theorem setPath_paths (h : Nat) (p : Path) (s : State) : (setPath h p s).paths = s.paths.set h p := rfl
@[simp] theorem setPath_ren (h : Nat) (p : Path) (s : State) : (setPath h p s).ren = s.ren := rfl
@[simp] theorem setPath_lnp (h : Nat) (p : Path) (s : State) : (setPath h p s).lnp = s.lnp := rfl
@[simp] theorem setPath_ocl (h : Nat) (p : Path) (s : State) : (setPath h p s).ocl = s.ocl := rfl
@[simp] theorem setPath_alertHeld (h : Nat) (p : Path) (s : State) : (setPath h p s).alertHeld = s.alertHeld := rfl
@[simp] theorem setPath_ports (h : Nat) (p : Path) (s : State) : (setPath h p s).ports = s.ports := rfl
@[simp] theorem setPath_backups (h : Nat) (p : Path) (s : State) : (setPath h p s).backups = s.backups := rfl
@[simp] theorem setPath_motors (h : Nat) (p : Path) (s : State) : (setPath h p s).motors = s.motors := rfl
@[simp] theorem setPath_buses (h : Nat) (p : Path) (s : State) : (setPath h p s).buses = s.buses := rfl
@[simp] theorem setPath_mem (h : Nat) (p : Path) (s : State) : (setPath h p s).mem = s.mem := rfl
@[simp] theorem setPath_pwr (h : Nat) (p : Path) (s : State) : (setPath h p s).pwr = s.pwr := rfl
@[simp] theorem setPath_age (h : Nat) (p : Path) (s : State) : (setPath h p s).age = s.age := rfl
@[simp] theorem setPath_cal (h : Nat) (p : Path) (s : State) : (setPath h p s).cal = s.cal := rfl
@[simp] theorem setPath_pending (h : Nat) (p : Path) (s : State) : (setPath h p s).pending = s.pending := rfl

@[simp] theorem setPort_raised (h : Nat) (p : Port) (s : State) : (setPort h p s).raised = s.raised := rfl
@[simp] theorem setPort_regs (h : Nat) (p : Port) (s : State) : (setPort h p s).regs = s.regs := rfl
@[simp] theorem setPort_shadow (h : Nat) (p : Port) (s : State) : (setPort h p s).shadow = s.shadow := rfl
@[simp] theorem setPort_lines (h : Nat) (p : Port) (s : State) : (setPort h p s).lines = s.lines := rfl
@[simp] theorem setPort_encs (h : Nat) (p : Port) (s : State) : (setPort h p s).encs = s.encs := rfl
@[simp] theorem setPort_pds (h : Nat) (p : Port) (s : State) : (setPort h p s).pds = s.pds := rfl
@[simp] theorem setPort_preds (h : Nat) (p : Port) (s : State) : (setPort h p s).preds = s.preds := rfl
@[simp] theorem setPort_sch (h : Nat) (p : Port) (s : State) : (setPort h p s).sch = s.sch := rfl
@[simp] theorem setPort_trust (h : Nat) (p : Port) (s : State) : (setPort h p s).trust = s.trust := rfl
@[simp] theorem setPort_flt (h : Nat) (p : Port) (s : State) : (setPort h p s).flt = s.flt := rfl
@[simp] theorem setPort_host (h : Nat) (p : Port) (s : State) : (setPort h p s).host = s.host := rfl
@[simp] theorem setPort_free (h : Nat) (p : Port) (s : State) : (setPort h p s).free = s.free := rfl
@[simp] theorem setPort_lc (h : Nat) (p : Port) (s : State) : (setPort h p s).lc = s.lc := rfl
@[simp] theorem setPort_primer (h : Nat) (p : Port) (s : State) : (setPort h p s).primer = s.primer := rfl
@[simp] theorem setPort_sent (h : Nat) (p : Port) (s : State) : (setPort h p s).sent = s.sent := rfl
@[simp] theorem setPort_sqs (h : Nat) (p : Port) (s : State) : (setPort h p s).sqs = s.sqs := rfl
@[simp] theorem setPort_ces (h : Nat) (p : Port) (s : State) : (setPort h p s).ces = s.ces := rfl
@[simp] theorem setPort_mvs (h : Nat) (p : Port) (s : State) : (setPort h p s).mvs = s.mvs := rfl
@[simp] theorem setPort_paths (h : Nat) (p : Port) (s : State) : (setPort h p s).paths = s.paths := rfl
@[simp] theorem setPort_ren (h : Nat) (p : Port) (s : State) : (setPort h p s).ren = s.ren := rfl
@[simp] theorem setPort_lnp (h : Nat) (p : Port) (s : State) : (setPort h p s).lnp = s.lnp := rfl
@[simp] theorem setPort_ocl (h : Nat) (p : Port) (s : State) : (setPort h p s).ocl = s.ocl := rfl
@[simp] theorem setPort_alertHeld (h : Nat) (p : Port) (s : State) : (setPort h p s).alertHeld = s.alertHeld := rfl
@[simp] theorem setPort_ports (h : Nat) (p : Port) (s : State) : (setPort h p s).ports = s.ports.set h p := rfl
@[simp] theorem setPort_backups (h : Nat) (p : Port) (s : State) : (setPort h p s).backups = s.backups := rfl
@[simp] theorem setPort_motors (h : Nat) (p : Port) (s : State) : (setPort h p s).motors = s.motors := rfl
@[simp] theorem setPort_buses (h : Nat) (p : Port) (s : State) : (setPort h p s).buses = s.buses := rfl
@[simp] theorem setPort_mem (h : Nat) (p : Port) (s : State) : (setPort h p s).mem = s.mem := rfl
@[simp] theorem setPort_pwr (h : Nat) (p : Port) (s : State) : (setPort h p s).pwr = s.pwr := rfl
@[simp] theorem setPort_age (h : Nat) (p : Port) (s : State) : (setPort h p s).age = s.age := rfl
@[simp] theorem setPort_cal (h : Nat) (p : Port) (s : State) : (setPort h p s).cal = s.cal := rfl
@[simp] theorem setPort_pending (h : Nat) (p : Port) (s : State) : (setPort h p s).pending = s.pending := rfl

@[simp] theorem modPwr_raised (f : Island → Island) (s : State) : (modPwr f s).raised = s.raised := rfl
@[simp] theorem modPwr_regs (f : Island → Island) (s : State) : (modPwr f s).regs = s.regs := rfl
@[simp] theorem modPwr_shadow (f : Island → Island) (s : State) : (modPwr f s).shadow = s.shadow := rfl
@[simp] theorem modPwr_lines (f : Island → Island) (s : State) : (modPwr f s).lines = s.lines := rfl
@[simp] theorem modPwr_encs (f : Island → Island) (s : State) : (modPwr f s).encs = s.encs := rfl
@[simp] theorem modPwr_pds (f : Island → Island) (s : State) : (modPwr f s).pds = s.pds := rfl
@[simp] theorem modPwr_preds (f : Island → Island) (s : State) : (modPwr f s).preds = s.preds := rfl
@[simp] theorem modPwr_sch (f : Island → Island) (s : State) : (modPwr f s).sch = s.sch := rfl
@[simp] theorem modPwr_trust (f : Island → Island) (s : State) : (modPwr f s).trust = s.trust := rfl
@[simp] theorem modPwr_flt (f : Island → Island) (s : State) : (modPwr f s).flt = s.flt := rfl
@[simp] theorem modPwr_host (f : Island → Island) (s : State) : (modPwr f s).host = s.host := rfl
@[simp] theorem modPwr_free (f : Island → Island) (s : State) : (modPwr f s).free = s.free := rfl
@[simp] theorem modPwr_lc (f : Island → Island) (s : State) : (modPwr f s).lc = s.lc := rfl
@[simp] theorem modPwr_primer (f : Island → Island) (s : State) : (modPwr f s).primer = s.primer := rfl
@[simp] theorem modPwr_sent (f : Island → Island) (s : State) : (modPwr f s).sent = s.sent := rfl
@[simp] theorem modPwr_sqs (f : Island → Island) (s : State) : (modPwr f s).sqs = s.sqs := rfl
@[simp] theorem modPwr_ces (f : Island → Island) (s : State) : (modPwr f s).ces = s.ces := rfl
@[simp] theorem modPwr_mvs (f : Island → Island) (s : State) : (modPwr f s).mvs = s.mvs := rfl
@[simp] theorem modPwr_paths (f : Island → Island) (s : State) : (modPwr f s).paths = s.paths := rfl
@[simp] theorem modPwr_ren (f : Island → Island) (s : State) : (modPwr f s).ren = s.ren := rfl
@[simp] theorem modPwr_lnp (f : Island → Island) (s : State) : (modPwr f s).lnp = s.lnp := rfl
@[simp] theorem modPwr_ocl (f : Island → Island) (s : State) : (modPwr f s).ocl = s.ocl := rfl
@[simp] theorem modPwr_alertHeld (f : Island → Island) (s : State) : (modPwr f s).alertHeld = s.alertHeld := rfl
@[simp] theorem modPwr_ports (f : Island → Island) (s : State) : (modPwr f s).ports = s.ports := rfl
@[simp] theorem modPwr_backups (f : Island → Island) (s : State) : (modPwr f s).backups = s.backups := rfl
@[simp] theorem modPwr_motors (f : Island → Island) (s : State) : (modPwr f s).motors = s.motors := rfl
@[simp] theorem modPwr_buses (f : Island → Island) (s : State) : (modPwr f s).buses = s.buses := rfl
@[simp] theorem modPwr_mem (f : Island → Island) (s : State) : (modPwr f s).mem = s.mem := rfl
@[simp] theorem modPwr_pwr (f : Island → Island) (s : State) : (modPwr f s).pwr = f s.pwr := rfl
@[simp] theorem modPwr_age (f : Island → Island) (s : State) : (modPwr f s).age = s.age := rfl
@[simp] theorem modPwr_cal (f : Island → Island) (s : State) : (modPwr f s).cal = s.cal := rfl
@[simp] theorem modPwr_pending (f : Island → Island) (s : State) : (modPwr f s).pending = s.pending := rfl

@[simp] theorem modLc_raised (f : Lifecycle → Lifecycle) (s : State) : (modLc f s).raised = s.raised := rfl
@[simp] theorem modLc_regs (f : Lifecycle → Lifecycle) (s : State) : (modLc f s).regs = s.regs := rfl
@[simp] theorem modLc_shadow (f : Lifecycle → Lifecycle) (s : State) : (modLc f s).shadow = s.shadow := rfl
@[simp] theorem modLc_lines (f : Lifecycle → Lifecycle) (s : State) : (modLc f s).lines = s.lines := rfl
@[simp] theorem modLc_encs (f : Lifecycle → Lifecycle) (s : State) : (modLc f s).encs = s.encs := rfl
@[simp] theorem modLc_pds (f : Lifecycle → Lifecycle) (s : State) : (modLc f s).pds = s.pds := rfl
@[simp] theorem modLc_preds (f : Lifecycle → Lifecycle) (s : State) : (modLc f s).preds = s.preds := rfl
@[simp] theorem modLc_sch (f : Lifecycle → Lifecycle) (s : State) : (modLc f s).sch = s.sch := rfl
@[simp] theorem modLc_trust (f : Lifecycle → Lifecycle) (s : State) : (modLc f s).trust = s.trust := rfl
@[simp] theorem modLc_flt (f : Lifecycle → Lifecycle) (s : State) : (modLc f s).flt = s.flt := rfl
@[simp] theorem modLc_host (f : Lifecycle → Lifecycle) (s : State) : (modLc f s).host = s.host := rfl
@[simp] theorem modLc_free (f : Lifecycle → Lifecycle) (s : State) : (modLc f s).free = s.free := rfl
@[simp] theorem modLc_lc (f : Lifecycle → Lifecycle) (s : State) : (modLc f s).lc = f s.lc := rfl
@[simp] theorem modLc_primer (f : Lifecycle → Lifecycle) (s : State) : (modLc f s).primer = s.primer := rfl
@[simp] theorem modLc_sent (f : Lifecycle → Lifecycle) (s : State) : (modLc f s).sent = s.sent := rfl
@[simp] theorem modLc_sqs (f : Lifecycle → Lifecycle) (s : State) : (modLc f s).sqs = s.sqs := rfl
@[simp] theorem modLc_ces (f : Lifecycle → Lifecycle) (s : State) : (modLc f s).ces = s.ces := rfl
@[simp] theorem modLc_mvs (f : Lifecycle → Lifecycle) (s : State) : (modLc f s).mvs = s.mvs := rfl
@[simp] theorem modLc_paths (f : Lifecycle → Lifecycle) (s : State) : (modLc f s).paths = s.paths := rfl
@[simp] theorem modLc_ren (f : Lifecycle → Lifecycle) (s : State) : (modLc f s).ren = s.ren := rfl
@[simp] theorem modLc_lnp (f : Lifecycle → Lifecycle) (s : State) : (modLc f s).lnp = s.lnp := rfl
@[simp] theorem modLc_ocl (f : Lifecycle → Lifecycle) (s : State) : (modLc f s).ocl = s.ocl := rfl
@[simp] theorem modLc_alertHeld (f : Lifecycle → Lifecycle) (s : State) : (modLc f s).alertHeld = s.alertHeld := rfl
@[simp] theorem modLc_ports (f : Lifecycle → Lifecycle) (s : State) : (modLc f s).ports = s.ports := rfl
@[simp] theorem modLc_backups (f : Lifecycle → Lifecycle) (s : State) : (modLc f s).backups = s.backups := rfl
@[simp] theorem modLc_motors (f : Lifecycle → Lifecycle) (s : State) : (modLc f s).motors = s.motors := rfl
@[simp] theorem modLc_buses (f : Lifecycle → Lifecycle) (s : State) : (modLc f s).buses = s.buses := rfl
@[simp] theorem modLc_mem (f : Lifecycle → Lifecycle) (s : State) : (modLc f s).mem = s.mem := rfl
@[simp] theorem modLc_pwr (f : Lifecycle → Lifecycle) (s : State) : (modLc f s).pwr = s.pwr := rfl
@[simp] theorem modLc_age (f : Lifecycle → Lifecycle) (s : State) : (modLc f s).age = s.age := rfl
@[simp] theorem modLc_cal (f : Lifecycle → Lifecycle) (s : State) : (modLc f s).cal = s.cal := rfl
@[simp] theorem modLc_pending (f : Lifecycle → Lifecycle) (s : State) : (modLc f s).pending = s.pending := rfl

@[simp] theorem modPrimer_raised (f : Primer → Primer) (s : State) : (modPrimer f s).raised = s.raised := rfl
@[simp] theorem modPrimer_regs (f : Primer → Primer) (s : State) : (modPrimer f s).regs = s.regs := rfl
@[simp] theorem modPrimer_shadow (f : Primer → Primer) (s : State) : (modPrimer f s).shadow = s.shadow := rfl
@[simp] theorem modPrimer_lines (f : Primer → Primer) (s : State) : (modPrimer f s).lines = s.lines := rfl
@[simp] theorem modPrimer_encs (f : Primer → Primer) (s : State) : (modPrimer f s).encs = s.encs := rfl
@[simp] theorem modPrimer_pds (f : Primer → Primer) (s : State) : (modPrimer f s).pds = s.pds := rfl
@[simp] theorem modPrimer_preds (f : Primer → Primer) (s : State) : (modPrimer f s).preds = s.preds := rfl
@[simp] theorem modPrimer_sch (f : Primer → Primer) (s : State) : (modPrimer f s).sch = s.sch := rfl
@[simp] theorem modPrimer_trust (f : Primer → Primer) (s : State) : (modPrimer f s).trust = s.trust := rfl
@[simp] theorem modPrimer_flt (f : Primer → Primer) (s : State) : (modPrimer f s).flt = s.flt := rfl
@[simp] theorem modPrimer_host (f : Primer → Primer) (s : State) : (modPrimer f s).host = s.host := rfl
@[simp] theorem modPrimer_free (f : Primer → Primer) (s : State) : (modPrimer f s).free = s.free := rfl
@[simp] theorem modPrimer_lc (f : Primer → Primer) (s : State) : (modPrimer f s).lc = s.lc := rfl
@[simp] theorem modPrimer_primer (f : Primer → Primer) (s : State) : (modPrimer f s).primer = f s.primer := rfl
@[simp] theorem modPrimer_sent (f : Primer → Primer) (s : State) : (modPrimer f s).sent = s.sent := rfl
@[simp] theorem modPrimer_sqs (f : Primer → Primer) (s : State) : (modPrimer f s).sqs = s.sqs := rfl
@[simp] theorem modPrimer_ces (f : Primer → Primer) (s : State) : (modPrimer f s).ces = s.ces := rfl
@[simp] theorem modPrimer_mvs (f : Primer → Primer) (s : State) : (modPrimer f s).mvs = s.mvs := rfl
@[simp] theorem modPrimer_paths (f : Primer → Primer) (s : State) : (modPrimer f s).paths = s.paths := rfl
@[simp] theorem modPrimer_ren (f : Primer → Primer) (s : State) : (modPrimer f s).ren = s.ren := rfl
@[simp] theorem modPrimer_lnp (f : Primer → Primer) (s : State) : (modPrimer f s).lnp = s.lnp := rfl
@[simp] theorem modPrimer_ocl (f : Primer → Primer) (s : State) : (modPrimer f s).ocl = s.ocl := rfl
@[simp] theorem modPrimer_alertHeld (f : Primer → Primer) (s : State) : (modPrimer f s).alertHeld = s.alertHeld := rfl
@[simp] theorem modPrimer_ports (f : Primer → Primer) (s : State) : (modPrimer f s).ports = s.ports := rfl
@[simp] theorem modPrimer_backups (f : Primer → Primer) (s : State) : (modPrimer f s).backups = s.backups := rfl
@[simp] theorem modPrimer_motors (f : Primer → Primer) (s : State) : (modPrimer f s).motors = s.motors := rfl
@[simp] theorem modPrimer_buses (f : Primer → Primer) (s : State) : (modPrimer f s).buses = s.buses := rfl
@[simp] theorem modPrimer_mem (f : Primer → Primer) (s : State) : (modPrimer f s).mem = s.mem := rfl
@[simp] theorem modPrimer_pwr (f : Primer → Primer) (s : State) : (modPrimer f s).pwr = s.pwr := rfl
@[simp] theorem modPrimer_age (f : Primer → Primer) (s : State) : (modPrimer f s).age = s.age := rfl
@[simp] theorem modPrimer_cal (f : Primer → Primer) (s : State) : (modPrimer f s).cal = s.cal := rfl
@[simp] theorem modPrimer_pending (f : Primer → Primer) (s : State) : (modPrimer f s).pending = s.pending := rfl

@[simp] theorem noteRaised_raised (f : Field) (k : Nat) (s : State) : (noteRaised f k s).raised = (f.reg, f.lo + k) :: s.raised := rfl
@[simp] theorem noteRaised_regs (f : Field) (k : Nat) (s : State) : (noteRaised f k s).regs = s.regs := rfl
@[simp] theorem noteRaised_shadow (f : Field) (k : Nat) (s : State) : (noteRaised f k s).shadow = s.shadow := rfl
@[simp] theorem noteRaised_lines (f : Field) (k : Nat) (s : State) : (noteRaised f k s).lines = s.lines := rfl
@[simp] theorem noteRaised_encs (f : Field) (k : Nat) (s : State) : (noteRaised f k s).encs = s.encs := rfl
@[simp] theorem noteRaised_pds (f : Field) (k : Nat) (s : State) : (noteRaised f k s).pds = s.pds := rfl
@[simp] theorem noteRaised_preds (f : Field) (k : Nat) (s : State) : (noteRaised f k s).preds = s.preds := rfl
@[simp] theorem noteRaised_sch (f : Field) (k : Nat) (s : State) : (noteRaised f k s).sch = s.sch := rfl
@[simp] theorem noteRaised_trust (f : Field) (k : Nat) (s : State) : (noteRaised f k s).trust = s.trust := rfl
@[simp] theorem noteRaised_flt (f : Field) (k : Nat) (s : State) : (noteRaised f k s).flt = s.flt := rfl
@[simp] theorem noteRaised_host (f : Field) (k : Nat) (s : State) : (noteRaised f k s).host = s.host := rfl
@[simp] theorem noteRaised_free (f : Field) (k : Nat) (s : State) : (noteRaised f k s).free = s.free := rfl
@[simp] theorem noteRaised_lc (f : Field) (k : Nat) (s : State) : (noteRaised f k s).lc = s.lc := rfl
@[simp] theorem noteRaised_primer (f : Field) (k : Nat) (s : State) : (noteRaised f k s).primer = s.primer := rfl
@[simp] theorem noteRaised_sent (f : Field) (k : Nat) (s : State) : (noteRaised f k s).sent = s.sent := rfl
@[simp] theorem noteRaised_sqs (f : Field) (k : Nat) (s : State) : (noteRaised f k s).sqs = s.sqs := rfl
@[simp] theorem noteRaised_ces (f : Field) (k : Nat) (s : State) : (noteRaised f k s).ces = s.ces := rfl
@[simp] theorem noteRaised_mvs (f : Field) (k : Nat) (s : State) : (noteRaised f k s).mvs = s.mvs := rfl
@[simp] theorem noteRaised_paths (f : Field) (k : Nat) (s : State) : (noteRaised f k s).paths = s.paths := rfl
@[simp] theorem noteRaised_ren (f : Field) (k : Nat) (s : State) : (noteRaised f k s).ren = s.ren := rfl
@[simp] theorem noteRaised_lnp (f : Field) (k : Nat) (s : State) : (noteRaised f k s).lnp = s.lnp := rfl
@[simp] theorem noteRaised_ocl (f : Field) (k : Nat) (s : State) : (noteRaised f k s).ocl = s.ocl := rfl
@[simp] theorem noteRaised_alertHeld (f : Field) (k : Nat) (s : State) : (noteRaised f k s).alertHeld = s.alertHeld := rfl
@[simp] theorem noteRaised_ports (f : Field) (k : Nat) (s : State) : (noteRaised f k s).ports = s.ports := rfl
@[simp] theorem noteRaised_backups (f : Field) (k : Nat) (s : State) : (noteRaised f k s).backups = s.backups := rfl
@[simp] theorem noteRaised_motors (f : Field) (k : Nat) (s : State) : (noteRaised f k s).motors = s.motors := rfl
@[simp] theorem noteRaised_buses (f : Field) (k : Nat) (s : State) : (noteRaised f k s).buses = s.buses := rfl
@[simp] theorem noteRaised_mem (f : Field) (k : Nat) (s : State) : (noteRaised f k s).mem = s.mem := rfl
@[simp] theorem noteRaised_pwr (f : Field) (k : Nat) (s : State) : (noteRaised f k s).pwr = s.pwr := rfl
@[simp] theorem noteRaised_age (f : Field) (k : Nat) (s : State) : (noteRaised f k s).age = s.age := rfl
@[simp] theorem noteRaised_cal (f : Field) (k : Nat) (s : State) : (noteRaised f k s).cal = s.cal := rfl
@[simp] theorem noteRaised_pending (f : Field) (k : Nat) (s : State) : (noteRaised f k s).pending = s.pending := rfl

/-! ### An access of the host -/

/-- A device whose start has stopped answers no access of the host. -/
theorem hostAccess_stopped {s : State} (g : State → State) (h : startStopped s = true) : hostAccess g s = s := by simp [hostAccess, h]

/-- Any other device does what the access asks, and the events of the tick are taken to come after it. -/
theorem hostAccess_run {s : State} (g : State → State) (h : startStopped s = false) : hostAccess g s = { g s with raised := s.raised } := by
  simp [hostAccess, h]

/-- A register after an access reads as after what the access asks, and as before where the start has stopped. -/
theorem hostAccess_reg (g : State → State) (s : State) (a : Nat) :
    (hostAccess g s).reg a = if startStopped s then s.reg a else (g s).reg a := by
  unfold hostAccess; split <;> rfl

end Sys2Proof.Machine
end

