-- ==== Sys2Proof/Laws/Frames.lean ====
section
/-! SUPPORT. The frame lemmas: what a read of a register, a field or a numbered part says after each write of one, which registers a fault
and an event write, and how a meaning's state gives a statement's conclusion. -/

namespace Sys2Proof.Machine

set_option Elab.async false

/-- A command whose meaning is a state that keeps all but the parts of `m` gives what is true of that state. -/
theorem gives_of_kept {c : Instr} {s t : State} {m : Nat} {l : List Part} {Q : State → Prop} (h : exec c s = .next t) (k : Kept m s t)
    (hl : (everything.all fun p => l.contains p || !m.testBit p.bit) = true) (hq : Q t) : Gives c s l Q := by
  refine ⟨t, h, k.queue, k.only fun p hp => ?_, hq⟩
  have hm : p ∈ everything := by cases p <;> decide
  have := List.all_eq_true.mp hl p hm
  simpa [hp] using this

theorem sound_setReg {s : State} (h : Sound s) (a : Nat) (w : Word) : Sound (s.setReg a w) := (State.setReg_kept (m := 1) (Kept.refl _ _) rfl).sound h
theorem sound_setF {s : State} (h : Sound s) (f : Field) (x : Nat) : Sound (setF f x s) := sound_setReg h _ _
theorem sound_setB {s : State} (h : Sound s) (f : Field) (x : Bool) : Sound (setB f x s) := (setB_kept (m := 1) (Kept.refl _ _) rfl).sound h
theorem sound_incSat {s : State} (h : Sound s) (f : Field) : Sound (incSat f s) := sound_setReg h _ _
theorem reg_setReg {s : State} (h : Sound s) (a b : Nat) (w : Word) : (s.setReg a w).reg b = if b = a then w else s.reg b := by
  split
  · subst b; exact reg_setReg_same h a w
  · exact reg_setReg_other s w ‹_›
theorem reg_setF_other (s : State) {f : Field} {a : Nat} (x : Nat) (h : a ≠ f.reg) : (setF f x s).reg a = s.reg a := reg_setReg_other _ _ h
theorem reg_setB_other (s : State) {f : Field} {a : Nat} (x : Bool) (h : a ≠ f.reg) : (setB f x s).reg a = s.reg a := reg_setReg_other _ _ h
theorem reg_incSat_other (s : State) {f : Field} {a : Nat} (h : a ≠ f.reg) : (incSat f s).reg a = s.reg a := reg_setReg_other _ _ h
theorem getF_setB_same {s : State} (hs : Sound s) {f : Field} (b : Bool) (h : f.lo + f.width ≤ 48) (hw : f.width = 1) : getF f (setB f b s) = if b then 1 else 0 := by
  show getF f (setF f (if b then 1 else 0) s) = _
  rw [getF_setF_same hs _ h, hw]; cases b <;> rfl
theorem getF_setB_other {s : State} (hs : Sound s) {f g : Field} (b : Bool) (h : f.lo + f.width ≤ 48)
    (hd : g.reg ≠ f.reg ∨ g.lo + g.width ≤ f.lo ∨ f.lo + f.width ≤ g.lo) : getF g (setB f b s) = getF g s := getF_setF_other hs _ h hd
theorem getF_incSat_same {s : State} (hs : Sound s) {f : Field} (h : f.lo + f.width ≤ 48) : getF f (incSat f s) = min (getF f s + 1) (2 ^ f.width - 1) := by
  unfold incSat addSat
  rw [getF_setF_same hs _ h]
  apply Nat.mod_eq_of_lt
  have := Nat.two_pow_pos f.width
  omega
theorem getF_incSat_other {s : State} (hs : Sound s) {f g : Field} (h : f.lo + f.width ≤ 48)
    (hd : g.reg ≠ f.reg ∨ g.lo + g.width ≤ f.lo ∨ f.lo + f.width ≤ g.lo) : getF g (incSat f s) = getF g s := getF_setF_other hs _ h hd
theorem regsBut_refl (l : List Nat) (s : State) : RegsBut l s s := fun _ _ => rfl
theorem regsBut_trans {l : List Nat} {s t u : State} (h : RegsBut l s t) (k : RegsBut l t u) : RegsBut l s u := fun a ha => (k a ha).trans (h a ha)
theorem regsBut_setReg {l : List Nat} {o s : State} {a : Nat} {w : Word} (h : RegsBut l o s) (ha : a ∈ l) : RegsBut l o (s.setReg a w) :=
  fun b hb => (reg_setReg_other _ _ (fun e => hb (by rw [e]; exact ha))).trans (h b hb)
theorem regsBut_setF {l : List Nat} {o s : State} {f : Field} {x : Nat} (h : RegsBut l o s) (ha : f.reg ∈ l) : RegsBut l o (setF f x s) := regsBut_setReg h ha
theorem regsBut_setB {l : List Nat} {o s : State} {f : Field} {x : Bool} (h : RegsBut l o s) (ha : f.reg ∈ l) : RegsBut l o (setB f x s) := regsBut_setReg h ha
theorem regsBut_incSat {l : List Nat} {o s : State} {f : Field} (h : RegsBut l o s) (ha : f.reg ∈ l) : RegsBut l o (incSat f s) := regsBut_setReg h ha
theorem getB_iff (f : Field) (s : State) : getB f s = true ↔ getF f s = 1 := by simp [getB]

theorem reg_setEnc (s : State) (n : Nat) (x : Enc) (a : Nat) : (s.setEnc n x).reg a = s.reg a := rfl
theorem enc_set_same {s : State} (n : Nat) (x : Enc) (h : n < s.encs.length) : (s.setEnc n x).enc n = x := by simp [State.enc, State.setEnc, h]
theorem enc_set_other {s : State} (n m : Nat) (x : Enc) (h : m ≠ n) : (s.setEnc n x).enc m = s.enc m := by simp [State.enc, State.setEnc, Ne.symm h]
theorem pd_set_same {s : State} (n : Nat) (x : Pd) (h : n < s.pds.length) : (s.setPd n x).pd n = x := by simp [State.pd, State.setPd, h]
theorem pd_set_other {s : State} (n m : Nat) (x : Pd) (h : m ≠ n) : (s.setPd n x).pd m = s.pd m := by simp [State.pd, State.setPd, Ne.symm h]
theorem pred_set_same {s : State} (n : Nat) (x : Pred) (h : n < s.preds.length) : (s.setPred n x).pred n = x := by simp [State.pred, State.setPred, h]
theorem pred_set_other {s : State} (n m : Nat) (x : Pred) (h : m ≠ n) : (s.setPred n x).pred m = s.pred m := by simp [State.pred, State.setPred, Ne.symm h]
theorem line_set_same {s : State} (n : Nat) (x : Line) (h : n < s.lines.length) : (s.setLine n x).line n = x := by simp [State.line, State.setLine, h]
theorem line_set_other {s : State} (n m : Nat) (x : Line) (h : m ≠ n) : (s.setLine n x).line m = s.line m := by simp [State.line, State.setLine, Ne.symm h]
theorem sound_setEnc {s : State} (h : Sound s) (n : Nat) (x : Enc) : Sound (s.setEnc n x) := (Kept.putEncs (m := 8) (Kept.refl _ s) rfl (by simp)).sound h
theorem sound_setPd {s : State} (h : Sound s) (n : Nat) (x : Pd) : Sound (s.setPd n x) := (Kept.putPds (m := 16) (Kept.refl _ s) rfl (by simp)).sound h
theorem sound_setPred {s : State} (h : Sound s) (n : Nat) (x : Pred) : Sound (s.setPred n x) := (Kept.putPreds (m := 32) (Kept.refl _ s) rfl (by simp)).sound h
theorem sound_setLine {s : State} (h : Sound s) (n : Nat) (x : Line) : Sound (s.setLine n x) := (Kept.putLines (m := 4) (Kept.refl _ s) rfl (by simp)).sound h
theorem Sound.sizes {s : State} (h : Sound s) : s.lines.length = 4 ∧ s.encs.length = 8 ∧ s.pds.length = 16 ∧ s.preds.length = 16 ∧ s.sqs.length = 20 ∧ s.ces.length = 8 ∧ s.mvs.length = 8 ∧
   s.paths.length = 16 ∧ s.ports.length = 16 ∧ s.backups.length = 6 ∧ s.motors.length = 6 ∧ s.buses.length = 2 ∧ s.sch.ledgers.length = 4 ∧ s.sch.mirror.length = 4 ∧ s.sch.rejs.length = 8 := by
  simpa [bankSizes] using h.banks
@[simp] theorem setReg_line (s : State) (a : Nat) (w : Word) (n : Nat) : (State.setReg s a w).line n = s.line n := by unfold State.line; rw [State.setReg_lines]
@[simp] theorem setReg_enc (s : State) (a : Nat) (w : Word) (n : Nat) : (State.setReg s a w).enc n = s.enc n := by unfold State.enc; rw [State.setReg_encs]
@[simp] theorem setReg_pd (s : State) (a : Nat) (w : Word) (n : Nat) : (State.setReg s a w).pd n = s.pd n := by unfold State.pd; rw [State.setReg_pds]
@[simp] theorem setReg_pred (s : State) (a : Nat) (w : Word) (n : Nat) : (State.setReg s a w).pred n = s.pred n := by unfold State.pred; rw [State.setReg_preds]
@[simp] theorem setF_line (s : State) (f : Field) (x : Nat) (n : Nat) : (setF f x s).line n = s.line n := by unfold State.line; rw [setF_lines]
@[simp] theorem setF_enc (s : State) (f : Field) (x : Nat) (n : Nat) : (setF f x s).enc n = s.enc n := by unfold State.enc; rw [setF_encs]
@[simp] theorem setF_pd (s : State) (f : Field) (x : Nat) (n : Nat) : (setF f x s).pd n = s.pd n := by unfold State.pd; rw [setF_pds]
@[simp] theorem setF_pred (s : State) (f : Field) (x : Nat) (n : Nat) : (setF f x s).pred n = s.pred n := by unfold State.pred; rw [setF_preds]
@[simp] theorem setB_line (s : State) (f : Field) (x : Bool) (n : Nat) : (setB f x s).line n = s.line n := by unfold State.line; rw [setB_lines]
@[simp] theorem setB_enc (s : State) (f : Field) (x : Bool) (n : Nat) : (setB f x s).enc n = s.enc n := by unfold State.enc; rw [setB_encs]
@[simp] theorem setB_pd (s : State) (f : Field) (x : Bool) (n : Nat) : (setB f x s).pd n = s.pd n := by unfold State.pd; rw [setB_pds]
@[simp] theorem setB_pred (s : State) (f : Field) (x : Bool) (n : Nat) : (setB f x s).pred n = s.pred n := by unfold State.pred; rw [setB_preds]
@[simp] theorem incSat_lines (s : State) (f : Field) : (incSat f s).lines = s.lines := by rfl
@[simp] theorem incSat_encs (s : State) (f : Field) : (incSat f s).encs = s.encs := by rfl
@[simp] theorem incSat_pds (s : State) (f : Field) : (incSat f s).pds = s.pds := by rfl
@[simp] theorem incSat_preds (s : State) (f : Field) : (incSat f s).preds = s.preds := by rfl
@[simp] theorem incSat_sch (s : State) (f : Field) : (incSat f s).sch = s.sch := by rfl
@[simp] theorem incSat_trust (s : State) (f : Field) : (incSat f s).trust = s.trust := by rfl
@[simp] theorem incSat_flt (s : State) (f : Field) : (incSat f s).flt = s.flt := by rfl
@[simp] theorem incSat_host (s : State) (f : Field) : (incSat f s).host = s.host := by rfl
@[simp] theorem incSat_free (s : State) (f : Field) : (incSat f s).free = s.free := by rfl
@[simp] theorem incSat_lc (s : State) (f : Field) : (incSat f s).lc = s.lc := by rfl
@[simp] theorem incSat_primer (s : State) (f : Field) : (incSat f s).primer = s.primer := by rfl
@[simp] theorem incSat_sent (s : State) (f : Field) : (incSat f s).sent = s.sent := by rfl
@[simp] theorem incSat_sqs (s : State) (f : Field) : (incSat f s).sqs = s.sqs := by rfl
@[simp] theorem incSat_ces (s : State) (f : Field) : (incSat f s).ces = s.ces := by rfl
@[simp] theorem incSat_mvs (s : State) (f : Field) : (incSat f s).mvs = s.mvs := by rfl
@[simp] theorem incSat_paths (s : State) (f : Field) : (incSat f s).paths = s.paths := by rfl
@[simp] theorem incSat_ren (s : State) (f : Field) : (incSat f s).ren = s.ren := by rfl
@[simp] theorem incSat_lnp (s : State) (f : Field) : (incSat f s).lnp = s.lnp := by rfl
@[simp] theorem incSat_ocl (s : State) (f : Field) : (incSat f s).ocl = s.ocl := by rfl
@[simp] theorem incSat_alertHeld (s : State) (f : Field) : (incSat f s).alertHeld = s.alertHeld := by rfl
@[simp] theorem incSat_ports (s : State) (f : Field) : (incSat f s).ports = s.ports := by rfl
@[simp] theorem incSat_backups (s : State) (f : Field) : (incSat f s).backups = s.backups := by rfl
@[simp] theorem incSat_motors (s : State) (f : Field) : (incSat f s).motors = s.motors := by rfl
@[simp] theorem incSat_buses (s : State) (f : Field) : (incSat f s).buses = s.buses := by rfl
@[simp] theorem incSat_mem (s : State) (f : Field) : (incSat f s).mem = s.mem := by rfl
@[simp] theorem incSat_pwr (s : State) (f : Field) : (incSat f s).pwr = s.pwr := by rfl
@[simp] theorem incSat_age (s : State) (f : Field) : (incSat f s).age = s.age := by rfl
@[simp] theorem incSat_cal (s : State) (f : Field) : (incSat f s).cal = s.cal := by rfl
@[simp] theorem incSat_pending (s : State) (f : Field) : (incSat f s).pending = s.pending := by rfl
@[simp] theorem incSat_shadow (s : State) (f : Field) : (incSat f s).shadow = s.shadow := by rfl
@[simp] theorem incSat_line (s : State) (f : Field) (n : Nat) : (incSat f s).line n = s.line n := by unfold State.line; rw [incSat_lines]
@[simp] theorem incSat_enc (s : State) (f : Field) (n : Nat) : (incSat f s).enc n = s.enc n := by unfold State.enc; rw [incSat_encs]
@[simp] theorem incSat_pd (s : State) (f : Field) (n : Nat) : (incSat f s).pd n = s.pd n := by unfold State.pd; rw [incSat_pds]
@[simp] theorem incSat_pred (s : State) (f : Field) (n : Nat) : (incSat f s).pred n = s.pred n := by unfold State.pred; rw [incSat_preds]
@[simp] theorem setI_lines (s : State) (f : Field) (x : Int) : (setI f x s).lines = s.lines := by rfl
@[simp] theorem setI_encs (s : State) (f : Field) (x : Int) : (setI f x s).encs = s.encs := by rfl
@[simp] theorem setI_pds (s : State) (f : Field) (x : Int) : (setI f x s).pds = s.pds := by rfl
@[simp] theorem setI_preds (s : State) (f : Field) (x : Int) : (setI f x s).preds = s.preds := by rfl
@[simp] theorem setI_sch (s : State) (f : Field) (x : Int) : (setI f x s).sch = s.sch := by rfl
@[simp] theorem setI_trust (s : State) (f : Field) (x : Int) : (setI f x s).trust = s.trust := by rfl
@[simp] theorem setI_flt (s : State) (f : Field) (x : Int) : (setI f x s).flt = s.flt := by rfl
@[simp] theorem setI_host (s : State) (f : Field) (x : Int) : (setI f x s).host = s.host := by rfl
@[simp] theorem setI_free (s : State) (f : Field) (x : Int) : (setI f x s).free = s.free := by rfl
@[simp] theorem setI_lc (s : State) (f : Field) (x : Int) : (setI f x s).lc = s.lc := by rfl
@[simp] theorem setI_primer (s : State) (f : Field) (x : Int) : (setI f x s).primer = s.primer := by rfl
@[simp] theorem setI_sent (s : State) (f : Field) (x : Int) : (setI f x s).sent = s.sent := by rfl
@[simp] theorem setI_sqs (s : State) (f : Field) (x : Int) : (setI f x s).sqs = s.sqs := by rfl
@[simp] theorem setI_ces (s : State) (f : Field) (x : Int) : (setI f x s).ces = s.ces := by rfl
@[simp] theorem setI_mvs (s : State) (f : Field) (x : Int) : (setI f x s).mvs = s.mvs := by rfl
@[simp] theorem setI_paths (s : State) (f : Field) (x : Int) : (setI f x s).paths = s.paths := by rfl
@[simp] theorem setI_ren (s : State) (f : Field) (x : Int) : (setI f x s).ren = s.ren := by rfl
@[simp] theorem setI_lnp (s : State) (f : Field) (x : Int) : (setI f x s).lnp = s.lnp := by rfl
@[simp] theorem setI_ocl (s : State) (f : Field) (x : Int) : (setI f x s).ocl = s.ocl := by rfl
@[simp] theorem setI_alertHeld (s : State) (f : Field) (x : Int) : (setI f x s).alertHeld = s.alertHeld := by rfl
@[simp] theorem setI_ports (s : State) (f : Field) (x : Int) : (setI f x s).ports = s.ports := by rfl
@[simp] theorem setI_backups (s : State) (f : Field) (x : Int) : (setI f x s).backups = s.backups := by rfl
@[simp] theorem setI_motors (s : State) (f : Field) (x : Int) : (setI f x s).motors = s.motors := by rfl
@[simp] theorem setI_buses (s : State) (f : Field) (x : Int) : (setI f x s).buses = s.buses := by rfl
@[simp] theorem setI_mem (s : State) (f : Field) (x : Int) : (setI f x s).mem = s.mem := by rfl
@[simp] theorem setI_pwr (s : State) (f : Field) (x : Int) : (setI f x s).pwr = s.pwr := by rfl
@[simp] theorem setI_age (s : State) (f : Field) (x : Int) : (setI f x s).age = s.age := by rfl
@[simp] theorem setI_cal (s : State) (f : Field) (x : Int) : (setI f x s).cal = s.cal := by rfl
@[simp] theorem setI_pending (s : State) (f : Field) (x : Int) : (setI f x s).pending = s.pending := by rfl
@[simp] theorem setI_shadow (s : State) (f : Field) (x : Int) : (setI f x s).shadow = s.shadow := by rfl
@[simp] theorem setI_line (s : State) (f : Field) (x : Int) (n : Nat) : (setI f x s).line n = s.line n := by unfold State.line; rw [setI_lines]
@[simp] theorem setI_enc (s : State) (f : Field) (x : Int) (n : Nat) : (setI f x s).enc n = s.enc n := by unfold State.enc; rw [setI_encs]
@[simp] theorem setI_pd (s : State) (f : Field) (x : Int) (n : Nat) : (setI f x s).pd n = s.pd n := by unfold State.pd; rw [setI_pds]
@[simp] theorem setI_pred (s : State) (f : Field) (x : Int) (n : Nat) : (setI f x s).pred n = s.pred n := by unfold State.pred; rw [setI_preds]
@[simp] theorem addSat_lines (s : State) (f : Field) (x : Nat) : (addSat f x s).lines = s.lines := by rfl
@[simp] theorem addSat_encs (s : State) (f : Field) (x : Nat) : (addSat f x s).encs = s.encs := by rfl
@[simp] theorem addSat_pds (s : State) (f : Field) (x : Nat) : (addSat f x s).pds = s.pds := by rfl
@[simp] theorem addSat_preds (s : State) (f : Field) (x : Nat) : (addSat f x s).preds = s.preds := by rfl
@[simp] theorem addSat_sch (s : State) (f : Field) (x : Nat) : (addSat f x s).sch = s.sch := by rfl
@[simp] theorem addSat_trust (s : State) (f : Field) (x : Nat) : (addSat f x s).trust = s.trust := by rfl
@[simp] theorem addSat_flt (s : State) (f : Field) (x : Nat) : (addSat f x s).flt = s.flt := by rfl
@[simp] theorem addSat_host (s : State) (f : Field) (x : Nat) : (addSat f x s).host = s.host := by rfl
@[simp] theorem addSat_free (s : State) (f : Field) (x : Nat) : (addSat f x s).free = s.free := by rfl
@[simp] theorem addSat_lc (s : State) (f : Field) (x : Nat) : (addSat f x s).lc = s.lc := by rfl
@[simp] theorem addSat_primer (s : State) (f : Field) (x : Nat) : (addSat f x s).primer = s.primer := by rfl
@[simp] theorem addSat_sent (s : State) (f : Field) (x : Nat) : (addSat f x s).sent = s.sent := by rfl
@[simp] theorem addSat_sqs (s : State) (f : Field) (x : Nat) : (addSat f x s).sqs = s.sqs := by rfl
@[simp] theorem addSat_ces (s : State) (f : Field) (x : Nat) : (addSat f x s).ces = s.ces := by rfl
@[simp] theorem addSat_mvs (s : State) (f : Field) (x : Nat) : (addSat f x s).mvs = s.mvs := by rfl
@[simp] theorem addSat_paths (s : State) (f : Field) (x : Nat) : (addSat f x s).paths = s.paths := by rfl
@[simp] theorem addSat_ren (s : State) (f : Field) (x : Nat) : (addSat f x s).ren = s.ren := by rfl
@[simp] theorem addSat_lnp (s : State) (f : Field) (x : Nat) : (addSat f x s).lnp = s.lnp := by rfl
@[simp] theorem addSat_ocl (s : State) (f : Field) (x : Nat) : (addSat f x s).ocl = s.ocl := by rfl
@[simp] theorem addSat_alertHeld (s : State) (f : Field) (x : Nat) : (addSat f x s).alertHeld = s.alertHeld := by rfl
@[simp] theorem addSat_ports (s : State) (f : Field) (x : Nat) : (addSat f x s).ports = s.ports := by rfl
@[simp] theorem addSat_backups (s : State) (f : Field) (x : Nat) : (addSat f x s).backups = s.backups := by rfl
@[simp] theorem addSat_motors (s : State) (f : Field) (x : Nat) : (addSat f x s).motors = s.motors := by rfl
@[simp] theorem addSat_buses (s : State) (f : Field) (x : Nat) : (addSat f x s).buses = s.buses := by rfl
@[simp] theorem addSat_mem (s : State) (f : Field) (x : Nat) : (addSat f x s).mem = s.mem := by rfl
@[simp] theorem addSat_pwr (s : State) (f : Field) (x : Nat) : (addSat f x s).pwr = s.pwr := by rfl
@[simp] theorem addSat_age (s : State) (f : Field) (x : Nat) : (addSat f x s).age = s.age := by rfl
@[simp] theorem addSat_cal (s : State) (f : Field) (x : Nat) : (addSat f x s).cal = s.cal := by rfl
@[simp] theorem addSat_pending (s : State) (f : Field) (x : Nat) : (addSat f x s).pending = s.pending := by rfl
@[simp] theorem addSat_shadow (s : State) (f : Field) (x : Nat) : (addSat f x s).shadow = s.shadow := by rfl
@[simp] theorem addSat_line (s : State) (f : Field) (x : Nat) (n : Nat) : (addSat f x s).line n = s.line n := by unfold State.line; rw [addSat_lines]
@[simp] theorem addSat_enc (s : State) (f : Field) (x : Nat) (n : Nat) : (addSat f x s).enc n = s.enc n := by unfold State.enc; rw [addSat_encs]
@[simp] theorem addSat_pd (s : State) (f : Field) (x : Nat) (n : Nat) : (addSat f x s).pd n = s.pd n := by unfold State.pd; rw [addSat_pds]
@[simp] theorem addSat_pred (s : State) (f : Field) (x : Nat) (n : Nat) : (addSat f x s).pred n = s.pred n := by unfold State.pred; rw [addSat_preds]
@[simp] theorem maxF_lines (s : State) (f : Field) (x : Nat) : (maxF f x s).lines = s.lines := by unfold maxF; split <;> rfl
@[simp] theorem maxF_encs (s : State) (f : Field) (x : Nat) : (maxF f x s).encs = s.encs := by unfold maxF; split <;> rfl
@[simp] theorem maxF_pds (s : State) (f : Field) (x : Nat) : (maxF f x s).pds = s.pds := by unfold maxF; split <;> rfl
@[simp] theorem maxF_preds (s : State) (f : Field) (x : Nat) : (maxF f x s).preds = s.preds := by unfold maxF; split <;> rfl
@[simp] theorem maxF_sch (s : State) (f : Field) (x : Nat) : (maxF f x s).sch = s.sch := by unfold maxF; split <;> rfl
@[simp] theorem maxF_trust (s : State) (f : Field) (x : Nat) : (maxF f x s).trust = s.trust := by unfold maxF; split <;> rfl
@[simp] theorem maxF_flt (s : State) (f : Field) (x : Nat) : (maxF f x s).flt = s.flt := by unfold maxF; split <;> rfl
@[simp] theorem maxF_host (s : State) (f : Field) (x : Nat) : (maxF f x s).host = s.host := by unfold maxF; split <;> rfl
@[simp] theorem maxF_free (s : State) (f : Field) (x : Nat) : (maxF f x s).free = s.free := by unfold maxF; split <;> rfl
@[simp] theorem maxF_lc (s : State) (f : Field) (x : Nat) : (maxF f x s).lc = s.lc := by unfold maxF; split <;> rfl
@[simp] theorem maxF_primer (s : State) (f : Field) (x : Nat) : (maxF f x s).primer = s.primer := by unfold maxF; split <;> rfl
@[simp] theorem maxF_sent (s : State) (f : Field) (x : Nat) : (maxF f x s).sent = s.sent := by unfold maxF; split <;> rfl
@[simp] theorem maxF_sqs (s : State) (f : Field) (x : Nat) : (maxF f x s).sqs = s.sqs := by unfold maxF; split <;> rfl
@[simp] theorem maxF_ces (s : State) (f : Field) (x : Nat) : (maxF f x s).ces = s.ces := by unfold maxF; split <;> rfl
@[simp] theorem maxF_mvs (s : State) (f : Field) (x : Nat) : (maxF f x s).mvs = s.mvs := by unfold maxF; split <;> rfl
@[simp] theorem maxF_paths (s : State) (f : Field) (x : Nat) : (maxF f x s).paths = s.paths := by unfold maxF; split <;> rfl
@[simp] theorem maxF_ren (s : State) (f : Field) (x : Nat) : (maxF f x s).ren = s.ren := by unfold maxF; split <;> rfl
@[simp] theorem maxF_lnp (s : State) (f : Field) (x : Nat) : (maxF f x s).lnp = s.lnp := by unfold maxF; split <;> rfl
@[simp] theorem maxF_ocl (s : State) (f : Field) (x : Nat) : (maxF f x s).ocl = s.ocl := by unfold maxF; split <;> rfl
@[simp] theorem maxF_alertHeld (s : State) (f : Field) (x : Nat) : (maxF f x s).alertHeld = s.alertHeld := by unfold maxF; split <;> rfl
@[simp] theorem maxF_ports (s : State) (f : Field) (x : Nat) : (maxF f x s).ports = s.ports := by unfold maxF; split <;> rfl
@[simp] theorem maxF_backups (s : State) (f : Field) (x : Nat) : (maxF f x s).backups = s.backups := by unfold maxF; split <;> rfl
@[simp] theorem maxF_motors (s : State) (f : Field) (x : Nat) : (maxF f x s).motors = s.motors := by unfold maxF; split <;> rfl
@[simp] theorem maxF_buses (s : State) (f : Field) (x : Nat) : (maxF f x s).buses = s.buses := by unfold maxF; split <;> rfl
@[simp] theorem maxF_mem (s : State) (f : Field) (x : Nat) : (maxF f x s).mem = s.mem := by unfold maxF; split <;> rfl
@[simp] theorem maxF_pwr (s : State) (f : Field) (x : Nat) : (maxF f x s).pwr = s.pwr := by unfold maxF; split <;> rfl
@[simp] theorem maxF_age (s : State) (f : Field) (x : Nat) : (maxF f x s).age = s.age := by unfold maxF; split <;> rfl
@[simp] theorem maxF_cal (s : State) (f : Field) (x : Nat) : (maxF f x s).cal = s.cal := by unfold maxF; split <;> rfl
@[simp] theorem maxF_pending (s : State) (f : Field) (x : Nat) : (maxF f x s).pending = s.pending := by unfold maxF; split <;> rfl
@[simp] theorem maxF_shadow (s : State) (f : Field) (x : Nat) : (maxF f x s).shadow = s.shadow := by unfold maxF; split <;> rfl
@[simp] theorem maxF_line (s : State) (f : Field) (x : Nat) (n : Nat) : (maxF f x s).line n = s.line n := by unfold State.line; rw [maxF_lines]
@[simp] theorem maxF_enc (s : State) (f : Field) (x : Nat) (n : Nat) : (maxF f x s).enc n = s.enc n := by unfold State.enc; rw [maxF_encs]
@[simp] theorem maxF_pd (s : State) (f : Field) (x : Nat) (n : Nat) : (maxF f x s).pd n = s.pd n := by unfold State.pd; rw [maxF_pds]
@[simp] theorem maxF_pred (s : State) (f : Field) (x : Nat) (n : Nat) : (maxF f x s).pred n = s.pred n := by unfold State.pred; rw [maxF_preds]

theorem forAll_inv {β : Type} (I : State → Prop) (l : List β) (f : β → State → State) (s : State) (h : I s) (hf : ∀ b ∈ l, ∀ t, I t → I (f b t)) : I (forAll l f s) := by
  unfold forAll
  induction l generalizing s with
  | nil => exact h
  | cons x l ih => exact ih _ (hf x (by simp) _ h) (fun b hb t ht => hf b (by simp [hb]) t ht)
theorem writeField_regsBut {l : List Nat} {o s : State} {a v : Nat} {f : FieldSpec} (h : RegsBut l o s) (ha : a ∈ l) : RegsBut l o (writeField a v f s) := by
  unfold writeField
  dsimp only
  split <;> first | exact regsBut_setF h ha | exact h
theorem plainWrite_regsBut {l : List Nat} {o s : State} {a v : Nat} (h : RegsBut l o s) (ha : a ∈ l) : RegsBut l o (plainWrite a v s) := by
  unfold plainWrite
  split
  · exact forAll_inv (RegsBut l o) _ _ _ h (fun b _ t ht => writeField_regsBut ht ha)
  · exact h
theorem writeField_sound {s : State} (h : Sound s) (a v : Nat) (f : FieldSpec) : Sound (writeField a v f s) := (writeField_kept (m := 3) (Kept.refl _ s) rfl).sound h
theorem plainWrite_sound {s : State} (h : Sound s) (a v : Nat) : Sound (plainWrite a v s) := (plainWrite_kept (m := 3) (Kept.refl _ s) rfl).sound h
theorem plainWrite_only {s : State} (a v : Nat) : ∃ r w, plainWrite a v s = { s with regs := r, shadow := w } := by
  unfold plainWrite
  split
  · refine forAll_inv (fun t => ∃ r w, t = { s with regs := r, shadow := w }) _ _ _ ⟨_, _, rfl⟩ ?_
    rintro b _ t ⟨r, w, rfl⟩
    unfold writeField
    dsimp only
    split <;> exact ⟨_, _, rfl⟩
  · exact ⟨_, _, rfl⟩
theorem plainWrite_shadow {s : State} {a v : Nat} {r : RegSpec} (hr : regSpecAt a = some r) (h : ∀ f ∈ r.fields, f.access ≠ .rws) : (plainWrite a v s).shadow = s.shadow := by
  unfold plainWrite
  rw [hr]
  refine forAll_inv (fun t => t.shadow = s.shadow) _ _ _ rfl ?_
  intro b hb t ht
  unfold writeField
  dsimp only
  have := h b hb
  split <;> first | exact ht | contradiction
theorem plainWrite_get {s : State} (hs : Sound s) {a v : Nat} {r : RegSpec} {g : Machine.Field} (hr : regSpecAt a = some r)
   (h : ∀ f ∈ r.fields, f.lo + f.width ≤ 48 ∧ ((f.access = .ro ∨ f.access = .wo ∨ f.access = .rws) ∨ g.lo + g.width ≤ f.lo ∨ f.lo + f.width ≤ g.lo)) : getF g (plainWrite a v s) = getF g s := by
  unfold plainWrite
  rw [hr]
  refine (forAll_inv (fun t => Sound t ∧ getF g t = getF g s) _ _ _ ⟨hs, rfl⟩ ?_).2
  intro b hb t ht
  obtain ⟨hw, hd⟩ := h b hb
  refine ⟨writeField_sound ht.1 _ _ _, ?_⟩
  unfold writeField
  dsimp only
  split
  · rw [getF_setF_other ht.1 _ hw (.inr (by simp_all)), ht.2]
  · rw [getF_setF_other ht.1 _ hw (.inr (by simp_all)), ht.2]
  · exact ht.2
  · exact ht.2
  · exact ht.2

theorem ctl_set_same' {n : Nat} {x : Ctl} {s : State} (hh : n < s.ces.length) : ctlOf n (setCtl n x s) = x := by simp [ctlOf, setCtl, hh]
theorem ctl_set_other' {n m : Nat} {x : Ctl} {s : State} (hh : m ≠ n) : ctlOf m (setCtl n x s) = ctlOf m s := by simp [ctlOf, setCtl, Ne.symm hh]
theorem reg_setCtl' (n : Nat) (x : Ctl) (s : State) (a : Nat) : (setCtl n x s).reg a = s.reg a := rfl
theorem getF_setCtl' (n : Nat) (x : Ctl) (s : State) (f : Field) : getF f (setCtl n x s) = getF f s := rfl
theorem sound_setCtl' {n : Nat} {x : Ctl} {s : State} (h : Sound s) : Sound (setCtl n x s) := (Kept.putCes (m := 2 ^ 25) (Kept.refl _ s) rfl (x := s.ces.set n x) (by simp)).sound h
theorem ctl_of' (s t : State) (n : Nat) (e : t.ces = s.ces) : ctlOf n t = ctlOf n s := by unfold ctlOf; rw [e]
theorem seq_set_same' {n : Nat} {x : Seq} {s : State} (hh : n < s.sqs.length) : seqOf n (setSeq n x s) = x := by simp [seqOf, setSeq, hh]
theorem seq_set_other' {n m : Nat} {x : Seq} {s : State} (hh : m ≠ n) : seqOf m (setSeq n x s) = seqOf m s := by simp [seqOf, setSeq, Ne.symm hh]
theorem reg_setSeq' (n : Nat) (x : Seq) (s : State) (a : Nat) : (setSeq n x s).reg a = s.reg a := rfl
theorem getF_setSeq' (n : Nat) (x : Seq) (s : State) (f : Field) : getF f (setSeq n x s) = getF f s := rfl
theorem sound_setSeq' {n : Nat} {x : Seq} {s : State} (h : Sound s) : Sound (setSeq n x s) := (Kept.putSqs (m := 2 ^ 24) (Kept.refl _ s) rfl (x := s.sqs.set n x) (by simp)).sound h
theorem seq_of' (s t : State) (n : Nat) (e : t.sqs = s.sqs) : seqOf n t = seqOf n s := by unfold seqOf; rw [e]
theorem mover_set_same' {n : Nat} {x : Mover} {s : State} (hh : n < s.mvs.length) : moverOf n (setMover n x s) = x := by simp [moverOf, setMover, hh]
theorem mover_set_other' {n m : Nat} {x : Mover} {s : State} (hh : m ≠ n) : moverOf m (setMover n x s) = moverOf m s := by simp [moverOf, setMover, Ne.symm hh]
theorem reg_setMover' (n : Nat) (x : Mover) (s : State) (a : Nat) : (setMover n x s).reg a = s.reg a := rfl
theorem getF_setMover' (n : Nat) (x : Mover) (s : State) (f : Field) : getF f (setMover n x s) = getF f s := rfl
theorem sound_setMover' {n : Nat} {x : Mover} {s : State} (h : Sound s) : Sound (setMover n x s) := (Kept.putMvs (m := 2 ^ 26) (Kept.refl _ s) rfl (x := s.mvs.set n x) (by simp)).sound h
theorem mover_of' (s t : State) (n : Nat) (e : t.mvs = s.mvs) : moverOf n t = moverOf n s := by unfold moverOf; rw [e]
theorem path_set_same' {n : Nat} {x : Machine.Path} {s : State} (hh : n < s.paths.length) : path n (setPath n x s) = x := by simp [path, setPath, hh]
theorem path_set_other' {n m : Nat} {x : Machine.Path} {s : State} (hh : m ≠ n) : path m (setPath n x s) = path m s := by simp [path, setPath, Ne.symm hh]
theorem reg_setPath' (n : Nat) (x : Machine.Path) (s : State) (a : Nat) : (setPath n x s).reg a = s.reg a := rfl
theorem getF_setPath' (n : Nat) (x : Machine.Path) (s : State) (f : Field) : getF f (setPath n x s) = getF f s := rfl
theorem sound_setPath' {n : Nat} {x : Machine.Path} {s : State} (h : Sound s) : Sound (setPath n x s) := (Kept.putPaths (m := 2 ^ 27) (Kept.refl _ s) rfl (x := s.paths.set n x) (by simp)).sound h
theorem path_of' (s t : State) (n : Nat) (e : t.paths = s.paths) : path n t = path n s := by unfold path; rw [e]
theorem port_set_same' {n : Nat} {x : Port} {s : State} (hh : n < s.ports.length) : portOf n (setPort n x s) = x := by simp [portOf, setPort, hh]
theorem port_set_other' {n m : Nat} {x : Port} {s : State} (hh : m ≠ n) : portOf m (setPort n x s) = portOf m s := by simp [portOf, setPort, Ne.symm hh]
theorem reg_setPort' (n : Nat) (x : Port) (s : State) (a : Nat) : (setPort n x s).reg a = s.reg a := rfl
theorem getF_setPort' (n : Nat) (x : Port) (s : State) (f : Field) : getF f (setPort n x s) = getF f s := rfl
theorem sound_setPort' {n : Nat} {x : Port} {s : State} (h : Sound s) : Sound (setPort n x s) := (Kept.putPorts (m := 2 ^ 32) (Kept.refl _ s) rfl (x := s.ports.set n x) (by simp)).sound h
theorem port_of' (s t : State) (n : Nat) (e : t.ports = s.ports) : portOf n t = portOf n s := by unfold portOf; rw [e]
theorem motor_mod_same' {n : Nat} {f : Motor → Motor} {s : State} (hh : n < s.motors.length) : motorOf n (modMotor n f s) = f (motorOf n s) := by simp [motorOf, modMotor, hh]
theorem motor_mod_other' {n m : Nat} {f : Motor → Motor} {s : State} (hh : m ≠ n) : motorOf m (modMotor n f s) = motorOf m s := by simp [motorOf, modMotor, Ne.symm hh]
theorem reg_modMotor' (n : Nat) (x : Motor → Motor) (s : State) (a : Nat) : (modMotor n x s).reg a = s.reg a := rfl
theorem getF_modMotor' (n : Nat) (x : Motor → Motor) (s : State) (f : Field) : getF f (modMotor n x s) = getF f s := rfl
theorem sound_modMotor' {n : Nat} {x : Motor → Motor} {s : State} (h : Sound s) : Sound (modMotor n x s) := (Kept.putMotors (m := 2 ^ 34) (Kept.refl _ s) rfl (x := s.motors.set n (x (motorOf n s))) (by simp)).sound h
theorem motor_of' (s t : State) (n : Nat) (e : t.motors = s.motors) : motorOf n t = motorOf n s := by unfold motorOf; rw [e]
theorem bus_mod_same' {n : Nat} {f : Bus → Bus} {s : State} (hh : n < s.buses.length) : busOf n (modBus n f s) = f (busOf n s) := by simp [busOf, modBus, hh]
theorem bus_mod_other' {n m : Nat} {f : Bus → Bus} {s : State} (hh : m ≠ n) : busOf m (modBus n f s) = busOf m s := by simp [busOf, modBus, Ne.symm hh]
theorem reg_modBus' (n : Nat) (x : Bus → Bus) (s : State) (a : Nat) : (modBus n x s).reg a = s.reg a := rfl
theorem getF_modBus' (n : Nat) (x : Bus → Bus) (s : State) (f : Field) : getF f (modBus n x s) = getF f s := rfl
theorem sound_modBus' {n : Nat} {x : Bus → Bus} {s : State} (h : Sound s) : Sound (modBus n x s) := (Kept.putBuses (m := 2 ^ 35) (Kept.refl _ s) rfl (x := s.buses.set n (x (busOf n s))) (by simp)).sound h
theorem bus_of' (s t : State) (n : Nat) (e : t.buses = s.buses) : busOf n t = busOf n s := by unfold busOf; rw [e]
theorem reg_modPort' (n : Nat) (f : Port → Port) (s : State) (a : Nat) : (modPort n f s).reg a = s.reg a := rfl
theorem getF_modPort' (n : Nat) (f : Port → Port) (s : State) (g : Field) : getF g (modPort n f s) = getF g s := rfl
theorem sound_modPort' {n : Nat} {f : Port → Port} {s : State} (h : Sound s) : Sound (modPort n f s) := sound_setPort' h
theorem reg_modCtl' (n : Nat) (f : Ctl → Ctl) (s : State) (a : Nat) : (modCtl n f s).reg a = s.reg a := rfl
theorem getF_modCtl' (n : Nat) (f : Ctl → Ctl) (s : State) (g : Field) : getF g (modCtl n f s) = getF g s := rfl
theorem sound_modCtl' {n : Nat} {f : Ctl → Ctl} {s : State} (h : Sound s) : Sound (modCtl n f s) := sound_setCtl' h
theorem getF_reg (f : Field) (s t : State) (h : t.reg f.reg = s.reg f.reg) : getF f t = getF f s := by unfold getF; rw [h]
theorem getI_reg (f : Field) (s t : State) (h : t.reg f.reg = s.reg f.reg) : getI f t = getI f s := by unfold getI; rw [getF_reg f s t h]
theorem plainWrite_parts {s : State} (a v : Nat) (p : Part) (h1 : p ≠ .regs) (h2 : p ≠ .shadow) : p.same s (plainWrite a v s) := by
  obtain ⟨r, w, e⟩ := plainWrite_only (s := s) a v
  rw [e]
  cases p <;> first | exact absurd rfl h1 | exact absurd rfl h2 | rfl | exact ⟨rfl, rfl⟩ | exact ⟨rfl, rfl, rfl⟩

/-- The registers a fault or an event writes beside FLT_STATUS. -/
def sideRegs : List Nat := [rFLT_HIST_STAT, rFLT_HIST0, rFLT_HIST1, rFLT_HIST2, rFLT_HIST3, rFLT_PIN_HOLD, rHST_EVQ_STAT]
/-- The registers a fault writes. -/
def faultRegs : List Nat := rFLT_STATUS :: sideRegs
theorem showHist_regs {l : List Nat} {o s : State} (h : RegsBut l o s) (hl : ∀ a ∈ sideRegs, a ∈ l) : RegsBut l o (showHist s) := by
  unfold showHist
  dsimp only
  have q (a) (ha : a ∈ sideRegs) := hl a ha
  split
  · exact regsBut_setReg (regsBut_setReg (regsBut_setReg (regsBut_setReg (regsBut_setF h (q _ (by decide))) (q _ (by decide))) (q _ (by decide))) (q _ (by decide))) (q _ (by decide))
  · exact regsBut_setReg (regsBut_setReg (regsBut_setReg (regsBut_setF (regsBut_setF (regsBut_setF (regsBut_setF (regsBut_setF (regsBut_setF h (q _ (by decide))) (q _ (by decide))) (q _ (by decide))) (q _ (by decide))) (q _ (by decide))) (q _ (by decide))) (q _ (by decide))) (q _ (by decide))) (q _ (by decide))
theorem showHist_flt (s : State) : (showHist s).flt = s.flt := by
  unfold showHist
  dsimp only
  split <;> simp only [State.setReg_flt, setF_flt]
theorem recordFault_regs {l : List Nat} {o s : State} {src cls detail : Nat} {e : Bool} (h : RegsBut l o s) (hl : ∀ a ∈ sideRegs, a ∈ l) : RegsBut l o (recordFault src cls e detail s) := by
  unfold recordFault
  dsimp only
  refine showHist_regs ?_ hl
  intro a ha
  show State.reg (if s.flt.hist.length < 32 then _ else _ : State) a = _
  split
  · exact h a ha
  · refine (reg_incSat_other _ ?_).trans (h a ha)
    intro e; exact ha (hl a (by rw [e]; decide))
theorem postEvent_regs {l : List Nat} {o s : State} {ty : Nat} {p : List Byte} (h : RegsBut l o s) (hl : ∀ a ∈ sideRegs, a ∈ l) : RegsBut l o (postEvent ty p s) := by
  have lose (u : State) (hu : RegsBut l o u) : RegsBut l o (loseEvent ty u) := by
    unfold loseEvent
    have := regsBut_incSat (f := if ty = 0x80 then fHST_EVQ_STAT_LOST_CLOSED else fHST_EVQ_STAT_LOST_OTHER) hu (hl _ (by split <;> decide))
    exact fun a ha => this a ha
  have rep : RegsBut l o (reportLoss s) := by
    unfold reportLoss
    split
    · exact fun a ha => h a ha
    · exact h
  unfold postEvent doIf
  dsimp only
  repeat' split
  · exact fun a ha => h a ha
  · exact lose _ h
  · exact fun a ha => rep a ha
  · exact lose _ rep
  · exact rep

theorem signalVector_reg (v : Nat) (s : State) (a : Nat) : (signalVector v s).reg a = s.reg a := by unfold signalVector; split <;> rfl
theorem raiseSimple_tail {l : List Nat} {o s : State} {src cls detail : Nat} {e : Bool} (h1 : RegsBut l o (setF fFLT_STATUS_STATUS (getF fFLT_STATUS_STATUS s ||| 2 ^ src) s)) (hl : ∀ a ∈ sideRegs, a ∈ l) : RegsBut l o (raiseSimple src cls e detail s) := by
  unfold raiseSimple
  dsimp only
  refine postEvent_regs ?_ hl
  have h2 := recordFault_regs (src := src) (cls := cls) (e := e) (detail := detail) (s := noteRaised fFLT_ACTIVE_ACTIVE src (noteRaised fFLT_STATUS_STATUS src (setF fFLT_STATUS_STATUS (getF fFLT_STATUS_STATUS s ||| 2 ^ src) s))) (fun a ha => h1 a ha) hl
  generalize recordFault src cls e detail (noteRaised fFLT_ACTIVE_ACTIVE src (noteRaised fFLT_STATUS_STATUS src (setF fFLT_STATUS_STATUS (getF fFLT_STATUS_STATUS s ||| 2 ^ src) s))) = s2 at h2
  have h3 : RegsBut l o (doIf (decide (getF fFLT_PIN_HOLD_HOLD_CLASS s2 ≤ cls)) (setB fFLT_PIN_HOLD_HOLD true) s2) := by
    unfold doIf; split
    · exact regsBut_setB h2 (hl _ (by decide))
    · exact h2
  generalize (doIf (decide (getF fFLT_PIN_HOLD_HOLD_CLASS s2 ≤ cls)) (setB fFLT_PIN_HOLD_HOLD true) s2) = s3 at h3
  have h4 : RegsBut l o (if (getF fFLT_PIN_MASK_MASK s).testBit src = true then s3 else { s3 with flt.pulse := true }) := by
    split
    · exact h3
    · exact fun a ha => h3 a ha
  generalize (if (getF fFLT_PIN_MASK_MASK s).testBit src = true then s3 else { s3 with flt.pulse := true }) = s4 at h4
  have h5 : RegsBut l o (showPin s4) := regsBut_setB h4 (hl _ (by decide))
  have h6 : RegsBut l o (doIf (!(getF fFLT_PIN_MASK_MASK s).testBit src && !(getF fFLT_STATUS_STATUS s).testBit src) (signalVector 6) (showPin s4)) := by
    unfold doIf; split
    · exact fun a ha => (signalVector_reg _ _ _).trans (h5 a ha)
    · exact h5
  generalize (doIf (!(getF fFLT_PIN_MASK_MASK s).testBit src && !(getF fFLT_STATUS_STATUS s).testBit src) (signalVector 6) (showPin s4)) = s6 at h6
  unfold doIf; split
  · exact fun a ha => h6 a ha
  · exact h6

theorem raiseSimple_regs {l : List Nat} {o s : State} {src cls detail : Nat} {e : Bool} (h : RegsBut l o s) (hl : ∀ a ∈ faultRegs, a ∈ l) : RegsBut l o (raiseSimple src cls e detail s) :=
  raiseSimple_tail (regsBut_setF h (hl _ (by decide))) (fun a ha => hl a (List.mem_cons_of_mem _ ha))
theorem raiseSimple_status {s : State} (hs : Sound s) {src cls detail : Nat} {e : Bool} (h : src < 48) : getF fFLT_STATUS_STATUS (raiseSimple src cls e detail s) = getF fFLT_STATUS_STATUS s ||| 2 ^ src := by
  rw [getF_reg _ _ _ (raiseSimple_tail (l := sideRegs) (s := s) (src := src) (cls := cls) (detail := detail) (e := e) (regsBut_refl _ _) (fun _ h => h) _ (by decide))]
  rw [getF_setF_same hs _ (by decide)]
  apply Nat.mod_eq_of_lt
  apply Nat.or_lt_two_pow
  · unfold getF wordGet; exact Nat.mod_lt _ (Nat.two_pow_pos _)
  · exact Nat.pow_lt_pow_right (by decide) h
theorem recordFault_hist (src cls detail : Nat) (e : Bool) (s : State) : ∃ x : Hist, x.source = src ∧ x.cls = cls ∧ x.detail = detail ∧ x.tick = now s ∧
    (recordFault src cls e detail s).flt.hist = (if s.flt.hist.length < 32 then s.flt.hist else s.flt.hist.drop 1) ++ [x] := by
  refine ⟨{ source := src, cls, escalated := e, detail, seq := s.flt.seq % 65536, time := s.reg rTRU_TIME, pos := s.reg (rTRK_LINE_POS 0), tick := now s }, rfl, rfl, rfl, rfl, ?_⟩
  unfold recordFault
  dsimp only
  rw [showHist_flt]
  split
  · rfl
  · rfl
theorem raiseSimple_hist (src cls detail : Nat) (e : Bool) (s : State) : ∃ x : Hist, x.source = src ∧ x.cls = cls ∧ x.detail = detail ∧ x.tick = (now s) ∧
    (raiseSimple src cls e detail s).flt.hist = (if s.flt.hist.length < 32 then s.flt.hist else s.flt.hist.drop 1) ++ [x] := by
  obtain ⟨x, h1, h2, h3, h4, h5⟩ := recordFault_hist src cls detail e (noteRaised fFLT_ACTIVE_ACTIVE src (noteRaised fFLT_STATUS_STATUS src (setF fFLT_STATUS_STATUS (getF fFLT_STATUS_STATUS s ||| 2 ^ src) s)))
  refine ⟨x, h1, h2, h3, h4.trans ?_, ?_⟩
  · exact reg_setF_other s (f := fFLT_STATUS_STATUS) (a := rTRK_TICK) _ (by decide)
  · simp only [show ∀ f u, (noteRaised f src u).flt = u.flt from fun _ _ => rfl, setF_flt] at h5
    rw [← h5]
    unfold raiseSimple
    dsimp only
    generalize recordFault src cls e detail (noteRaised fFLT_ACTIVE_ACTIVE src (noteRaised fFLT_STATUS_STATUS src (setF fFLT_STATUS_STATUS (getF fFLT_STATUS_STATUS s ||| 2 ^ src) s))) = s2
    have pe (ty : Nat) (p : List Byte) (u : State) : (postEvent ty p u).flt = u.flt := by
      unfold postEvent reportLoss loseEvent queueEvent doIf
      dsimp only
      repeat' split
      all_goals first | rfl | simp only [incSat_flt]
    rw [pe]
    have d (b : Bool) (u : State) : (doIf b (fun t => { t with primer.trialFrom := now t }) u).flt = u.flt := by unfold doIf; split <;> rfl
    rw [d]
    have d2 (b : Bool) (u : State) : (doIf b (signalVector 6) u).flt = u.flt := by
      unfold doIf signalVector; repeat' split
      all_goals rfl
    rw [d2]
    unfold showPin
    rw [setB_flt]
    have d3 (b : Bool) (u : State) : (doIf b (setB fFLT_PIN_HOLD_HOLD true) u).flt = u.flt := by
      unfold doIf; split
      · rw [setB_flt]
      · rfl
    split
    · rw [d3]
    · show (doIf _ _ s2).flt.hist = _; rw [d3]

end Sys2Proof.Machine
end

