-- ==== Sys2Proof/Laws/HandOff.lean ====
section
/-! SUPPORT. For each operation and each meaning of Sys2Proof/Machine/HandOff.lean: the parts of the state it may touch, and that it keeps the laws. -/

namespace Sys2Proof.Machine

set_option Elab.async false

theorem handoffOffer_kept {m : Nat} {o s : State} {i : Nat} (k : Kept m o s)
    (hm : 1082130625 ||| m = m) : Kept m o (handoffOffer i s) := by
  refine k.then (a := 1082130625) ?_ hm
  unfold handoffOffer
  repeat' first
    | exact Eq.refl _
    | (with_reducible first
        | apply incSat_kept | apply modProduct_kept | apply sendOcing_kept | apply Kept.ite | apply Kept.refl)
    | intro _ | split

theorem execHandoffOffer_runs {i : Nat} {s : State} : Runs 1082130625 s (execHandoffOffer i s) := by
  unfold execHandoffOffer
  refine Runs.next ?_
  repeat' first | exact Eq.refl _ | (with_reducible first | apply handoffOffer_kept | apply Kept.refl)

theorem offerFrame_kept {m : Nat} {o s : State} {p src : Nat} {l : List Byte} (k : Kept m o s)
    (hm : 1082130432 ||| m = m) : Kept m o (offerFrame p src l s) := by
  refine k.then (a := 1082130432) ?_ hm
  unfold offerFrame
  repeat' first
    | exact Eq.refl _ | (with_reducible first | apply sendOcing_kept | apply Kept.ite | apply Kept.refl) | intro _ | split
    | (with_reducible refine Kept.putOcl ?_ rfl)

theorem execOffer_runs {p : Nat} {body : List Byte} {s : State} : Runs 1082392577 s (execOffer p body s) := by
  unfold execOffer
  refine Runs.next ?_
  repeat' first | exact Eq.refl _ | (with_reducible first | apply offerFrame_kept | apply receiveFrame_kept | apply Kept.refl) | intro _

theorem acceptFrame_kept {m : Nat} {o s : State} {p src : Nat} {l : List Byte} (k : Kept m o s)
    (hm : 1082130625 ||| m = m) : Kept m o (acceptFrame p src l s) := by
  refine k.then (a := 1082130625) ?_ hm
  unfold acceptFrame
  repeat' first
    | exact Eq.refl _
    | (with_reducible first
        | apply incSat_kept | apply modProduct_kept | apply sendOcing_kept | apply Kept.refl)
    | intro _ | split

theorem execAccept_runs {p : Nat} {body : List Byte} {s : State} : Runs 1082392769 s (execAccept p body s) := by
  unfold execAccept
  refine Runs.next ?_
  repeat' first | exact Eq.refl _ | (with_reducible first | apply acceptFrame_kept | apply receiveFrame_kept | apply Kept.refl) | intro _

theorem declineFrame_kept {m : Nat} {o s : State} {l : List Byte} (k : Kept m o s)
    (hm : 1623698369 ||| m = m) : Kept m o (declineFrame l s) := by
  refine k.then (a := 1623698369) ?_ hm
  unfold declineFrame
  repeat' first
    | exact Eq.refl _
    | (with_reducible first
        | apply closeIfDone_kept | apply incSat_kept | apply modProduct_kept | apply Kept.refl)
    | intro _ | split

theorem execDecline_runs {p : Nat} {body : List Byte} {s : State} : Runs 1623698369 s (execDecline p body s) := by
  unfold execDecline
  refine Runs.next ?_
  repeat' first | exact Eq.refl _ | (with_reducible first | apply declineFrame_kept | apply receiveFrame_kept | apply Kept.refl) | intro _

theorem commitFrame_kept {m : Nat} {o s : State} {l : List Byte} (k : Kept m o s)
    (hm : 1073741824 ||| m = m) : Kept m o (commitFrame l s) := by
  refine k.then (a := 1073741824) ?_ hm
  unfold commitFrame
  repeat' first
    | exact Eq.refl _ | (with_reducible first | apply Kept.ite | apply Kept.refl) | intro _ | split | (with_reducible refine Kept.putOcl ?_ rfl)

theorem execCommit_runs {p : Nat} {body : List Byte} {s : State} : Runs 1082392577 s (execCommit p body s) := by
  unfold execCommit
  refine Runs.next ?_
  repeat' first | exact Eq.refl _ | (with_reducible first | apply commitFrame_kept | apply receiveFrame_kept | apply Kept.refl) | intro _

theorem resultFrame_kept {m : Nat} {o s : State} {l : List Byte} (k : Kept m o s)
    (hm : 1623698369 ||| m = m) : Kept m o (resultFrame l s) := by
  refine k.then (a := 1623698369) ?_ hm
  unfold resultFrame
  repeat' first
    | exact Eq.refl _
    | (with_reducible first
        | apply closeIfDone_kept | apply incSat_kept | apply modProduct_kept | apply Kept.ite | apply Kept.refl)
    | intro _ | split

theorem execResult_runs {p : Nat} {body : List Byte} {s : State} : Runs 1623698369 s (execResult p body s) := by
  unfold execResult
  refine Runs.next ?_
  repeat' first | exact Eq.refl _ | (with_reducible first | apply receiveFrame_kept | apply resultFrame_kept | apply Kept.refl) | intro _

theorem activatePort_kept {m : Nat} {o s : State} {p : Nat} (k : Kept m o s)
    (hm : 1073741825 ||| m = m) : Kept m o (activatePort p s) := by
  refine k.then (a := 1073741825) ?_ hm
  unfold activatePort
  repeat' first | exact Eq.refl _ | (with_reducible first | apply modOclPort_kept | apply setF_kept | apply Kept.ite | apply Kept.refl)

theorem regain_kept {m : Nat} {o s : State} {l : List Nat} (k : Kept m o s)
    (hm : 2026351553 ||| m = m) : Kept m o (regain l s) := by
  refine k.then (a := 2026351553) ?_ hm
  unfold regain
  repeat' first
    | exact Eq.refl _
    | (with_reducible first
        | apply closeUnmarked_kept | apply incSat_kept | apply Kept.forAll | apply Kept.refl)
    | intro _

theorem regainProducts_kept {m : Nat} {o s : State} (k : Kept m o s)
    (hm : 2026351553 ||| m = m) : Kept m o (regainProducts s) := by
  refine k.then (a := 2026351553) ?_ hm
  unfold regainProducts
  repeat' first | exact Eq.refl _ | (with_reducible first | apply modProduct_kept | apply regain_kept | apply Kept.forAll | apply Kept.refl) | intro _

theorem regainAbsent_kept {m : Nat} {o s : State} (k : Kept m o s)
    (hm : 2026351553 ||| m = m) : Kept m o (regainAbsent s) := by
  refine k.then (a := 2026351553) ?_ hm
  unfold regainAbsent
  repeat' first | exact Eq.refl _ | (with_reducible first | apply regain_kept | apply Kept.refl)

theorem dropProducts_kept {m : Nat} {o s : State} {ok : Nat → Bool} (k : Kept m o s)
    (hm : 2026351553 ||| m = m) : Kept m o (dropProducts ok s) := by
  refine k.then (a := 2026351553) ?_ hm
  unfold dropProducts
  repeat' first
    | exact Eq.refl _
    | (with_reducible first
        | apply closeIfDone_kept | apply modProduct_kept | apply notStarted_kept | apply stopFlagged_kept | apply Kept.ite | apply Kept.doIf
        | apply Kept.forAll | apply Kept.refl)
    | intro _ | split | (with_reducible refine Kept.putOcl ?_ rfl)

theorem dropHosted_kept {m : Nat} {o s : State} (k : Kept m o s)
    (hm : 2026351553 ||| m = m) : Kept m o (dropHosted s) := by
  refine k.then (a := 2026351553) ?_ hm
  unfold dropHosted
  repeat' first | exact Eq.refl _ | (with_reducible first | apply dropProducts_kept | apply Kept.refl)

theorem dropAbsent_kept {m : Nat} {o s : State} (k : Kept m o s)
    (hm : 2026351553 ||| m = m) : Kept m o (dropAbsent s) := by
  refine k.then (a := 2026351553) ?_ hm
  unfold dropAbsent
  repeat' first | exact Eq.refl _ | (with_reducible first | apply dropProducts_kept | apply Kept.refl)

theorem armHosted_kept {m : Nat} {os s : State} {o : Offer} (k : Kept m os s)
    (hm : 1892133825 ||| m = m) : Kept m os (armHosted o s) := by
  refine k.then (a := 1892133825) ?_ hm
  unfold armHosted
  repeat' first
    | exact Eq.refl _
    | (with_reducible first
        | apply armProduct_kept | apply bringDue_kept | apply closureReports_kept | apply incSat_kept | apply putProduct_kept | apply raiseSimple_kept
        | apply Kept.refl)
    | intro _ | split | (with_reducible refine Kept.putSch ?_ rfl)

theorem takeOffers_kept {m : Nat} {o s : State} (k : Kept m o s)
    (hm : 1892133825 ||| m = m) : Kept m o (takeOffers s) := by
  refine k.then (a := 1892133825) ?_ hm
  unfold takeOffers
  repeat' first
    | exact Eq.refl _ | (with_reducible first | apply armHosted_kept | apply Kept.forAll | apply Kept.refl) | intro _ | split
    | (with_reducible refine Kept.putOcl ?_ rfl)

theorem passOwnership_kept {m : Nat} {o s : State} (k : Kept m o s)
    (hm : 192 ||| m = m) : Kept m o (passOwnership s) := by
  refine k.then (a := 192) ?_ hm
  unfold passOwnership
  repeat' first | exact Eq.refl _ | (with_reducible first | apply modProduct_kept | apply Kept.forAll | apply Kept.refl) | intro _

theorem passBarrier_kept {m : Nat} {o s : State} (k : Kept m o s)
    (hm : 1086324737 ||| m = m) : Kept m o (passBarrier s) := by
  refine k.then (a := 1086324737) ?_ hm
  unfold passBarrier
  repeat' first
    | exact Eq.refl _
    | (with_reducible first
        | apply releaseTicket_kept | apply sendOcing_kept | apply setF_kept | apply Kept.ite | apply Kept.refl)
    | intro _ | split | (with_reducible refine Kept.putOcl ?_ rfl)

theorem boundaryEffects_kept {m : Nat} {o s : State} {e : Nat} (k : Kept m o s)
    (hm : 2027924417 ||| m = m) : Kept m o (boundaryEffects e s) := by
  refine k.then (a := 2027924417) ?_ hm
  unfold boundaryEffects
  repeat' first
    | exact Eq.refl _
    | (with_reducible first
        | apply activatePort_kept | apply answerBarriers_kept | apply dropAbsent_kept | apply dropHosted_kept | apply forgetSilent_kept
        | apply passBarrier_kept | apply passOwnership_kept | apply regainAbsent_kept | apply regainProducts_kept | apply setF_kept
        | apply showChain_kept | apply takeOffers_kept | apply Kept.doIf | apply Kept.refl)
    | intro _ | split | (with_reducible refine Kept.putOcl ?_ rfl)

theorem epochFrame_kept {m : Nat} {o s : State} {p src : Nat} {l : List Byte} (k : Kept m o s)
    (hm : 2027924417 ||| m = m) : Kept m o (epochFrame p src l s) := by
  refine k.then (a := 2027924417) ?_ hm
  unfold epochFrame
  repeat' first
    | exact Eq.refl _
    | (with_reducible first
        | apply boundaryEffects_kept | apply setF_kept | apply showChain_kept | apply Kept.ite | apply Kept.refl)
    | intro _ | split | (with_reducible refine Kept.putOcl ?_ rfl)

theorem execEpoch_runs {p : Nat} {body : List Byte} {resid : Nat} {s : State} : Runs 2027924417 s (execEpoch p body resid s) := by
  unfold execEpoch
  refine Runs.next ?_
  repeat' first | exact Eq.refl _ | (with_reducible first | apply epochFrame_kept | apply receiveFrame_kept | apply Kept.refl) | intro _

theorem epochBoundary_kept {m : Nat} {o s : State} (k : Kept m o s)
    (hm : 2027924417 ||| m = m) : Kept m o (epochBoundary s) := by
  refine k.then (a := 2027924417) ?_ hm
  unfold epochBoundary
  repeat' first
    | exact Eq.refl _
    | (with_reducible first
        | apply boundaryEffects_kept | apply dropHosted_kept | apply raiseSimple_kept | apply regainProducts_kept | apply sendOcing_kept
        | apply setB_kept | apply Kept.ite | apply Kept.doIf | apply Kept.refl)
    | intro _ | split | (with_reducible refine Kept.putOcl ?_ rfl)

theorem execEpochBoundary_runs {s : State} : Runs 2027924417 s (execEpochBoundary s) := by
  unfold execEpochBoundary
  refine Runs.next ?_
  repeat' first | exact Eq.refl _ | (with_reducible first | apply epochBoundary_kept | apply Kept.refl)

theorem recordBarrier_kept {m : Nat} {o s : State} {t e : Nat} (k : Kept m o s)
    (hm : 1073741825 ||| m = m) : Kept m o (recordBarrier t e s) := by
  refine k.then (a := 1073741825) ?_ hm
  unfold recordBarrier
  repeat' first
    | exact Eq.refl _ | (with_reducible first | apply setF_kept | apply Kept.ite | apply Kept.refl) | intro _ | split
    | (with_reducible refine Kept.putOcl ?_ rfl)

theorem sendBarrier_kept {m : Nat} {o s : State} {l : List Byte} (k : Kept m o s)
    (hm : 1082130432 ||| m = m) : Kept m o (sendBarrier l s) := by
  refine k.then (a := 1082130432) ?_ hm
  unfold sendBarrier
  repeat' first | exact Eq.refl _ | (with_reducible first | apply sendOcing_kept | apply Kept.refl)

theorem serveBarrier_kept {m : Nat} {o s : State} {q1_ : _} {q2_ : _} {q3_ : _} {q4_ : _} (k : Kept m o s)
    (hm : 1082130433 ||| m = m) : Kept m o (serveBarrier q1_ q2_ q3_ q4_ s).2 := by
  refine k.then (a := 1082130433) ?_ hm
  unfold serveBarrier
  repeat' first
    | exact Eq.refl _
    | (with_reducible first
        | apply recordBarrier_kept | apply reply_kept | apply sendBarrier_kept | apply sendOcing_kept | apply Kept.ite | apply Kept.refl)
    | intro _ | split | (dsimp only) | (with_reducible refine Kept.putOcl ?_ rfl)

theorem execOclBarrier_runs {q : Nat} {entry : List Byte} {readable : Bool} {payload : List Byte} {s : State} : Runs 1082916865 s (execOclBarrier q entry readable payload s) := by
  unfold execOclBarrier
  refine Runs.next ?_
  repeat' first | exact Eq.refl _ | (with_reducible first | apply serveBarrier_kept | apply takeMessage_kept | apply Kept.refl) | intro _

theorem barrierFrame_kept {m : Nat} {o s : State} {dst : Nat} {l : List Byte} (k : Kept m o s)
    (hm : 1082130433 ||| m = m) : Kept m o (barrierFrame dst l s) := by
  refine k.then (a := 1082130433) ?_ hm
  unfold barrierFrame
  repeat' first | exact Eq.refl _ | (with_reducible first | apply recordBarrier_kept | apply sendBarrier_kept | apply Kept.ite | apply Kept.refl)

theorem execBarrier_runs {p : Nat} {body : List Byte} {s : State} : Runs 1082392577 s (execBarrier p body s) := by
  unfold execBarrier
  refine Runs.next ?_
  repeat' first | exact Eq.refl _ | (with_reducible first | apply barrierFrame_kept | apply receiveFrame_kept | apply Kept.refl) | intro _

theorem barrierAckFrame_kept {m : Nat} {o s : State} {src : Nat} {l : List Byte} (k : Kept m o s)
    (hm : 1074528257 ||| m = m) : Kept m o (barrierAckFrame src l s) := by
  refine k.then (a := 1074528257) ?_ hm
  unfold barrierAckFrame
  repeat' first | exact Eq.refl _ | (with_reducible first | apply answerBarriers_kept | apply setF_kept | apply Kept.ite | apply Kept.refl)

theorem execBarrierAck_runs {p : Nat} {body : List Byte} {s : State} : Runs 1082916865 s (execBarrierAck p body s) := by
  unfold execBarrierAck
  refine Runs.next ?_
  repeat' first | exact Eq.refl _ | (with_reducible first | apply barrierAckFrame_kept | apply receiveFrame_kept | apply Kept.refl) | intro _

end Sys2Proof.Machine
end

