-- ==== Sys2Proof/Machine/Pins.lean ====
section
/-! DEFINITION. What the output pins carry, and what the TAP offers: the levels of the pins beside the head ports' (which Heads gives), with the
supply that drives each group (R105, R116, R326, R342, R401, R440, R492, R493). No command reads them. -/

namespace Sys2Proof.Machine

/-- The level of an output pin; until its own supply is good it is high-impedance (R492). -/
inductive PinLevel where
  | low
  | high
  | highZ
  deriving DecidableEq, Repr

/-- A push-pull output, and an open-drain one, which drives low or not at all (R493). -/
def pushPull (good on : Bool) : PinLevel := if good = false then .highZ else if on then .high else .low
def openDrain (good low : Bool) : PinLevel := if good && low then .low else .highZ

/-- VDD_AON, which drives the pins of group AON, is good (R444, R493). -/
def aonGood (s : State) : Bool := s.pwr.aon

/-- REJn: active where LEVEL is set, high with POL clear and low with POL set (R116). -/
def rejPin (r : Nat) (s : State) : PinLevel :=
  pushPull (io33Good s) (getB (fSCH_REJ_STAT_LEVEL r) s != getB (fSCH_REJ_CFG_POL r) s)

/-- LINE_ALERT_L and FAULT_L (R64, R440). -/
def lineAlertPin (s : State) : PinLevel := openDrain (io33Good s) (lineAlert s)
def faultPin (s : State) : PinLevel := openDrain (aonGood s) (getB fFLT_PIN_HOLD_LEVEL s)

/-- ENi and DISi (R449, R452, R471). -/
def enablePin (i : Nat) (s : State) : PinLevel := pushPull (aonGood s) (railGet fPWR_RAIL_EN i s == 1)
def dischargePin (i : Nat) (s : State) : PinLevel := pushPull (aonGood s) (railGet fPWR_RAIL_DIS i s == 1)

/-- BUSm_CHOP (R342). -/
def chopPin (m : Nat) (s : State) : PinLevel := pushPull (io33Good s) (getB (fBUS_STAT_CHOP m) s)

/-- A tick of a carrier period lies in one of the spans in which a switch is commanded on. -/
def inSpan (k : Nat) (l : List (Nat × Nat)) : Bool := l.any fun x => decide (x.1 ≤ k) && decide (k < x.2)

/-- The gate outputs of phase `x` of a motor channel, high side and low side, at this tick of the carrier period (R326, R327). -/
def gatePins (c x : Nat) (s : State) : PinLevel × PinLevel :=
  let m := motorOf c s
  let k := (m.carrier.map fun t => (now s - t).toNat).getD 0
  let on (f : PhaseGate → List (Nat × Nat)) : Bool := (m.gates[x]?).any fun g => inSpan k (f g)
  (pushPull (io33Good s) (on fun g => g.high.toList), pushPull (io33Good s) (on (·.low)))

/-- What the IEEE 1149.1 TAP may offer. -/
inductive TapInstruction where
  | bypass
  | idcode
  | boundaryScan
  | supervisorDebug
  deriving DecidableEq, Repr

/-- While JTAG is closed the TAP offers BYPASS and IDCODE; open, boundary scan and supervisor debug too. None reaches the trust domain (R401). -/
def tapOffers (s : State) : List TapInstruction := [.bypass, .idcode] ++ if jtagOpen s then [.boundaryScan, .supervisorDebug] else []

end Sys2Proof.Machine
end

