-- ==== Sys2Proof/Tests/Slice0.lean ====
section
/-! SUPPORT. The model's own tests: ill-formed commands that the check refuses, words that stand for Adeger instructions, small effects, and for
each statement a state and operands that meet its hypotheses, clause by clause. -/

namespace Sys2Proof.Tests

set_option Elab.async false

open Sys2Proof.Machine

/-! ### Ill-formed commands are refused -/

theorem test_wf_line : (Instr.freeze 3).wf = true ∧ (Instr.freeze 4).wf = false := by decide
theorem test_wf_head : (Instr.tempPoll 15 []).wf = true ∧ (Instr.tempPoll 16 []).wf = false := by decide
theorem test_wf_encoder : (Instr.encEdge 7 true true).wf = true ∧ (Instr.encEdge 8 true true).wf = false := by decide
theorem test_wf_detect : (Instr.captureConfirm 15).wf = true ∧ (Instr.captureConfirm 16).wf = false := by decide
theorem test_wf_entry : (Instr.signal 8191).wf = true ∧ (Instr.signal 8192).wf = false := by decide
theorem test_wf_sequencer : (Instr.waitp 19).wf = true ∧ (Instr.waitp 20).wf = false := by decide
theorem test_wf_engine : (Instr.nop (.sq 19)).wf = true ∧ (Instr.nop (.ce 8)).wf = false ∧ (Instr.nop (.mv 8)).wf = false := by decide
theorem test_wf_access : (Instr.badAddressAccess true 0x3FFFFFF 1).wf = true ∧ (Instr.badAddressAccess true 0x3FFFFFF 2).wf = false ∧
    (Instr.badAddressAccess true 0 0).wf = false ∧ (Instr.badAddressAccess true 0 9).wf = false := by decide
theorem test_wf_value : (Instr.registerWrite 0x10000 1 255).wf = true ∧ (Instr.registerWrite 0x10000 1 256).wf = false := by decide
theorem test_wf_register : (Instr.bindRegWrite 8 0).wf = true ∧ (Instr.bindRegWrite 4 0).wf = false := by decide
theorem test_wf_slot : (Instr.bindLoad 63 0).wf = true ∧ (Instr.bindLoad 64 0).wf = false := by decide
theorem test_wf_mailbox : (Instr.identity 65535 []).wf = true ∧ (Instr.identity 65536 []).wf = false ∧
    ∀ l : List Byte, l.length = 3073 → (Instr.identity 0 l).wf = false := ⟨by decide, by decide, fun l h => by simp [Instr.wf, h]⟩
theorem test_wf_motor : (Instr.mcStart 5).wf = true ∧ (Instr.mcStart 6).wf = false := by decide
theorem test_wf_ring : (Instr.ping 3 (List.replicate 128 0) false []).wf = true ∧ (Instr.ping 4 (List.replicate 128 0) false []).wf = false ∧
    (Instr.ping 3 (List.replicate 127 0) false []).wf = false := by simp [Instr.wf, ringEntry]
theorem test_wf_straps : (Instr.resetL ⟨3, false, 3⟩).wf = true ∧ (Instr.resetL ⟨4, false, 3⟩).wf = false ∧ (Instr.resetL ⟨3, false, 4⟩).wf = false := by decide
theorem test_wf_line_port : (Instr.arpRequest 1 ⟨2 ^ 48 - 1, 0⟩ 0 ⟨false, 0, 64⟩).wf = true ∧ (Instr.arpRequest 2 ⟨0, 0⟩ 0 ⟨false, 0, 64⟩).wf = false ∧
    (Instr.arpRequest 1 ⟨2 ^ 48, 0⟩ 0 ⟨false, 0, 64⟩).wf = false ∧ (Instr.icmpEcho 1 ⟨⟨0, 2 ^ 32⟩, 0⟩ ⟨false, 0, 64⟩ []).wf = false ∧
    (Instr.linePortLinkChange 1 true 3).wf = false := by decide
theorem test_wf_peer_port : (Instr.ocingRetryTimeout 1 255).wf = true ∧ (Instr.ocingRetryTimeout 1 256).wf = false ∧ (Instr.echo 2 []).wf = false ∧
    (Instr.handoffOffer 2048).wf = false := by decide
theorem test_wf_rail : (Instr.rlkPing (.taken 127 [] true)).wf = true ∧ (Instr.rlkPing (.taken 128 [] true)).wf = false ∧
    (Instr.railChatter 12).wf = false ∧ (Instr.pllLockLoss 6).wf = false ∧ (Instr.planBurn 4 true).wf = false ∧ (Instr.graceExpiry 8).wf = false := by decide
theorem test_wf_small : (Instr.rejPulseTimer 8).wf = false ∧ (Instr.strobeEnd 15 32).wf = false ∧ (Instr.blockWriteDone 64 true).wf = false ∧
    (Instr.mergeDrain (109 * 65536)).wf = false ∧ (Instr.jobResident 512).wf = false ∧ (Instr.maskPageCopyDone 16).wf = false ∧ (Instr.wflenWrite 15 8 0).wf = false ∧
    (Instr.ceHostxWrite 7 8 0).wf = false ∧ (Instr.engineRun (.sq 0) 2048).wf = false ∧ (Instr.pgVel 7 (2 ^ 48)).wf = false ∧
    (Instr.dropTestResult 15 [] []).wf = false ∧ (Instr.busSample 2 0 0).wf = false ∧ (Instr.ringConsumerWrite 5 0).wf = false := by decide

/-! ### States to test on -/

/-- Fields written one after the other. -/
def put (l : List (Field × Nat)) (s : State) : State := l.foldl (fun t x => setF x.1 x.2 t) s

theorem put_sound : ∀ (l : List (Field × Nat)) {s : State}, Sound s → Sound (put l s)
  | [], _, h => h
  | x :: l, _, h => put_sound l (sound_setF h x.1 x.2)

theorem reset_sound : Sound State.reset where
  banks := by decide
  regs := by decide
  shadow := by decide
  image := by decide
  ddr := by decide
  hostMem := by decide
  ledgers := fun _ h => (List.eq_of_mem_replicate h) ▸ Ledger.law_zero
  ledgerCopies := fun _ h => (List.eq_of_mem_replicate h) ▸ Ledger.law_zero
  ledgersSaved := nofun
  counters := nofun
  counterCopies := nofun

/-- The reset state with registers written keeps the laws. -/
theorem sound_put (l : List (Field × Nat)) : Sound (put l State.reset) := put_sound l reset_sound

/-- A device whose start has not stopped answers the host whatever its registers hold. -/
theorem runs_put : ∀ (l : List (Field × Nat)) {s : State}, startStopped s = false → startStopped (put l s) = false
  | [], _, h => h
  | x :: l, s, h => runs_put l (s := setF x.1 x.2 s) h

/-- An engine whose core is `c`, in state `x`. -/
def engineIn (e : Engine) (x : Nat) (c : Core) : State := put [(stateField e, x)] (match e with
  | .sq n => setSeq n { core := c } State.reset
  | .ce n => setCtl n { core := c } State.reset
  | .mv n => setMover n { core := c } State.reset)

theorem engineIn_sound (e : Engine) (x : Nat) (c : Core) : Sound (engineIn e x c) := put_sound _ (by
  cases e with
  | sq n => exact sound_setSeq' reset_sound
  | ce n => exact sound_setCtl' reset_sound
  | mv n => exact sound_setMover' reset_sound)

/-- A running engine whose next instruction is `word`. -/
def running (e : Engine) (word : BitVec 32) : State := engineIn e 2 { prog := [(0, word)] }

/-! ### Adeger words, written out from the encoding tables (R187 to R196, R203, R213, R215) -/

theorem test_nop : nextInsn (.sq 0) (running (.sq 0) 0b000000_0000_0000_0000_00000000000001) = some .nop := by decide
theorem test_ldi_negative : nextInsn (.ce 7) (running (.ce 7) 0b000001_1111_0000_0000_10000000000000) = some (.ldi 15 0x2000) := by decide
theorem test_ldi_z : nextInsn (.mv 7) (running (.mv 7) 0b000001_0001_0000_0001_11111111111111) = some (.ldiZ 1 0x3FFF) := by decide
theorem test_ldi_sh : nextInsn (.mv 0) (running (.mv 0) 0b000001_0001_0000_0010_00000000000001) = some (.ldiSh 1 1) := by decide
theorem test_ld_down : nextInsn (.sq 15) (running (.sq 15) 0b000010_0011_1011_0000_00000000000000) = some (.ld 3 2 3 0) := by decide
theorem test_st_up : nextInsn (.mv 3) (running (.mv 3) 0b000011_0000_0100_0000_00000000000111) = some (.st 0 1 0 7) := by decide
theorem test_add_word : nextInsn (.ce 0) (running (.ce 0) 0b000100_0001_0010_0011_000000_00000000) =
    some (.alu .add ⟨0, 1⟩ ⟨0, 2⟩ (.reg ⟨0, 3⟩)) := by decide
theorem test_sub_word : nextInsn (.sq 0) (running (.sq 0) 0b000111_0001_0010_0000_11111111111111) =
    some (.alu .sub ⟨0, 1⟩ ⟨0, 2⟩ (.imm (BitVec.ofInt 48 (-1)))) := by decide
theorem test_and_word : nextInsn (.sq 0) (running (.sq 0) 0b001000_0001_0010_0011_000000_00000000) =
    some (.alu .and ⟨0, 1⟩ ⟨0, 2⟩ (.reg ⟨0, 3⟩)) := by decide
theorem test_or_word : nextInsn (.sq 0) (running (.sq 0) 0b001010_0001_0010_0011_000000_00000000) =
    some (.alu .or ⟨0, 1⟩ ⟨0, 2⟩ (.reg ⟨0, 3⟩)) := by decide
theorem test_xor_word : nextInsn (.sq 0) (running (.sq 0) 0b001100_0001_0010_0011_000000_00000000) =
    some (.alu .xor ⟨0, 1⟩ ⟨0, 2⟩ (.reg ⟨0, 3⟩)) := by decide
theorem test_shl_word : nextInsn (.ce 0) (running (.ce 0) 0b001110_0001_0010_0011_000000_00000000) =
    some (.alu .shl ⟨0, 1⟩ ⟨0, 2⟩ (.reg ⟨0, 3⟩)) := by decide
theorem test_shr_word : nextInsn (.ce 0) (running (.ce 0) 0b010000_0001_0010_0011_000000_00000000) =
    some (.alu .shr ⟨0, 1⟩ ⟨0, 2⟩ (.reg ⟨0, 3⟩)) := by decide
theorem test_sra_word : nextInsn (.ce 0) (running (.ce 0) 0b010010_0001_0010_0011_000000_00000000) =
    some (.alu .sra ⟨0, 1⟩ ⟨0, 2⟩ (.reg ⟨0, 3⟩)) := by decide
theorem test_cmp_word : nextInsn (.sq 0) (running (.sq 0) 0b010100_0000_0010_0011_000000_00000000) =
    some (.cmp ⟨0, 2⟩ (.reg ⟨0, 3⟩)) := by decide
theorem test_cmp_pos_word : nextInsn (.sq 0) (running (.sq 0) 0b010100_0000_0010_0011_000000_00000001) =
    some (.cmpP ⟨0, 2⟩ ⟨0, 3⟩) := by decide
theorem test_branch_words :
    nextInsn (.mv 0) (running (.mv 0) 0b010110_0000_1111111111111111111111) = some (.br (-1)) ∧
    nextInsn (.mv 0) (running (.mv 0) 0b010111_0000_0000000000000000000010) = some (.bz 2) ∧
    nextInsn (.mv 0) (running (.mv 0) 0b011000_0000_0000000000000000000010) = some (.bnz 2) ∧
    nextInsn (.mv 0) (running (.mv 0) 0b011001_0000_0000000000000000000010) = some (.bn 2) ∧
    nextInsn (.mv 0) (running (.mv 0) 0b011010_0000_0000000000000000000010) = some (.call 2) ∧
    nextInsn (.mv 0) (running (.mv 0) 0b011100_0101_0000000000000000000010) = some (.loop 5 2) := by decide
theorem test_ret_word : nextInsn (.mv 0) (engineIn (.mv 0) 2 { prog := [(0, 0b011011_00000000000000000000000000)], stack := [9] }) =
    some .ret := by decide
/-- RET on an empty stack is no instruction that runs (R197). -/
theorem test_ret_empty : nextInsn (.mv 0) (running (.mv 0) 0b011011_00000000000000000000000000) = none := by decide
theorem test_evt_word : nextInsn (.ce 0) (running (.ce 0) 0b011110_0000_0000_0000_10000000000001) = some (.evt 0x2001) := by decide
theorem test_firing_words :
    nextInsn (.sq 0) (running (.sq 0) 0b100100_0000_0000_0000_00000000000000) = some .grpAdv ∧
    nextInsn (.sq 0) (running (.sq 0) 0b100100_0000_0101_0000_00000000000001) = some (.grpSet 5) ∧
    nextInsn (.sq 0) (running (.sq 0) 0b100100_0101_0000_0000_00000000000010) = some (.grpGet 5) ∧
    nextInsn (.sq 0) (running (.sq 0) 0b100110_0101_0000_0000_00000000000000) = some (.wfselGet 5) ∧
    nextInsn (.sq 0) (running (.sq 0) 0b100110_0000_0101_0000_00000000000001) = some (.wfselSet 5) ∧
    nextInsn (.sq 0) (running (.sq 0) 0b101001_0101_0000_0000_00000000000000) = some (.stretch 0 5 0) ∧
    nextInsn (.sq 0) (running (.sq 0) 0b101001_0101_0110_0000_00000000000001) = some (.stretch 1 5 6) ∧
    nextInsn (.sq 0) (running (.sq 0) 0b101001_0101_0000_0000_00000000000011) = some (.stretch 3 5 0) := by decide
theorem test_loop_words :
    nextInsn (.ce 0) (running (.ce 0) 0b100000_0001_0010_0011_000000_0_1_101111) = some (.mul 47 true ⟨0, 1⟩ ⟨0, 2⟩ ⟨0, 3⟩) ∧
    nextInsn (.ce 0) (running (.ce 0) 0b100001_0000_0010_0011_000000_000000_00) = some (.macAcc ⟨0, 2⟩ ⟨0, 3⟩) ∧
    nextInsn (.ce 0) (running (.ce 0) 0b100001_0000_0010_0011_000000_000000_01) = some (.macSet ⟨0, 2⟩ ⟨0, 3⟩) ∧
    nextInsn (.ce 0) (running (.ce 0) 0b100001_0000_0010_0011_000000_000000_10) = some (.macSub ⟨0, 2⟩ ⟨0, 3⟩) ∧
    nextInsn (.ce 0) (running (.ce 0) 0b100001_0001_0000_0000_000000_000100_11) = some (.macRead 4 ⟨0, 1⟩) ∧
    nextInsn (.ce 0) (running (.ce 0) 0b100010_0001_0010_0011_000000_00000000) = some (.lim ⟨0, 1⟩ ⟨0, 2⟩ ⟨0, 3⟩) ∧
    nextInsn (.ce 0) (running (.ce 0) 0b100011_0001_0010_0011_000000_00000000) = some (.mins ⟨0, 1⟩ ⟨0, 2⟩ ⟨0, 3⟩) ∧
    nextInsn (.ce 0) (running (.ce 0) 0b100100_0001_0010_0011_000000_00000001) = some (.pre true ⟨0, 1⟩ ⟨0, 2⟩ ⟨0, 3⟩) ∧
    nextInsn (.ce 0) (running (.ce 0) 0b100110_0001_0010_0011_000000_00000000) = some (.diff ⟨0, 1⟩ ⟨0, 2⟩ 3) := by decide
theorem test_mover_words :
    nextInsn (.mv 0) (running (.mv 0) 0b100010_0001_0000_0000_0000_1111111111) = some (.waitEvi 1 1023) ∧
    nextInsn (.mv 0) (running (.mv 0) 0b100011_0000_0000_0000_01_0_111_000_00111) = some (.sig 1 7 7) := by decide

/-! ### Small effects -/

/-- W1 = W2 + W3 with 2^47 − 1 and 1: profile F wraps and sets V; profile L clamps, with V and S (R193). -/
def sumWords : List Word := [0, 0, 0x7FFFFFFFFFFF, 1, 0, 0, 0, 0, 0, 0, 0, 0, 0, 0, 0, 0]
def afterStep (o : Host.Outcome State Fault Refusal) : State := match o with
  | .next t => t
  | _ => State.reset
theorem test_add_wraps :
    let t := afterStep (exec (.add (.sq 0)) (engineIn (.sq 0) 2 { prog := [(0, 0b000100_0001_0010_0011_000000_00000000)], w := sumWords }))
    (coreOf (.sq 0) t).w.getD 1 0 = 0x800000000000 ∧ (coreOf (.sq 0) t).fl.v = true ∧ (coreOf (.sq 0) t).fl.s = false := by decide
theorem test_add_clamps :
    let t := afterStep (exec (.add (.ce 0)) (engineIn (.ce 0) 2 { prog := [(0, 0b000100_0001_0010_0011_000000_00000000)], w := sumWords }))
    (coreOf (.ce 0) t).w.getD 1 0 = 0x7FFFFFFFFFFF ∧ (coreOf (.ce 0) t).fl.v = true ∧ (coreOf (.ce 0) t).fl.s = true := by decide
/-- Copying an engine's word into itself is the MV of R196: OR W2, W2, W2 leaves W2. -/
theorem test_or_same :
    let t := afterStep (exec (.or (.sq 0)) (engineIn (.sq 0) 2 { prog := [(0, 0b001010_0010_0010_0010_000000_00000000)], w := sumWords }))
    (coreOf (.sq 0) t).w = sumWords ∧ (coreOf (.sq 0) t).pc = 1 := by decide
/-- The CRC-32C of the nine digits is 0xE3069283 (the check value of the polynomial that R176 names). -/
theorem test_crc32c : crc32c [0x31, 0x32, 0x33, 0x34, 0x35, 0x36, 0x37, 0x38, 0x39] = 0xE3069283 := by decide +kernel
/-- The digits 123456 give the codewords 142, 164, 186 and, by the standard's own example, the check codewords 114, 25, 5, 88, 102 (R163). -/
theorem test_dm_checks : dmCodewords [0x31, 0x32, 0x33, 0x34, 0x35, 0x36] = [142, 164, 186] ∧ rsCheck 5 [142, 164, 186] = [114, 25, 5, 88, 102] := by
  decide +kernel
/-- The content PJJ123C in code set B has the check value 55 of the well-known worked example; here its digits stay in set B too (R164). -/
theorem test_c128_check : c128Values [0x50, 0x4A, 0x4A, 0x31, 0x32, 0x33, 0x43] = [104, 48, 42, 42, 17, 18, 19, 35, 55] := by decide +kernel
/-- A thermistor whose resistance is its nominal one is at 25 °C, whatever its β (R465). -/
theorem test_thermistor : thermistor 32768 3950 = some 400 ∧ thermistor 32768 3435 = some 400 := by decide +kernel
/-- K28.5 is 0011111010 from negative disparity and 1100000101 from positive, and D21.5 is 1010101010 from both (R257, clause 36). -/
theorem test_code_groups : (codeGroups false [symIdle, symIdle, symData 0xB5]).map (fun g => g.toNat) = [0b0011111010, 0b1100000101, 0b1010101010] := by decide +kernel
/-- Positions compare modulo 2^48 (R41). -/
theorem test_position_wraps : posDiff 1 0xFFFFFFFFFFFF = 2 := by decide

/-! ### Witnesses: for each statement's hypotheses a state and operands that meet them together -/

/-- A state that differs from one that keeps the laws in nothing the laws speak of keeps them. -/
theorem sound_same {s t : State} (h : Sound s)
    (e : (bankSizes t, t.regs, t.shadow, t.mem.image, t.mem.ddr, t.host.mem) = (bankSizes s, s.regs, s.shadow, s.mem.image, s.mem.ddr, s.host.mem))
    (f : (t.sch.ledgers, t.sch.mirror, t.sch.saved, t.trust.counters, t.trust.mirror) =
      (s.sch.ledgers, s.sch.mirror, s.sch.saved, s.trust.counters, s.trust.mirror)) : Sound t := by
  simp only [Prod.mk.injEq] at e f
  obtain ⟨e1, e2, e3, e4, e5, e6⟩ := e
  obtain ⟨f1, f2, f3, f4, f5⟩ := f
  exact { banks := e1.trans h.banks, regs := e2 ▸ h.regs, shadow := e3 ▸ h.shadow, image := e4 ▸ h.image, ddr := e5 ▸ h.ddr, hostMem := e6 ▸ h.hostMem,
          ledgers := f1 ▸ h.ledgers, ledgerCopies := f2 ▸ h.ledgerCopies, ledgersSaved := f3 ▸ h.ledgersSaved, counters := f4 ▸ h.counters,
          counterCopies := f5 ▸ h.counterCopies }

/-- A product of line 3 that is IN_FLIGHT, in entry 0 of the product table. -/
def flying : State := { State.reset with sch.ptab := [(0, { (default : Product) with line := 3, state := .inFlight, slot := 63 })] }
theorem flying_sound : Sound flying := sound_same reset_sound rfl rfl

theorem wit_StepIdles : State.reset.pending = [] := rfl
theorem wit_StepKeepsLaws : ∃ s t, Sound s ∧ step s = .next t :=
  ⟨{ State.reset with pending := [.ptabSweep] }, _, sound_same reset_sound rfl rfl, rfl⟩
theorem wit_RunsTakeTheQueue : ∃ s : State, Sound s ∧ 2 ≤ s.pending.length :=
  ⟨{ State.reset with pending := [.ptabSweep, .snapReq 0] }, sound_same reset_sound rfl rfl, by decide⟩
theorem wit_EngineLoadsImmediate : (∃ e s, Sound s ∧ nextInsn e s = some .nop ∧ flawAt (progWord e (coreOf e s).pc) s = none) ∧ (∃ e s, Sound s ∧ nextInsn e s = some (.ldi 15 0x2000)) ∧
    (∃ e s, Sound s ∧ nextInsn e s = some (.ldiZ 1 0x3FFF)) ∧ ∃ e s, Sound s ∧ nextInsn e s = some (.ldiSh 1 1) :=
  ⟨⟨_, _, engineIn_sound _ _ _, test_nop, by decide⟩, ⟨_, _, engineIn_sound _ _ _, test_ldi_negative⟩, ⟨_, _, engineIn_sound _ _ _, test_ldi_z⟩,
    ⟨_, _, engineIn_sound _ _ _, test_ldi_sh⟩⟩
/-- A load from a sound word, and one from a word that is uncorrectable. -/
theorem wit_EngineDataMemory : (∃ e s, Sound s ∧ nextInsn e s = some (.ld 3 2 3 0) ∧ wordBad (dataWord e 0) (fetched e s) = false) ∧
    (∃ e s, Sound s ∧ nextInsn e s = some (.ld 3 2 3 0) ∧ wordBad (dataWord e 0) (fetched e s) = true) ∧ ∃ e s, Sound s ∧ nextInsn e s = some (.st 0 1 0 7) :=
  ⟨⟨_, _, engineIn_sound _ _ _, test_ld_down, by decide⟩,
    ⟨.sq 15, { running (.sq 15) 0b000010_0011_1011_0000_00000000000000 with mem.flaws := [{ word := dataWord (.sq 15) 0, kind := .poison }] },
      sound_same (s := running (.sq 15) 0b000010_0011_1011_0000_00000000000000) (engineIn_sound _ _ _) rfl rfl, by decide⟩,
    ⟨_, _, engineIn_sound _ _ _, test_st_up⟩⟩
theorem wit_EngineAddSub : (∃ e s, nextInsn e s = some (.alu .add ⟨0, 1⟩ ⟨0, 2⟩ (.reg ⟨0, 3⟩))) ∧
    ∃ e s, nextInsn e s = some (.alu .sub ⟨0, 1⟩ ⟨0, 2⟩ (.imm (BitVec.ofInt 48 (-1)))) := ⟨⟨_, _, test_add_word⟩, ⟨_, _, test_sub_word⟩⟩
theorem wit_EngineLogic : (∃ e s, nextInsn e s = some (.alu .and ⟨0, 1⟩ ⟨0, 2⟩ (.reg ⟨0, 3⟩))) ∧
    (∃ e s, nextInsn e s = some (.alu .or ⟨0, 1⟩ ⟨0, 2⟩ (.reg ⟨0, 3⟩))) ∧
    ∃ e s, nextInsn e s = some (.alu .xor ⟨0, 1⟩ ⟨0, 2⟩ (.reg ⟨0, 3⟩)) := ⟨⟨_, _, test_and_word⟩, ⟨_, _, test_or_word⟩, ⟨_, _, test_xor_word⟩⟩
theorem wit_EngineShifts : (∃ e s, e.profile = .l ∧ nextInsn e s = some (.alu .shl ⟨0, 1⟩ ⟨0, 2⟩ (.reg ⟨0, 3⟩))) ∧
    (∃ e s, nextInsn e s = some (.alu .shr ⟨0, 1⟩ ⟨0, 2⟩ (.reg ⟨0, 3⟩))) ∧
    ∃ e s, nextInsn e s = some (.alu .sra ⟨0, 1⟩ ⟨0, 2⟩ (.reg ⟨0, 3⟩)) :=
  ⟨⟨.ce 0, _, rfl, test_shl_word⟩, ⟨_, _, test_shr_word⟩, ⟨_, _, test_sra_word⟩⟩
theorem wit_EngineCompare : (∃ e s, nextInsn e s = some (.cmp ⟨0, 2⟩ (.reg ⟨0, 3⟩))) ∧ ∃ e s, nextInsn e s = some (.cmpP ⟨0, 2⟩ ⟨0, 3⟩) :=
  ⟨⟨_, _, test_cmp_word⟩, ⟨_, _, test_cmp_pos_word⟩⟩
theorem wit_EngineBranches : ∃ e, (∃ s, Sound s ∧ nextInsn e s = some (.br (-1))) ∧ (∃ s, Sound s ∧ nextInsn e s = some (.bz 2)) ∧
    (∃ s, Sound s ∧ nextInsn e s = some (.bnz 2)) ∧ (∃ s, Sound s ∧ nextInsn e s = some (.bn 2)) ∧ (∃ s, Sound s ∧ nextInsn e s = some (.call 2)) ∧
    (∃ s, Sound s ∧ nextInsn e s = some .ret) ∧ ∃ s, Sound s ∧ nextInsn e s = some (.loop 5 2) := by
  obtain ⟨a, b, c, d, f, g⟩ := test_branch_words
  exact ⟨.mv 0, ⟨_, engineIn_sound _ _ _, a⟩, ⟨_, engineIn_sound _ _ _, b⟩, ⟨_, engineIn_sound _ _ _, c⟩, ⟨_, engineIn_sound _ _ _, d⟩,
    ⟨_, engineIn_sound _ _ _, f⟩, ⟨_, engineIn_sound _ _ _, test_ret_word⟩, ⟨_, engineIn_sound _ _ _, g⟩⟩
/-- An event queue with three entries, and one with four. -/
theorem wit_EngineEvents : (∃ e s, Sound s ∧ nextInsn e s = some (.evt 1) ∧ (coreOf e s).evq.length = 3) ∧
    ∃ e s, Sound s ∧ nextInsn e s = some (.evt 1) ∧ (coreOf e s).evq.length = 4 :=
  ⟨⟨.ce 0, engineIn (.ce 0) 2 { prog := [(0, 0b011110_0000_0000_0000_00000000000001)], evq := [(0, 0), (0, 0), (0, 0)] }, engineIn_sound _ _ _,
      by decide⟩,
    ⟨.ce 0, engineIn (.ce 0) 2 { prog := [(0, 0b011110_0000_0000_0000_00000000000001)], evq := [(0, 0), (0, 0), (0, 0), (0, 0)] },
      engineIn_sound _ _ _, by decide⟩⟩
theorem wit_LoopMultiply : ∃ n s, nextInsn (.ce n) s = some (.mul 47 true ⟨0, 1⟩ ⟨0, 2⟩ ⟨0, 3⟩) := ⟨0, _, test_loop_words.1⟩
theorem wit_LoopAccumulate : ∃ n, (∃ s, nextInsn (.ce n) s = some (.macAcc ⟨0, 2⟩ ⟨0, 3⟩)) ∧ (∃ s, nextInsn (.ce n) s = some (.macSet ⟨0, 2⟩ ⟨0, 3⟩)) ∧
    (∃ s, nextInsn (.ce n) s = some (.macSub ⟨0, 2⟩ ⟨0, 3⟩)) ∧ ∃ s, nextInsn (.ce n) s = some (.macRead 4 ⟨0, 1⟩) := by
  obtain ⟨-, a, b, c, d, -⟩ := test_loop_words
  exact ⟨0, ⟨_, a⟩, ⟨_, b⟩, ⟨_, c⟩, ⟨_, d⟩⟩
theorem wit_LoopLimits : ∃ n, (∃ s, nextInsn (.ce n) s = some (.lim ⟨0, 1⟩ ⟨0, 2⟩ ⟨0, 3⟩)) ∧ (∃ s, nextInsn (.ce n) s = some (.mins ⟨0, 1⟩ ⟨0, 2⟩ ⟨0, 3⟩)) ∧
    (∃ s, nextInsn (.ce n) s = some (.pre true ⟨0, 1⟩ ⟨0, 2⟩ ⟨0, 3⟩)) ∧ ∃ s, nextInsn (.ce n) s = some (.diff ⟨0, 1⟩ ⟨0, 2⟩ 3) := by
  obtain ⟨-, -, -, -, -, a, b, c, d⟩ := test_loop_words
  exact ⟨0, ⟨_, a⟩, ⟨_, b⟩, ⟨_, c⟩, ⟨_, d⟩⟩

/-- SRC 3 on line 3; and a product IN_FLIGHT on line 3 with a write that would change EN. -/
theorem wit_LineSettingsGuarded : startStopped flying = false ∧ (6 / 2 % 4 = 3) ∧ (∃ x ∈ flying.sch.ptab, x.2.line = 3 ∧ x.2.state = .inFlight) ∧
    1 / 2 ^ (fTRK_LINE_CTL_EN 3).lo % 2 ^ (fTRK_LINE_CTL_EN 3).width ≠ getF (fTRK_LINE_CTL_EN 3) flying := by decide
theorem wit_PresetSetsPositions : ∃ s, Sound s ∧ startStopped s = false ∧ (∀ x ∈ s.sch.ptab, ¬ (x.2.line = 3 ∧ x.2.state = .inFlight)) ∧ (ledger 3 s).inf = 0 :=
  ⟨State.reset, reset_sound, rfl, fun _ h => absurd h List.not_mem_nil, rfl⟩
/-- A Z pulse 103 counts after the one before, with a CPR of 100; and one 102 counts after it, whose level has held or not. -/
def pulsed (count : Nat) : State :=
  put [(fTRK_ENC_CFG_Z_EN 7, 1), (fTRK_ENC_CFG_CPR 7, 100), (fTRK_ENC_COUNT_COUNT 7, count)]
    (State.reset.setEnc 7 { (State.reset.enc 7) with zLast := some 0 })
theorem pulsed_sound (n : Nat) : Sound (pulsed n) := put_sound _ (sound_setEnc reset_sound _ _)
theorem wit_ZPulseChecked : (Sound (pulsed 102) ∧ Sound (pulsed 103)) ∧
    ((∀ n ∈ [102, 103], getF (fTRK_ENC_STAT_Z 7) (pulsed n) = 0 ∧ getF (fTRK_ENC_CFG_Z_EN 7) (pulsed n) = 1 ∧
      getF (fTRK_ENC_CFG_CPR 7) (pulsed n) = 100 ∧ getF (fTRK_ENC_COUNT_COUNT 7) (pulsed n) = n ∧ ((pulsed n).enc 7).zLast = some 0 ∧
      ((pulsed n).enc 7).zTurned = false ∧ ((pulsed n).enc 7).accZ = none) ∧
    ¬ getF (fTRK_ENC_CFG_ENC_FILT 7) (pulsed 102) + 1 ≤ ((pulsed 102).reg rTRK_TICK - 0).toNat) :=
  ⟨⟨pulsed_sound _, pulsed_sound _⟩, by decide⟩

/-- An enabled input on line 3, whose leading edge comes while the line is OFF, NORMAL (1), below its mark, and within the blanking. -/
def watching (l : List (Field × Nat)) (x : Pd) : State := put ([(fTRK_PD_CFG_EN 15, 1), (fTRK_PD_CFG_LINE 15, 3)] ++ l) (State.reset.setPd 15 x)
theorem watching_sound (l : List (Field × Nat)) (x : Pd) : Sound (watching l x) := put_sound _ (sound_setPd reset_sound _ _)
theorem wit_LeadingEdgeLatches : (∀ l x, Sound (watching l x)) ∧
    (let early := watching [] { since := some 0 }
    let waits := watching [(fTRK_LINE_STAT_STATE 3, 1), (fTRK_PD_CFG_BLANK 15, 1)] { pending := [{ (default : Capture) with pos := 1 }] }
    let off := watching [] {}
    let below := watching [(fTRK_LINE_STAT_STATE 3, 1), (⟨rTRK_LINE_POS 3, 0, 48⟩, 1)] {}
    let blank := watching [(fTRK_LINE_STAT_STATE 3, 1), (fTRK_PD_CFG_BLANK 15, 1)] { lastPos := some 1 }
    let clear := watching [(fTRK_LINE_STAT_STATE 3, 1)] {}
    (∀ s ∈ [early, waits, off, below, blank, clear], getF (fTRK_PD_CFG_EN 15) s = 1 ∧ getF (fTRK_PD_CFG_LINE 15) s = 3 ∧ getF (fTRK_PD_STAT_LEVEL 15) s = 0) ∧
    getF (fTRK_LINE_STAT_STATE 3) off = 0 ∧
    getF (fTRK_LINE_STAT_STATE 3) below = 1 ∧ posDiff (below.reg (rTRK_LINE_RAWPOS 3)) (below.reg (rTRK_LINE_POS 3)) < 0 ∧
    getF (fTRK_LINE_STAT_STATE 3) blank = 1 ∧ ¬ posDiff (blank.reg (rTRK_LINE_RAWPOS 3)) (blank.reg (rTRK_LINE_POS 3)) < 0 ∧
    posDiff (blank.reg (rTRK_LINE_POS 3)) 1 < 256 * getF (fTRK_PD_CFG_BLANK 15) blank ∧
    getF (fTRK_LINE_STAT_STATE 3) clear = 1 ∧ ¬ posDiff (clear.reg (rTRK_LINE_RAWPOS 3)) (clear.reg (rTRK_LINE_POS 3)) < 0 ∧
    (clear.pd 15).lastPos = none ∧ (clear.pd 15).pending = [] ∧ (∀ s ∈ [waits, off, below, blank, clear], (s.pd 15).since = none) ∧
    (early.pd 15).since = some 0 ∧ (early.pd 15).started = false ∧ ¬ max 1 (getF (fTRK_PD_CFG_FILT_N 15) early) ≤ (early.reg rTRK_TICK - 0).toNat ∧
    (((waits.pd 15).pending.getLast?.map fun c => c.pos).or (waits.pd 15).lastPos) = some 1 ∧
    posDiff (waits.reg (rTRK_LINE_POS 3)) 1 < 256 * getF (fTRK_PD_CFG_BLANK 15) waits) :=
  ⟨watching_sound, by decide +kernel⟩

/-- Inserts with GO that are BADTYPE (10), BADARG (a CHANGE_OVER of engine 20), FULL (no host entries allowed), and PAST; and one that none refuses. -/
def inserting (max pos : Nat) : State := put [(fSCH_PET_HOSTMAX_HOSTMAX, max), (⟨rSCH_INS_POS, 0, 48⟩, pos)] State.reset
theorem wit_RefusedInsertHasNoEffect : (∀ m p, startStopped (inserting m p) = false) ∧
    ((2 ^ 19 + 10) / 2 ^ fSCH_INS_CMD_GO.lo % 2 = 1 ∧ (2 ^ 19 + 10) / 2 ^ fSCH_INS_CMD_TYPE.lo % 16 = 10 ∧
    (2 ^ 19 + 20 * 2 ^ 11 + 7) / 2 ^ fSCH_INS_CMD_TYPE.lo % 16 = 7 ∧ (2 ^ 19 + 20 * 2 ^ 11 + 7) / 2 ^ fSCH_INS_CMD_ARG.lo % 256 = 20 ∧
    (2 ^ 19 + 9) / 2 ^ fSCH_INS_CMD_TYPE.lo % 16 = 9 ∧ getF fSCH_PET_HOSTMAX_HOSTMAX (inserting 0 0) ≤ ((inserting 0 0).sch.pet.filter fun x => x.2.host).length ∧
    ¬ (8192 ≤ (inserting 1 0).sch.pet.length ∨ getF fSCH_PET_HOSTMAX_HOSTMAX (inserting 1 0) ≤ ((inserting 1 0).sch.pet.filter fun x => x.2.host).length) ∧
    0 ≤ posDiff ((inserting 1 0).reg (rTRK_LINE_POS 0)) ((inserting 1 0).reg rSCH_INS_POS)) := ⟨fun _ _ => runs_put _ rfl, by decide⟩
theorem wit_AcceptedInsertTakesAnEntry : Sound (inserting 1 1) ∧ startStopped (inserting 1 1) = false ∧ (2 ^ 19 + 9) / 2 ^ fSCH_INS_CMD_GO.lo % 2 = 1 ∧
    (2 ^ 19 + 9) / 2 ^ fSCH_INS_CMD_TYPE.lo % 16 = 9 ∧ (inserting 1 1).sch.pet.length < 8192 ∧
    ((inserting 1 1).sch.pet.filter fun x => x.2.host).length < getF fSCH_PET_HOSTMAX_HOSTMAX (inserting 1 1) ∧
    (2 ^ 19 + 9) / 2 ^ fSCH_INS_CMD_HEADREL.lo % 2 = 0 ∧
    posDiff ((inserting 1 1).reg (rTRK_LINE_POS ((2 ^ 19 + 9) / 2 ^ fSCH_INS_CMD_LINE.lo % 4))) ((inserting 1 1).reg rSCH_INS_POS) < 0 ∧
    spFind (inserting 1 1).sch.pet 0 = none ∧ ∀ j, j < 0 → (spFind (inserting 1 1).sch.pet j).isSome :=
  ⟨sound_put _, runs_put _ rfl, by decide, by decide, by decide, by decide, by decide, by decide, by decide, fun _ h => absurd h (Nat.not_lt_zero _)⟩
/-- Slot 63 VALID and bound to a product IN_FLIGHT; the same, not VALID; and slot 63 of the reset state. LOAD is bit 0 and UNLOAD bit 26. -/
theorem wit_SlotCommands :
    let busy := put [(fSCH_BIND_CTL_VALID 63, 1)] flying
    startStopped busy = false ∧ startStopped flying = false ∧ startStopped State.reset = false ∧ Sound busy ∧ getF (fSCH_BIND_CTL_VALID 63) busy = 1 ∧ slotInUse 63 busy = true ∧
    1 / 2 ^ (fSCH_BIND_CTL_LOAD 63).lo % 2 = 1 ∧ ¬ 1 / 2 ^ (fSCH_BIND_CTL_UNLOAD 63).lo % 2 = 1 ∧
    2 ^ 26 / 2 ^ (fSCH_BIND_CTL_UNLOAD 63).lo % 2 = 1 ∧ ¬ 2 ^ 26 / 2 ^ (fSCH_BIND_CTL_LOAD 63).lo % 2 = 1 ∧
    ¬ (getF (fSCH_BIND_CTL_VALID 63) State.reset = 1 ∧ slotInUse 63 State.reset = true) ∧
    Sound flying ∧ ¬ getF (fSCH_BIND_CTL_VALID 63) flying = 1 ∧ slotInUse 63 flying = true :=
  ⟨runs_put _ rfl, rfl, rfl, put_sound _ flying_sound, by decide, by decide, by decide, by decide, by decide, by decide, by decide, flying_sound, by decide, by decide⟩
theorem wit_SnapshotOfALine : startStopped State.reset = false ∧ (∀ x ∈ State.reset.sch.snapPend, x.1 ≠ 3) ∧
    ∃ s, Sound s ∧ ∃ x ∈ s.sch.snapPend, x.1 = 3 ∧ x.2 ≠ s.reg rTRK_TICK :=
  ⟨rfl, fun _ h => absurd h List.not_mem_nil, { State.reset with sch.snapPend := [(3, 1)] }, sound_same reset_sound rfl rfl, (3, 1), List.mem_cons_self, rfl, by decide⟩

/-! Trust and the renderer. -/

theorem wit_MailboxTakesOneRequest : (∀ l, Sound (put l State.reset)) ∧
    (mailboxRequest (.identity 65535 []) = some (0x50, 65535, []) ∧
    (getF fTRU_STAT_BUSY (put [(fTRU_STAT_BUSY, 1)] State.reset) = 1) ∧ getF fTRU_RSP_HDR_VALID (put [(fTRU_RSP_HDR_VALID, 1)] State.reset) = 1) :=
  ⟨sound_put, by decide⟩
theorem wit_MailboxAnswers : ∃ s, Sound s ∧ getF fTRU_STAT_BUSY s = 0 ∧ getF fTRU_RSP_HDR_VALID s = 0 ∧ getF fTRU_STAT_RESTARTING s = 0 ∧
    s.primer.switch ≠ .toTrial ∧ s.primer.switch ≠ .toActive ∧ s.lc.state = .retired ∧ mailboxRequest (.stencilEnd 0 []) = some (3, 0, []) :=
  ⟨put [(fTRU_STAT_BUSY, 0), (fTRU_STAT_RESTARTING, 0)] { State.reset with lc.state := .retired }, put_sound _ (sound_same reset_sound rfl rfl), by decide⟩
/-- Counter slot 63 after its first block: 256 issued, all reserved, and a block of 256 on its way to flash. -/
def counting (writing : Option Nat) : State := put [(fTRU_STAT_BUSY, 0), (fTRU_STAT_RESTARTING, 0)]
  { State.reset with trust.counters := [(63, { (default : Counter) with issued := 256, reserved := 256, next := 256, stop := 1000, writing := writing })] }
theorem counting_sound (w : Option Nat) : Sound (counting w) := put_sound _
  { reset_sound with counters := fun x h => (by rcases List.mem_singleton.1 h with rfl; rfl) }
theorem wit_SerialLedgerAnswers : ∃ x, counter 63 (counting none) = some x ∧ x.next < 2 ^ 48 ∧ x.issued < 2 ^ 48 ∧ (counting none).lc.state ≠ .retired ∧
    getF fTRU_STAT_BUSY (counting none) = 0 ∧ getF fTRU_RSP_HDR_VALID (counting none) = 0 ∧ getF fTRU_STAT_RESTARTING (counting none) = 0 :=
  ⟨_, rfl, by decide, by decide, by decide, by decide, by decide, by decide⟩
/-- Its two copies differ here, the other being empty; with the other copy lost they do not. -/
theorem wit_BlockReservation : (∃ x, Sound (counting (some 256)) ∧ counter 63 (counting (some 256)) = some x ∧ x.writing = some 256 ∧ x.state ≠ .broken ∧
      (counting (some 256)).trust.copyLost = none ∧ spFind (counting (some 256)).trust.mirror 63 ≠ some x) ∧
    ∃ s x, Sound s ∧ counter 63 s = some x ∧ x.writing = some 256 ∧ x.state ≠ .broken ∧ s.trust.copyLost = some 1 :=
  ⟨⟨_, counting_sound _, rfl, rfl, by decide, rfl, by decide⟩, { counting (some 256) with trust.copyLost := some 1 }, _,
    sound_same (counting_sound _) rfl rfl, rfl, rfl, by decide, rfl⟩
theorem wit_HintNeverSteps : Sound State.reset := reset_sound
/-- Slot 15 in use; an image of 4,096 columns by 24 rows, which is too large; and one of one dot. -/
theorem wit_HostImages : (∀ l, Sound (put l State.reset) ∧ startStopped (put l State.reset) = false) ∧
    ((getF fREN_HIMG_STAT_INUSE (put [(fREN_HIMG_STAT_INUSE, 2 ^ 15)] State.reset)).testBit (15 / 2 ^ fREN_HIMG_CMD_SLOT.lo % 16) = true ∧
    (getF fREN_HIMG_STAT_INUSE State.reset).testBit 15 = false ∧
    8192 < ((15 + 4095 * 2 ^ 4 + 23 * 2 ^ 16) / 2 ^ fREN_HIMG_CMD_H_M1.lo % 2 ^ fREN_HIMG_CMD_H_M1.width + 1 + 7) / 8 *
      ((15 + 4095 * 2 ^ 4 + 23 * 2 ^ 16) / 2 ^ fREN_HIMG_CMD_W_M1.lo % 2 ^ fREN_HIMG_CMD_W_M1.width + 1) ∧
    ¬ 8192 < (15 / 2 ^ fREN_HIMG_CMD_H_M1.lo % 2 ^ fREN_HIMG_CMD_H_M1.width + 1 + 7) / 8 *
      (15 / 2 ^ fREN_HIMG_CMD_W_M1.lo % 2 ^ fREN_HIMG_CMD_W_M1.width + 1)) :=
  ⟨fun l => ⟨sound_put l, runs_put l rfl⟩, by decide⟩
/-- A verification running; a font that no stencil names, in slot 15. -/
theorem wit_FontStore : (Sound (put [(fREN_FONT_STAT_BUSY, 1)] State.reset) ∧ startStopped (put [(fREN_FONT_STAT_BUSY, 1)] State.reset) = false ∧
      getF fREN_FONT_STAT_BUSY (put [(fREN_FONT_STAT_BUSY, 1)] State.reset) = 1) ∧
    ∃ s, Sound s ∧ startStopped s = false ∧ getF fREN_FONT_STAT_BUSY s ≠ 1 ∧ fontNamed (getF fREN_FONT_ID_FONT_ID s) s = false ∧ fontSlot (getF fREN_FONT_ID_FONT_ID s) s = some 15 :=
  ⟨⟨sound_put _, runs_put _ rfl, by decide⟩, put [(fREN_FONT_ID_FONT_ID, 1)] { State.reset with ren.fonts := State.reset.ren.fonts.set 15 (some ((List.replicate 12 0) ++ [1, 0, 0, 0])) },
    put_sound _ (sound_same reset_sound rfl rfl), runs_put _ rfl, by decide⟩

/-! Engines, sequencers and move channels. -/

theorem engineIn_runs (e : Engine) (x : Nat) (c : Core) : startStopped (engineIn e x c) = false := runs_put _ (by cases e <;> rfl)

theorem wit_EngineWindows : startStopped State.reset = false ∧ (∀ e x c, Sound (engineIn e x c) ∧ startStopped (engineIn e x c) = false) ∧
    ((Engine.sq 15 ∈ allEngines ∧ 4095 < progSize (.sq 15) ∧ engState (.sq 15) State.reset = 0) ∧
    (Engine.mv 7 ∈ allEngines ∧ 1023 < progSize (.mv 7) ∧ engState (.mv 7) (engineIn (.mv 7) 2 {}) ≠ 0) ∧
    (Engine.ce 7 ∈ allEngines ∧ dataSize (.ce 7) - 1 < dataSize (.ce 7))) :=
  ⟨rfl, fun e x c => ⟨engineIn_sound e x c, engineIn_runs e x c⟩, by decide⟩
theorem wit_EngineStarts : startStopped State.reset = false ∧ (∀ e x c, Sound (engineIn e x c) ∧ startStopped (engineIn e x c) = false) ∧
    (((Engine.mv 7).exists_ = true ∧ engState (.mv 7) (engineIn (.mv 7) 2 {}) = 2) ∧
    ((Engine.ce 7).exists_ = true ∧ engState (.ce 7) State.reset = 0) ∧
    ((Engine.mv 0).exists_ = true ∧ engState (.mv 0) (engineIn (.mv 0) 3 {}) = 3)) :=
  ⟨rfl, fun e x c => ⟨engineIn_sound e x c, engineIn_runs e x c⟩, by decide⟩
theorem wit_EngineStopsAndBells : (∀ e x c, Sound (engineIn e x c) ∧ startStopped (engineIn e x c) = false) ∧ (engState (.mv 7) (engineIn (.mv 7) 2 {}) = 2 ∧ (coreOf (.mv 7) (engineIn (.mv 7) 2 {})).wait = .none) ∧
    (engState (.mv 7) (engineIn (.mv 7) 2 { wait := .event 1 1 }) = 2 ∧ (coreOf (.mv 7) (engineIn (.mv 7) 2 { wait := .event 1 1 })).wait ≠ .none) ∧
    ∃ s, Sound s ∧ startStopped s = false ∧ headOf 15 s = some 15 ∧ (path 15 s).queue ≠ [] :=
  ⟨fun e x c => ⟨engineIn_sound e x c, engineIn_runs e x c⟩, by decide, by decide, setPath 15 { queue := [511] } State.reset, sound_setPath' reset_sound,
    by decide, by decide, by decide⟩

/-- Sequencer 0 runs job 511 on head 0 and comes to `word`. -/
def firing (word : BitVec 32) : State := setPath 0 { cur := some 511 } (running (.sq 0) word)
theorem firing_sound (w : BitVec 32) : Sound (firing w) := sound_setPath' (engineIn_sound _ _ _)
theorem wit_FiringInstructions : (∀ w, Sound (firing w)) ∧
    (runningJob 0 (firing 0b100100_0000_0000_0000_00000000000000) = some (0, 511) ∧
    nextInsn (.sq 0) (firing 0b100100_0000_0000_0000_00000000000000) = some .grpAdv ∧
    nextInsn (.sq 0) (firing 0b100100_0000_0101_0000_00000000000001) = some (.grpSet 5) ∧
    nextInsn (.sq 0) (firing 0b100100_0101_0000_0000_00000000000010) = some (.grpGet 5) ∧
    nextInsn (.sq 0) (firing 0b100110_0101_0000_0000_00000000000000) = some (.wfselGet 5) ∧
    nextInsn (.sq 0) (firing 0b100110_0000_0101_0000_00000000000001) = some (.wfselSet 5) ∧
    nextInsn (.sq 0) (firing 0b101001_0101_0000_0000_00000000000000) = some (.stretch 0 5 0) ∧
    nextInsn (.sq 0) (firing 0b101001_0101_0110_0000_00000000000001) = some (.stretch 1 5 6) ∧
    nextInsn (.sq 0) (firing 0b101001_0101_0000_0000_00000000000011) = some (.stretch 3 5 0)) :=
  ⟨firing_sound, by decide⟩
theorem wit_JobRelease : ∃ (s : State) (x : Job), Sound s ∧ headOf 15 s = some 15 ∧ engState (.sq 15) s = 1 ∧ (path 15 s).queue = [511] ∧
    spFind s.sch.jobs 511 = some x ∧ (path 15 s).cur = none ∧ (path 15 s).takeover = none ∧ (path 15 s).giving = false ∧ (path 15 s).copying = false :=
  ⟨setPath 15 { queue := [511] } (put [(fSQ_STAT_STATE 15, 1)] { State.reset with sch.jobs := [(511, default)] }), default,
    sound_setPath' (put_sound _ (sound_same reset_sound rfl rfl)), by decide⟩
/-- A mask copy in progress under the seal, with no hand-over that waits. -/
theorem wit_JobRelease_sealed : ∃ s, Sound s ∧ (path 15 s).copying = true ∧ (path 15 s).hoWait = false ∧ getF (fSQ_SHADOW_SEAL_SEAL 15) s = 1 :=
  ⟨setPath 15 { copying := true } (put [(fSQ_SHADOW_SEAL_SEAL 15, 1)] State.reset), sound_setPath' (sound_put _), by decide⟩
theorem wit_MoverEvents : (∃ s, Sound s ∧ nextInsn (.mv 0) s = some (.waitEvi 1 1023) ∧ (coreOf (.mv 0) s).evi &&& 1023 = 0) ∧
    (∃ s, Sound s ∧ nextInsn (.mv 0) s = some (.waitEvi 1 1023) ∧ (coreOf (.mv 0) s).evi &&& 1023 ≠ 0 ∧ (coreOf (.mv 0) s).stopReq = false) ∧
    (∃ s, Sound s ∧ engState (.mv 7) s = 2 ∧ (coreOf (.mv 7) s).wait = .event 15 512 ∧ (coreOf (.mv 7) s).evi &&& 512 ≠ 0 ∧
      (coreOf (.mv 7) s).stopReq = false) ∧
    ∃ s, Sound s ∧ nextInsn (.mv 0) s = some (.sig 1 7 7) ∧ (engineOf 1 7).exists_ = true ∧ engineOf 1 7 ≠ .mv 0 :=
  ⟨⟨_, engineIn_sound _ _ _, test_mover_words.1, by decide⟩,
    ⟨engineIn (.mv 0) 2 { prog := [(0, 0b100010_0001_0000_0000_0000_1111111111)], evi := 512 }, engineIn_sound _ _ _, by decide⟩,
    ⟨engineIn (.mv 7) 2 { wait := .event 15 512, evi := 512 }, engineIn_sound _ _ _, by decide⟩,
    ⟨_, engineIn_sound _ _ _, test_mover_words.2, by decide⟩⟩

/-! Heads, lasers, control engines and motors. -/

/-- An IDLE home sequencer; personality 6; RASTER_LASER on head 11; and lengths that sum to 1,025. -/
theorem wit_HeadSettingsGuarded : (∀ l, startStopped (put l State.reset) = false) ∧ (engState (.sq 15) (put [(fSQ_STAT_STATE 15, 1)] State.reset) ≠ 0 ∧ 5 < 6 / 2 ^ (fHP_CFG_PERS 15).lo % 8 ∧
    4 / 2 ^ (fHP_CFG_PERS 11).lo % 8 = 4 ∧ (1024 : Nat) < (1023 + 2 * 2 ^ 10) % 1024 + (1023 + 2 * 2 ^ 10) / 2 ^ 10 % 1024 +
      (1023 + 2 * 2 ^ 10) / 2 ^ 20 % 1024 + (1023 + 2 * 2 ^ 10) / 2 ^ 30 % 1024) := ⟨fun l => runs_put l rfl, by decide⟩
/-- A port with a STORE in progress, and one without. -/
def storing : State := setPort 15 { storing := some { serial := [], x := 0, y := 0 } } State.reset
theorem wit_AlignmentStoring : (startStopped storing = false ∧ ∀ l, startStopped (put l State.reset) = false) ∧ Sound storing ∧ (portOf 15 storing).storing = some { serial := [], x := 0, y := 0 } ∧
    (portOf 15 State.reset).storing = none ∧ ¬ getF (fHP_CFG_ID_REQ 15) (put [(fHP_CFG_ID_REQ 15, 0)] State.reset) = 1 ∧
    (portOf 15 (put [(fHP_CFG_ID_REQ 15, 0)] State.reset)).storing = none ∧ getF (fHP_CFG_ID_REQ 15) State.reset = 1 ∧ getF (fHP_STAT_PRESENT 15) State.reset = 0 :=
  ⟨⟨rfl, fun l => runs_put l rfl⟩, sound_setPort' reset_sound, rfl, by decide, by decide, by decide, by decide, by decide⟩
theorem wit_HeadReplies : (¬ (getF (fHP_STAT_PRESENT 15) State.reset = 1 ∧ getF (fHP_CFG_ID_REQ 15) State.reset = 1)) ∧
    (∃ s, Sound s ∧ getF (fHP_STAT_PRESENT 15) s = 1 ∧ getF (fHP_CFG_ID_REQ 15) s = 1 ∧ ([] : List Byte).length ≠ 5 ∧ getF (fHP_STAT_FAILS 15) s = 1) ∧
    ∃ s, Sound s ∧ (portOf 15 s).testQ = [(0, 0, 0), (4095, 3, 4095)] :=
  ⟨by decide, ⟨put [(fHP_STAT_PRESENT 15, 1), (fHP_CFG_ID_REQ 15, 1), (fHP_STAT_FAILS 15, 1)] State.reset, sound_put _, by decide⟩,
    ⟨setPort 15 { testQ := [(0, 0, 0), (4095, 3, 4095)] } State.reset, sound_setPort' reset_sound, by decide⟩⟩
/-- A laser on head 15, ACQUIRING; and LOCKED at facet 0 of 24 with IDX_EN. -/
theorem wit_LaserIndex : getF (fHP_CFG_PERS 15) State.reset ≠ 4 ∧
    (∃ s, Sound s ∧ getF (fHP_CFG_PERS 15) s = 4 ∧ getF (fHP_LSR_STAT_STATE 15) s = 1) ∧
    ∃ s, Sound s ∧ getF (fHP_CFG_PERS 15) s = 4 ∧ getF (fHP_LSR_STAT_STATE 15) s = 2 ∧ getF (fHP_DLL_CFG_IDX_EN 15) s = 1 ∧
      (getF (fHP_LSR_STAT_FACET 15) s + 1) % max 1 (getF (fHP_DLL_CFG_NFACET 15) s) ≠ 0 :=
  ⟨by decide, ⟨put [(fHP_CFG_PERS 15, 4), (fHP_LSR_STAT_STATE 15, 1)] State.reset, sound_put _, by decide⟩,
    ⟨put [(fHP_CFG_PERS 15, 4), (fHP_LSR_STAT_STATE 15, 2), (fHP_DLL_CFG_IDX_EN 15, 1), (fHP_DLL_CFG_NFACET 15, 24)] State.reset, sound_put _,
      by decide⟩⟩
/-- An engine outside SAFE; one in SAFE whose cause HOST never persists; and one whose last cycle overran in cause OVERRUN. -/
theorem wit_LaserIndex_configured : ∃ s, Sound s ∧ (portOf 15 s).laser.cfgTick = some (now s) :=
  ⟨setPort 15 { laser := { cfgTick := some 0 } } State.reset, sound_setPort' reset_sound, by decide⟩
theorem wit_LoopSafety : getF (fCE_STAT_MODE 7) State.reset ≠ 2 ∧
    (∃ s, Sound s ∧ getF (fCE_STAT_MODE 7) s = 2 ∧ getF (fCE_STAT_SAFE_CAUSE 7) s = 4) ∧
    ∃ s, Sound s ∧ getF (fCE_STAT_MODE 7) s = 2 ∧ getF (fCE_STAT_SAFE_CAUSE 7) s = 2 ∧ (ctlOf 7 s).overran = true :=
  ⟨by decide, ⟨put [(fCE_STAT_MODE 7, 2), (fCE_STAT_SAFE_CAUSE 7, 4)] State.reset, sound_put _, by decide⟩,
    ⟨put [(fCE_STAT_MODE 7, 2), (fCE_STAT_SAFE_CAUSE 7, 2)] (setCtl 7 { overran := true } State.reset), put_sound _ (sound_setCtl' reset_sound),
      by decide⟩⟩
/-- A cycle in its sixteenth clock with BUDGET 0, and one of a clock less. -/
theorem wit_OverrunAborts : (∃ s, Sound s ∧ engState (.ce 7) s = 2 ∧ max 16 (getF (fCE_TRIG_BUDGET 7) s) ≤ (coreOf (.ce 7) s).cyc / 8 + 1) ∧
    ∃ s, Sound s ∧ engState (.ce 7) s = 2 ∧ ¬ max 16 (getF (fCE_TRIG_BUDGET 7) s) ≤ (coreOf (.ce 7) s).cyc / 8 + 1 :=
  ⟨⟨put [(fCE_TRIG_BUDGET 7, 0)] (engineIn (.ce 7) 2 { cyc := 120 }), put_sound _ (engineIn_sound _ _ _), by decide⟩,
    put [(fCE_TRIG_BUDGET 7, 0)] (engineIn (.ce 7) 2 { cyc := 119 }), put_sound _ (engineIn_sound _ _ _), by decide⟩
theorem wit_ProfileCommands : (∀ l, startStopped (put l State.reset) = false) ∧ (getF (fCE_PG_STAT_MC_OWNED 7) State.reset ≠ 1 ∧ State.reset.reg (rCE_PG_VEL 7) = 0 ∧ State.reset.reg (rCE_PG_ACC 7) = 0) ∧
    (∃ s, Sound s ∧ getF (fCE_PG_STAT_MC_OWNED 7) s = 1) ∧ ∃ s, Sound s ∧ ¬ s.reg (rCE_PG_VEL 7) = 0 :=
  ⟨fun l => runs_put l rfl, by decide, ⟨put [(fCE_PG_STAT_MC_OWNED 7, 1)] State.reset, sound_put _, by decide⟩, ⟨put [(fCE_PG_VEL_V 7, 1)] State.reset, sound_put _, by decide⟩⟩
theorem wit_LoopSettings : ∃ s, Sound s ∧ startStopped s = false ∧ engState (.ce 7) s ≠ 0 ∧ getF (fCE_XCFG_CLASS 7 7) s = 7 :=
  ⟨put [(fCE_XCFG_CLASS 7 7, 7)] (engineIn (.ce 7) 1 {}), put_sound _ (engineIn_sound _ _ _), runs_put _ (engineIn_runs _ _ _), by decide⟩
/-- A channel that is not enabled, and one that may start with each angle source. -/
theorem wit_MotorStarts : startStopped State.reset = false ∧ getF (fMC_CFG_EN 5) State.reset ≠ 1 ∧
    (∀ k ∈ [0, 1, 2, 3], ∃ s, Sound s ∧ startStopped s = false ∧ getF (fMC_STAT_STATE 5) s = 0 ∧ getF (fMC_CFG_EN 5) s = 1 ∧ (motorOf 5 s).fltLow = false ∧
      getF (fBUS_STAT_VALID (getF (fMC_CFG_BUS 5) s)) s = 1 ∧ getF (fMC_CFG_ANG_SRC 5) s = k ∧ mcF 5 (fMC_ENC_CPR 5) s ≠ 0) :=
  ⟨rfl, by decide, fun k hk => by
    refine ⟨put [(fMC_CFG_EN 5, 1), (fMC_CFG_BUS 5, 1), (fBUS_STAT_VALID 1, 1), (fMC_ENC_CPR 5, 1), (fMC_CFG_ANG_SRC 5, k)] State.reset, sound_put _, runs_put _ rfl, ?_⟩
    revert k; decide⟩

/-! The host port, the image store, faults, power, ageing and the ways back. -/

/-- A byte of the image store and one of the first register are assigned; address 0xFF8 is not. -/
theorem wit_BadAddressesRecorded : (∃ s, startStopped s = true ∧ hostAccesses (.snapReq 0) = true) ∧ (∀ l, Sound (put l State.reset) ∧ startStopped (put l State.reset) = false) ∧
    (nothingAt false 0x1000000 = false ∧ nothingAt true 0x0 = false ∧ nothingAt true 0xFF8 = true ∧
    getF fHST_BADADDR_VALID State.reset = 0 ∧ getF fHST_BADADDR_VALID (put [(fHST_BADADDR_VALID, 1)] State.reset) = 1) :=
  ⟨⟨{ State.reset with flt.held := true, pwr.rails := .up }, rfl, rfl⟩, fun l => ⟨sound_put l, runs_put l rfl⟩, by decide⟩
/-- With 16 entries, an index of 16 is taken and one of 17 refused. -/
theorem wit_HostRings : Sound State.reset ∧ startStopped State.reset = false ∧
    (2 ^ min (max (getF (fHST_QP_CFG_LOG2N 3) State.reset) 4) 12 < (4097 + 65536 - getF (fHST_QP_RQ_CI_INDEX 3) State.reset) % 65536 ∧
    (16 + 65536 - getF (fHST_QP_RQ_CI_INDEX 3) State.reset) % 65536 ≤ 2 ^ min (max (getF (fHST_QP_CFG_LOG2N 3) State.reset) 4) 12 ∧
    2 ^ min (max (getF (fHST_QP_CFG_LOG2N 3) State.reset) 4) 12 < (getF (fHST_QP_RS_PI_INDEX 3) State.reset + 65536 - 1) % 65536 ∧
    (getF (fHST_QP_RS_PI_INDEX 3) State.reset + 65536 - 0) % 65536 ≤ 2 ^ min (max (getF (fHST_QP_CFG_LOG2N 3) State.reset) 4) 12) :=
  ⟨reset_sound, rfl, by decide⟩
theorem wit_ImageStoreWrites : Sound State.reset ∧ startStopped State.reset = false ∧ MergesOk State.reset ∧ (∀ i, i < 8 → imgWritable (0x1FA0000 + i) State.reset = true) ∧
    ¬ ∀ i, i < 1 → imgWritable (0x1F9FFFF + i) State.reset = true :=
  ⟨reset_sound, rfl, ⟨List.nodup_nil, fun _ h => absurd h List.not_mem_nil⟩, by decide, by decide⟩
/-- An entry that waits for a word that is uncorrectable; and no entry. -/
theorem wit_MergeDrainKeepsBytes : (∃ s m, Sound s ∧ MergesOk s ∧ m ∈ s.mem.merges ∧ m.word = 65535 ∧ none ∈ m.bytes ∧ wordBad 65535 s = true) ∧
    ∀ x ∈ State.reset.mem.merges, x.word ≠ 65535 :=
  ⟨⟨{ State.reset with mem.merges := [{ word := 65535, bytes := List.replicate 8 none }], mem.flaws := [{ word := 65535, kind := .poison }] },
      { word := 65535, bytes := List.replicate 8 none }, sound_same reset_sound rfl rfl,
      ⟨by decide, fun m h => by rcases List.mem_singleton.1 h with rfl; rfl⟩, List.mem_cons_self, rfl, by decide, rfl⟩, fun _ h => absurd h List.not_mem_nil⟩
theorem wit_LifeCycleIsolated : (∃ t, exec .ptabSweep State.reset = .next t) ∧ mayChangeLifeCycle .ptabSweep = false := ⟨⟨_, rfl⟩, rfl⟩
theorem wit_FaultsAreRecorded : (getF fCLK_STAT_DUP State.reset).testBit 5 = false ∧ Sound State.reset := ⟨by decide, reset_sound⟩
theorem wit_HistoryAndStatus : ∃ s x y, Sound s ∧ startStopped s = false ∧ s.flt.hist = x :: y :: List.replicate 30 default :=
  ⟨{ State.reset with flt.hist := default :: default :: List.replicate 30 default }, _, _, sound_same reset_sound rfl rfl, rfl, rfl⟩
/-- A plan may be burned in BLANK, and may not in DEPLOYED; four snapshots wait. -/
theorem wit_PlansAndSnapshots : (∃ s, Sound s ∧ s.lc.state = .deployed) ∧ (∃ s, Sound s ∧ s.lc.state = .blank ∧ wordGet ((s.pwr.fused.getD 3 []).getD 0 0) 45 1 ≠ 1 ∧
      (((List.range 13).map fun w => s.reg (rPWR_PLANBUF w)).zip (s.pwr.fused.getD 3 [])).map (fun x => x.1 ||| x.2) =
        (List.range 13).map fun w => s.reg (rPWR_PLANBUF w)) ∧
    ∃ s x y, Sound s ∧ startStopped s = false ∧ s.pwr.snaps = x :: y :: [default, default] :=
  ⟨⟨{ State.reset with lc.state := .deployed }, sound_same reset_sound rfl rfl, rfl⟩, ⟨{ State.reset with lc.state := .blank }, sound_same reset_sound rfl rfl, by decide⟩,
    ⟨{ State.reset with pwr.snaps := [default, default, default, default] }, _, _, sound_same reset_sound rfl rfl, rfl, rfl⟩⟩
/-- No table at the reset state's data memory; a table of two points; and a derate that waits, for nothing and for a RELEASED job. -/
theorem wit_AgeingRecords : startStopped State.reset = false ∧ frictionTable 7 State.reset = none ∧
    (∃ s, Sound s ∧ ∃ l, frictionTable 7 s = some l) ∧ State.reset.age.switch = none ∧
    (∃ s, Sound s ∧ s.age.switch = some [511] ∧ ¬ ∃ x ∈ s.sch.jobs, x.2.seq = 511 ∧ (x.2.state = .released ∨ x.2.state = .started)) ∧
    ∃ s, Sound s ∧ s.age.switch = some [511] ∧ ∃ x ∈ s.sch.jobs, x.2.seq = 511 ∧ (x.2.state = .released ∨ x.2.state = .started) :=
  ⟨rfl, by decide, ⟨setCtl 7 { core := { data := [(1, 0x200)] } } State.reset, sound_setCtl' reset_sound, _, rfl⟩, rfl,
    ⟨{ State.reset with age.switch := some [511] }, sound_same reset_sound rfl rfl, rfl, by decide⟩,
    ⟨{ State.reset with age.switch := some [511], sch.jobs := [(0, { (default : Job) with seq := 511, state := .released })] },
      sound_same reset_sound rfl rfl, rfl, by decide⟩⟩
theorem wit_WaysBack : startStopped State.reset = false ∧ getF (fSCH_LINE_STAT_LINE_SAFE 3) State.reset ≠ 1 ∧
    (∃ s, Sound s ∧ startStopped s = false ∧ getF (fSCH_LINE_STAT_LINE_SAFE 3) s = 1 ∧ ¬ (getF fFLT_REC_DEVICE_SAFE s = 1 ∨
      ∃ k ∈ s.sch.safeSrc.getD 3 [], (getF fFLT_STATUS_STATUS s).testBit k = true)) ∧
    (∃ s, Sound s ∧ startStopped s = false ∧ getF (fSCH_LINE_STAT_LINE_SAFE 3) s = 1 ∧ ∃ k ∈ s.sch.safeSrc.getD 3 [], (getF fFLT_STATUS_STATUS s).testBit k = true) ∧
    getF (fSCH_HEAD_STAT_STATE 15) State.reset ≠ 3 ∧
    (∃ s, Sound s ∧ startStopped s = false ∧ headOf 19 s = some 15 ∧ engState (.sq 15) s = 1 ∧ (path 15 s).queue ≠ []) ∧
    (∃ s, Sound s ∧ startStopped s = false ∧ headOf 19 s = some 15 ∧ engState (.sq 15) s = 1 ∧ (path 15 s).cur = none ∧ (path 15 s).queue = [] ∧
      (path 15 s).takeover = none ∧ getF (fSQ_STAT_STOP_PEND 15) s = 0) ∧ headOf 19 State.reset = none :=
  ⟨rfl, by decide, ⟨put [(fSCH_LINE_STAT_LINE_SAFE 3, 1)] State.reset, sound_put _, runs_put _ rfl, by decide⟩,
    ⟨put [(fSCH_LINE_STAT_LINE_SAFE 3, 1), (fFLT_STATUS_STATUS, 2 ^ 31)] { State.reset with sch.safeSrc := [[], [], [], [31]] },
      put_sound _ (sound_same reset_sound rfl rfl), runs_put _ rfl, by decide⟩,
    by decide, ⟨setPath 15 { queue := [511] } (put [(fSQ_BIND_PARTNER 15, 19), (fSQ_BIND_PARTNER 19, 15), (fSQ_STAT_STATE 15, 1)] State.reset),
      sound_setPath' (sound_put _), runs_put _ rfl, by decide⟩,
    ⟨put [(fSQ_BIND_PARTNER 15, 19), (fSQ_BIND_PARTNER 19, 15), (fSQ_STAT_STATE 15, 1)] State.reset, sound_put _, runs_put _ rfl, by decide⟩, by decide⟩

/-! The line ports, the peer ports and the firmware slots. -/

/-- A SPEED message for line 0 on a port whose peer is not set, sent to the port's address 5 and UDP port 9 (and so not to another); ARP and echo for the port's address and for another; and frames that are a fragment,
carry two tags, or are longer than 1,522 bytes. -/
def speed : List Byte := [0x53, 0x56, 0x4C, 0x4E, 0x01, 0x01] ++ List.replicate 6 0 ++ [6, 0] ++ List.replicate 8 0
theorem wit_LinePortMessages : getF (fLNP_CFG_EN 1) State.reset ≠ 1 ∧
    (∃ s, Sound s ∧ getF (fLNP_CFG_EN 1) s = 1 ∧ isSpeed speed = true ∧ getF (fTRK_LINE_CTL_SRC (leAt speed 6 1)) s ≠ 2 ∧
      (5 : Nat) = getF (fLNP_IP_IP 1) s ∧ (9 : Nat) = getF (fLNP_CFG_UDP_PORT 1) s ∧ 5 % 2 ^ 32 = getF (fLNP_IP_IP 1) s ∧ 4 % 2 ^ 32 ≠ getF (fLNP_IP_IP 1) s) ∧
    (∀ x ∈ ([⟨true, 0, 64⟩, ⟨false, 2, 64⟩, ⟨false, 0, 1523⟩] : List RxFrame), x.frag = true ∨ 1 < x.tags ∨ 1522 < x.len) ∧
    ¬ ((⟨false, 1, 1522⟩ : RxFrame).frag = true ∨ 1 < (⟨false, 1, 1522⟩ : RxFrame).tags ∨ 1522 < (⟨false, 1, 1522⟩ : RxFrame).len) :=
  ⟨by decide, ⟨put [(fLNP_CFG_EN 1, 1), (fLNP_CFG_UDP_PORT 1, 9), (fLNP_IP_IP 1, 5)] State.reset, sound_put _, by decide⟩, by decide, by decide⟩
/-- A one-step Sync in the port's domain and on its transport, with the path delay known; and one of another domain. -/
theorem wit_LinePortMessages_ptp : ∃ s, ∃ y : PtpMsg, Sound s ∧ getF (fLNP_CFG_EN 1) s = 1 ∧ getF fLNP_PTP_EN s = 1 ∧ getF fLNP_PTP_PORT s = 1 ∧
    getF fLNP_PTP_DOMAIN s = y.domain ∧ (getF fLNP_PTP_TRANSPORT s = 1 ↔ y.ethernet = true) ∧ y.kind = .sync false ∧ y.tx = none ∧
    s.lnp.ptp.delay = some 0 ∧ getF fLNP_PTP_DOMAIN s ≠ ({ y with domain := 7 } : PtpMsg).domain :=
  ⟨put [(fLNP_CFG_EN 1, 1), (fLNP_PTP_EN, 1), (fLNP_PTP_PORT, 1)] { State.reset with lnp.ptp.delay := some 0 },
    ⟨getB fLNP_PTP_TRANSPORT State.reset, getF fLNP_PTP_DOMAIN State.reset, .sync false, 0, 0, 0, none⟩, put_sound _ (sound_same reset_sound rfl rfl), by decide⟩
/-- An enabled link with both ports DOWN and broadcasts of line 3; and with both ports ACTIVE, and a frame whose CRC is wrong. -/
theorem wit_PeerPorts : (∃ s, Sound s ∧ getF (oclStateField 1) s = 0 ∧ getF (oclStateField 0) s = 0 ∧ getF fOCL_CFG_EN s = 1 ∧
      (getF fOCL_BCAST_EN s).testBit 3 = true) ∧
    (∃ s, Sound s ∧ getF (oclStateField 1) s = 3 ∧ getF (oclStateField 0) s = 3 ∧ getF fOCL_CFG_EN s = 1 ∧ (getF fOCL_BCAST_EN s).testBit 3 = true) ∧
    frameGood (0x10 :: List.replicate 23 0) = false ∧ (∃ b s, Sound s ∧ getF (oclStateField 1) s = 1 ∧ frameGood b = true) ∧ (getF fOCL_BCAST_EN State.reset).testBit 3 = false :=
  ⟨⟨put [(fOCL_CFG_EN, 1), (fOCL_BCAST_EN, 15)] State.reset, sound_put _, by decide⟩,
    ⟨put [(fOCL_CFG_EN, 1), (fOCL_BCAST_EN, 15), (oclStateField 0, 3), (oclStateField 1, 3)] State.reset, sound_put _, by decide⟩,
    by decide +kernel, ⟨List.replicate 4 0 ++ leBytes 4 (crc32c (List.replicate 4 0)), put [(oclStateField 1, 1)] State.reset, sound_put _, by decide +kernel, by decide +kernel⟩, by decide⟩
/-- A trial whose ten minutes are over, and sessions that are idle for 10 s and for a tick less. -/
def trial (tick : Nat) (x : Session) : State := put [(⟨rTRK_TICK, 0, 48⟩, tick)]
  { State.reset with primer.slots := [{ state := 3 }, { state := 4 }], primer.session := some x }
theorem trial_sound (tick : Nat) (x : Session) : Sound (trial tick x) := put_sound _ (sound_same reset_sound rfl rfl)
theorem wit_TrialsSessionsCopies : ∃ x : Session, (trial (600 * 200000000) x).primer.slots.length = 2 ∧ (trial (600 * 200000000) x).primer.active = 0 ∧
    (∃ y ∈ (trial (600 * 200000000) x).primer.slots, y.state = 4) ∧ (trial (600 * 200000000) x).primer.switch = .none ∧
    (trial (600 * 200000000) x).primer.confirmMin = 10 ∧
    10 * 60 * 200000000 ≤ ((trial (600 * 200000000) x).reg rTRK_TICK - (trial (600 * 200000000) x).primer.trialFrom).toNat ∧
    ¬ 10 * 60 * 200000000 ≤ ((trial 2000000000 x).reg rTRK_TICK - (trial 2000000000 x).primer.trialFrom).toNat ∧
    2000000000 ≤ ((trial 2000000000 x).reg rTRK_TICK - x.last).toNat ∧ ((trial 1999999999 x).reg rTRK_TICK - x.last).toNat < 2000000000 :=
  ⟨{ (default : Session) with last := 0 }, by decide⟩

end Sys2Proof.Tests
end

/-! SUPPORT. The proofs of the statements about the Adeger instruction set: shifts, compares and events (R194, R195, R198). -/

namespace Sys2Proof.Machine

/-! ### Words as integers -/

theorem twoPow_eq_ofInt (w k : Nat) : BitVec.twoPow w k = BitVec.ofInt w (2 ^ k) := by
  apply BitVec.eq_of_toNat_eq
  have h : (2 : Int) ^ k = ((2 ^ k : Nat) : Int) := by norm_cast
  rw [h, BitVec.ofInt_natCast, BitVec.toNat_ofNat, BitVec.toNat_twoPow]

theorem shiftLeft_eq_ofInt_mul (a : Word) (k : Nat) : a <<< k = BitVec.ofInt 48 (a.toInt * 2 ^ k) := by
  rw [BitVec.shiftLeft_eq_mul_twoPow, BitVec.ofInt_mul, BitVec.ofInt_toInt, twoPow_eq_ofInt]

theorem ushiftRight_eq_ofNat_div (a : Word) (k : Nat) : a >>> k = BitVec.ofNat 48 (a.toNat / 2 ^ k) := by
  apply BitVec.eq_of_toNat_eq
  rw [BitVec.toNat_ushiftRight, Nat.shiftRight_eq_div_pow, BitVec.toNat_ofNat, Nat.mod_eq_of_lt]
  exact (Nat.div_le_self _ _).trans_lt a.isLt

theorem sshiftRight_eq_ofInt_div (a : Word) (k : Nat) : a.sshiftRight k = BitVec.ofInt 48 (a.toInt / 2 ^ k) := by
  rw [BitVec.sshiftRight_eq, Int.shiftRight_eq_div_pow]
  norm_cast

theorem toInt_wrap48_sat48 (x : Int) : (wrap48 (sat48 x)).toInt = sat48 x := by
  have h : -(2 ^ 47) ≤ sat48 x ∧ sat48 x < 2 ^ 47 := by unfold sat48 clampInt; omega
  exact BitVec.toInt_ofInt_eq_self (by decide) h.1 h.2

/-- A clamp changes an integer exactly where it lies outside the range of a word (R193). -/
theorem sat48_ne_iff (x : Int) : sat48 x ≠ x ↔ x < -(2 ^ 47) ∨ 2 ^ 47 - 1 < x := by unfold sat48 clampInt; omega

theorem sub_eq_ofInt_sub (a b : Word) : a - b = BitVec.ofInt 48 (a.toInt - b.toInt) := by
  apply BitVec.eq_of_toInt_eq
  rw [BitVec.toInt_sub, BitVec.toInt_ofInt]

theorem Flags.zn_eq (r : Word) (f : Flags) : Flags.zn r f = { f with z := r == 0, n := decide (r.toInt < 0) } := by
  rw [Flags.zn, BitVec.msb_eq_toInt]

/-! ### Shifts (R195) -/

/-- The result of a shift: Z and N from it, C the last bit shifted out, V and with it S where it was clamped. -/
def shiftRes (r : Word) (c v : Bool) (f : Flags) : Res :=
  ⟨r, { z := r == 0, n := decide (r.toInt < 0), c := c, v := v, s := f.s || v, o := f.o }⟩

theorem shlOp_saturating (a : Word) (sh : Nat) (f : Flags) :
    shlOp .l a sh f = shiftRes (wrap48 (sat48 (a.toInt * 2 ^ sh))) (lastLeft a sh)
      (decide (a.toInt * 2 ^ sh < -(2 ^ 47) ∨ 2 ^ 47 - 1 < a.toInt * 2 ^ sh)) f := by
  simp only [shlOp, narrow, shiftRes, Flags.zn_eq, if_true, toInt_wrap48_sat48, sat48_ne_iff, decide_true, Bool.true_and]

theorem shlOp_modular {p : Profile} (hp : p ≠ .l) (a : Word) (sh : Nat) (f : Flags) :
    shlOp p a sh f = shiftRes (BitVec.ofInt 48 (a.toInt * 2 ^ sh)) (lastLeft a sh) false f := by
  simp only [shlOp, shiftRes, Flags.zn_eq, if_neg hp, shiftLeft_eq_ofInt_mul, Bool.or_false]

theorem shrOp_eq (a : Word) (sh : Nat) (f : Flags) :
    shrOp a sh f = shiftRes (BitVec.ofNat 48 (a.toNat / 2 ^ sh)) (lastRight a sh) false f := by
  simp only [shrOp, shiftRes, Flags.zn_eq, ushiftRight_eq_ofNat_div, Bool.or_false]

theorem sraOp_eq (a : Word) (sh : Nat) (f : Flags) :
    sraOp a sh f = shiftRes (BitVec.ofInt 48 (a.toInt / 2 ^ sh)) (lastRight a sh) false f := by
  simp only [sraOp, shiftRes, Flags.zn_eq, sshiftRight_eq_ofInt_div, Bool.or_false]

theorem lastLeft_eq (a : Word) (sh : Nat) : lastLeft a sh = (decide (1 ≤ sh ∧ sh ≤ 48) && a.getLsbD (48 - sh)) := by
  rw [lastLeft, Bool.decide_and]

theorem lastRight_eq (a : Word) (sh : Nat) : lastRight a sh = (decide (1 ≤ sh ∧ sh ≤ 48) && a.getLsbD (sh - 1)) := by
  rw [lastRight, Bool.decide_and]

/-- The command of an operation, on an engine that comes to an instruction of it, does the instruction on the fetched state. -/
theorem runInsn_onAlu {e : Engine} {s : State} {op : Alu} {rd rs1 : RegRef} {src : Src} (h : nextInsn e s = some (.alu op rd rs1 src)) :
    runInsn e (onAlu e op) s = .next (aluInsn e op rd rs1 src (fetched e s)) :=
  runInsn_next h (if_pos rfl)

/-- Settles O11: each shift's result, exact or clamped, is the machine's, with the flags of R195. -/
theorem engineShifts : Obligations.EngineShifts := by
  intro e s rd rs1 src
  dsimp only
  refine ⟨fun h => ?_, fun h => ?_, fun h => ?_⟩
  · refine (runInsn_onAlu h).trans (congrArg _ ?_)
    rw [aluInsn, aluRes]
    split
    · next hp => rw [hp, shlOp_saturating, lastLeft_eq]; rfl
    · next hp => rw [shlOp_modular hp, lastLeft_eq]; rfl
  · refine (runInsn_onAlu h).trans (congrArg _ ?_)
    rw [aluInsn, aluRes, shrOp_eq, lastRight_eq]; rfl
  · refine (runInsn_onAlu h).trans (congrArg _ ?_)
    rw [aluInsn, aluRes, sraOp_eq, lastRight_eq]; rfl

/-! ### Compares (R194) -/

theorem cmpFlags_eq (a b : Word) (f : Flags) :
    cmpFlags a b f = { z := decide (a.toInt - b.toInt = 0), n := decide (a.toInt - b.toInt < 0), c := decide (a.toNat < b.toNat), v := false,
                       s := f.s, o := f.o } := by
  have hz : (a == b) = decide (a.toInt - b.toInt = 0) := by
    rw [beq_eq_decide]; exact decide_eq_decide.mpr (BitVec.toInt_inj.symm.trans Int.sub_eq_zero.symm)
  rw [cmpFlags, hz, decide_eq_decide.mpr sub_neg.symm]

/-- Two positions are equal exactly where their modular difference is zero. -/
theorem cmpPosFlags_eq (a b : Word) (f : Flags) :
    cmpPosFlags a b f = { z := BitVec.ofInt 48 (a.toInt - b.toInt) == 0, n := decide ((BitVec.ofInt 48 (a.toInt - b.toInt)).toInt < 0),
                          c := false, v := false, s := f.s, o := f.o } := by
  have hz : (a == b) = (a - b == 0) := by
    rw [beq_eq_decide, beq_eq_decide]; exact decide_eq_decide.mpr sub_eq_zero.symm
  rw [cmpPosFlags, hz, BitVec.msb_eq_toInt, sub_eq_ofInt_sub]

/-- Settles O12: the flags of both compares are those of the difference. -/
theorem engineCompare : Obligations.EngineCompare := by
  intro e s rs1
  refine ⟨fun src h => ?_, fun rs2 h => ?_⟩
  · refine (runInsn_next h rfl).trans (congrArg _ ?_)
    simp only [cmpInsn, cmpFlags_eq]
  · refine (runInsn_next h rfl).trans (congrArg _ ?_)
    simp only [cmpInsn, cmpPosFlags_eq, readSrc]

/-! ### Events (R198) -/

/-- What EVT leaves of an engine whose queue it finds in `u`: its common state, DEPTH and LOST; no register but the engine's status and its
event register changes, and the engine's state stays. -/
structure EvtLeaves (e : Engine) (c : Core) (depth lost : Nat) (u t : State) : Prop where
  regs : RegsBut [(stateField e).reg, (evtDepth e).reg] u t
  state : engState e t = engState e u
  core : coreOf e t = c
  depth : getF (evtDepth e) t = depth
  lost : getF (evtLost e) t = lost

/-- DEPTH lies below LOST, and can hold a count of four. -/
theorem evtFields_apart (e : Engine) : (evtDepth e).width = 3 ∧ (evtDepth e).lo + (evtDepth e).width ≤ (evtLost e).lo ∧
    (evtLost e).lo + (evtLost e).width ≤ 48 := by
  cases e <;> simp [evtDepth, evtLost, fSQ_EVT_DEPTH, fSQ_EVT_LOST, fCE_EVT_DEPTH, fCE_EVT_LOST, fMV_EVT_DEPTH, fMV_EVT_LOST]

theorem evtLost_reg (e : Engine) : (evtLost e).reg = (evtDepth e).reg := by cases e <;> rfl

theorem evtDepth_reg_ne (e : Engine) : (evtDepth e).reg ≠ (stateField e).reg := by
  cases e <;> simp [evtDepth, stateField, fSQ_EVT_DEPTH, fSQ_STAT_STATE, fCE_EVT_DEPTH, fCE_STAT_STATE, fMV_EVT_DEPTH, fMV_STAT_STATE,
    rSQ_EVT, rSQ_STAT, rCE_EVT, rCE_STAT, rMV_EVT, rMV_STAT]

/-- A change of an engine's common state leaves its event register as it is. -/
theorem EvtLeaves.of_becomes {e : Engine} {c d : Core} {depth lost : Nat} {u v t : State} (h : EvtLeaves e d depth lost u v)
    (hv : Sound v) (he : e.exists_ = true) (k : CoreBecomes e c v t) : EvtLeaves e c depth lost u t := by
  obtain ⟨hr, hst, -, hd, hl⟩ := h
  have ⟨_, kr, kst⟩ := k
  have keeps {g : Field} (hg : g.reg = (evtDepth e).reg) : getF g t = getF g v :=
    getF_reg _ _ _ (kr _ (by simpa [hg] using evtDepth_reg_ne e))
  exact ⟨regsBut_trans hr fun a ha => kr a (ha ∘ List.mem_append_left [(evtDepth e).reg]), kst.trans hst, k.core hv he, (keeps rfl).trans hd,
    (keeps (evtLost_reg e)).trans hl⟩

theorem evtLeaves_refl (e : Engine) (u : State) : EvtLeaves e (coreOf e u) (getF (evtDepth e) u) (getF (evtLost e) u) u u :=
  ⟨regsBut_refl _ _, rfl, rfl, rfl, rfl⟩

theorem EvtLeaves.advance {e : Engine} {c : Core} {depth lost : Nat} {u v : State} (h : EvtLeaves e c depth lost u v) (hv : Sound v)
    (he : e.exists_ = true) : EvtLeaves e { c with pc := c.pc + 1 } depth lost u (advance e v) :=
  h.of_becomes hv he (h.core ▸ modCore_becomes hv)

theorem EvtLeaves.setDepth {e : Engine} {c : Core} {depth lost : Nat} {u v : State} (h : EvtLeaves e c depth lost u v) (hv : Sound v)
    {x : Nat} (hx : x < 8) : EvtLeaves e c x lost u (setF (evtDepth e) x v) := by
  obtain ⟨hr, hst, hc, -, hl⟩ := h
  obtain ⟨hw, hlo, hfit⟩ := evtFields_apart e
  refine ⟨regsBut_setF hr (by simp), ?_, (coreOf_regs e v _ v.raised).trans hc, ?_, ?_⟩
  · exact (getF_reg _ _ _ (reg_setF_other _ _ (evtDepth_reg_ne e).symm)).trans hst
  · rw [getF_setF_same hv _ (by omega), hw]; exact Nat.mod_eq_of_lt hx
  · exact (getF_setF_other hv _ (by omega) (.inr (.inr hlo))).trans hl

theorem EvtLeaves.countLost {e : Engine} {c : Core} {depth lost : Nat} {u v : State} (h : EvtLeaves e c depth lost u v) (hv : Sound v) :
    EvtLeaves e c depth (min (lost + 1) (2 ^ (evtLost e).width - 1)) u (incSat (evtLost e) v) := by
  obtain ⟨hr, hst, hc, hd, hl⟩ := h
  obtain ⟨-, hlo, hfit⟩ := evtFields_apart e
  refine ⟨regsBut_incSat hr (by simp [evtLost_reg]), ?_, (coreOf_regs e v _ v.raised).trans hc, ?_, ?_⟩
  · exact (getF_reg _ _ _ (reg_incSat_other _ (evtLost_reg e ▸ (evtDepth_reg_ne e).symm))).trans hst
  · exact (getF_incSat_other hv hfit (.inr (.inl hlo))).trans hd
  · rw [← hl, getF_incSat_same hv hfit]

theorem evtInsn_room {e : Engine} {u : State} (hu : Sound u) (he : e.exists_ = true) (code : Nat) (hq : (coreOf e u).evq.length < 4) :
    EvtLeaves e { coreOf e u with evq := (coreOf e u).evq ++ [(code, now u)], pc := (coreOf e u).pc + 1 } ((coreOf e u).evq.length + 1)
      (getF (evtLost e) u) u (evtInsn e code u) := by
  rw [evtInsn, if_neg (by omega)]
  have h1 := (evtLeaves_refl e u).of_becomes hu he
    (setCore_becomes (c := { coreOf e u with evq := (coreOf e u).evq ++ [(code, now u)] }) hu)
  have h2 := h1.setDepth (setCore_sound hu) (x := (coreOf e u).evq.length + 1) (by omega)
  exact h2.advance (sound_setF (setCore_sound hu) _ _) he

theorem evtInsn_full {e : Engine} {u : State} (hu : Sound u) (he : e.exists_ = true) (code : Nat) (hq : 4 ≤ (coreOf e u).evq.length) :
    EvtLeaves e { coreOf e u with pc := (coreOf e u).pc + 1 } (getF (evtDepth e) u)
      (min (getF (evtLost e) u + 1) (2 ^ (evtLost e).width - 1)) u (evtInsn e code u) := by
  rw [evtInsn, if_pos hq]
  exact ((evtLeaves_refl e u).countLost hu).advance (sound_incSat hu _) he

theorem evtInsn_only (e : Engine) (code : Nat) (u : State) : Only [.regs, .sqs, .ces, .mvs] u (evtInsn e code u) :=
  (evtInsn_kept (m := 117440513) (Kept.refl _ u) rfl).only fun p => by cases p <;> decide

/-- Settles O14: an event joins a queue with room, or is counted lost; the engine goes on either way. -/
theorem engineEvents : Obligations.EngineEvents := by
  intro e s code hs h
  have hu : Sound (fetched e s) := fetched_sound hs
  have he := nextInsn_exists h
  refine ⟨_, runInsn_next h rfl, evtInsn_only _ _ _, ?_⟩
  rcases Nat.lt_or_ge (coreOf e (fetched e s)).evq.length 4 with hq | hq
  · obtain ⟨hr, hst, hc, hd, hl⟩ := evtInsn_room hu he code hq
    exact ⟨hr, hst, fun _ => ⟨hc, hd, hl⟩, fun hf => absurd hq (Nat.not_lt.mpr hf)⟩
  · obtain ⟨hr, hst, hc, hd, hl⟩ := evtInsn_full hu he code hq
    exact ⟨hr, hst, fun hf => absurd hf (Nat.not_lt.mpr hq), fun _ => ⟨hc, hd, hl⟩⟩

end Sys2Proof.Machine

/-! SUPPORT. Every command runs within the parts listed for it: what follows for one step, for a run of steps, and for the life cycle. -/

namespace Sys2Proof.Machine

/-! ### Every command -/

/-- The parts are listed in the order of their bits. -/
theorem Part.at_bit (p : Part) : everything[p.bit]? = some p := by cases p <;> rfl

theorem Part.bit_inj {p q : Part} (h : p.bit = q.bit) : p = q := Option.some.inj (p.at_bit.symm.trans (h ▸ q.at_bit))

/-- The mask names no part outside the list: nothing is left of it once the parts of the list are taken away. -/
def covered : Nat → List Part → Bool
  | m, [] => m == 0
  | m, p :: l => covered (m ^^^ (m &&& 2 ^ p.bit)) l

theorem testBit_of_covered {p : Part} {l : List Part} (hp : p ∉ l) {m : Nat} (h : covered m l = true) : m.testBit p.bit = false := by
  induction l generalizing m with
  | nil => rw [eq_of_beq h, Nat.zero_testBit]
  | cons q l ih =>
    obtain ⟨hq, hl⟩ := not_or.mp (mt List.mem_cons.mpr hp)
    simpa [Nat.testBit_two_pow_of_ne fun e => hq (Part.bit_inj e).symm] using ih hl h

/-- The outcome is a next state with the queue as it was and every part outside `l` as it was, and with the laws where they stood. -/
def Completes (l : List Part) (s : State) (o : Host.Outcome State Fault Refusal) : Prop :=
  ∃ t, o = .next t ∧ t.pending = s.pending ∧ Only l s t ∧ (Sound s → Sound t)

/-- A command that runs within a mask completes within a list that names the mask's parts. -/
theorem Runs.within {m : Nat} {l : List Part} {s : State} {o : Host.Outcome State Fault Refusal} (h : Runs m s o)
    (hl : covered m l = true) : Completes l s o := by
  obtain ⟨t, ht, k⟩ := h
  exact ⟨t, ht, k.queue, k.only fun _ hp => testBit_of_covered hp hl, k.sound⟩

/-- Every command completes within the parts listed for it. -/
theorem exec_completes (s : State) : (c : Instr) → Completes (touches c) s (exec c s)
  | .badAddressAccess .. => execBadAddressAccess_runs.within rfl
  | .imageStoreWrite .. => execImageStoreWrite_runs.within rfl
  | .registerWrite .. => execRegisterWrite_runs.within rfl
  | .lineCtlWrite .. => execLineCtlWrite_runs.within rfl
  | .linePreset .. => execLinePreset_runs.within rfl
  | .virtSpeedWrite .. => execVirtSpeedWrite_runs.within rfl
  | .encEdge .. => execEncEdge_runs.within rfl
  | .encZPulse .. => execEncZPulse_runs.within rfl
  | .encFltInput .. => execEncFltInput_runs.within rfl
  | .stuck .. => execStuck_runs.within rfl
  | .freeze .. => execFreeze_runs.within rfl
  | .ocingStale .. => execOcingStale_runs.within rfl
  | .virtStale .. => execVirtStale_runs.within rfl
  | .drExhausted .. => execDrExhausted_runs.within rfl
  | .pdEdgeAccept .. => execPdEdgeAccept_runs.within rfl
  | .captureConfirm .. => execCaptureConfirm_runs.within rfl
  | .pdCfgWrite .. => execPdCfgWrite_runs.within rfl
  | .ptabSweep => execPtabSweep_runs.within rfl
  | .petInsert .. => execPetInsert_runs.within rfl
  | .readyBy .. => execReadyBy_runs.within rfl
  | .startChk .. => execStartChk_runs.within rfl
  | .endChk .. => execEndChk_runs.within rfl
  | .rejDecide .. => execRejDecide_runs.within rfl
  | .rejGate .. => execRejGate_runs.within rfl
  | .rejOff .. => execRejOff_runs.within rfl
  | .rejPulseTimer .. => execRejPulseTimer_runs.within rfl
  | .handover .. => execHandover_runs.within rfl
  | .signal .. => execSignal_runs.within rfl
  | .activate .. => execActivate_runs.within rfl
  | .bindLoad .. => execBindLoad_runs.within rfl
  | .bindUnload .. => execBindUnload_runs.within rfl
  | .bindRegWrite .. => execBindRegWrite_runs.within rfl
  | .settingRetestWrite .. => execSettingRetestWrite_runs.within rfl
  | .vmaxWrite .. => execVmaxWrite_runs.within rfl
  | .schLineCtlWrite .. => execSchLineCtlWrite_runs.within rfl
  | .lineSafeExit .. => execLineSafeExit_runs.within rfl
  | .snapReq .. => execSnapReq_runs.within rfl
  | .snapshotCopy .. => execSnapshotCopy_runs.within rfl
  | .armingResume => execArmingResume_runs.within rfl
  | .stencilBegin .. => execStencilBegin_runs.within rfl
  | .stencilData .. => execStencilData_runs.within rfl
  | .stencilEnd .. => execStencilEnd_runs.within rfl
  | .stencilUnload .. => execStencilUnload_runs.within rfl
  | .stencilInfo .. => execStencilInfo_runs.within rfl
  | .openSet .. => execOpenSet_runs.within rfl
  | .batchAdvance .. => execBatchAdvance_runs.within rfl
  | .timeNonce .. => execTimeNonce_runs.within rfl
  | .timeToken .. => execTimeToken_runs.within rfl
  | .timeStatus .. => execTimeStatus_runs.within rfl
  | .serialLedger .. => execSerialLedger_runs.within rfl
  | .counterRebase .. => execCounterRebase_runs.within rfl
  | .auditRead .. => execAuditRead_runs.within rfl
  | .auditAck .. => execAuditAck_runs.within rfl
  | .ckptRead .. => execCkptRead_runs.within rfl
  | .identity .. => execIdentity_runs.within rfl
  | .mailboxRspRelease => execMailboxRspRelease_runs.within rfl
  | .fieldCompose => execFieldCompose_runs.within rfl
  | .blockWriteDone .. => execBlockWriteDone_runs.within rfl
  | .ckptTimer => execCkptTimer_runs.within rfl
  | .ptpHint .. => execPtpHint_runs.within rfl
  | .trustCoreFault => execTrustCoreFault_runs.within rfl
  | .trustRestartDone => execTrustRestartDone_runs.within rfl
  | .renderStart => execRenderStart_runs.within rfl
  | .renderComplete => execRenderComplete_runs.within rfl
  | .firstBufferStage .. => execFirstBufferStage_runs.within rfl
  | .jobResident .. => execJobResident_runs.within rfl
  | .columnDeliver .. => execColumnDeliver_runs.within rfl
  | .trowelCompress .. => execTrowelCompress_runs.within rfl
  | .fontLoad => execFontLoad_runs.within rfl
  | .fontVerifyDone => execFontVerifyDone_runs.within rfl
  | .fontUnload => execFontUnload_runs.within rfl
  | .himgCommit .. => execHimgCommit_runs.within rfl
  | .himgClear .. => execHimgClear_runs.within rfl
  | .himgBufferFree .. => execHimgBufferFree_runs.within rfl
  | .nop .. => execNop_runs.within rfl
  | .ldi .. => execLdi_runs.within rfl
  | .ldiZ .. => execLdiZ_runs.within rfl
  | .ldiSh .. => execLdiSh_runs.within rfl
  | .ld .. => execLd_runs.within rfl
  | .st .. => execSt_runs.within rfl
  | .add .. => execAdd_runs.within rfl
  | .sub .. => execSub_runs.within rfl
  | .and .. => execAnd_runs.within rfl
  | .or .. => execOr_runs.within rfl
  | .xor .. => execXor_runs.within rfl
  | .shl .. => execShl_runs.within rfl
  | .shr .. => execShr_runs.within rfl
  | .sra .. => execSra_runs.within rfl
  | .cmp .. => execCmp_runs.within rfl
  | .cmpP .. => execCmpP_runs.within rfl
  | .br .. => execBr_runs.within rfl
  | .bz .. => execBz_runs.within rfl
  | .bnz .. => execBnz_runs.within rfl
  | .bn .. => execBn_runs.within rfl
  | .call .. => execCall_runs.within rfl
  | .ret .. => execRet_runs.within rfl
  | .loop .. => execLoop_runs.within rfl
  | .halt .. => execHalt_runs.within rfl
  | .evt .. => execEvt_runs.within rfl
  | .illegalInstruction .. => execIllegalInstruction_runs.within rfl
  | .waitp .. => execWaitp_runs.within rfl
  | .waitpReached .. => execWaitpReached_runs.within rfl
  | .ldcol .. => execLdcol_runs.within rfl
  | .mask .. => execMask_runs.within rfl
  | .enrg .. => execEnrg_runs.within rfl
  | .grpAdv .. => execGrpAdv_runs.within rfl
  | .grpSet .. => execGrpSet_runs.within rfl
  | .grpGet .. => execGrpGet_runs.within rfl
  | .strb .. => execStrb_runs.within rfl
  | .strbGroupStart .. => execStrbGroupStart_runs.within rfl
  | .strobeEnd .. => execStrobeEnd_runs.within rfl
  | .wfselGet .. => execWfselGet_runs.within rfl
  | .wfselSet .. => execWfselSet_runs.within rfl
  | .col .. => execCol_runs.within rfl
  | .colEmit .. => execColEmit_runs.within rfl
  | .ckpt .. => execCkpt_runs.within rfl
  | .stretchLep .. => execStretchLep_runs.within rfl
  | .stretchNext .. => execStretchNext_runs.within rfl
  | .stretchRatio .. => execStretchRatio_runs.within rfl
  | .stretchState .. => execStretchState_runs.within rfl
  | .mul .. => execMul_runs.within rfl
  | .macAcc .. => execMacAcc_runs.within rfl
  | .macSet .. => execMacSet_runs.within rfl
  | .macSub .. => execMacSub_runs.within rfl
  | .macRead .. => execMacRead_runs.within rfl
  | .lim .. => execLim_runs.within rfl
  | .mins .. => execMins_runs.within rfl
  | .pre .. => execPre_runs.within rfl
  | .tbli .. => execTbli_runs.within rfl
  | .diff .. => execDiff_runs.within rfl
  | .fresh .. => execFresh_runs.within rfl
  | .mov .. => execMov_runs.within rfl
  | .movb .. => execMovb_runs.within rfl
  | .movbDone .. => execMovbDone_runs.within rfl
  | .wait .. => execWait_runs.within rfl
  | .waitWake .. => execWaitWake_runs.within rfl
  | .sig .. => execSig_runs.within rfl
  | .moveComplete .. => execMoveComplete_runs.within rfl
  | .engineRun .. => execEngineRun_runs.within rfl
  | .engineStop .. => execEngineStop_runs.within rfl
  | .engineDoorbell .. => execEngineDoorbell_runs.within rfl
  | .programWindowWrite .. => execProgramWindowWrite_runs.within rfl
  | .dataWindowWrite .. => execDataWindowWrite_runs.within rfl
  | .markBoundary .. => execMarkBoundary_runs.within rfl
  | .jobStopAtBoundary .. => execJobStopAtBoundary_runs.within rfl
  | .sampleTrigger .. => execSampleTrigger_runs.within rfl
  | .cycleOverrun .. => execCycleOverrun_runs.within rfl
  | .shadowSealWrite .. => execShadowSealWrite_runs.within rfl
  | .maskWrite .. => execMaskWrite_runs.within rfl
  | .maskPageCopyDone .. => execMaskPageCopyDone_runs.within rfl
  | .seqWatchdog .. => execSeqWatchdog_runs.within rfl
  | .takeoverResume .. => execTakeoverResume_runs.within rfl
  | .giveback .. => execGiveback_runs.within rfl
  | .givebackCopy .. => execGivebackCopy_runs.within rfl
  | .restore .. => execRestore_runs.within rfl
  | .hpCfgWrite .. => execHpCfgWrite_runs.within rfl
  | .latFire .. => execLatFire_runs.within rfl
  | .wfSettingWrite .. => execWfSettingWrite_runs.within rfl
  | .wfSampleWrite .. => execWfSampleWrite_runs.within rfl
  | .wflenWrite .. => execWflenWrite_runs.within rfl
  | .tempPoll .. => execTempPoll_runs.within rfl
  | .idRead .. => execIdRead_runs.within rfl
  | .headAccept .. => execHeadAccept_runs.within rfl
  | .alignStore .. => execAlignStore_runs.within rfl
  | .alignStoreDone .. => execAlignStoreDone_runs.within rfl
  | .burstStart .. => execBurstStart_runs.within rfl
  | .testFiring .. => execTestFiring_runs.within rfl
  | .dropTestResult .. => execDropTestResult_runs.within rfl
  | .testresPop .. => execTestresPop_runs.within rfl
  | .nzDataAccess .. => execNzDataAccess_runs.within rfl
  | .bdEdge .. => execBdEdge_runs.within rfl
  | .idxEdge .. => execIdxEdge_runs.within rfl
  | .bdTimeout .. => execBdTimeout_runs.within rfl
  | .dllCfgWrite .. => execDllCfgWrite_runs.within rfl
  | .laserEnWrite .. => execLaserEnWrite_runs.within rfl
  | .ceConfigWrite .. => execCeConfigWrite_runs.within rfl
  | .ceKWrite .. => execCeKWrite_runs.within rfl
  | .ceModeWrite .. => execCeModeWrite_runs.within rfl
  | .ceHostxWrite .. => execCeHostxWrite_runs.within rfl
  | .forceSafe .. => execForceSafe_runs.within rfl
  | .clearSafe .. => execClearSafe_runs.within rfl
  | .pgVel .. => execPgVel_runs.within rfl
  | .pgPos .. => execPgPos_runs.within rfl
  | .pgRel .. => execPgRel_runs.within rfl
  | .pgStop .. => execPgStop_runs.within rfl
  | .pgSet .. => execPgSet_runs.within rfl
  | .currentSample .. => execCurrentSample_runs.within rfl
  | .mcStart .. => execMcStart_runs.within rfl
  | .catchEnd .. => execCatchEnd_runs.within rfl
  | .mcStop .. => execMcStop_runs.within rfl
  | .mcClear .. => execMcClear_runs.within rfl
  | .mcConfigWrite .. => execMcConfigWrite_runs.within rfl
  | .busSample .. => execBusSample_runs.within rfl
  | .chopFbMismatch .. => execChopFbMismatch_runs.within rfl
  | .chopTestPulse .. => execChopTestPulse_runs.within rfl
  | .gateFault .. => execGateFault_runs.within rfl
  | .buTimeout .. => execBuTimeout_runs.within rfl
  | .hostLinkReset => execHostLinkReset_runs.within rfl
  | .ringDoorbell .. => execRingDoorbell_runs.within rfl
  | .ringConsumerWrite .. => execRingConsumerWrite_runs.within rfl
  | .queuePairReset .. => execQueuePairReset_runs.within rfl
  | .eventRingReset => execEventRingReset_runs.within rfl
  | .eventDeliver .. => execEventDeliver_runs.within rfl
  | .ping .. => execPing_runs.within rfl
  | .version .. => execVersion_runs.within rfl
  | .ledgerSnapshot .. => execLedgerSnapshot_runs.within rfl
  | .lineSpeed .. => execLineSpeed_runs.within rfl
  | .oclBarrier .. => execOclBarrier_runs.within rfl
  | .resetRequest .. => execResetRequest_runs.within rfl
  | .speed .. => execSpeed_runs.within rfl
  | .ledger .. => execLedger_runs.within rfl
  | .arpRequest .. => execArpRequest_runs.within rfl
  | .icmpEcho .. => execIcmpEcho_runs.within rfl
  | .ptpMessage .. => execPtpMessage_runs.within rfl
  | .ocingSymbolLock .. => execOcingSymbolLock_runs.within rfl
  | .hello .. => execHello_runs.within rfl
  | .echo .. => execEcho_runs.within rfl
  | .hopDelayMeasure .. => execHopDelayMeasure_runs.within rfl
  | .ack .. => execAck_runs.within rfl
  | .ocingRetryTimeout .. => execOcingRetryTimeout_runs.within rfl
  | .ocingLockLoss .. => execOcingLockLoss_runs.within rfl
  | .pos .. => execPos_runs.within rfl
  | .posBroadcast .. => execPosBroadcast_runs.within rfl
  | .epoch .. => execEpoch_runs.within rfl
  | .epochBoundary => execEpochBoundary_runs.within rfl
  | .handoffOffer .. => execHandoffOffer_runs.within rfl
  | .offer .. => execOffer_runs.within rfl
  | .accept .. => execAccept_runs.within rfl
  | .decline .. => execDecline_runs.within rfl
  | .commit .. => execCommit_runs.within rfl
  | .result .. => execResult_runs.within rfl
  | .barrier .. => execBarrier_runs.within rfl
  | .barrierAck .. => execBarrierAck_runs.within rfl
  | .mergeDrain .. => execMergeDrain_runs.within rfl
  | .skimPass .. => execSkimPass_runs.within rfl
  | .memInject .. => execMemInject_runs.within rfl
  | .lcStatus .. => execLcStatus_runs.within rfl
  | .lcNonce .. => execLcNonce_runs.within rfl
  | .lcProvision .. => execLcProvision_runs.within rfl
  | .lcDeploy .. => execLcDeploy_runs.within rfl
  | .lcServiceEnter .. => execLcServiceEnter_runs.within rfl
  | .lcServiceExit .. => execLcServiceExit_runs.within rfl
  | .lcRetire .. => execLcRetire_runs.within rfl
  | .keyStatus .. => execKeyStatus_runs.within rfl
  | .keyAuthSet .. => execKeyAuthSet_runs.within rfl
  | .keyCheckSet .. => execKeyCheckSet_runs.within rfl
  | .keyCosignSet .. => execKeyCosignSet_runs.within rfl
  | .keyClear .. => execKeyClear_runs.within rfl
  | .serviceExpiry => execServiceExpiry_runs.within rfl
  | .lcChangeDeferred => execLcChangeDeferred_runs.within rfl
  | .updateBegin .. => execUpdateBegin_runs.within rfl
  | .updateArbitrationEnd => execUpdateArbitrationEnd_runs.within rfl
  | .updateData .. => execUpdateData_runs.within rfl
  | .updateEnd .. => execUpdateEnd_runs.within rfl
  | .updateActivate .. => execUpdateActivate_runs.within rfl
  | .updateAbort .. => execUpdateAbort_runs.within rfl
  | .updateStatus .. => execUpdateStatus_runs.within rfl
  | .updateConfirm .. => execUpdateConfirm_runs.within rfl
  | .updateFallback .. => execUpdateFallback_runs.within rfl
  | .updateForward .. => execUpdateForward_runs.within rfl
  | .updateCfg .. => execUpdateCfg_runs.within rfl
  | .updateSessionTimeout => execUpdateSessionTimeout_runs.within rfl
  | .puBegin .. => execPuBegin_runs.within rfl
  | .puData .. => execPuData_runs.within rfl
  | .puBlock .. => execPuBlock_runs.within rfl
  | .puEnd .. => execPuEnd_runs.within rfl
  | .puResult .. => execPuResult_runs.within rfl
  | .puAbort .. => execPuAbort_runs.within rfl
  | .activationRelease => execActivationRelease_runs.within rfl
  | .switchDone => execSwitchDone_runs.within rfl
  | .confirmTimer => execConfirmTimer_runs.within rfl
  | .supervisorReadyTimeout => execSupervisorReadyTimeout_runs.within rfl
  | .fltStatusClear .. => execFltStatusClear_runs.within rfl
  | .supervisorMiscompare => execSupervisorMiscompare_runs.within rfl
  | .supervisorRestartDone => execSupervisorRestartDone_runs.within rfl
  | .faultPinPulseEnd => execFaultPinPulseEnd_runs.within rfl
  | .holdWrite .. => execHoldWrite_runs.within rfl
  | .histPop => execHistPop_runs.within rfl
  | .pllLockLoss .. => execPllLockLoss_runs.within rfl
  | .referenceLost => execReferenceLost_runs.within rfl
  | .aonPowerOn .. => execAonPowerOn_runs.within rfl
  | .railStepStable .. => execRailStepStable_runs.within rfl
  | .railRiseTimeout .. => execRailRiseTimeout_runs.within rfl
  | .railChatter .. => execRailChatter_runs.within rfl
  | .railRetry .. => execRailRetry_runs.within rfl
  | .railScan .. => execRailScan_runs.within rfl
  | .powerDownStep .. => execPowerDownStep_runs.within rfl
  | .supplyWarn .. => execSupplyWarn_runs.within rfl
  | .resetLevel .. => execResetLevel_runs.within rfl
  | .resetL .. => execResetL_runs.within rfl
  | .planBurn .. => execPlanBurn_runs.within rfl
  | .hostSnapshot => execHostSnapshot_runs.within rfl
  | .snapPop => execSnapPop_runs.within rfl
  | .rlkPing .. => execRlkPing_runs.within rfl
  | .rlkStepUp .. => execRlkStepUp_runs.within rfl
  | .rlkStepDown .. => execRlkStepDown_runs.within rfl
  | .rlkStatus .. => execRlkStatus_runs.within rfl
  | .rlkAbort .. => execRlkAbort_runs.within rfl
  | .rlkSetVout .. => execRlkSetVout_runs.within rfl
  | .rlkGetVout .. => execRlkGetVout_runs.within rfl
  | .rlkSlavePoll .. => execRlkSlavePoll_runs.within rfl
  | .hkRound .. => execHkRound_runs.within rfl
  | .graceExpiry .. => execGraceExpiry_runs.within rfl
  | .thermalTrip => execThermalTrip_runs.within rfl
  | .ageingEvaluation .. => execAgeingEvaluation_runs.within rfl
  | .derateClockSwitch => execDerateClockSwitch_runs.within rfl
  | .replan => execReplan_runs.within rfl
  | .ampRef .. => execAmpRef_runs.within rfl
  | .driftBaseline .. => execDriftBaseline_runs.within rfl
  | .calGo .. => execCalGo_runs.within rfl
  | .calComplete .. => execCalComplete_runs.within rfl
  | .trackingTick => execTrackingTick_runs.within rfl
  | .datapathCheck .. => execDatapathCheck_runs.within rfl
  | .enWaitElapsed .. => execEnWaitElapsed_runs.within rfl
  | .pathRestartDone .. => execPathRestartDone_runs.within rfl
  | .copyRebuildDone => execCopyRebuildDone_runs.within rfl
  | .crystal32kLost => execCrystal32kLost_runs.within rfl
  | .linePortLinkChange .. => execLinePortLinkChange_runs.within rfl
  | .pcieLinkTrained .. => execPcieLinkTrained_runs.within rfl
  | .resetLevelRestart .. => execResetLevelRestart_runs.within rfl
  | .vbatLost => execVbatLost_runs.within rfl
  | .aonPowerLoss => execAonPowerLoss_runs.within rfl

/-- Settles O4, from what each command keeps. -/
theorem everyCommandCompletes : Obligations.EveryCommandCompletes := by
  intro c s
  obtain ⟨t, ht, hq, ho, -⟩ := exec_completes s c
  exact ⟨t, ht, hq, ho⟩

theorem exec_sound {c : Instr} {s t : State} (hs : Sound s) (h : exec c s = .next t) : Sound t := by
  obtain ⟨u, hu, -, -, k⟩ := exec_completes s c
  rw [h] at hu
  cases hu
  exact k hs

/-! ### One step, and a run of steps -/

theorem step_nil {s : State} (h : s.pending = []) : step s = .next s := by rw [step, h]

theorem step_cons {c : Instr} {rest : List Instr} {s : State} (h : s.pending = c :: rest) :
    step s = exec c { s with pending := rest } := by rw [step, h]

/-- No law speaks of the queue. -/
theorem Sound.queue {s : State} (h : Sound s) (l : List Instr) : Sound { s with pending := l } := by
  obtain ⟨b, r, sh, i, d, hm, l1, l2, l3, c1, c2⟩ := h
  exact ⟨b, r, sh, i, d, hm, l1, l2, l3, c1, c2⟩

/-- Settles O1. -/
theorem stepRunsFront : Obligations.StepRunsFront := fun _ _ _ => step_cons rfl

/-- Settles O2. -/
theorem stepIdles : Obligations.StepIdles := ⟨fun _ => step_nil, fun _ _ _ => ⟨rfl, rfl⟩⟩

/-- Settles O3. -/
theorem resetIsSound : Obligations.ResetIsSound := by
  have hsq : ∀ n < 20, engState (.sq n) State.reset = 0 := by decide
  have hce : ∀ n < 8, engState (.ce n) State.reset = 0 := by decide
  have hmv : ∀ n < 8, engState (.mv n) State.reset = 0 := by decide
  exact ⟨Tests.reset_sound, ⟨List.nodup_nil, fun m h => absurd h List.not_mem_nil⟩, rfl, rfl, rfl, rfl,
    fun n => ⟨hsq n, fun h => ⟨hce n h, hmv n h⟩⟩⟩

/-- Settles O5: the command at the front of the queue keeps the laws, and an empty queue keeps the state. -/
theorem stepKeepsLaws : Obligations.StepKeepsLaws := by
  intro s t hs h
  cases hq : s.pending with
  | nil => rw [step_nil hq] at h; cases h; exact hs
  | cons c rest => exact exec_sound (hs.queue rest) (step_cons hq ▸ h)

/-- A step from a state with a command waiting takes that command off the queue, and keeps the laws. -/
theorem step_takes_front {s : State} (hs : Sound s) {c : Instr} {rest : List Instr} (hq : s.pending = c :: rest) :
    ∃ t, step s = .next t ∧ Sound t ∧ t.pending = rest := by
  obtain ⟨t, ht, hp, -, k⟩ := exec_completes { s with pending := rest } c
  exact ⟨t, (step_cons hq).trans ht, k (hs.queue rest), hp⟩

/-- Settles O6, by induction on the number of steps: the last of them takes the command that the others left at the front. -/
theorem runsTakeTheQueue : Obligations.RunsTakeTheQueue := by
  intro n s hs hn
  induction n with
  | zero => exact ⟨s, rfl, hs, rfl⟩
  | succ n ih =>
    obtain ⟨t, ht, hst, hq⟩ := ih (by omega)
    obtain ⟨u, hu, hsu, hqu⟩ := step_takes_front hst (hq.trans (List.drop_eq_getElem_cons hn))
    refine ⟨u, ?_, hsu, hqu⟩
    rw [Nat.repeat, ht, Option.bind_some, hu]

/-! ### The life cycle -/

/-- Settles O52: what O4 lists for any other command leaves the life cycle out. -/
theorem lifeCycleIsolated : Obligations.LifeCycleIsolated := by
  intro c s t h hc
  obtain ⟨u, hu, -, k⟩ := everyCommandCompletes c s
  rw [h] at hu
  cases hu
  refine k .lc fun hl => ?_
  have touched : (!(touches c).contains .lc || mayChangeLifeCycle c) = true := by cases c <;> rfl
  rw [hc, List.contains_iff_mem.mpr hl] at touched
  exact Bool.false_ne_true touched

end Sys2Proof.Machine

/-! SUPPORT. The proofs of the statements about the common Adeger instructions and the arithmetic of profile L (R189 to R197, R212). -/

namespace Sys2Proof.Machine

/-! ### Instructions that change the common state of their engine alone -/

theorem CoreBecomes.modCore {e : Engine} {c : Core} {s t : State} (h : CoreBecomes e c s t) (hs : Sound s) (ht : Sound t)
    (he : e.exists_ = true) (f : Core → Core) : CoreBecomes e (f c) s (modCore e f t) :=
  h.trans (h.core hs he ▸ modCore_becomes ht)

theorem loadReg_becomes {e : Engine} {s : State} (hs : Sound s) (he : e.exists_ = true) (i : Nat) (x : Word) :
    CoreBecomes e { coreOf e s with w := (coreOf e s).w.set i x, pc := (coreOf e s).pc + 1 } s (loadReg e i x s) :=
  modCore_modCore_becomes (f := fun c => c.setW i x) (g := fun c => { c with pc := c.pc + 1 }) hs he

/-- A command whose instruction is next runs it on the fetched state. -/
theorem runInsn_core {e : Engine} {f : Insn → Option (State → State)} {s : State} {i : Insn} {g : State → State} {c : Core} (hs : Sound s)
    (hi : nextInsn e s = some i) (hf : f i = some g)
    (hg : e.exists_ = true → ∀ u, u = fetched e s → Sound u → CoreBecomes e c u (g u)) :
    ∃ t, runInsn e f s = .next t ∧ CoreBecomes e c (fetched e s) t :=
  ⟨_, runInsn_next hi hf, hg (nextInsn_exists hi) _ rfl (fetched_sound hs)⟩

theorem sext14_eq {imm : Nat} : sext 14 imm = if imm < 2 ^ 13 then (imm : Int) else (imm : Int) - 2 ^ 14 := by
  simp only [sext, signedOf]
  split <;> split <;> omega

theorem shiftLeft_add_ofNat (a : Word) (imm : Nat) : a <<< 14 + BitVec.ofNat 48 imm = BitVec.ofNat 48 (a.toNat * 2 ^ 14 + imm) := by
  rw [BitVec.ofNat_add, BitVec.ofNat_mul, BitVec.ofNat_toNat, BitVec.setWidth_eq, BitVec.shiftLeft_eq_mul_twoPow]
  rfl

/-- Settles O7: each of the four is one or two changes of the engine's common state after the fetch. -/
theorem engineLoadsImmediate : Obligations.EngineLoadsImmediate := by
  intro e s hs
  refine ⟨fun i h => ⟨coreOf_fetched hs (nextInsn_exists h), fun hf => ?_⟩, fun h => ?_, fun rd imm h => ?_, fun rd imm h => ?_, fun rd imm h => ?_⟩
  · rw [coreOf_fetched hs (nextInsn_exists h)]; exact fetched_clean hs hf
  · exact runInsn_core hs h rfl fun _ _ hu k => hu ▸ modCore_becomes k
  · exact runInsn_core hs h rfl fun he _ hu k => hu ▸ sext14_eq ▸ loadReg_becomes k he rd _
  · exact runInsn_core hs h rfl fun he _ hu k => hu ▸ loadReg_becomes k he rd _
  · exact runInsn_core hs h rfl fun he _ hu k => hu ▸ shiftLeft_add_ofNat _ _ ▸ loadReg_becomes k he rd _

/-! ### Data memory (R189) -/

theorem dataAddr_lt_of_ld {e : Engine} {c : Core} {rd mode an imm : Nat} (h : stateCause e c (.ld rd mode an imm) = 0) :
    dataAddr c an imm < dataSize e := by
  by_contra hn
  rw [stateCause, if_pos (not_lt.mp hn)] at h
  exact absurd h (by decide)

theorem dataAddr_lt_of_st {e : Engine} {c : Core} {rd mode an imm : Nat} (h : stateCause e c (.st rd mode an imm) = 0) :
    dataAddr c an imm < dataSize e := dataAddr_lt_of_ld (rd := rd) (mode := mode) h

/-- The address registers after an access in a mode (R196). -/
def steppedA (mode an : Nat) (c : Core) : List (BitVec 16) :=
  if mode = 1 then c.a.set an (c.a.getD an 0 + 1) else if mode = 2 then c.a.set an (c.a.getD an 0 - 1) else c.a

theorem stepA_eq (mode an : Nat) (c : Core) : stepA mode an c = { c with a := steppedA mode an c } := by
  unfold stepA steppedA
  split
  · rfl
  · rfl
  · next h1 h2 => rw [if_neg h1, if_neg h2]

theorem readWord_sound {s : State} (h : Sound s) (w a : Nat) : Sound (readWord w a s) := (readWord_kept (m := 70746880961) (Kept.refl _ s) rfl).sound h

theorem bankWrite_sound {s : State} (h : Sound s) (w : Nat) : Sound (bankWrite w s) := (bankWrite_kept (m := 68719476736) (Kept.refl _ s) rfl).sound h

/-- A write of a bank changes the memory's record alone. -/
theorem bankWrite_rest (w : Nat) (s : State) : bankWrite w s = { s with mem := (bankWrite w s).mem } := by
  unfold bankWrite strike
  split
  · split <;> rfl
  · rfl

theorem coreOf_bankWrite (e : Engine) (w : Nat) (s : State) : coreOf e (bankWrite w s) = coreOf e s := by
  rw [bankWrite_rest]; cases e <;> rfl

/-- LD of a good word, from the state its bank leaves. -/
theorem loadInsn_becomes {e : Engine} {s : State} (hs : Sound s) (he : e.exists_ = true) {rd mode an imm : Nat}
    (hb : wordBad (dataWord e (dataAddr (coreOf e s) an imm)) s = false) :
    CoreBecomes e
      { coreOf e s with
        w := (coreOf e s).w.set rd (dataGet (coreOf e s) (dataAddr (coreOf e s) an imm))
        a := steppedA mode an (coreOf e s)
        pc := (coreOf e s).pc + 1 }
      (readWord (dataWord e (dataAddr (coreOf e s) an imm)) 0 s) (loadInsn e false rd mode an imm s) := by
  have hr := readWord_sound hs (dataWord e (dataAddr (coreOf e s) an imm)) 0
  have step := modCore_becomes (e := e) (f := stepA mode an) hr
  have load := (step.modCore hr (setCore_sound hr) he fun c => c.setW rd (dataGet (coreOf e s) (dataAddr (coreOf e s) an imm))).modCore hr
    (setCore_sound (setCore_sound hr)) he fun c => { c with pc := c.pc + 1 }
  rw [coreOf_readWord, stepA_eq] at load
  simp only [loadInsn, hb, Bool.or_false, Bool.false_eq_true, if_false, coreOf_readWord]
  exact load

theorem storeInsn_becomes {e : Engine} {s : State} (hs : Sound s) (he : e.exists_ = true) (rd mode an imm : Nat) :
    CoreBecomes e
      { dataPut (coreOf e s) (dataAddr (coreOf e s) an imm) ((coreOf e s).getW rd) with
        a := steppedA mode an (coreOf e s)
        pc := (coreOf e s).pc + 1 }
      (bankWrite (dataWord e (dataAddr (coreOf e s) an imm)) s) (storeInsn e rd mode an imm s) := by
  have k := modCore_modCore_becomes (e := e) (f := fun c => stepA mode an (dataPut c (dataAddr c an imm) (c.getW rd)))
    (g := fun c => { c with pc := c.pc + 1 }) (bankWrite_sound hs (dataWord e (dataAddr (coreOf e s) an imm))) he
  rw [coreOf_bankWrite, stepA_eq] at k
  exact k

/-- Settles O8: the fetched instruction is legal, so its address lies in the data memory; the access goes to the word's bank. -/
theorem engineDataMemory : Obligations.EngineDataMemory := by
  intro e s rd mode an imm hs
  refine ⟨fun h => ⟨dataAddr_lt_of_ld (nextInsn_fetched hs h), fun hb => ?_, fun ue hue => ?_⟩, fun h => ⟨dataAddr_lt_of_st (nextInsn_fetched hs h), ?_⟩⟩
  · exact ⟨_, runInsn_next h rfl, loadInsn_becomes (fetched_sound hs) (nextInsn_exists h) hb⟩
  · refine (runInsn_next h rfl).trans (congrArg _ ?_)
    exact if_pos (Bool.or_eq_true_iff.mpr hue)
  · exact ⟨_, runInsn_next h rfl, storeInsn_becomes (fetched_sound hs) (nextInsn_exists h) rd mode an imm⟩

/-! ### Sums, differences and logic (R193, R196) -/

theorem narrow_eq (p : Profile) (exact : Int) (c : Bool) (f : Flags) :
    narrow p exact c f =
      let r : Word := BitVec.ofInt 48 (if p = .l then max (-(2 ^ 47)) (min (2 ^ 47 - 1) exact) else exact)
      let v := decide (r.toInt ≠ exact)
      ⟨r, { z := r == 0, n := decide (r.toInt < 0), c := c, v := v, s := f.s || (decide (p = .l) && v), o := f.o }⟩ := by
  have hr : (if p = .l then wrap48 (sat48 exact) else wrap48 exact) =
      BitVec.ofInt 48 (if p = .l then max (-(2 ^ 47)) (min (2 ^ 47 - 1) exact) else exact) := by split <;> rfl
  simp only [narrow, Flags.zn_eq, hr]

/-- Settles O9: the exact sum or difference, narrowed as the profile asks. -/
theorem engineAddSub : Obligations.EngineAddSub := by
  intro e s rd rs1 src
  refine ⟨fun h => ?_, fun h => ?_⟩
  · refine (runInsn_onAlu h).trans (congrArg _ ?_)
    rw [aluInsn, aluRes, addOp, narrow_eq]
  · refine (runInsn_onAlu h).trans (congrArg _ ?_)
    rw [aluInsn, aluRes, subOp, narrow_eq]

theorem logicOp_eq (r : Word) (f : Flags) :
    logicOp r f = ⟨r, { z := r == 0, n := decide (r.toInt < 0), c := false, v := false, s := f.s, o := f.o }⟩ := by
  rw [logicOp, Flags.zn_eq]

/-- Settles O10. -/
theorem engineLogic : Obligations.EngineLogic := by
  intro e s rd rs1 src
  refine ⟨fun h => ?_, fun h => ?_, fun h => ?_⟩ <;>
    exact (runInsn_onAlu h).trans (congrArg _ (by rw [aluInsn, aluRes, logicOp_eq]))

/-! ### Branches (R192, R197) -/

theorem stack_of_call {e : Engine} {c : Core} {off : Int} (h : stateCause e c (.call off) = 0) : c.stack.length < 8 := by
  by_contra hn
  rw [stateCause, if_pos (not_lt.mp hn)] at h
  exact absurd h (by decide)

theorem stack_of_ret {e : Engine} {c : Core} (h : stateCause e c .ret = 0) : c.stack = c.stack.headD 0 :: c.stack.drop 1 := by
  cases hc : c.stack with
  | nil => rw [stateCause, hc] at h; exact absurd h (by decide)
  | cons p l => rfl

/-- Settles O13: each branch is one change of the engine's common state. -/
theorem engineBranches : Obligations.EngineBranches := by
  intro e s hs
  refine ⟨fun off h => ?_, fun off h => ?_, fun off h => ?_, fun off h => ?_, fun off h => ⟨stack_of_call (nextInsn_fetched hs h), ?_⟩,
    fun h => ⟨_, _, stack_of_ret (nextInsn_fetched hs h), ?_⟩, fun wc off h => ?_⟩
  all_goals exact runInsn_core hs h rfl fun _ _ hu k => hu ▸ modCore_becomes k

/-! ### Saturated results of profile L (R212) -/

theorem saturate_eq (x : Int) (c : Bool) (f : Flags) : saturate x c f = clamped x c f := by
  have hs : clampTo 48 x = sat48 x := rfl
  have hi : (BitVec.ofInt 48 (sat48 x)).toInt = sat48 x := toInt_wrap48_sat48 x
  simp only [saturate, narrow, clamped, wrap48, Flags.zn_eq, hs, hi, if_true, decide_true, Bool.true_and]

/-- Settles O15. -/
theorem loopMultiply : Obligations.LoopMultiply := by
  intro n s sh rnd rd a b e u x y p h
  refine (runInsn_next h rfl).trans (congrArg _ ?_)
  simp only [mulInsn, read2, flagsOf, saturate_eq, p, x, y, u]
  push_cast
  rfl

/-- What a MAC operation leaves in ACC and the flags. -/
theorem setAcc_eq (n : Nat) (q : Int) (s : State) :
    setAcc n q s = modCore (.ce n) (fun c => { c with fl :=
      { z := (BitVec.ofInt 96 (clampTo 96 q)) == 0, n := decide ((BitVec.ofInt 96 (clampTo 96 q)).toInt < 0), c := c.fl.c,
        v := decide (clampTo 96 q ≠ q), s := c.fl.s || decide (clampTo 96 q ≠ q), o := c.fl.o } })
      (doIf (decide (clampTo 96 q ≠ q)) (noteSaturation (.ce n)) (setCtl n { ctlOf n s with acc := BitVec.ofInt 96 (clampTo 96 q) } s)) := by
  have hs : sat96 q = clampTo 96 q := rfl
  simp only [setAcc, hs, BitVec.msb_eq_toInt]
  rfl

/-- Settles O16. -/
theorem loopAccumulate : Obligations.LoopAccumulate := by
  intro n s
  refine ⟨fun a b h => ?_, fun a b h => ?_, fun a b h => ?_, fun sh rd h => ?_⟩
  · refine (runInsn_next h rfl).trans (congrArg _ ?_)
    exact congrArg (advance (.ce n)) (setAcc_eq n _ _)
  · refine (runInsn_next h rfl).trans (congrArg _ ?_)
    exact congrArg (advance (.ce n)) (setAcc_eq n _ _)
  · refine (runInsn_next h rfl).trans (congrArg _ ?_)
    exact congrArg (advance (.ce n)) (setAcc_eq n _ _)
  · refine (runInsn_next h rfl).trans (congrArg _ ?_)
    simp only [macReadInsn, flagsOf, saturate_eq]
    push_cast
    rfl

/-- A value held between two bounds, the upper taken last (R212, LIM). -/
theorem wrap48_min_max (o x y : Word) : wrap48 (min (max o.toInt x.toInt) y.toInt) =
    if o.toInt < x.toInt then (if y.toInt < x.toInt then y else x) else if y.toInt < o.toInt then y else o := by
  have h (w : Word) {k : Int} (e : k = w.toInt) : wrap48 k = w := e ▸ BitVec.ofInt_toInt
  split <;> split <;> exact h _ (by omega)

theorem bne_eq_decide (a b : Word) : (a != b) = decide (a ≠ b) := by rw [bne, beq_eq_decide, ← decide_not]

theorem mins_res (x y : Word) (f : Flags) :
    (⟨if decide (y.toInt < x.toInt) then y else x,
      Flags.zn (if decide (y.toInt < x.toInt) then y else x) { f with c := decide (y.toInt < x.toInt), v := false }⟩ : Res) =
    let r := if y.toInt < x.toInt then y else x
    ⟨r, { z := r == 0, n := decide (r.toInt < 0), c := decide (y.toInt < x.toInt), v := false, s := f.s, o := f.o }⟩ := by
  simp only [decide_eq_true_eq, Flags.zn_eq]

/-- Settles O17. -/
theorem loopLimits : Obligations.LoopLimits := by
  intro n s rd a b
  refine ⟨fun h => ?_, fun h => ?_, fun cond h => ?_, fun w2 h hb => ?_⟩
  · refine (runInsn_next h rfl).trans (congrArg _ ?_)
    simp only [limInsn, read2, flagsOf, Flags.zn_eq, wrap48_min_max, bne_eq_decide]
  · refine (runInsn_next h rfl).trans (congrArg _ ?_)
    exact congrArg (fun r => advance (.ce n) (writeRes (.ce n) rd r _)) (mins_res _ _ _)
  · refine (runInsn_next h rfl).trans (congrArg _ ?_)
    simp only [preInsn, read2, flagsOf, saturate_eq]
  · subst hb
    refine (runInsn_next h rfl).trans (congrArg _ ?_)
    exact congrArg (fun r => advance (.ce n) (writeRes (.ce n) rd r _)) (saturate_eq _ _ _)

end Sys2Proof.Machine

/-! SUPPORT. Rules for reading registers and fields that the proofs below share, and the proofs of the statements about tracking
(R43, R47, R50, R54, R58, R68 to R72, R78). -/

namespace Sys2Proof.Machine

/-! ### Reads of registers and fields -/

theorem RegsBut.reg {l : List Nat} {s t : State} (h : RegsBut l s t) {a : Nat} (ha : a ∉ l) : t.reg a = s.reg a := h a ha

theorem RegsBut.getF {l : List Nat} {s t : State} (h : RegsBut l s t) {f : Field} (hf : f.reg ∉ l) : getF f t = getF f s :=
  getF_reg f s t (h _ hf)

theorem RegsBut.getB {l : List Nat} {s t : State} (h : RegsBut l s t) {f : Field} (hf : f.reg ∉ l) : getB f t = getB f s := by
  rw [Machine.getB, Machine.getB, h.getF hf]

theorem RegsBut.getI {l : List Nat} {s t : State} (h : RegsBut l s t) {f : Field} (hf : f.reg ∉ l) : getI f t = getI f s :=
  getI_reg f s t (h _ hf)

theorem RegsBut.mono {k l : List Nat} {s t : State} (h : RegsBut k s t) (hl : ∀ a ∈ k, a ∈ l) : RegsBut l s t :=
  fun a ha => h a fun hk => ha (hl a hk)

theorem RegsBut.trans {k l : List Nat} {s t u : State} (h : RegsBut k s t) (g : RegsBut l t u) : RegsBut (k ++ l) s u :=
  fun a ha => (g a fun hl => ha (List.mem_append_right _ hl)).trans (h a fun hk => ha (List.mem_append_left _ hk))

/-- A state with the same registers reads the same. -/
theorem regsBut_of_regs {l : List Nat} {s t : State} (h : t.regs = s.regs) : RegsBut l s t := fun a _ => by
  rw [State.reg, h, State.reg]

theorem getF_lt_two {f : Field} (hw : f.width = 1) (s : State) : getF f s < 2 := by simpa [hw] using getF_lt f s

theorem getB_eq_false_iff {f : Field} (s : State) : getB f s = false ↔ getF f s ≠ 1 := by simp [getB]

theorem getB_eq_decide (f : Field) (s : State) : getB f s = decide (getF f s = 1) := by rw [getB, beq_eq_decide]

/-- A state of which no part that a law speaks of is changed keeps the laws. -/
theorem Sound.of_eq {s t : State} (h : Sound s) (banks : bankSizes t = bankSizes s := by rfl) (regs : t.regs = s.regs := by rfl)
    (shadow : t.shadow = s.shadow := by rfl) (image : t.mem.image = s.mem.image := by rfl) (ddr : t.mem.ddr = s.mem.ddr := by rfl)
    (hostMem : t.host.mem = s.host.mem := by rfl) (ledgers : t.sch.ledgers = s.sch.ledgers := by rfl)
    (ledgerCopies : t.sch.mirror = s.sch.mirror := by rfl) (saved : t.sch.saved = s.sch.saved := by rfl)
    (counters : t.trust.counters = s.trust.counters := by rfl) (counterCopies : t.trust.mirror = s.trust.mirror := by rfl) : Sound t :=
  ⟨banks.trans h.banks, regs ▸ h.regs, shadow ▸ h.shadow, image ▸ h.image, ddr ▸ h.ddr, hostMem ▸ h.hostMem, ledgers ▸ h.ledgers,
    ledgerCopies ▸ h.ledgerCopies, saved ▸ h.ledgersSaved, counters ▸ h.counters, counterCopies ▸ h.counterCopies⟩

/-- An access of the host that does no more than raise a mark. -/
theorem hostAccess_mark {g : State → State} {s : State} {f : Field} (h : startStopped s = false) (e : g s = setB f true s) :
    hostAccess g s = setF f 1 s := by
  rw [hostAccess_run g h, e]; rfl

/-- An access of the host that does no more than write a field. -/
theorem hostAccess_field {g : State → State} {s : State} {f : Field} {x : Nat} (h : startStopped s = false) (e : g s = setF f x s) :
    hostAccess g s = setF f x s := by
  rw [hostAccess_run g h, e]; rfl

/-- What a command's next state satisfies, the command gives, within the parts it may change. -/
theorem gives_of_next {c : Instr} {s t : State} {l : List Part} {Q : State → Prop} (h : exec c s = .next t) (hq : Q t)
    (hl : touches c = l := by rfl) : Gives c s l Q := by
  obtain ⟨u, hu, hp, ho⟩ := everyCommandCompletes c s
  cases hu.symm.trans h
  exact ⟨t, h, hp, hl ▸ ho, hq⟩

/-- An access of the host gives what its action does, with the events of the tick as they were. -/
theorem gives_of_access {c : Instr} {s t : State} {g : State → State} {l : List Part} {Q : State → Prop} (hrun : startStopped s = false)
    (hc : exec c s = .next (hostAccess g s)) (e : g s = t) (hq : Q { t with raised := s.raised }) (hl : touches c = l := by rfl) :
    Gives c s l Q :=
  gives_of_next (hc.trans (congrArg _ (by rw [hostAccess_run _ hrun, e]))) hq hl

/-! ### Settings and presets of a line (R43, R54, R78) -/

theorem guardedChange_iff (n v : Nat) (s : State) : guardedChange n v s = true ↔
    ∃ f ∈ [fTRK_LINE_CTL_EN n, fTRK_LINE_CTL_SRC n, fTRK_LINE_CTL_ENC_SEL n, fTRK_LINE_CTL_DIR_INV n, fTRK_LINE_CTL_OC_UNIT n,
      fTRK_LINE_CTL_OC_LINE n], v / 2 ^ f.lo % 2 ^ f.width ≠ getF f s := by
  simp only [guardedChange, List.any_eq_true, decide_eq_true_eq]
  rfl

theorem lineBusy_of_inFlight {n : Nat} {s : State} (h : ∃ x ∈ s.sch.ptab, x.2.line = n ∧ x.2.state = .inFlight) : lineBusy n s = true := by
  obtain ⟨x, hx, hn, hst⟩ := h
  have hm : x ∈ lineProducts n s := List.mem_filter.mpr ⟨hx, by simp [hn, hst]⟩
  have hne : (lineProducts n s).isEmpty = false := List.isEmpty_eq_false_iff.mpr (List.ne_nil_of_mem hm)
  rw [lineBusy, hne]; rfl

theorem lineBusy_of_none {n : Nat} {s : State} (h : ∀ x ∈ s.sch.ptab, ¬ (x.2.line = n ∧ x.2.state = .inFlight)) (hl : (ledger n s).inf = 0) :
    lineBusy n s = false := by
  have hp : lineProducts n s = [] := List.filter_eq_nil_iff.mpr fun x hx => by simpa using h x hx
  rw [lineBusy, hp, hl]; rfl

/-- Settles O18: both writes stop at their test, and set the mark. -/
theorem lineSettingsGuarded : Obligations.LineSettingsGuarded := by
  intro n v s hn hs
  refine ⟨fun h => congrArg _ (hostAccess_mark hs ?_), fun h => congrArg _ (hostAccess_mark hs ?_)⟩
  · have hc : fieldOf (fTRK_LINE_CTL_SRC n) v = 3 ∨ (guardedChange n v s = true ∧ lineBusy n s = true) :=
      h.imp id fun ⟨hf, hg⟩ => ⟨(guardedChange_iff n v s).mpr hg, lineBusy_of_inFlight hf⟩
    rw [lineCtlWrite, if_neg (by omega), if_pos hc]
  · rw [linePreset, if_neg (by omega), if_pos (lineBusy_of_inFlight h)]

/-- The prediction of a head takes a preset of its line. -/
def presetHead (n : Nat) (p : Word) (h : Nat) (t : State) : State := showPred h (t.setPred h { pos := p, line := some n })

theorem rHP_ALIGN_ne_rTRK_HPRED {h k : Nat} (hk : k < 16) : (fHP_ALIGN_ALIGN_X h).reg ≠ rTRK_HPRED k := by
  simp only [fHP_ALIGN_ALIGN_X, rHP_ALIGN, rTRK_HPRED]; omega

/-- What the presets of some heads leave: the prediction of each of them, and nothing else but what TRK_HPREDn shows of it. -/
structure HeadsPreset (n : Nat) (p : Word) (l : List Nat) (s t : State) : Prop where
  lines : t.lines = s.lines
  sound : Sound t
  regs : RegsBut (l.map rTRK_HPRED) s t
  pred : ∀ h ∈ l, h < 16 → t.pred h = { pos := p, line := some n }
  shown : ∀ h ∈ l, h < 16 → t.reg (rTRK_HPRED h) = p - subs (getI (fHP_ALIGN_ALIGN_X h) s)
  others : ∀ h, h ∉ l → t.pred h = s.pred h

theorem preds_length {s : State} (hs : Sound s) : s.preds.length = 16 := by
  obtain ⟨_, _, _, h, _⟩ := hs.sizes
  exact h

theorem presetHead_preset {n h : Nat} {p : Word} {s : State} (hs : Sound s) : HeadsPreset n p [h] s (presetHead n p h s) := by
  have hl := preds_length hs
  have hu := sound_setPred hs h { pos := p, line := some n }
  refine ⟨rfl, sound_setReg hu _ _, regsBut_setReg (regsBut_of_regs rfl) (List.mem_singleton_self _), fun k hk h16 => ?_, fun k hk h16 => ?_, fun k hk => ?_⟩
  · rw [List.mem_singleton] at hk; subst hk
    exact (setReg_pred _ _ _ _).trans (pred_set_same _ _ (hl ▸ h16))
  · rw [List.mem_singleton] at hk; subst hk
    rw [presetHead, showPred, reg_setReg_same hu, pred_set_same _ _ (hl ▸ h16)]; rfl
  · rw [List.mem_singleton] at hk
    exact (setReg_pred _ _ _ _).trans (pred_set_other _ _ _ hk)

theorem presetHeads_preset {n : Nat} {p : Word} (l : List Nat) (h16 : ∀ h ∈ l, h < 16) {s : State} (hs : Sound s) :
    HeadsPreset n p l s (forAll l (presetHead n p) s) := by
  induction l generalizing s with
  | nil => exact ⟨rfl, hs, regsBut_refl _ _, by simp, by simp, fun _ _ => rfl⟩
  | cons x l ih =>
    have k := presetHead_preset (n := n) (p := p) (h := x) hs
    have r := ih (fun h hh => h16 h (List.mem_cons_of_mem _ hh)) k.sound
    have hx := h16 x List.mem_cons_self
    refine ⟨r.lines.trans k.lines, r.sound, k.regs.trans r.regs, fun h hh h16 => ?_, fun h hh h16 => ?_, fun h hh => ?_⟩
    · by_cases hl : h ∈ l
      · exact r.pred h hl h16
      · exact (r.others h hl).trans (k.pred h (by simpa [hl] using hh) h16)
    · by_cases hl : h ∈ l
      · refine (r.shown h hl h16).trans ?_
        rw [k.regs.getI (f := fHP_ALIGN_ALIGN_X h) (by simpa using rHP_ALIGN_ne_rTRK_HPRED hx)]
      · rw [← k.shown h (by simpa [hl] using hh) h16]
        refine r.regs.reg ?_
        simp only [List.mem_map, rTRK_HPRED, not_exists, not_and]
        intro y hy e
        exact hl (by rwa [show h = y by omega])
    · obtain ⟨hx, hl⟩ := not_or.mp (mt List.mem_cons.mpr hh)
      exact (r.others h hl).trans (k.others h (by simpa using hx))

/-- A line's positions, velocity and acceleration after a preset, before its heads follow. -/
def presetPositions (n : Nat) (p : Word) (s : State) : State :=
  let x := s.line n
  let s1 := s.setLine n { x with ck := p, edges := [], frac := 0, pitchRun := 0, pitchLast := none, bWait := false, revBase := 0 }
  ((setF (fTRK_LINE_VEL_V n) 0 (setF (fTRK_LINE_ACC_A_EST n) 0 s1)).setReg (rTRK_LINE_RAWPOS n) p).setReg (rTRK_LINE_POS n) p

theorem presetLine_eq (n : Nat) (p : Word) (s : State) : presetLine n p s = forAll (headsOf n (presetPositions n p s)) (presetHead n p) (presetPositions n p s) := rfl

theorem presetPositions_sound {s : State} (hs : Sound s) (n : Nat) (p : Word) : Sound (presetPositions n p s) :=
  sound_setReg (sound_setReg (sound_setF (sound_setF (sound_setLine hs _ _) _ _) _ _) _ _) _ _

theorem presetPositions_regs (n : Nat) (p : Word) (s : State) :
    RegsBut [rTRK_LINE_POS n, rTRK_LINE_RAWPOS n, rTRK_LINE_VEL n, rTRK_LINE_ACC n] s (presetPositions n p s) :=
  regsBut_setReg (regsBut_setReg (regsBut_setF (regsBut_setF (regsBut_of_regs rfl) (by simp [fTRK_LINE_ACC_A_EST]))
    (by simp [fTRK_LINE_VEL_V])) (by simp)) (by simp)

theorem mem_headsOf {n h : Nat} {s : State} : h ∈ headsOf n s ↔ h < 16 ∧ getF (fTRK_HLEAD_EN h) s = 1 ∧ getF (fTRK_HLEAD_LINE h) s = n := by
  simp [headsOf, getB_iff]

theorem presetPositions_reads {s : State} (hs : Sound s) (n : Nat) (p : Word) :
    (presetPositions n p s).reg (rTRK_LINE_POS n) = p ∧ (presetPositions n p s).reg (rTRK_LINE_RAWPOS n) = p ∧
      getF (fTRK_LINE_VEL_V n) (presetPositions n p s) = 0 ∧ getF (fTRK_LINE_ACC_A_EST n) (presetPositions n p s) = 0 := by
  obtain ⟨s1, h1, e⟩ : ∃ s1, Sound s1 ∧ presetPositions n p s =
      ((setF (fTRK_LINE_VEL_V n) 0 (setF (fTRK_LINE_ACC_A_EST n) 0 s1)).setReg (rTRK_LINE_RAWPOS n) p).setReg (rTRK_LINE_POS n) p :=
    ⟨_, sound_setLine hs n _, rfl⟩
  rw [e]
  have h2 := sound_setF h1 (fTRK_LINE_ACC_A_EST n) 0
  have h3 := sound_setF h2 (fTRK_LINE_VEL_V n) 0
  have apart : rTRK_LINE_RAWPOS n ≠ rTRK_LINE_POS n ∧ rTRK_LINE_VEL n ≠ rTRK_LINE_POS n ∧ rTRK_LINE_VEL n ≠ rTRK_LINE_RAWPOS n ∧
      rTRK_LINE_ACC n ≠ rTRK_LINE_POS n ∧ rTRK_LINE_ACC n ≠ rTRK_LINE_RAWPOS n ∧ rTRK_LINE_ACC n ≠ rTRK_LINE_VEL n := by
    simp only [rTRK_LINE_POS, rTRK_LINE_RAWPOS, rTRK_LINE_VEL, rTRK_LINE_ACC]; omega
  obtain ⟨rp, vp, vr, ap, ar, av⟩ := apart
  refine ⟨reg_setReg_same (sound_setReg h3 _ _) _ _, ?_, ?_, ?_⟩
  · rw [reg_setReg_other _ _ rp, reg_setReg_same h3]
  · rw [getF_setReg_other _ _ vp, getF_setReg_other _ _ vr, getF_setF_same h2 _ (by simp [fTRK_LINE_VEL_V])]; rfl
  · rw [getF_setReg_other _ _ ap, getF_setReg_other _ _ ar, getF_setF_other h2 _ (by simp [fTRK_LINE_VEL_V]) (.inl av),
      getF_setF_same h1 _ (by simp [fTRK_LINE_ACC_A_EST])]; rfl

/-- A preset reads the same of what its heads follow before and after. -/
theorem mem_headsOf_presetPositions {n h : Nat} (hn : n < 4) {p : Word} {s : State} : h ∈ headsOf n (presetPositions n p s) ↔
    h < 16 ∧ getF (fTRK_HLEAD_EN h) s = 1 ∧ getF (fTRK_HLEAD_LINE h) s = n := by
  have k := presetPositions_regs n p s
  have hr : rTRK_HLEAD h ∉ [rTRK_LINE_POS n, rTRK_LINE_RAWPOS n, rTRK_LINE_VEL n, rTRK_LINE_ACC n] := by
    simp only [List.mem_cons, List.not_mem_nil, or_false, rTRK_HLEAD, rTRK_LINE_POS, rTRK_LINE_RAWPOS, rTRK_LINE_VEL, rTRK_LINE_ACC]; omega
  rw [mem_headsOf, k.getF hr, k.getF hr]

/-- Settles O19: the line's own registers are written first, then each head that follows it is preset in turn. -/
theorem presetSetsPositions : Obligations.PresetSetsPositions := by
  intro n v s hn hs hrun hnone hinf
  have hbusy := lineBusy_of_none hnone hinf
  have he : exec (.linePreset n v) s = .next { bringDue (presetLine n (BitVec.ofNat 48 v) s) with raised := s.raised } := by
    show Host.Outcome.next _ = _
    rw [hostAccess_run _ hrun, linePreset, if_neg (by omega), if_neg (by simp [hbusy])]
  refine gives_of_next he ?_
  generalize BitVec.ofNat 48 v = p
  have hu := presetPositions_sound hs n p
  obtain ⟨hlines, -, hregs, hpred, hshown, hothers⟩ := presetHeads_preset (n := n) (p := p) (headsOf n (presetPositions n p s))
    (fun h hh => (mem_headsOf.mp hh).1) hu
  rw [← presetLine_eq] at hlines hregs hpred hshown hothers
  have notHead {a : Nat} (ha : ∀ h, a ≠ rTRK_HPRED h) : a ∉ (headsOf n (presetPositions n p s)).map rTRK_HPRED := by
    simp only [List.mem_map, not_exists, not_and]
    exact fun h _ e => ha h e.symm
  have own := presetPositions_regs n p s
  obtain ⟨hpos, hraw, hvel, hacc⟩ := presetPositions_reads hs n p
  refine ⟨?_, ?_, ?_, ?_, fun h h16 hf => ?_, fun h hf => ?_, fun m hm => ?_, ?_⟩
  · exact (hregs.reg (notHead fun h => by simp only [rTRK_LINE_POS, rTRK_HPRED]; omega)).trans hpos
  · exact (hregs.reg (notHead fun h => by simp only [rTRK_LINE_RAWPOS, rTRK_HPRED]; omega)).trans hraw
  · exact (hregs.getF (notHead fun h => by simp only [fTRK_LINE_VEL_V, rTRK_LINE_VEL, rTRK_HPRED]; omega)).trans hvel
  · exact (hregs.getF (notHead fun h => by simp only [fTRK_LINE_ACC_A_EST, rTRK_LINE_ACC, rTRK_HPRED]; omega)).trans hacc
  · have hm := (mem_headsOf_presetPositions (p := p) hn).mpr ⟨h16, hf⟩
    refine ⟨congrArg Pred.pos (hpred h hm h16), (hshown h hm h16).trans ?_⟩
    rw [own.getI (f := fHP_ALIGN_ALIGN_X h)]
    · rfl
    · simp only [List.mem_cons, List.not_mem_nil, or_false, fHP_ALIGN_ALIGN_X, rHP_ALIGN, rTRK_LINE_POS, rTRK_LINE_RAWPOS, rTRK_LINE_VEL,
        rTRK_LINE_ACC]
      omega
  · exact hothers h fun hm => hf ((mem_headsOf_presetPositions hn).mp hm)
  · have hp : (presetPositions n p s).line m = s.line m := line_set_other n m _ hm
    rw [← hp]
    exact congrArg (fun l => l.getD m {}) hlines
  · refine (own.trans hregs).mono fun a ha => ?_
    simp only [List.mem_append, List.mem_map, List.mem_range] at ha ⊢
    exact ha.imp id fun ⟨h, hh, e⟩ => ⟨h, (mem_headsOf.mp hh).1, e⟩

/-! ### Z pulses (R47, R50) -/

theorem settled_iff (m : Nat) (o : Option Word) (s : State) :
    settled m o s = true ↔ ∀ x, o = some x → getF (fTRK_ENC_CFG_ENC_FILT m) s + 1 ≤ (s.reg rTRK_TICK - x).toNat := by
  cases o <;> simp [settled, now]

/-- An encoder's Z level is accepted, and its pulse recorded. -/
def zPulse (m : Nat) (s : State) : State :=
  (setB (fTRK_ENC_STAT_Z m) true (s.setEnc m { s.enc m with accZ := some (now s) })).setEnc m
    { s.enc m with zLast := some (getF (fTRK_ENC_COUNT_COUNT m) s), zTurned := false, accZ := some (now s) }

/-- The counts since the pulse before do not agree with CPR. -/
def zWrong (m : Nat) (s : State) : Bool := match (s.enc m).zLast with
  | none => false
  | some c0 =>
    let d := (signedOf 40 ((getF (fTRK_ENC_COUNT_COUNT m) s + 2 ^ 40 - c0) % 2 ^ 40)).natAbs
    !(s.enc m).zTurned && (decide (getF (fTRK_ENC_CFG_CPR m) s + 2 < d) || decide (d + 2 < getF (fTRK_ENC_CFG_CPR m) s))

theorem encZ_unsettled {m : Nat} {s : State} (h : settled m (s.enc m).accZ s = false) : encZ m true s = s := by
  rw [encZ, if_pos (.inr (.inr (by rw [h]; rfl)))]

theorem encZ_pulse {m : Nat} {s : State} (hs : Sound s) (hm : m < 8) (hz : getF (fTRK_ENC_STAT_Z m) s = 0) (hen : getF (fTRK_ENC_CFG_Z_EN m) s = 1)
    (hcpr : getF (fTRK_ENC_CFG_CPR m) s ≠ 0) (h : settled m (s.enc m).accZ s = true) :
    encZ m true s = if zWrong m s then incSat (fTRK_ENC_STAT_Z_CNT m) (setB (fTRK_ENC_STAT_Z_ERR m) true (zPulse m s)) else zPulse m s := by
  have hskip : ¬ (8 ≤ m ∨ getB (fTRK_ENC_STAT_Z m) s = true ∨ (!settled m (s.enc m).accZ s) = true) := by simp [getB, hz, h, hm]
  have hgo : ¬ ((!true) = true ∨ (!getB (fTRK_ENC_CFG_Z_EN m) s) = true ∨ getF (fTRK_ENC_CFG_CPR m) s = 0) := by simp [getB, hen, hcpr]
  have hl := hs.sizes.2.1
  have henc : (setB (fTRK_ENC_STAT_Z m) true (s.setEnc m { s.enc m with accZ := some (now s) })).enc m =
      { s.enc m with accZ := some (now s) } := by rw [setB_enc, enc_set_same _ _ (hl ▸ hm)]
  have hreg : RegsBut [rTRK_ENC_STAT m] s (setB (fTRK_ENC_STAT_Z m) true (s.setEnc m { s.enc m with accZ := some (now s) })) :=
    regsBut_setB (regsBut_of_regs rfl) (List.mem_singleton_self _)
  have hcnt := hreg.getF (f := fTRK_ENC_COUNT_COUNT m) (by simp [fTRK_ENC_COUNT_COUNT, rTRK_ENC_COUNT, rTRK_ENC_STAT])
  have hc := hreg.getF (f := fTRK_ENC_CFG_CPR m) (by simp [fTRK_ENC_CFG_CPR, rTRK_ENC_CFG, rTRK_ENC_STAT])
  rw [encZ, if_neg hskip, if_neg hgo]
  simp only [henc, hcnt, hc]
  rfl

theorem zWrong_iff (m : Nat) (s : State) : zWrong m s = true ↔ (s.enc m).zTurned = false ∧ ∃ c0, (s.enc m).zLast = some c0 ∧
    (getF (fTRK_ENC_CFG_CPR m) s + 2 < (signedOf 40 ((getF (fTRK_ENC_COUNT_COUNT m) s + 2 ^ 40 - c0) % 2 ^ 40)).natAbs ∨
      (signedOf 40 ((getF (fTRK_ENC_COUNT_COUNT m) s + 2 ^ 40 - c0) % 2 ^ 40)).natAbs + 2 < getF (fTRK_ENC_CFG_CPR m) s) := by
  unfold zWrong
  split <;> simp_all

/-- What the recording of a Z pulse leaves. -/
structure ZSeen (m : Nat) (s t : State) : Prop where
  sound : Sound t
  enc : t.enc m = { s.enc m with zLast := some (getF (fTRK_ENC_COUNT_COUNT m) s), zTurned := false, accZ := some (s.reg rTRK_TICK) }
  others : ∀ k, k ≠ m → t.enc k = s.enc k
  level : getF (fTRK_ENC_STAT_Z m) t = 1
  regs : RegsBut [rTRK_ENC_STAT m] s t

theorem zPulse_seen {m : Nat} {s : State} (hs : Sound s) (hm : m < 8) : ZSeen m s (zPulse m s) ∧
    getF (fTRK_ENC_STAT_Z_ERR m) (zPulse m s) = getF (fTRK_ENC_STAT_Z_ERR m) s ∧
    getF (fTRK_ENC_STAT_Z_CNT m) (zPulse m s) = getF (fTRK_ENC_STAT_Z_CNT m) s := by
  have h1 := sound_setEnc hs m { s.enc m with accZ := some (now s) }
  have h2 := sound_setB h1 (fTRK_ENC_STAT_Z m) true
  have hl := h2.sizes.2.1
  refine ⟨⟨sound_setEnc h2 _ _, enc_set_same _ _ (hl ▸ hm), fun k hk => ?_, ?_, ?_⟩, ?_, ?_⟩
  · exact (enc_set_other _ _ _ hk).trans ((setB_enc _ _ _ _).trans (enc_set_other _ _ _ hk))
  · exact getF_setB_same h1 true (by simp [fTRK_ENC_STAT_Z]) rfl
  · exact fun a ha => (regsBut_setB (o := s) (regsBut_of_regs rfl) (List.mem_singleton_self _) : RegsBut [rTRK_ENC_STAT m] s _) a ha
  · exact getF_setB_other h1 true (by simp [fTRK_ENC_STAT_Z]) (.inr (.inr (by simp [fTRK_ENC_STAT_Z, fTRK_ENC_STAT_Z_ERR])))
  · exact getF_setB_other h1 true (by simp [fTRK_ENC_STAT_Z]) (.inr (.inr (by simp [fTRK_ENC_STAT_Z, fTRK_ENC_STAT_Z_CNT])))

/-- A wrong pulse marks the error and counts it, and leaves the rest of what the pulse records. -/
theorem zError_seen {m : Nat} {s t : State} (h : ZSeen m s t) :
    let u := incSat (fTRK_ENC_STAT_Z_CNT m) (setB (fTRK_ENC_STAT_Z_ERR m) true t)
    ZSeen m s u ∧ getF (fTRK_ENC_STAT_Z_ERR m) u = 1 ∧
      getF (fTRK_ENC_STAT_Z_CNT m) u = min (getF (fTRK_ENC_STAT_Z_CNT m) t + 1) (2 ^ (fTRK_ENC_STAT_Z_CNT m).width - 1) := by
  obtain ⟨ht, henc, hoth, hz, hr⟩ := h
  have h1 := sound_setB ht (fTRK_ENC_STAT_Z_ERR m) true
  have fitE : (fTRK_ENC_STAT_Z_ERR m).lo + (fTRK_ENC_STAT_Z_ERR m).width ≤ 48 := by simp [fTRK_ENC_STAT_Z_ERR]
  have fitC : (fTRK_ENC_STAT_Z_CNT m).lo + (fTRK_ENC_STAT_Z_CNT m).width ≤ 48 := by simp [fTRK_ENC_STAT_Z_CNT]
  refine ⟨⟨sound_incSat h1 _, ?_, fun k hk => ?_, ?_, regsBut_incSat (regsBut_setB hr (List.mem_singleton_self _)) (List.mem_singleton_self _)⟩, ?_, ?_⟩
  · rw [incSat_enc, setB_enc, henc]
  · rw [incSat_enc, setB_enc, hoth k hk]
  · rw [getF_incSat_other h1 fitC (.inr (.inl (by simp [fTRK_ENC_STAT_Z, fTRK_ENC_STAT_Z_CNT]))),
      getF_setB_other ht true fitE (.inr (.inl (by simp [fTRK_ENC_STAT_Z, fTRK_ENC_STAT_Z_ERR]))), hz]
  · rw [getF_incSat_other h1 fitC (.inr (.inl (by simp [fTRK_ENC_STAT_Z_ERR, fTRK_ENC_STAT_Z_CNT]))), getF_setB_same ht true fitE rfl]; rfl
  · rw [getF_incSat_same h1 fitC, getF_setB_other ht true fitE (.inr (.inr (by simp [fTRK_ENC_STAT_Z_ERR, fTRK_ENC_STAT_Z_CNT])))]

/-- Settles O20: an unsettled level stops at its test; a settled one is recorded, and marked where its counts are wrong. -/
theorem zPulseChecked : Obligations.ZPulseChecked := by
  intro m s hm hs hz hen hcpr c cpr distance wrong held
  have hw : zWrong m s = true ↔ wrong := zWrong_iff m s
  have hh : settled m (s.enc m).accZ s = true ↔ held := settled_iff _ _ _
  refine ⟨fun h => congrArg _ (encZ_unsettled (Bool.eq_false_iff.mpr (mt hh.mp h))), fun h => ?_⟩
  refine gives_of_next rfl ?_
  rw [encZ_pulse hs hm hz hen hcpr (hh.mpr h)]
  obtain ⟨seen, herr, hcnt⟩ := zPulse_seen hs hm
  split
  · next hbad =>
    obtain ⟨⟨-, henc, hoth, hz1, hr⟩, herr1, hcnt1⟩ := zError_seen seen
    exact ⟨henc, hoth, hz1, hr, fun _ => ⟨herr1, hcnt ▸ hcnt1⟩, fun hn => absurd (hw.mp hbad) hn⟩
  · next hgood =>
    obtain ⟨-, henc, hoth, hz1, hr⟩ := seen
    exact ⟨henc, hoth, hz1, hr, fun hb => absurd (hw.mpr hb) hgood, fun _ => ⟨herr, hcnt⟩⟩

/-! ### Product detect (R58, R68 to R72) -/

theorem heldFor_iff (p : Nat) (s : State) : heldFor p s = true ↔
    ∀ x, (s.pd p).since = some x → max 1 (getF (fTRK_PD_CFG_FILT_N p) s) ≤ (s.reg rTRK_TICK - x).toNat := by
  unfold heldFor
  cases (s.pd p).since <;> simp [now]

theorem blanked_iff (p : Nat) (s : State) : blanked p s = true ↔
    ∃ q, (((s.pd p).pending.getLast?.map fun c => c.pos).or (s.pd p).lastPos) = some q ∧
      posDiff (s.reg (rTRK_LINE_POS (getF (fTRK_PD_CFG_LINE p) s))) q < 256 * getF (fTRK_PD_CFG_BLANK p) s := by
  unfold blanked lastConfirmed
  cases (s.pd p).pending.getLast? <;> cases (s.pd p).lastPos <;> simp [pM]

/-- The record of an input whose level has just been accepted. -/
def pdSeen (p : Nat) (s : State) : Pd := { s.pd p with since := some (s.reg rTRK_TICK), started := false }

/-- The state in which an accepted level is acted upon. -/
def pdLevel (p : Nat) (level : Bool) (s : State) : State := setB (fTRK_PD_STAT_LEVEL p) level (s.setPd p (pdSeen p s))

theorem pdEdge_unheld {p : Nat} {level : Bool} {s : State} (h : heldFor p s = false) (hst : (s.pd p).started = false) :
    pdEdge p level s = s := by
  unfold pdEdge
  split
  · rfl
  · simp [h, hst]

theorem pdLevel_regs (p : Nat) (level : Bool) (s : State) : RegsBut [rTRK_PD_STAT p] s (pdLevel p level s) :=
  regsBut_setB (regsBut_of_regs rfl) (List.mem_singleton_self _)

theorem pdEdge_leading {p : Nat} {level : Bool} {s : State} (hp : p < 16) (hen : getF (fTRK_PD_CFG_EN p) s = 1)
    (hchg : getB (fTRK_PD_STAT_LEVEL p) s ≠ level) (hpol : (level != getB (fTRK_PD_CFG_POL p) s) = true) (h : heldFor p s = true) :
    pdEdge p level s = leadingEdge p (pdLevel p level s) := by
  have hr := pdLevel_regs p level s
  have hcfg : rTRK_PD_CFG p ∉ [rTRK_PD_STAT p] := by simp [rTRK_PD_CFG, rTRK_PD_STAT]
  have hen1 : getB (fTRK_PD_CFG_EN p) (pdLevel p level s) = true := by rw [hr.getB hcfg, getB_iff, hen]
  have hpol1 : (level != getB (fTRK_PD_CFG_POL p) (pdLevel p level s)) = true := by rw [hr.getB hcfg, hpol]
  have hskip : ¬ (16 ≤ p ∨ getB (fTRK_PD_STAT_LEVEL p) s = level) := by simp [hchg, hp]
  rw [pdEdge, if_neg hskip, if_neg (by rw [h]; decide)]
  exact (if_neg (show ¬ ((!getB (fTRK_PD_CFG_EN p) (pdLevel p level s)) = true) by rw [hen1]; decide)).trans (if_pos hpol1)

theorem pdLevel_pd {p : Nat} {level : Bool} {s : State} (hs : Sound s) (hp : p < 16) : (pdLevel p level s).pd p = pdSeen p s :=
  (setB_pd _ _ _ _).trans (pd_set_same _ _ (hs.sizes.2.2.1 ▸ hp))

/-- An accepted level leaves what blanking compares as it was. -/
theorem blanked_pdLevel {p : Nat} {level : Bool} {s : State} (hs : Sound s) (hp : p < 16) : blanked p (pdLevel p level s) = blanked p s := by
  have hr := pdLevel_regs p level s
  have hcfg : rTRK_PD_CFG p ∉ [rTRK_PD_STAT p] := by simp [rTRK_PD_CFG, rTRK_PD_STAT]
  have hpos (n : Nat) (hn : n < 4) : pM n (pdLevel p level s) = pM n s :=
    hr.reg (by simp only [List.mem_singleton, rTRK_LINE_POS, rTRK_PD_STAT]; omega)
  unfold blanked lastConfirmed
  rw [pdLevel_pd hs hp, hr.getF (f := fTRK_PD_CFG_LINE p) hcfg, hr.getF (f := fTRK_PD_CFG_BLANK p) hcfg, hpos _ (getF_lt _ s)]
  rfl

/-- What a leading edge leaves whatever becomes of it. -/
structure EdgeSeen (p n : Nat) (level : Bool) (s t : State) : Prop where
  level : getB (fTRK_PD_STAT_LEVEL p) t = level
  others : ∀ q, q ≠ p → t.pd q = s.pd q
  regs : RegsBut [rTRK_PD_STAT p, rTRK_LINE_CNT n] s t

theorem pdLevel_seen {p n : Nat} {level : Bool} {s : State} (hs : Sound s) : EdgeSeen p n level s (pdLevel p level s) where
  level := getB_setB_same (sound_setPd hs _ _) level (by simp [fTRK_PD_STAT_LEVEL]) rfl
  others q hq := (setB_pd _ _ _ _).trans (pd_set_other _ _ _ hq)
  regs := (pdLevel_regs p level s).mono (by simp)

/-- An edge that is only counted: one count more, and the input as the accepted level leaves it. -/
theorem countEdge {p n : Nat} {level : Bool} {s : State} (hs : Sound s) (hp : p < 16) {f : Field} (hfit : f.lo + f.width ≤ 48)
    (hreg : f.reg ∈ [rTRK_PD_STAT p, rTRK_LINE_CNT n]) (hd : f.reg ≠ rTRK_PD_STAT p ∨ 1 ≤ f.lo) :
    EdgeSeen p n level s (incSat f (pdLevel p level s)) ∧ (incSat f (pdLevel p level s)).pd p = pdSeen p s ∧
      getF f (incSat f (pdLevel p level s)) = min (getF f s + 1) (2 ^ f.width - 1) := by
  have hu : Sound (pdLevel p level s) := sound_setB (sound_setPd hs _ _) _ _
  obtain ⟨hl, ho, hr⟩ := pdLevel_seen (p := p) (n := n) (level := level) hs
  have apart : (fTRK_PD_STAT_LEVEL p).reg ≠ f.reg ∨ (fTRK_PD_STAT_LEVEL p).lo + (fTRK_PD_STAT_LEVEL p).width ≤ f.lo ∨
      f.lo + f.width ≤ (fTRK_PD_STAT_LEVEL p).lo := by
    rcases hd with h | h
    · exact .inl fun e => h e.symm
    · exact .inr (.inl h)
  have same : getF f (pdLevel p level s) = getF f s := by
    refine getF_setB_other (sound_setPd hs p (pdSeen p s)) level (by simp [fTRK_PD_STAT_LEVEL]) ?_
    rcases hd with h | h
    · exact .inl h
    · exact .inr (.inr h)
  refine ⟨⟨?_, fun q hq => (incSat_pd _ _ _).trans (ho q hq), regsBut_incSat hr hreg⟩, (incSat_pd _ _ _).trans (pdLevel_pd hs hp), ?_⟩
  · rw [getB, getF_incSat_other hu hfit apart]; exact hl
  · rw [getF_incSat_same hu hfit, same]

/-- The capture that a leading edge latches. -/
def latched (n : Nat) (s : State) : Capture :=
  { pos := pM n s, latchIn := 3, tick := now s, date := s.reg rTRU_TIME, trusted := clockTrusted s, dr := decide (3 ≤ lineState n s) }

/-- The branches of a leading edge, tested on the state before the level was accepted. -/
theorem leadingEdge_pdLevel {p : Nat} {level : Bool} {s : State} (hs : Sound s) (hp : p < 16) :
    let n := getF (fTRK_PD_CFG_LINE p) s
    let u := pdLevel p level s
    leadingEdge p u = if lineState n s = 0 then incSat (fTRK_PD_STAT_OFF_CNT p) u
      else if atOrBeyond (pRaw n s) (pM n s) = false then incSat (fTRK_LINE_CNT_SUPP_CNT n) u
      else if blanked p s then incSat (fTRK_PD_STAT_BLANK_CNT p) u
      else u.setPd p { pdSeen p s with pending := (s.pd p).pending ++ [latched n s] } := by
  intro n u
  have hr : RegsBut [rTRK_PD_STAT p] s u := pdLevel_regs p level s
  have hn : n < 4 := getF_lt _ s
  have hcfg : getF (fTRK_PD_CFG_LINE p) u = n := hr.getF (by simp [fTRK_PD_CFG_LINE, rTRK_PD_CFG, rTRK_PD_STAT])
  have hst : lineState n u = lineState n s := hr.getF (by
    simp only [List.mem_singleton, fTRK_LINE_STAT_STATE, rTRK_LINE_STAT, rTRK_PD_STAT]; omega)
  have hraw : pRaw n u = pRaw n s := hr.reg (by simp only [List.mem_singleton, rTRK_LINE_RAWPOS, rTRK_PD_STAT]; omega)
  have hpos : pM n u = pM n s := hr.reg (by simp only [List.mem_singleton, rTRK_LINE_POS, rTRK_PD_STAT]; omega)
  have htick : now u = now s := hr.reg (by simp only [List.mem_singleton, rTRK_TICK, rTRK_PD_STAT]; omega)
  have htime : u.reg rTRU_TIME = s.reg rTRU_TIME := hr.reg (by simp only [List.mem_singleton, rTRU_TIME, rTRK_PD_STAT]; omega)
  have htrust : clockTrusted u = clockTrusted s := hr.getB (by
    simp only [List.mem_singleton, fTRU_TSTAT_TRUSTED, rTRU_TSTAT, rTRK_PD_STAT]; omega)
  have hpd : u.pd p = pdSeen p s := pdLevel_pd hs hp
  simp only [leadingEdge, hcfg, hst, hraw, hpos, htick, htime, htrust, hpd, blanked_pdLevel hs hp, u]
  rfl

/-- Settles O21: the level is accepted, and the edge is counted or latched by the first of its tests. -/
theorem leadingEdgeLatches : Obligations.LeadingEdgeLatches := by
  intro p s hp hs n level hen hchg below blank off held seen counts capture
  have hh : heldFor p s = true ↔ held := heldFor_iff p s
  refine ⟨fun h hst => congrArg _ (pdEdge_unheld (Bool.eq_false_iff.mpr (mt hh.mp h)) hst), fun h => ?_⟩
  have hpol : (decide level != getB (fTRK_PD_CFG_POL p) s) = true := by
    have := getF_lt_two (f := fTRK_PD_CFG_POL p) rfl s
    rw [getB_eq_decide, bne_iff_ne, ne_eq, decide_eq_decide]
    simp only [level]; omega
  have hlev : getB (fTRK_PD_STAT_LEVEL p) s ≠ decide level := by
    rw [getB_eq_decide, ne_eq, decide_eq_decide, hchg]
    exact fun k => iff_not_self k.symm
  refine gives_of_next rfl ?_
  have hbelow : atOrBeyond (pRaw n s) (pM n s) = false ↔ below := by
    rw [atOrBeyond, decide_eq_false_iff_not, not_le]; rfl
  have hblank : blanked p s = true ↔ blank := blanked_iff p s
  have hlevel (t : State) : getB (fTRK_PD_STAT_LEVEL p) t = decide level ↔ (getF (fTRK_PD_STAT_LEVEL p) t = 1 ↔ level) := by
    rw [getB_eq_decide, decide_eq_decide]
  have hoff : lineState n s = 0 ↔ off := Iff.rfl
  rw [pdEdge_leading hp hen hlev hpol (hh.mpr h), leadingEdge_pdLevel hs hp]
  have fitS : (fTRK_LINE_CNT_SUPP_CNT n).lo + (fTRK_LINE_CNT_SUPP_CNT n).width ≤ 48 := by simp [fTRK_LINE_CNT_SUPP_CNT]
  have apartS : rTRK_LINE_CNT n ≠ rTRK_PD_STAT p := by
    have : n < 4 := getF_lt _ s
    simp only [rTRK_LINE_CNT, rTRK_PD_STAT]; omega
  split
  · next ho =>
    obtain ⟨⟨hl, hoth, hr⟩, hpd, hc⟩ := countEdge (n := n) (level := decide level) hs hp (f := fTRK_PD_STAT_OFF_CNT p)
      (by simp [fTRK_PD_STAT_OFF_CNT]) (by simp [fTRK_PD_STAT_OFF_CNT]) (.inr (by simp [fTRK_PD_STAT_OFF_CNT]))
    exact ⟨rfl, (hlevel _).mp hl, hoth, hr, fun _ => ⟨hc, hpd⟩, fun k => absurd ho k.1, fun k => absurd ho k.1, fun k => absurd ho k.1⟩
  split
  · next ho hb =>
    obtain ⟨⟨hl, hoth, hr⟩, hpd, hc⟩ := countEdge (n := n) (level := decide level) hs hp (f := fTRK_LINE_CNT_SUPP_CNT n)
      fitS (by simp [fTRK_LINE_CNT_SUPP_CNT]) (.inl apartS)
    have hb := hbelow.mp hb
    exact ⟨rfl, (hlevel _).mp hl, hoth, hr, fun k => absurd k ho, fun _ => ⟨hc, hpd⟩, fun k => absurd hb k.2.1, fun k => absurd hb k.2.1⟩
  split
  · next ho hb hk =>
    obtain ⟨⟨hl, hoth, hr⟩, hpd, hc⟩ := countEdge (n := n) (level := decide level) hs hp (f := fTRK_PD_STAT_BLANK_CNT p)
      (by simp [fTRK_PD_STAT_BLANK_CNT]) (by simp [fTRK_PD_STAT_BLANK_CNT]) (.inr (by simp [fTRK_PD_STAT_BLANK_CNT]))
    exact ⟨rfl, (hlevel _).mp hl, hoth, hr, fun k => absurd k ho, fun k => absurd (hbelow.mpr k.2) hb, fun _ => ⟨hc, hpd⟩,
      fun k => absurd (hblank.mp hk) k.2.2⟩
  · next ho hb hk =>
    obtain ⟨hl, hoth, hr⟩ := pdLevel_seen (p := p) (n := n) (level := decide level) hs
    have hu : Sound (pdLevel p (decide level) s) := sound_setB (sound_setPd hs _ _) _ _
    exact ⟨rfl, (hlevel _).mp hl, fun q hq => (pd_set_other _ _ _ hq).trans (hoth q hq), hr, fun k => absurd k ho,
      fun k => absurd (hbelow.mpr k.2) hb, fun k => absurd (hblank.mpr k.2.2) hk, fun _ => pd_set_same _ _ (hu.sizes.2.2.1 ▸ hp)⟩

end Sys2Proof.Machine

/-! SUPPORT. The proofs of the statements about scheduling (R28, R85, R88, R90, R113, R520). -/

namespace Sys2Proof.Machine

/-! ### Inserts by the host (R85, R86) -/

/-- The event that a write of SCH_INS_CMD asks for. -/
def insertEvent (v : Nat) (s : State) : Event :=
  let type := fieldOf fSCH_INS_CMD_TYPE v
  { pos := s.reg rSCH_INS_POS, type := if type = 7 then .handover else if type = 8 then .signal else .activate,
    line := fieldOf fSCH_INS_CMD_LINE v, headrel := fieldOf fSCH_INS_CMD_HEADREL v == 1, head := fieldOf fSCH_INS_CMD_HEAD v,
    job := 0, ptab := 0, noent := false, rej := 0, host := true, arg := fieldOf fSCH_INS_CMD_ARG v, width := 0, wmode := false,
    hasRej := false, pulse := false, seq := 0, due := none }

/-- The tests of an insert, in their order (R85). -/
theorem petHostInsert_eq {v : Nat} (s : State) (hgo : fieldOf fSCH_INS_CMD_GO v = 1) : petHostInsert v s =
    if fieldOf fSCH_INS_CMD_TYPE v < 7 ∨ 9 < fieldOf fSCH_INS_CMD_TYPE v then setF fSCH_INS_STAT_RESULT 3 s
    else if argValid (fieldOf fSCH_INS_CMD_TYPE v) (fieldOf fSCH_INS_CMD_ARG v) = false then setF fSCH_INS_STAT_RESULT 4 s
    else if petFree s = 0 ∨ getF fSCH_PET_HOSTMAX_HOSTMAX s ≤ (s.sch.pet.filter fun x => x.2.host).length then setF fSCH_INS_STAT_RESULT 1 s
    else if atOrBeyond (reference (insertEvent v s) s) (s.reg rSCH_INS_POS) then setF fSCH_INS_STAT_RESULT 2 s
    else setF fSCH_INS_STAT_RESULT 0
      (setF fSCH_INS_STAT_ENTRY ((spFree s.sch.pet petSize 0).getD 0) (petInsert (insertEvent v s) s)) :=
  if_neg (by rw [hgo]; decide)

theorem argValid_eq_false_iff {type arg : Nat} (h : type = 7 ∨ type = 8 ∨ type = 9) (ha : arg < 256) : argValid type arg = false ↔
    (type = 7 ∧ 20 ≤ arg) ∨ (type = 8 ∧ ¬ (arg < 20 ∨ (64 ≤ arg ∧ arg < 72) ∨ (128 ≤ arg ∧ arg < 136))) := by
  rcases h with rfl | rfl | rfl
  · simp [argValid]
  · simp only [argValid]
    have hk : arg / 64 = 0 ∨ arg / 64 = 1 ∨ arg / 64 = 2 ∨ arg / 64 = 3 := by omega
    rcases hk with h | h | h | h <;> simp [h] <;> omega
  · simp [argValid]

theorem petFull_iff (s : State) : (petFree s = 0 ∨ getF fSCH_PET_HOSTMAX_HOSTMAX s ≤ (s.sch.pet.filter fun x => x.2.host).length) ↔
    8192 ≤ s.sch.pet.length ∨ getF fSCH_PET_HOSTMAX_HOSTMAX s ≤ (s.sch.pet.filter fun x => x.2.host).length := by
  rw [petFree, petSize, Nat.sub_eq_zero_iff_le]

/-- Where the event of an insert is measured from. -/
theorem reference_insertEvent (v : Nat) (s : State) : reference (insertEvent v s) s =
    if fieldOf fSCH_INS_CMD_HEADREL v = 1 then s.reg (rTRK_HPRED (fieldOf fSCH_INS_CMD_HEAD v)) else s.reg (rTRK_LINE_POS (fieldOf fSCH_INS_CMD_LINE v)) := by
  simp [reference, insertEvent, pM]

/-- Settles O22: the first test that holds decides the result. -/
theorem refusedInsertHasNoEffect : Obligations.RefusedInsertHasNoEffect := by
  intro v s hs type arg ref badType badArg full past result hgo
  have eq := petHostInsert_eq s (v := v) hgo
  have run {k : Nat} (e : petHostInsert v s = setF fSCH_INS_STAT_RESULT k s) : result k := congrArg _ (hostAccess_field hs e)
  have htype : fieldOf fSCH_INS_CMD_TYPE v < 7 ∨ 9 < fieldOf fSCH_INS_CMD_TYPE v ↔ badType := by
    show type < 7 ∨ 9 < type ↔ ¬ (type = 7 ∨ type = 8 ∨ type = 9)
    omega
  have harg (h : ¬ badType) : argValid (fieldOf fSCH_INS_CMD_TYPE v) (fieldOf fSCH_INS_CMD_ARG v) = false ↔ badArg :=
    argValid_eq_false_iff (not_not.mp h) (Nat.mod_lt _ (by decide))
  have hpast : atOrBeyond (reference (insertEvent v s) s) (s.reg rSCH_INS_POS) = true ↔ past := by
    rw [reference_insertEvent, atOrBeyond, decide_eq_true_iff]; rfl
  refine ⟨fun h => run ?_, fun ⟨ht, ha⟩ => run ?_, fun ⟨ht, ha, hf⟩ => run ?_, fun ⟨ht, ha, hf, hp⟩ => run ?_⟩
  · rw [eq, if_pos (htype.mpr h)]
  · rw [eq, if_neg (mt htype.mp ht), if_pos ((harg ht).mpr ha)]
  · rw [eq, if_neg (mt htype.mp ht), if_neg (mt (harg ht).mp ha), if_pos ((petFull_iff s).mpr hf)]
  · rw [eq, if_neg (mt htype.mp ht), if_neg (mt (harg ht).mp ha), if_neg (mt (petFull_iff s).mp hf), if_pos (hpast.mpr hp)]

/-- The search for a free key stops at the first one. -/
theorem spFree_lowest {α : Type} {m : Sparse α} {i n k : Nat} (hk : k ≤ i) (hi : i < k + n) (hfree : spFind m i = none)
    (hfull : ∀ j, j < i → (spFind m j).isSome) : spFree m n k = some i := by
  induction n generalizing k with
  | zero => omega
  | succ n ih =>
    rw [spFree]
    by_cases e : k = i
    · rw [e, if_pos (by rw [hfree]; rfl)]
    · have hs := hfull k (by omega)
      rw [if_neg (by simp [Option.isSome_iff_ne_none.mp hs])]
      exact ih (by omega) (by omega)

theorem regsBut_maxF {l : List Nat} {o s : State} {f : Field} {x : Nat} (h : RegsBut l o s) (ha : f.reg ∈ l) : RegsBut l o (maxF f x s) := by
  unfold maxF
  split
  · exact regsBut_setF h ha
  · exact h

theorem showPet_regs {l : List Nat} {o s : State} (h : RegsBut l o s) (ha : rSCH_STAT ∈ l) : RegsBut l o (showPet s) :=
  regsBut_maxF (regsBut_setF h ha) ha

/-- The table after an event has taken its lowest free entry. -/
def petPut (i : Nat) (e : Event) (s : State) : State :=
  { s with sch.pet := spInsert s.sch.pet i { e with seq := s.sch.seq }, sch.seq := s.sch.seq + 1 }

theorem petInsert_free {e : Event} {i : Nat} {s : State} (h : spFree s.sch.pet petSize 0 = some i) : petInsert e s = showPet (petPut i e s) := by
  rw [petInsert, h]; rfl

theorem petPut_find {e : Event} {i j : Nat} {s : State} (h : j ≠ i) : spFind (petPut i e s).sch.pet j = spFind s.sch.pet j :=
  spFind_insert_other _ _ h

/-- Settles O23: no test refuses the insert, and the lowest free entry is the one of the statement. -/
theorem acceptedInsertTakesAnEntry : Obligations.AcceptedInsertTakesAnEntry := by
  intro v i s hs hrun hgo htype hlen hmax hrel hpast hi hfree hfull
  have hfound : spFree s.sch.pet petSize 0 = some i := spFree_lowest (Nat.zero_le _) (by rw [petSize]; omega) hfree hfull
  have hkind : fieldOf fSCH_INS_CMD_TYPE v = 9 := htype
  have hahead : ¬ atOrBeyond (reference (insertEvent v s) s) (s.reg rSCH_INS_POS) = true := by
    rw [reference_insertEvent, if_neg (by rw [show fieldOf fSCH_INS_CMD_HEADREL v = 0 from hrel]; decide), atOrBeyond, decide_eq_true_iff, not_le]
    exact hpast
  have hg : petHostInsert v s = setF fSCH_INS_STAT_RESULT 0 (setF fSCH_INS_STAT_ENTRY i (showPet (petPut i (insertEvent v s) s))) := by
    rw [petHostInsert_eq s hgo, if_neg (by omega), if_neg (by rw [hkind]; simp [argValid]), if_neg (by rw [petFull_iff]; omega),
      if_neg hahead, hfound, petInsert_free hfound]
    rfl
  have hk : Kept 321 s (petInsert (insertEvent v s) s) := petInsert_kept (Kept.refl _ s) rfl
  rw [petInsert_free hfound] at hk
  have he : exec (.petInsert v) s = .next
      { setF fSCH_INS_STAT_RESULT 0 (setF fSCH_INS_STAT_ENTRY i (showPet (petPut i (insertEvent v s) s))) with raised := s.raised } := by
    show Host.Outcome.next _ = _
    rw [hostAccess_run _ hrun, hg]
  refine gives_of_next he ?_
  have hu : Sound (showPet (petPut i (insertEvent v s) s)) := hk.sound hs
  have hsch : (showPet (petPut i (insertEvent v s) s)).sch = (petPut i (insertEvent v s) s).sch := by rw [showPet, maxF_sch, setF_sch]
  have hregs : RegsBut [rSCH_INS_STAT, rSCH_STAT] s (showPet (petPut i (insertEvent v s) s)) :=
    showPet_regs (regsBut_of_regs rfl) (by decide)
  have fitE : fSCH_INS_STAT_ENTRY.lo + fSCH_INS_STAT_ENTRY.width ≤ 48 := by decide
  generalize showPet (petPut i (insertEvent v s) s) = u at hu hsch hregs
  refine ⟨⟨{ insertEvent v s with seq := s.sch.seq }, ?_, ?_, rfl, rfl, rfl, rfl⟩, fun j hj => ?_, ?_, ?_, ?_, ?_⟩
  · show spFind u.sch.pet i = _
    rw [hsch]; exact spFind_insert_same _ _ _
  · show (if fieldOf fSCH_INS_CMD_TYPE v = 7 then EvType.handover else if fieldOf fSCH_INS_CMD_TYPE v = 8 then .signal else .activate) = _
    rw [hkind]; rfl
  · show spFind u.sch.pet j = _
    rw [hsch]; exact petPut_find hj
  · show u.sch = { s.sch with pet := u.sch.pet, seq := s.sch.seq + 1 }
    rw [hsch]; rfl
  · exact (getF_setF_same (sound_setF hu _ _) 0 (by decide)).trans rfl
  · refine (getF_setF_other (sound_setF hu _ _) 0 (by decide) (.inr (.inr (by decide)))).trans ?_
    rw [getF_setF_same hu i fitE]
    exact Nat.mod_eq_of_lt hi
  · exact fun a ha => (regsBut_setF (regsBut_setF hregs List.mem_cons_self) List.mem_cons_self : RegsBut [rSCH_INS_STAT, rSCH_STAT] s _) a ha

/-! ### Plain writes, and the fields of a written value -/

/-- A register no field of which is kept in the shadow bank. -/
def unshadowed (a : Nat) : Bool := (regSpecAt a).all fun r => r.fields.all fun f => f.access != .rws

/-- A field that a plain write of its register leaves as it is. -/
def unwritten (g : Field) : Bool := (regSpecAt g.reg).all fun r => r.fields.all fun f => decide (f.lo + f.width ≤ 48) &&
  ((f.access == .ro || f.access == .wo || f.access == .rws) || (decide (g.lo + g.width ≤ f.lo) || decide (f.lo + f.width ≤ g.lo)))

theorem plainWrite_shadow_same {a v : Nat} {s : State} (h : unshadowed a = true) : (plainWrite a v s).shadow = s.shadow := by
  cases hr : regSpecAt a with
  | none => rw [plainWrite, hr]
  | some r => exact plainWrite_shadow hr (by simpa [unshadowed, hr] using h)

theorem plainWrite_getF_same {g : Field} {v : Nat} {s : State} (hs : Sound s) (h : unwritten g = true) :
    getF g (plainWrite g.reg v s) = getF g s := by
  cases hr : regSpecAt g.reg with
  | none => rw [plainWrite, hr]
  | some r => exact plainWrite_get hs hr (by simpa [unwritten, hr, or_assoc] using h)

theorem plainWrite_sch (a v : Nat) (s : State) : (plainWrite a v s).sch = s.sch := plainWrite_parts a v .sch (by decide) (by decide)

theorem fieldOf_toNat (f : Field) (w : Word) : fieldOf f w.toNat = wordGet w f.lo f.width := by
  simp [fieldOf, wordGet, Nat.shiftRight_eq_div_pow]

theorem wordGet_ofNat {lo width : Nat} (h : lo + width ≤ 48) (v : Nat) : wordGet (BitVec.ofNat 48 v) lo width = v / 2 ^ lo % 2 ^ width := by
  apply Nat.eq_of_testBit_eq
  intro i
  rw [wordGet_testBit, BitVec.getLsbD_ofNat, Nat.testBit_mod_two_pow, Nat.testBit_div_two_pow, Nat.add_comm lo i]
  by_cases hi : i < width
  · simp [hi, show i + lo < 48 by omega]
  · simp [hi]

theorem fieldOf_withField_same {f : Field} (x v : Nat) (h : f.lo + f.width ≤ 48) : fieldOf f (withField f x v) = x % 2 ^ f.width := by
  rw [withField, fieldOf_toNat, wordGet_put_same _ _ h]

theorem fieldOf_withField_other {f g : Field} (x v : Nat) (hf : f.lo + f.width ≤ 48) (hg : g.lo + g.width ≤ 48)
    (hd : g.lo + g.width ≤ f.lo ∨ f.lo + f.width ≤ g.lo) : fieldOf g (withField f x v) = fieldOf g v := by
  rw [withField, fieldOf_toNat, wordGet_put_other _ _ hf hd, wordGet_ofNat hg]; rfl

/-! ### Binding slots (R88, R90, R520) -/

theorem bindCtl_unshadowed : ∀ b, b < 64 → unshadowed (rSCH_BIND_CTL b) = true := by decide
theorem bindCtl_valid_unwritten : ∀ b, b < 64 → unwritten (fSCH_BIND_CTL_VALID b) = true := by decide

/-- A command of a slot in use that is VALID. -/
theorem bindCtlWrite_busy {b v : Nat} {s : State} (hb : b < 64) (hbusy : getF (fSCH_BIND_CTL_VALID b) s = 1 ∧ slotInUse b s = true) :
    bindCtlWrite b v s = if fieldOf (fSCH_BIND_CTL_LOAD b) v = 1 ∧ ¬ fieldOf (fSCH_BIND_CTL_UNLOAD b) v = 1
      then setF (fSCH_BIND_BSTAT_ERR b) 5 (setB (fSCH_BIND_BSTAT_REFUSED b) true s) else setB (fSCH_BIND_BSTAT_REFUSED b) true s := by
  rw [bindCtlWrite, if_neg (by omega), if_pos ⟨(getB_iff _ _).mpr hbusy.1, hbusy.2⟩]

/-- A command of any other slot. -/
theorem bindCtlWrite_free {b v : Nat} {s : State} (hb : b < 64) (hfree : ¬ (getF (fSCH_BIND_CTL_VALID b) s = 1 ∧ slotInUse b s = true)) :
    let u := plainWrite (rSCH_BIND_CTL b) v s
    bindCtlWrite b v s =
      if fieldOf (fSCH_BIND_CTL_LOAD b) v = 1 ∧ fieldOf (fSCH_BIND_CTL_UNLOAD b) v = 1 then setB (fSCH_BIND_BSTAT_REFUSED b) true u
      else if fieldOf (fSCH_BIND_CTL_LOAD b) v = 1 then
        if slotInUse b s then setF (fSCH_BIND_BSTAT_ERR b) 5 (setB (fSCH_BIND_BSTAT_REFUSED b) true u) else loadSlot b u
      else if fieldOf (fSCH_BIND_CTL_UNLOAD b) v = 1 then unloadSlot b u
      else doIf (getB (fSCH_BIND_CTL_VALID b) s) (setB (fSCH_BIND_BSTAT_MODIFIED b) true) u := by
  rw [bindCtlWrite, if_neg (by omega), if_neg (by rwa [getB_iff])]

/-- The refusal of a command, from a state `s` to which its settings have been written as `u`. -/
theorem slotRefused {b : Nat} {s u : State} {l : List Nat} (hu : Sound u) (hr : RegsBut l s u) (hl : rSCH_BIND_BSTAT b ∈ l) :
    let t := setB (fSCH_BIND_BSTAT_REFUSED b) true u
    Sound t ∧ RegsBut l s t ∧ getF (fSCH_BIND_BSTAT_REFUSED b) t = 1 ∧
      getF (fSCH_BIND_BSTAT_ERR b) t = getF (fSCH_BIND_BSTAT_ERR b) u ∧ getF (fSCH_BIND_BSTAT_MODIFIED b) t = getF (fSCH_BIND_BSTAT_MODIFIED b) u := by
  have fit : (fSCH_BIND_BSTAT_REFUSED b).lo + (fSCH_BIND_BSTAT_REFUSED b).width ≤ 48 := by simp [fSCH_BIND_BSTAT_REFUSED]
  exact ⟨sound_setB hu _ _, regsBut_setB hr hl, getF_setB_same hu true fit rfl,
    getF_setB_other hu true fit (.inr (.inl (by simp [fSCH_BIND_BSTAT_ERR, fSCH_BIND_BSTAT_REFUSED]))),
    getF_setB_other hu true fit (.inr (.inr (by simp [fSCH_BIND_BSTAT_MODIFIED, fSCH_BIND_BSTAT_REFUSED])))⟩

/-- Error 5 beside the refusal. -/
theorem slotError {b : Nat} {s t : State} {l : List Nat} (ht : Sound t) (hr : RegsBut l s t) (hl : rSCH_BIND_BSTAT b ∈ l)
    (h1 : getF (fSCH_BIND_BSTAT_REFUSED b) t = 1) :
    getF (fSCH_BIND_BSTAT_REFUSED b) (setF (fSCH_BIND_BSTAT_ERR b) 5 t) = 1 ∧ getF (fSCH_BIND_BSTAT_ERR b) (setF (fSCH_BIND_BSTAT_ERR b) 5 t) = 5 ∧
      RegsBut l s (setF (fSCH_BIND_BSTAT_ERR b) 5 t) := by
  have fit : (fSCH_BIND_BSTAT_ERR b).lo + (fSCH_BIND_BSTAT_ERR b).width ≤ 48 := by simp [fSCH_BIND_BSTAT_ERR]
  refine ⟨(getF_setF_other ht 5 fit (.inr (.inr (by simp [fSCH_BIND_BSTAT_ERR, fSCH_BIND_BSTAT_REFUSED])))).trans h1, ?_, regsBut_setF hr hl⟩
  rw [getF_setF_same ht 5 fit]; rfl

/-- Settles O24: each command stops at its own branch. -/
theorem slotCommands : Obligations.SlotCommands := by
  intro b v s hb hs hrun busy load unload l
  have fitL : (fSCH_BIND_CTL_LOAD b).lo + (fSCH_BIND_CTL_LOAD b).width ≤ 48 := by simp [fSCH_BIND_CTL_LOAD]
  have fitU : (fSCH_BIND_CTL_UNLOAD b).lo + (fSCH_BIND_CTL_UNLOAD b).width ≤ 48 := by simp [fSCH_BIND_CTL_UNLOAD]
  have hL1 : fieldOf (fSCH_BIND_CTL_LOAD b) (withField (fSCH_BIND_CTL_LOAD b) 1 v) = 1 := fieldOf_withField_same 1 v fitL
  have hU1 : fieldOf (fSCH_BIND_CTL_UNLOAD b) (withField (fSCH_BIND_CTL_UNLOAD b) 1 v) = 1 := fieldOf_withField_same 1 v fitU
  have hLU : fieldOf (fSCH_BIND_CTL_UNLOAD b) (withField (fSCH_BIND_CTL_LOAD b) 1 v) = 1 ↔ unload := by
    rw [fieldOf_withField_other 1 v fitL fitU (.inr (by simp [fSCH_BIND_CTL_LOAD, fSCH_BIND_CTL_UNLOAD]))]; rfl
  have hUL : fieldOf (fSCH_BIND_CTL_LOAD b) (withField (fSCH_BIND_CTL_UNLOAD b) 1 v) = 1 ↔ load := by
    rw [fieldOf_withField_other 1 v fitU fitL (.inl (by simp [fSCH_BIND_CTL_LOAD, fSCH_BIND_CTL_UNLOAD]))]; rfl
  have loads {t : State} {Q : State → Prop} (e : bindCtlWrite b (withField (fSCH_BIND_CTL_LOAD b) 1 v) s = t)
      (hq : Q { t with raised := s.raised }) : Gives (.bindLoad b v) s l Q := gives_of_access hrun rfl e hq
  have unloads {t : State} {Q : State → Prop} (e : bindCtlWrite b (withField (fSCH_BIND_CTL_UNLOAD b) 1 v) s = t)
      (hq : Q { t with raised := s.raised }) : Gives (.bindUnload b v) s l Q := gives_of_access hrun rfl e hq
  have hctl : rSCH_BIND_CTL b ≠ rSCH_BIND_BSTAT b := by simp only [rSCH_BIND_CTL, rSCH_BIND_BSTAT]; omega
  have written (w : Nat) : Sound (plainWrite (rSCH_BIND_CTL b) w s) ∧ (plainWrite (rSCH_BIND_CTL b) w s).sch = s.sch ∧
      (plainWrite (rSCH_BIND_CTL b) w s).shadow = s.shadow ∧
      getF (fSCH_BIND_CTL_VALID b) (plainWrite (rSCH_BIND_CTL b) w s) = getF (fSCH_BIND_CTL_VALID b) s ∧
      RegsBut [rSCH_BIND_CTL b] s (plainWrite (rSCH_BIND_CTL b) w s) :=
    ⟨plainWrite_sound hs _ _, plainWrite_sch _ _ _, plainWrite_shadow_same (bindCtl_unshadowed b hb),
      plainWrite_getF_same hs (bindCtl_valid_unwritten b hb), plainWrite_regsBut (regsBut_refl _ _) List.mem_cons_self⟩
  refine ⟨fun ⟨hbusy, hu⟩ => ?_, fun hbusy => ?_, fun ⟨hfree, huse, hu⟩ => ?_, fun ⟨hfree, hl⟩ => ?_, fun ⟨hfree, hl⟩ => ?_⟩
  · obtain ⟨ht, hr, h1, -, -⟩ := slotRefused (b := b) hs (regsBut_refl [rSCH_BIND_BSTAT b] s) List.mem_cons_self
    exact loads ((bindCtlWrite_busy hb hbusy).trans (if_pos ⟨hL1, mt hLU.mp hu⟩)) ⟨rfl, rfl, slotError ht hr List.mem_cons_self h1⟩
  · obtain ⟨ht, hr, h1, he, -⟩ := slotRefused (b := b) hs (regsBut_refl [rSCH_BIND_BSTAT b] s) List.mem_cons_self
    exact unloads ((bindCtlWrite_busy hb hbusy).trans (if_neg fun k => k.2 hU1)) ⟨rfl, rfl, h1, fun _ => he, hr⟩
  · obtain ⟨hw, hsch, hsh, hv, hr⟩ := written (withField (fSCH_BIND_CTL_LOAD b) 1 v)
    obtain ⟨ht, hr, h1, -, -⟩ := slotRefused (b := b) hw (hr.mono (l := [rSCH_BIND_CTL b, rSCH_BIND_BSTAT b]) (by simp)) (by simp)
    have hv0 : getF (fSCH_BIND_CTL_VALID b) s = 0 := by
      have := getF_lt_two (f := fSCH_BIND_CTL_VALID b) rfl s
      have : ¬ getF (fSCH_BIND_CTL_VALID b) s = 1 := fun k => hfree ⟨k, huse⟩
      omega
    refine loads ((bindCtlWrite_free hb hfree).trans ((if_neg fun k => hu (hLU.mp k.2)).trans ((if_pos hL1).trans (if_pos huse))))
      ⟨hsch, hsh, ?_, slotError ht hr (by simp) h1⟩
    exact (getF_setReg_other _ _ hctl).trans ((getF_setReg_other _ _ hctl).trans (hv.trans hv0))
  · obtain ⟨hw, hsch, hsh, hv, hr⟩ := written (withField (fSCH_BIND_CTL_UNLOAD b) 1 v)
    have hb1 := hr.getF (f := fSCH_BIND_BSTAT_ERR b) (List.mem_singleton.not.mpr hctl.symm)
    have hb2 := hr.getF (f := fSCH_BIND_BSTAT_MODIFIED b) (List.mem_singleton.not.mpr hctl.symm)
    obtain ⟨-, hr, h1, he, hm⟩ := slotRefused (b := b) hw (hr.mono (l := [rSCH_BIND_CTL b, rSCH_BIND_BSTAT b]) (by simp)) (by simp)
    exact unloads ((bindCtlWrite_free hb hfree).trans (if_pos ⟨hUL.mpr hl, hU1⟩))
      ⟨hsch, hsh, h1, (getF_setReg_other _ _ hctl).trans hv, he.trans hb1, hm.trans hb2, hr⟩
  · obtain ⟨hw, hsch, hsh, hv, hr⟩ := written (withField (fSCH_BIND_CTL_UNLOAD b) 1 v)
    refine unloads ((bindCtlWrite_free hb hfree).trans
      ((if_neg fun k => hl (hUL.mp k.1)).trans ((if_neg fun k => hl (hUL.mp k)).trans (if_pos hU1)))) ?_
    have hu : Sound { plainWrite (rSCH_BIND_CTL b) (withField (fSCH_BIND_CTL_UNLOAD b) 1 v) s with
        sch.binds := spErase (plainWrite (rSCH_BIND_CTL b) (withField (fSCH_BIND_CTL_UNLOAD b) 1 v) s).sch.binds b } := hw.of_eq
    refine ⟨?_, hsh, getF_setB_same hu false (by simp [fSCH_BIND_CTL_VALID]) rfl, ?_⟩
    · rw [← hsch]; rfl
    · exact fun a ha => (regsBut_setB (f := fSCH_BIND_CTL_VALID b) (x := false) (regsBut_trans hr (regsBut_of_regs rfl)) List.mem_cons_self :
        RegsBut [rSCH_BIND_CTL b] s (unloadSlot b (plainWrite (rSCH_BIND_CTL b) (withField (fSCH_BIND_CTL_UNLOAD b) 1 v) s))) a ha

/-! ### The registers that an event and an answer write -/

theorem reportLoss_regs (s : State) : (reportLoss s).regs = s.regs := by
  unfold reportLoss
  split <;> rfl

theorem loseEvent_regsBut {l : List Nat} {o s : State} {ty : Nat} (h : RegsBut l o s) (ha : rHST_EVQ_STAT ∈ l) : RegsBut l o (loseEvent ty s) :=
  fun a hn => regsBut_incSat (f := if ty = 0x80 then fHST_EVQ_STAT_LOST_CLOSED else fHST_EVQ_STAT_LOST_OTHER) h (by split <;> exact ha) a hn

/-- An event writes no register but the one that counts the events lost. -/
theorem postEvent_regsBut {l : List Nat} {o s : State} {ty : Nat} {p : List Byte} (h : RegsBut l o s) (ha : rHST_EVQ_STAT ∈ l) :
    RegsBut l o (postEvent ty p s) := by
  have hr : RegsBut l o (reportLoss s) := regsBut_trans h (regsBut_of_regs (reportLoss_regs s))
  unfold postEvent doIf
  dsimp only
  repeat' split
  · exact fun a hn => h a hn
  · exact loseEvent_regsBut h ha
  · exact fun a hn => hr a hn
  · exact loseEvent_regsBut hr ha
  · exact hr

/-- The registers of a queue pair that an answer, or the end of its reset, writes. -/
def pairRegs (q : Nat) : List Nat := [rHST_QP_CFG q, rHST_QP_RQ_PI q, rHST_QP_RQ_CI q, rHST_QP_RS_PI q, rHST_QP_RS_CI q, rHST_EVQ_STAT]

theorem finishReset_regsBut {l : List Nat} {o s : State} {q done : Nat} (h : RegsBut l o s) (hl : ∀ a ∈ pairRegs q, a ∈ l) :
    RegsBut l o (finishReset q done s) := by
  have g {a : Nat} (ha : a ∈ pairRegs q) : a ∈ l := hl a ha
  exact regsBut_setB (regsBut_setB (regsBut_setF (regsBut_setF (regsBut_setF (regsBut_setF (postEvent_regsBut h (g (by simp [pairRegs])))
    (g (by simp [pairRegs, fHST_QP_RS_CI_INDEX]))) (g (by simp [pairRegs, fHST_QP_RS_PI_INDEX]))) (g (by simp [pairRegs, fHST_QP_RQ_CI_INDEX])))
    (g (by simp [pairRegs, fHST_QP_RQ_PI_INDEX]))) (g (by simp [pairRegs, fHST_QP_CFG_RESET_BUSY]))) (g (by simp [pairRegs, fHST_QP_CFG_EN]))

theorem writeEntry_regs (k base n pi type status tag : Nat) (p : List Byte) (s : State) :
    (writeEntry k base n pi type status tag p s).regs = s.regs := by
  unfold writeEntry doIf
  split <;> rfl

theorem respond_regsBut {l : List Nat} {o s : State} {q type tag : Nat} {noResp : Bool} {r : Nat × List Byte} (h : RegsBut l o s)
    (ha : rHST_QP_RS_PI q ∈ l) : RegsBut l o (respond q type tag noResp r s) := by
  unfold respond
  split
  · exact h
  · exact fun a hn => (signalVector_reg _ _ _).trans
      ((regsBut_setF (f := fHST_QP_RS_PI_INDEX q) (regsBut_trans h (regsBut_of_regs (writeEntry_regs _ _ _ _ _ _ _ _ _))) ha :
        RegsBut l o (addMod (fHST_QP_RS_PI_INDEX q) 1 _)) a hn)

theorem respondLater_regsBut {l : List Nat} {o s : State} {q type tag : Nat} {noResp : Bool} {r : Nat × List Byte} (h : RegsBut l o s)
    (hl : ∀ a ∈ pairRegs q, a ∈ l) : RegsBut l o (respondLater q type tag noResp r s) := by
  unfold respondLater
  split
  · exact finishReset_regsBut h hl
  · exact respond_regsBut h (hl _ (by simp [pairRegs]))

/-! ### Snapshots (R28, R113) -/

/-- Registers written one after another. -/
def writeRegs (l : List (Nat × Word)) (s : State) : State := forAll l (fun x t => t.setReg x.1 x.2) s

theorem writeRegs_only (l : List (Nat × Word)) (s : State) : ∃ r, writeRegs l s = { s with regs := r } := by
  refine forAll_inv (fun t => ∃ r, t = { s with regs := r }) l _ s ⟨_, rfl⟩ ?_
  rintro b - t ⟨r, rfl⟩
  exact ⟨_, rfl⟩

theorem writeRegs_sound {l : List (Nat × Word)} {s : State} (h : Sound s) : Sound (writeRegs l s) :=
  forAll_inv Sound l _ s h fun _ _ _ ht => sound_setReg ht _ _

theorem writeRegs_regsBut (l : List (Nat × Word)) (s : State) : RegsBut (l.map (·.1)) s (writeRegs l s) :=
  forAll_inv (RegsBut (l.map (·.1)) s) l _ s (regsBut_refl _ _) fun _ hb _ ht => regsBut_setReg ht (List.mem_map_of_mem hb)

/-- Each register reads as the value written, where none is written twice. -/
theorem writeRegs_reads {l : List (Nat × Word)} {s : State} (h : Sound s) (hd : (l.map (·.1)).Nodup) {x : Nat × Word} (hx : x ∈ l) :
    (writeRegs l s).reg x.1 = x.2 := by
  induction l generalizing s with
  | nil => cases hx
  | cons y l ih =>
    obtain ⟨hy, hd⟩ := List.nodup_cons.mp hd
    have h1 := sound_setReg h y.1 y.2
    rcases List.mem_cons.mp hx with rfl | hx
    · exact (writeRegs_regsBut l _ _ hy).trans (reg_setReg_same h _ _)
    · exact ih h1 hd hx

/-- What a snapshot of a line shows, register by register. -/
def snapValues (n : Nat) (s : State) : List (Nat × Word) :=
  let l := ledger n s
  [(rSCH_LINE_SNAP_TICK n, now s), (rSCH_LINE_SNAP_DET n, l.det), (rSCH_LINE_SNAP_OK n, l.ok),
    (rSCH_LINE_SNAP_FLAG n, l.flag), (rSCH_LINE_SNAP_REJ n, l.rej), (rSCH_LINE_SNAP_INF n, l.inf),
    (rSCH_LINE_SNAP_CAUSE n 0, l.c1), (rSCH_LINE_SNAP_CAUSE n 1, l.c2), (rSCH_LINE_SNAP_CAUSE n 2, l.c3),
    (rSCH_LINE_SNAP_CAUSE n 3, l.c4), (rSCH_LINE_SNAP_CAUSE n 4, l.c5), (rSCH_LINE_SNAP_CAUSE n 5, l.c6),
    (rSCH_LINE_SNAP_CAUSE n 6, l.c7)]

theorem snapCopy_eq (n : Nat) (s : State) : snapCopy n s = addMod (fSCH_LINE_STAT_SNAP_SEQ n) 1 (writeRegs (snapValues n s) s) := rfl

theorem snapValues_nodup (n : Nat) (s : State) : ((snapValues n s).map (·.1)).Nodup := by
  simp only [snapValues, List.map_cons, List.map_nil, rSCH_LINE_SNAP_TICK, rSCH_LINE_SNAP_DET, rSCH_LINE_SNAP_OK, rSCH_LINE_SNAP_FLAG,
    rSCH_LINE_SNAP_REJ, rSCH_LINE_SNAP_INF, rSCH_LINE_SNAP_CAUSE]
  simp
  omega

/-- The state after a snapshot has been copied, before the messages that wait for it are answered. -/
theorem snapCopy_reads {n : Nat} {s : State} (hs : Sound s) : (∀ x ∈ snapValues n s, (snapCopy n s).reg x.1 = x.2) ∧
    getF (fSCH_LINE_STAT_SNAP_SEQ n) (snapCopy n s) = (getF (fSCH_LINE_STAT_SNAP_SEQ n) s + 1) % 256 ∧
    RegsBut ((snapValues n s).map (·.1) ++ [rSCH_LINE_STAT n]) s (snapCopy n s) ∧ ∃ r, snapCopy n s = { s with regs := r } := by
  have hw : Sound (writeRegs (snapValues n s) s) := writeRegs_sound hs
  have hr := writeRegs_regsBut (snapValues n s) s
  have hstat : rSCH_LINE_STAT n ∉ (snapValues n s).map (·.1) := by
    simp only [snapValues, List.map_cons, List.map_nil, List.mem_cons, List.not_mem_nil, or_false, rSCH_LINE_STAT, rSCH_LINE_SNAP_TICK,
      rSCH_LINE_SNAP_DET, rSCH_LINE_SNAP_OK, rSCH_LINE_SNAP_FLAG, rSCH_LINE_SNAP_REJ, rSCH_LINE_SNAP_INF, rSCH_LINE_SNAP_CAUSE]
    omega
  rw [snapCopy_eq]
  refine ⟨fun x hx => ?_, ?_, regsBut_setF (hr.mono fun a ha => List.mem_append_left _ ha) (by simp [fSCH_LINE_STAT_SNAP_SEQ]), ?_⟩
  · have hne : x.1 ≠ rSCH_LINE_STAT n := fun e => hstat (e ▸ List.mem_map_of_mem hx)
    exact (reg_setF_other _ _ hne).trans (writeRegs_reads hs (snapValues_nodup n s) hx)
  · rw [addMod, getF_setF_same hw _ (by simp [fSCH_LINE_STAT_SNAP_SEQ]), hr.getF hstat]; rfl
  · obtain ⟨r, e⟩ := writeRegs_only (snapValues n s) s
    rw [e]; exact ⟨_, rfl⟩

/-- The answers to the messages that wait write only the registers of their pairs, and nothing where none waits for the line. -/
theorem answerSnapshots_frame (n : Nat) (s : State) : RegsBut (s.host.snapWaits.flatMap fun w => pairRegs w.q.val) s (answerSnapshots n s) ∧
    (answerSnapshots n s).sch = s.sch ∧ ((∀ w ∈ s.host.snapWaits, w.line ≠ n) → (answerSnapshots n s).host = s.host) := by
  refine ⟨?_, (answerSnapshots_kept (m := 786433) (Kept.refl _ s) rfl).same .sch rfl, fun h => ?_⟩
  · unfold answerSnapshots
    split
    · exact regsBut_refl _ _
    · refine forAll_inv (RegsBut _ s) _ _ _ (fun a _ => rfl) fun w hw t ht => respondLater_regsBut ht fun a ha => ?_
      exact List.mem_flatMap.mpr ⟨w, (List.mem_filter.mp hw).1, ha⟩
  · unfold answerSnapshots
    split
    · rfl
    · have hnone : (s.host.snapWaits.filter fun w => decide (w.line = n) && decide (w.tick ≠ now s)) = [] :=
        List.filter_eq_nil_iff.mpr fun w hw => by simp [h w hw]
      have hall : (s.host.snapWaits.filter fun w => !(decide (w.line = n) && decide (w.tick ≠ now s))) = s.host.snapWaits :=
        List.filter_eq_self.mpr fun w hw => by simp [h w hw]
      dsimp only
      rw [hnone, hall]; rfl

theorem snapValues_ge {n : Nat} {s : State} {x : Nat × Word} (h : x ∈ snapValues n s) : 0x120000 ≤ x.1 := by
  simp only [snapValues, List.mem_cons, List.not_mem_nil, or_false] at h
  rcases h with rfl | rfl | rfl | rfl | rfl | rfl | rfl | rfl | rfl | rfl | rfl | rfl | rfl <;>
    simp only [rSCH_LINE_SNAP_TICK, rSCH_LINE_SNAP_DET, rSCH_LINE_SNAP_OK, rSCH_LINE_SNAP_FLAG, rSCH_LINE_SNAP_REJ, rSCH_LINE_SNAP_INF,
      rSCH_LINE_SNAP_CAUSE] <;> omega

theorem lt_of_mem_pairRegs {ws : List SnapWait} {a : Nat} (h : a ∈ ws.flatMap fun w => pairRegs w.q.val) : a < 0x120000 := by
  obtain ⟨w, -, ha⟩ := List.mem_flatMap.mp h
  have := w.q.isLt
  simp only [pairRegs, List.mem_cons, List.not_mem_nil, or_false, rHST_QP_CFG, rHST_QP_RQ_PI, rHST_QP_RQ_CI, rHST_QP_RS_PI, rHST_QP_RS_CI,
    rHST_EVQ_STAT] at ha
  omega

/-- Settles O25: the copy of the tick, and the answers after it, which write other registers. -/
theorem snapshotOfALine : Obligations.SnapshotOfALine := by
  intro n s hn hs c answers
  refine ⟨fun hrun hnone => ?_, fun ⟨x, hx, e⟩ => ?_, fun ⟨x, hx, e, ht⟩ => ?_⟩
  · have h : ¬ (4 ≤ n ∨ s.sch.snapPend.any (fun x => decide (x.1 = n)) = true) := by
      simpa [List.any_eq_true, hn] using fun b h => hnone (n, b) h rfl
    refine congrArg Host.Outcome.next (?_ : hostAccess (snapReq n) s = _)
    rw [hostAccess_run _ hrun, snapReq, if_neg h]; rfl
  · have h : 4 ≤ n ∨ s.sch.snapPend.any (fun x => decide (x.1 = n)) = true := .inr (List.any_eq_true.mpr ⟨x, hx, by simpa using e⟩)
    refine congrArg Host.Outcome.next (?_ : hostAccess (snapReq n) s = s)
    unfold hostAccess
    rw [snapReq, if_pos h]
    split <;> rfl
  · have hdue : (s.sch.snapPend.any fun x => decide (x.1 = n) && decide (x.2 ≠ now s)) = true :=
      List.any_eq_true.mpr ⟨x, hx, by simpa using ⟨e, ht⟩⟩
    have he : snapshotCopy n s = snapCopy n { s with sch.snapPend := s.sch.snapPend.filter fun x => decide (x.1 ≠ n) } := if_pos hdue
    have h0 : Sound { s with sch.snapPend := s.sch.snapPend.filter fun x => decide (x.1 ≠ n) } := hs.of_eq
    obtain ⟨hval, hseq, hreg, r, hu⟩ := snapCopy_reads (n := n) h0
    refine gives_of_next (congrArg (fun u => Host.Outcome.next (answerSnapshots n u)) he) ?_
    obtain ⟨hans, hsch, hhost⟩ := answerSnapshots_frame n (snapCopy n { s with sch.snapPend := s.sch.snapPend.filter fun x => decide (x.1 ≠ n) })
    generalize snapCopy n { s with sch.snapPend := s.sch.snapPend.filter fun x => decide (x.1 ≠ n) } = u at hval hseq hreg hu hans hsch hhost
    have kept {a : Nat} (ha : 0x120000 ≤ a) : (answerSnapshots n u).reg a = u.reg a :=
      hans a fun k => absurd (lt_of_mem_pairRegs k) (by omega)
    have hsch' : u.sch = { s.sch with snapPend := s.sch.snapPend.filter fun x => decide (x.1 ≠ n) } := by rw [hu]
    have hhost' : u.host = s.host := by rw [hu]
    rw [hhost'] at hans hhost
    have hall : ∀ x ∈ snapValues n s, (answerSnapshots n u).reg x.1 = x.2 := fun x hx =>
      (kept (snapValues_ge hx)).trans (hval x hx)
    simp only [snapValues, List.forall_mem_cons] at hall
    obtain ⟨h0, h1, h2, h3, h4, h5, k0, k1, k2, k3, k4, k5, k6, -⟩ := hall
    refine ⟨hsch.trans hsch', h0, by rw [h1, h2, h3, h4, h5], ?_, ?_, ?_, hhost⟩
    · simp only [show List.range 7 = [0, 1, 2, 3, 4, 5, 6] from rfl, List.map_cons, List.map_nil, k0, k1, k2, k3, k4, k5, k6]
      rfl
    · exact (getF_reg _ _ _ (kept (by simp only [fSCH_LINE_STAT_SNAP_SEQ, rSCH_LINE_STAT]; omega))).trans hseq
    · refine ((RegsBut.trans hreg hans : RegsBut _ _ _).mono fun a ha => ?_ : RegsBut _ s _)
      simp only [List.mem_append, snapValues, List.map_cons, List.map_nil, List.mem_cons, List.not_mem_nil, or_false,
        show List.range 7 = [0, 1, 2, 3, 4, 5, 6] from rfl] at ha ⊢
      rcases ha with h | h
      · rcases h with (h | h | h | h | h | h | h | h | h | h | h | h | h) | h <;> simp only [h, true_or, or_true]
      · exact .inr h

end Sys2Proof.Machine

/-! SUPPORT. The trust mailbox and the proofs of the statements about it (R139, R150, R152, R408). -/

namespace Sys2Proof.Machine

/-! ### Little-endian bytes -/

@[simp] theorem length_leBytes (k x : Nat) : (leBytes k x).length = k := by
  induction k generalizing x with
  | zero => rfl
  | succ k ih => simp [leBytes, ih]

theorem leNat_leBytes (k x : Nat) : leNat (leBytes k x) = x % 256 ^ k := by
  induction k generalizing x with
  | zero => simp [leBytes, leNat, Nat.mod_one]
  | succ k ih => rw [leBytes, leNat, ih, BitVec.toNat_ofNat, pow_succ' 256 k, Nat.mod_mul]

/-- The number at the front of a list, of as many bytes as it was written with. -/
theorem leAt_front (k x : Nat) (l : List Byte) : leAt (leBytes k x ++ l) 0 k = x % 256 ^ k := by
  rw [leAt, slice, List.drop_zero, List.take_append_of_le_length (by simp), List.take_of_length_le (by simp), leNat_leBytes]

/-- The number behind the front of a list. -/
theorem leAt_behind (k x o n : Nat) (l : List Byte) (h : k ≤ o) : leAt (leBytes k x ++ l) o n = leAt l (o - k) n := by
  rw [leAt, slice, List.drop_append, List.drop_of_length_le (by simpa using h), length_leBytes, List.nil_append]; rfl

/-! ### The mailbox's buffers -/

theorem putWords_eq (base : Nat → Nat) (l : List Byte) (s : State) : putWords base l s =
    writeRegs ((List.range (ceilDiv l.length 6)).map fun w => (base w, BitVec.ofNat 48 (leAt l (6 * w) 6))) s := by
  simp [putWords, writeRegs, forAll, List.foldl_map]

theorem putWords_regsBut {base : Nat → Nat} {l : List Byte} {r : List Nat} {o s : State} (h : RegsBut r o s)
    (hl : ∀ w, w < ceilDiv l.length 6 → base w ∈ r) : RegsBut r o (putWords base l s) :=
  forAll_inv (RegsBut r o) _ _ _ h fun w hw _ ht => regsBut_setReg ht (hl w (List.mem_range.mp hw))

theorem putWords_sound {base : Nat → Nat} {l : List Byte} {s : State} (h : Sound s) : Sound (putWords base l s) :=
  (putWords_kept (m := 1) (Kept.refl _ s) rfl).sound h

/-- Each word of a buffer reads as the six bytes written to it. -/
theorem putWords_reads {base : Nat → Nat} {l : List Byte} {s : State} {w : Nat} (h : Sound s) (hb : Function.Injective base)
    (hw : w < ceilDiv l.length 6) : (putWords base l s).reg (base w) = BitVec.ofNat 48 (leAt l (6 * w) 6) := by
  rw [putWords_eq]
  refine writeRegs_reads h ?_ (x := (base w, _)) (List.mem_map.mpr ⟨w, List.mem_range.mpr hw, rfl⟩)
  rw [List.map_map]
  exact List.nodup_range.map hb

theorem putWords_trust (base : Nat → Nat) (l : List Byte) (s : State) : (putWords base l s).trust = s.trust := by
  rw [putWords_eq]
  obtain ⟨r, e⟩ := writeRegs_only ((List.range (ceilDiv l.length 6)).map fun w => (base w, BitVec.ofNat 48 (leAt l (6 * w) 6))) s
  rw [e]

/-! ### A request (R150) -/

/-- The parts outside a list that covers the mask are the same. -/
theorem only_of_kept {m : Nat} {l : List Part} {s t : State} (k : Kept m s t)
    (hl : (everything.all fun p => l.contains p || !m.testBit p.bit) = true) : Only l s t := fun p hp => by
  have hm : p ∈ everything := by cases p <;> decide
  exact k.same p (by simpa [hp] using List.all_eq_true.mp hl p hm)

/-- A GO finds the request's header and payload in the buffer. -/
def requested (ty tag : Nat) (payload : List Byte) (s : State) : State :=
  let p := payload.take 3072
  setF fTRU_REQ_HDR_TYPE ty (setF fTRU_REQ_HDR_LEN p.length (setF fTRU_REQ_HDR_TAG tag (putWords rTRU_REQ p s)))

/-- The registers that the host writes with a request. -/
def requestRegs : List Nat := rTRU_REQ_HDR :: (List.range 512).map rTRU_REQ

theorem requested_kept {m : Nat} (ty tag : Nat) (payload : List Byte) (s : State) (hm : 1 ||| m = m) : Kept m s (requested ty tag payload s) :=
  setF_kept (setF_kept (setF_kept (putWords_kept (Kept.refl _ s) hm) hm) hm) hm

theorem requested_regs (ty tag : Nat) (payload : List Byte) (s : State) : RegsBut requestRegs s (requested ty tag payload s) := by
  refine regsBut_setF (regsBut_setF (regsBut_setF (putWords_regsBut (regsBut_refl _ _) fun w hw => ?_) List.mem_cons_self) List.mem_cons_self)
    List.mem_cons_self
  have hlen : (payload.take 3072).length ≤ 3072 := List.length_take_le _ _
  refine List.mem_cons_of_mem _ (List.mem_map_of_mem (List.mem_range.mpr ?_))
  simp only [ceilDiv] at hw
  omega

theorem not_mem_requestRegs {a : Nat} (h : a < 0x500000 ∨ (0x500000 < a ∧ a < 0x501000) ∨ 0x502000 ≤ a) : a ∉ requestRegs := by
  simp only [requestRegs, List.mem_cons, List.mem_map, List.mem_range, rTRU_REQ_HDR, rTRU_REQ, not_or, not_exists, not_and]
  exact ⟨by omega, by omega⟩

/-- What serves the requests of a type, and that it keeps the laws. -/
structure Serves (c : Instr) (ty tag : Nat) (payload : List Byte) (g : Handler) : Prop where
  sound : ∀ p u, Sound u → Sound (g p u).2
  exec : ∀ s, exec c s = .next (mailboxGo ty (tag % 65536) (payload.take 3072) g (requested ty tag payload s))
  type : ty < 256

theorem mailboxServes {c : Instr} {ty tag : Nat} {payload : List Byte} {g : Handler} (hs : ∀ p u, Sound u → Sound (g p u).2)
    (he : ∀ s, Machine.exec c s = .next (mailboxMessage ty tag payload g s)) (ht : ty < 256) : ∃ g, Serves c ty tag payload g := ⟨g, hs, he, ht⟩

/-- Every command that is a mailbox message is served by one handler. -/
theorem mailboxRequest_serves {c : Instr} {ty tag : Nat} {payload : List Byte} (h : mailboxRequest c = some (ty, tag, payload)) :
    ∃ g, Serves c ty tag payload g := by
  unfold mailboxRequest at h
  split at h
  · cases h; exact mailboxServes (fun _ _ => (stencilBegin_kept (m := 2 ^ 42 - 1) (Kept.refl _ _) rfl).sound) (fun _ => rfl) (by decide)
  · cases h; exact mailboxServes (fun _ _ => (stencilData_kept (m := 2 ^ 42 - 1) (Kept.refl _ _) rfl).sound) (fun _ => rfl) (by decide)
  · cases h; exact mailboxServes (fun _ _ => (stencilEnd_kept (m := 2 ^ 42 - 1) (Kept.refl _ _) rfl).sound) (fun _ => rfl) (by decide)
  · cases h; exact mailboxServes (fun _ _ => (stencilUnload_kept (m := 2 ^ 42 - 1) (Kept.refl _ _) rfl).sound) (fun _ => rfl) (by decide)
  · cases h; exact mailboxServes (fun _ _ => (stencilInfo_kept (m := 2 ^ 42 - 1) (Kept.refl _ _) rfl).sound) (fun _ => rfl) (by decide)
  · cases h; exact mailboxServes (fun _ _ => (openSet_kept (m := 2 ^ 42 - 1) (Kept.refl _ _) rfl).sound) (fun _ => rfl) (by decide)
  · cases h; exact mailboxServes (fun _ _ => (batchAdvance_kept (m := 2 ^ 42 - 1) (Kept.refl _ _) rfl).sound) (fun _ => rfl) (by decide)
  · cases h; exact mailboxServes (fun _ _ => (timeNonce_kept (m := 2 ^ 42 - 1) (Kept.refl _ _) rfl).sound) (fun _ => rfl) (by decide)
  · cases h; exact mailboxServes (fun _ _ => (timeToken_kept (m := 2 ^ 42 - 1) (Kept.refl _ _) rfl).sound) (fun _ => rfl) (by decide)
  · cases h; exact mailboxServes (fun _ _ => (timeStatus_kept (m := 2 ^ 42 - 1) (Kept.refl _ _) rfl).sound) (fun _ => rfl) (by decide)
  · cases h; exact mailboxServes (fun _ _ => (serialLedger_kept (m := 2 ^ 42 - 1) (Kept.refl _ _) rfl).sound) (fun _ => rfl) (by decide)
  · cases h; exact mailboxServes (fun _ _ => (counterRebase_kept (m := 2 ^ 42 - 1) (Kept.refl _ _) rfl).sound) (fun _ => rfl) (by decide)
  · cases h; exact mailboxServes (fun _ _ => (auditRead_kept (m := 2 ^ 42 - 1) (Kept.refl _ _) rfl).sound) (fun _ => rfl) (by decide)
  · cases h; exact mailboxServes (fun _ _ => (auditAck_kept (m := 2 ^ 42 - 1) (Kept.refl _ _) rfl).sound) (fun _ => rfl) (by decide)
  · cases h; exact mailboxServes (fun _ _ => (ckptRead_kept (m := 2 ^ 42 - 1) (Kept.refl _ _) rfl).sound) (fun _ => rfl) (by decide)
  · cases h; exact mailboxServes (fun _ _ => (identityInfo_kept (m := 2 ^ 42 - 1) (Kept.refl _ _) rfl).sound) (fun _ => rfl) (by decide)
  · cases h; exact mailboxServes (fun _ _ => (lcStatus_kept (m := 2 ^ 42 - 1) (Kept.refl _ _) rfl).sound) (fun _ => rfl) (by decide)
  · cases h; exact mailboxServes (fun _ _ => (lcNonce_kept (m := 2 ^ 42 - 1) (Kept.refl _ _) rfl).sound) (fun _ => rfl) (by decide)
  · cases h; exact mailboxServes (fun _ _ => (lcProvision_kept (m := 2 ^ 42 - 1) (Kept.refl _ _) rfl).sound) (fun _ => rfl) (by decide)
  · cases h; exact mailboxServes (fun _ _ => (lcDeploy_kept (m := 2 ^ 42 - 1) (Kept.refl _ _) rfl).sound) (fun _ => rfl) (by decide)
  · cases h; exact mailboxServes (fun _ _ => (lcServiceEnter_kept (m := 2 ^ 42 - 1) (Kept.refl _ _) rfl).sound) (fun _ => rfl) (by decide)
  · cases h; exact mailboxServes (fun _ _ => (lcServiceExit_kept (m := 2 ^ 42 - 1) (Kept.refl _ _) rfl).sound) (fun _ => rfl) (by decide)
  · cases h; exact mailboxServes (fun _ _ => (lcRetire_kept (m := 2 ^ 42 - 1) (Kept.refl _ _) rfl).sound) (fun _ => rfl) (by decide)
  · cases h; exact mailboxServes (fun _ _ => (keyStatus_kept (m := 2 ^ 42 - 1) (Kept.refl _ _) rfl).sound) (fun _ => rfl) (by decide)
  · cases h; exact mailboxServes (fun _ _ => (keyAuthSet_kept (m := 2 ^ 42 - 1) (Kept.refl _ _) rfl).sound) (fun _ => rfl) (by decide)
  · cases h; exact mailboxServes (fun _ _ => (keyCheckSet_kept (m := 2 ^ 42 - 1) (Kept.refl _ _) rfl).sound) (fun _ => rfl) (by decide)
  · cases h; exact mailboxServes (fun _ _ => (keyCosignSet_kept (m := 2 ^ 42 - 1) (Kept.refl _ _) rfl).sound) (fun _ => rfl) (by decide)
  · cases h; exact mailboxServes (fun _ _ => (keyClear_kept (m := 2 ^ 42 - 1) (Kept.refl _ _) rfl).sound) (fun _ => rfl) (by decide)
  · cases h

/-- Settles O26: the request is written, and GO stops at its first test. -/
theorem mailboxTakesOneRequest : Obligations.MailboxTakesOneRequest := by
  intro c ty tag payload s hs hc hbusy
  obtain ⟨g, -, he, -⟩ := mailboxRequest_serves hc
  have hk := requested_kept (m := 1) ty tag payload s rfl
  have hr := requested_regs ty tag payload s
  have hstat : rTRU_STAT ∉ requestRegs := not_mem_requestRegs (by decide)
  have hgo : getB fTRU_STAT_BUSY (requested ty tag payload s) = true ∨ getB fTRU_RSP_HDR_VALID (requested ty tag payload s) = true := by
    rw [hr.getB (f := fTRU_STAT_BUSY) hstat, hr.getB (f := fTRU_RSP_HDR_VALID) (not_mem_requestRegs (by decide)), getB_iff, getB_iff]
    exact hbusy
  have hnext : exec c s = .next (setB fTRU_STAT_REJECTED_GO true (requested ty tag payload s)) := (he s).trans (congrArg _ (if_pos hgo))
  refine gives_of_kept hnext (setB_kept hk rfl) rfl ⟨?_, ?_, ?_⟩
  · exact getF_setB_same (hk.sound hs) true (by decide) rfl
  · rw [getF_setB_other (hk.sound hs) true (by decide) (.inr (.inl (by decide))), hr.getF (f := fTRU_STAT_BUSY) hstat]
  · refine regsBut_setB (hr.mono fun a ha => ?_) (List.mem_append_left _ List.mem_cons_self)
    rcases List.mem_cons.mp ha with rfl | h
    · exact List.mem_append_left _ (by simp)
    · exact List.mem_append_right _ h

/-! ### A response (R150, R351) -/

/-- The state in which a response stands, before its vector is raised. -/
def responded (ty tag : Nat) (r : Reply) (s : State) : State :=
  setB fTRU_STAT_BUSY false (setF fTRU_RSP_HDR_TYPE ty (setF fTRU_RSP_HDR_STATUS r.1 (setF fTRU_RSP_HDR_LEN r.2.length
    (setF fTRU_RSP_HDR_TAG tag (setB fTRU_RSP_HDR_VALID true (putWords rTRU_RSP r.2 s))))))

theorem mailboxReply_eq (ty tag : Nat) (r : Reply) (s : State) : mailboxReply ty tag r s = signalVector 5 (responded ty tag r s) := rfl

theorem signalVector_vector (v : Nat) (s : State) : let t := signalVector v s
    (t.host.msixMask.testBit v = true → t.host.msixPend.testBit v = true) ∧
    (t.host.msixMask.testBit v = false → t.host.msi.getLast? = some (v, t.host.msixTable.getD v (0, 0))) := by
  unfold signalVector
  split
  · next h => exact ⟨fun _ => by simp, fun k => absurd (k.symm.trans h) (by decide)⟩
  · next h => exact ⟨fun k => absurd k h, fun _ => by simp⟩

theorem signalVector_getF (v : Nat) (s : State) (f : Field) : getF f (signalVector v s) = getF f s := getF_reg _ _ _ (signalVector_reg _ _ _)

theorem signalVector_trust (v : Nat) (s : State) : (signalVector v s).trust = s.trust := by
  unfold signalVector
  split <;> rfl

/-- What a response shows. -/
structure Responded (ty tag : Nat) (r : Reply) (s t : State) : Prop where
  valid : getF fTRU_RSP_HDR_VALID t = 1
  busy : getF fTRU_STAT_BUSY t = 0
  type : getF fTRU_RSP_HDR_TYPE t = ty % 256
  tag : getF fTRU_RSP_HDR_TAG t = tag % 65536
  status : getF fTRU_RSP_HDR_STATUS t = r.1 % 256
  len : getF fTRU_RSP_HDR_LEN t = r.2.length % 4096
  words : ∀ w, w < ceilDiv r.2.length 6 → t.reg (rTRU_RSP w) = BitVec.ofNat 48 (leAt r.2 (6 * w) 6)
  regs : RegsBut ([rTRU_STAT, rTRU_RSP_HDR] ++ (List.range (ceilDiv r.2.length 6)).map rTRU_RSP) s t
  trust : t.trust = s.trust

theorem rTRU_RSP_injective : Function.Injective rTRU_RSP := fun a b h => by simp only [rTRU_RSP] at h; omega

theorem responded_shows {ty tag : Nat} {r : Reply} {s : State} (hs : Sound s) : Responded ty tag r s (responded ty tag r s) := by
  have h0 := putWords_sound (base := rTRU_RSP) (l := r.2) hs
  have h1 := sound_setB h0 fTRU_RSP_HDR_VALID true
  have h2 := sound_setF h1 fTRU_RSP_HDR_TAG tag
  have h3 := sound_setF h2 fTRU_RSP_HDR_LEN r.2.length
  have h4 := sound_setF h3 fTRU_RSP_HDR_STATUS r.1
  have h5 := sound_setF h4 fTRU_RSP_HDR_TYPE ty
  have hdr : rTRU_RSP_HDR ≠ rTRU_STAT := by decide
  refine ⟨?_, ?_, ?_, ?_, ?_, ?_, fun w hw => ?_, ?_, putWords_trust _ _ _⟩
  · rw [responded, getF_setB_other h5 false (by decide) (.inl hdr), getF_setF_other h4 _ (by decide) (.inr (.inr (by decide))),
      getF_setF_other h3 _ (by decide) (.inr (.inr (by decide))), getF_setF_other h2 _ (by decide) (.inr (.inr (by decide))),
      getF_setF_other h1 _ (by decide) (.inr (.inr (by decide))), getF_setB_same h0 true (by decide) rfl]; rfl
  · rw [responded, getF_setB_same h5 false (by decide) rfl]; rfl
  · rw [responded, getF_setB_other h5 false (by decide) (.inl hdr), getF_setF_same h4 _ (by decide)]; rfl
  · rw [responded, getF_setB_other h5 false (by decide) (.inl hdr), getF_setF_other h4 _ (by decide) (.inr (.inr (by decide))),
      getF_setF_other h3 _ (by decide) (.inr (.inr (by decide))), getF_setF_other h2 _ (by decide) (.inr (.inr (by decide))),
      getF_setF_same h1 _ (by decide)]; rfl
  · rw [responded, getF_setB_other h5 false (by decide) (.inl hdr), getF_setF_other h4 _ (by decide) (.inr (.inr (by decide))),
      getF_setF_same h3 _ (by decide)]; rfl
  · rw [responded, getF_setB_other h5 false (by decide) (.inl hdr), getF_setF_other h4 _ (by decide) (.inr (.inr (by decide))),
      getF_setF_other h3 _ (by decide) (.inr (.inr (by decide))), getF_setF_same h2 _ (by decide)]; rfl
  · have hne : rTRU_RSP w ≠ rTRU_RSP_HDR ∧ rTRU_RSP w ≠ rTRU_STAT := by simp only [rTRU_RSP, rTRU_RSP_HDR, rTRU_STAT]; omega
    obtain ⟨hh, ht⟩ := hne
    rw [responded, reg_setB_other _ _ ht, reg_setF_other _ _ hh, reg_setF_other _ _ hh, reg_setF_other _ _ hh, reg_setF_other _ _ hh,
      reg_setB_other _ _ hh, putWords_reads hs rTRU_RSP_injective hw]
  · have hh : rTRU_RSP_HDR ∈ [rTRU_STAT, rTRU_RSP_HDR] ++ (List.range (ceilDiv r.2.length 6)).map rTRU_RSP := by simp
    refine regsBut_setB (regsBut_setF (regsBut_setF (regsBut_setF (regsBut_setF (regsBut_setB (putWords_regsBut (regsBut_refl _ _)
      fun w hw => ?_) hh) hh) hh) hh) hh) (by simp [fTRU_STAT_BUSY])
    exact List.mem_append_right _ (List.mem_map_of_mem (List.mem_range.mpr hw))

theorem mailboxReply_shows {ty tag : Nat} {r : Reply} {s : State} (hs : Sound s) : Responded ty tag r s (mailboxReply ty tag r s) := by
  obtain ⟨hv, hb, hty, htag, hst, hlen, hw, hr, htr⟩ := responded_shows (ty := ty) (tag := tag) (r := r) hs
  rw [mailboxReply_eq]
  refine ⟨?_, ?_, ?_, ?_, ?_, ?_, fun w k => ?_, fun a ha => ?_, ?_⟩
  · rw [signalVector_getF, hv]
  · rw [signalVector_getF, hb]
  · rw [signalVector_getF, hty]
  · rw [signalVector_getF, htag]
  · rw [signalVector_getF, hst]
  · rw [signalVector_getF, hlen]
  · rw [signalVector_reg, hw w k]
  · rw [signalVector_reg, hr a ha]
  · rw [signalVector_trust, htr]

/-- A request that may be served at once. -/
theorem mailboxGo_served {ty tag : Nat} {p : List Byte} {g : Handler} {s : State} (hb : getF fTRU_STAT_BUSY s = 0) (hv : getF fTRU_RSP_HDR_VALID s = 0)
    (hr : getF fTRU_STAT_RESTARTING s = 0) (hw : 3 < ty ∨ (s.primer.switch ≠ .toTrial ∧ s.primer.switch ≠ .toActive)) :
    mailboxGo ty tag p g s = mailboxReply ty tag (serveWith ty g p s).1 (serveWith ty g p s).2 := by
  have h1 : ¬ (getB fTRU_STAT_BUSY s = true ∨ getB fTRU_RSP_HDR_VALID s = true) := by rw [getB_iff, getB_iff, hb, hv]; decide
  have h2 : ¬ requestWaits ty s = true := by
    have hn : getB fTRU_STAT_RESTARTING s = false := by rw [getB_eq_false_iff, hr]; decide
    rw [requestWaits, hn]
    rcases hw with hw | ⟨ha, hb⟩
    · simp; omega
    · simp [switching, ha, hb]
  rw [mailboxGo, if_neg h1, if_neg h2]

/-- Settles O27: the request is served and answered; a retired device refuses all but one. -/
theorem mailboxAnswers : Obligations.MailboxAnswers := by
  intro c ty tag payload s hs hc hbusy hvalid hrst hwait
  obtain ⟨g, hg, he, hty⟩ := mailboxRequest_serves hc
  have hk := requested_kept (m := 1) ty tag payload s rfl
  have hr := requested_regs ty tag payload s
  have hlc : (requested ty tag payload s).lc = s.lc := hk.same .lc rfl
  have hprimer : (requested ty tag payload s).primer = s.primer := hk.same .primer rfl
  have hsnd := hk.sound hs
  have hserved := mailboxGo_served (ty := ty) (tag := tag % 65536) (p := payload.take 3072) (g := g) (s := requested ty tag payload s)
    ((hr.getF (f := fTRU_STAT_BUSY) (not_mem_requestRegs (by decide))).trans hbusy)
    ((hr.getF (f := fTRU_RSP_HDR_VALID) (not_mem_requestRegs (by decide))).trans hvalid)
    ((hr.getF (f := fTRU_STAT_RESTARTING) (not_mem_requestRegs (by decide))).trans hrst) (by rw [hprimer]; exact hwait)
  refine gives_of_next ((he s).trans (congrArg _ hserved)) ?_
  have hsv : Sound (serveWith ty g (payload.take 3072) (requested ty tag payload s)).2 := by
    unfold serveWith
    split
    · exact hsnd
    · exact hg _ _ hsnd
  obtain ⟨h1, h2, h3, h4, h5, h6, -, -, -⟩ := mailboxReply_shows (ty := ty) (tag := tag % 65536)
    (r := (serveWith ty g (payload.take 3072) (requested ty tag payload s)).1) hsv
  obtain ⟨v1, v2⟩ := signalVector_vector 5 (responded ty (tag % 65536) (serveWith ty g (payload.take 3072) (requested ty tag payload s)).1
    (serveWith ty g (payload.take 3072) (requested ty tag payload s)).2)
  refine ⟨h1, h2, h3.trans (Nat.mod_eq_of_lt hty), h4.trans (Nat.mod_mod _ _), v1, v2, fun hret h60 => ?_⟩
  have hrefuse : serveWith ty g (payload.take 3072) (requested ty tag payload s) = refuse stState (requested ty tag payload s) :=
    if_pos ⟨by rw [hlc]; exact hret, h60⟩
  rw [hrefuse] at h5 h6 ⊢
  have hgone : Kept 262145 s (mailboxReply ty (tag % 65536) (stState, []) (requested ty tag payload s)) :=
    mailboxReply_kept (requested_kept ty tag payload s rfl) rfl
  refine ⟨h5, h6, only_of_kept hgone rfl, ?_⟩
  · refine (hr.trans (mailboxReply_shows (ty := ty) (tag := tag % 65536) (r := (stState, [])) hsnd).regs).mono fun a ha => ?_
    simp only [requestRegs, List.mem_append, List.mem_cons, List.not_mem_nil, or_false, ceilDiv, List.length_nil, Nat.reduceDiv, Nat.reduceAdd,
      Nat.reduceSub, List.range_zero, List.map_nil] at ha ⊢
    rcases ha with (h | h) | h | h
    · exact .inl (.inr (.inl h))
    · exact .inr h
    · exact .inl (.inl h)
    · exact .inl (.inr (.inr h))

/-! ### The serial ledger (R139) -/

/-- The bytes of a counter slot's ledger. -/
def ledgerBytes (x : Counter) (s : State) : List Byte :=
  leBytes 6 (now s).toNat ++ (leBytes 6 x.issued ++ (leBytes 6 x.printed ++ (leBytes 6 x.voided ++
    (leBytes 6 x.reserved ++ (leBytes 6 x.next ++ (leBytes 1 (cstateCode x.state) ++ leBytes 4 x.id))))))

theorem serialLedger_answer {k : Nat} {x : Counter} {s : State} (hk : k < 64) (h : counter k s = some x) :
    serialLedger [BitVec.ofNat 8 k] s = ((stOk, ledgerBytes x s), s) := by
  have hn : leNat [BitVec.ofNat 8 k] = k := by simp [leNat]; omega
  rw [serialLedger, if_neg (by simp), hn, if_neg (by omega), h]
  simp [answer, ledgerBytes]

theorem ledgerBytes_words (x : Counter) (s : State) (hi : x.issued < 2 ^ 48) (hn : x.next < 2 ^ 48) (hl : x.law) :
    leAt (ledgerBytes x s) 0 6 = (now s).toNat ∧ leAt (ledgerBytes x s) 6 6 = x.issued ∧ leAt (ledgerBytes x s) 12 6 = x.printed ∧
      leAt (ledgerBytes x s) 18 6 = x.voided ∧ leAt (ledgerBytes x s) 24 6 = x.reserved ∧ leAt (ledgerBytes x s) 30 6 = x.next := by
  have ht := (now s).isLt
  unfold Counter.law at hl
  have word {n : Nat} (h : n < 2 ^ 48) : n % 256 ^ 6 = n := Nat.mod_eq_of_lt (by simpa using h)
  refine ⟨?_, ?_, ?_, ?_, ?_, ?_⟩ <;> simp only [ledgerBytes, leAt_behind _ _ _ _ _ (Nat.le_refl 6), Nat.reduceLeDiff, leAt_behind, Nat.reduceSub, leAt_front]
  · exact word ht
  · exact word hi
  · exact word (by omega)
  · exact word (by omega)
  · exact word (by omega)
  · exact word hn

/-- Settles O28: the ledger is answered as it stands; a release clears one bit. -/
theorem serialLedgerAnswers : Obligations.SerialLedgerAnswers := by
  intro tag k x s hs hk hx hnext hiss hlc hbusy hvalid hrst
  refine ⟨?_, gives_of_next rfl ⟨getF_setB_same hs false (by decide) rfl, regsBut_setB (regsBut_refl _ _) List.mem_cons_self⟩⟩
  have hkept := requested_kept (m := 1) 0x30 tag [BitVec.ofNat 8 k] s rfl
  have hr := requested_regs 0x30 tag [BitVec.ofNat 8 k] s
  have hserved := mailboxGo_served (ty := 0x30) (tag := tag % 65536) (p := [BitVec.ofNat 8 k]) (g := serialLedger)
    (s := requested 0x30 tag [BitVec.ofNat 8 k] s)
    ((hr.getF (f := fTRU_STAT_BUSY) (not_mem_requestRegs (by decide))).trans hbusy)
    ((hr.getF (f := fTRU_RSP_HDR_VALID) (not_mem_requestRegs (by decide))).trans hvalid)
    ((hr.getF (f := fTRU_STAT_RESTARTING) (not_mem_requestRegs (by decide))).trans hrst) (.inl (by decide))
  have hsnd := hkept.sound hs
  have htrust : (requested 0x30 tag [BitVec.ofNat 8 k] s).trust = s.trust := hkept.same .trust rfl
  have hstate : (requested 0x30 tag [BitVec.ofNat 8 k] s).lc = s.lc := hkept.same .lc rfl
  have htick : now (requested 0x30 tag [BitVec.ofNat 8 k] s) = now s := hr.reg (not_mem_requestRegs (by decide))
  have hcounter : counter k (requested 0x30 tag [BitVec.ofNat 8 k] s) = some x := by rw [counter, htrust]; exact hx
  have hanswer : serveWith 0x30 serialLedger [BitVec.ofNat 8 k] (requested 0x30 tag [BitVec.ofNat 8 k] s) =
      ((stOk, ledgerBytes x (requested 0x30 tag [BitVec.ofNat 8 k] s)), requested 0x30 tag [BitVec.ofNat 8 k] s) := by
    rw [serveWith, if_neg (by rw [hstate]; exact fun e => hlc e.1), serialLedger_answer hk hcounter]
  rw [hanswer] at hserved
  refine gives_of_next (congrArg Host.Outcome.next hserved) ?_
  have hlen : (ledgerBytes x (requested 0x30 tag [BitVec.ofNat 8 k] s)).length = 41 := by simp [ledgerBytes]
  obtain ⟨w0, w1, w2, w3, w4, w5⟩ := ledgerBytes_words x (requested 0x30 tag [BitVec.ofNat 8 k] s) hiss hnext (counter_law hs hx)
  obtain ⟨-, -, -, -, hst, hl, hw, -, htr⟩ := mailboxReply_shows (ty := 0x30) (tag := tag % 65536)
    (r := (stOk, ledgerBytes x (requested 0x30 tag [BitVec.ofNat 8 k] s))) hsnd
  rw [hlen] at hl
  have law := counter_law hs hx
  unfold Counter.law at law
  have word {w n : Nat} (hwn : leAt (ledgerBytes x (requested 0x30 tag [BitVec.ofNat 8 k] s)) (6 * w) 6 = n) (h6 : w < 6) (hn : n < 2 ^ 48) :
      ((mailboxReply 0x30 (tag % 65536) (stOk, ledgerBytes x (requested 0x30 tag [BitVec.ofNat 8 k] s))
        (requested 0x30 tag [BitVec.ofNat 8 k] s)).reg (rTRU_RSP w)).toNat = n := by
    rw [hw w (by rw [hlen]; exact Nat.lt_of_lt_of_le h6 (by decide)), hwn, BitVec.toNat_ofNat, Nat.mod_eq_of_lt hn]
  have r1 := word (w := 1) w1 (by decide) hiss
  have r2 := word (w := 2) w2 (by decide) (by omega)
  have r3 := word (w := 3) w3 (by decide) (by omega)
  have r4 := word (w := 4) w4 (by decide) (by omega)
  refine ⟨hst, hl, htr.trans htrust, ?_, r1, r2, r3, r4, word (w := 5) w5 (by decide) hnext, ?_⟩
  · exact BitVec.eq_of_toNat_eq ((word (w := 0) w0 (by decide) (now _).isLt).trans (congrArg BitVec.toNat htick))
  · exact r1.trans (law.trans (by rw [← r2, ← r3, ← r4]))

end Sys2Proof.Machine

/-! SUPPORT. Serial counters and time hints: the proofs of the statements about R37, R39, R128 and R136. -/

namespace Sys2Proof.Machine

/-! ### Both copies of the counters -/

/-- The counters, their copy and which of them is lost are the same. -/
def CountersSame (s t : State) : Prop :=
  t.trust.counters = s.trust.counters ∧ t.trust.mirror = s.trust.mirror ∧ t.trust.copyLost = s.trust.copyLost

theorem CountersSame.of_trust {s t : State} (h : t.trust = s.trust) : CountersSame s t := by rw [CountersSame, h]; exact ⟨rfl, rfl, rfl⟩

theorem CountersSame.trans {s t u : State} (h : CountersSame s t) (g : CountersSame t u) : CountersSame s u :=
  ⟨g.1.trans h.1, g.2.1.trans h.2.1, g.2.2.trans h.2.2⟩

theorem CountersSame.counter {s t : State} (h : CountersSame s t) (k : Nat) : counter k t = counter k s := by
  obtain ⟨h1, h2, h3⟩ := h
  rw [Machine.counter, Machine.counter, h1, h2, h3]

theorem raiseSimple_counters (src cls : Nat) (e : Bool) (d : Nat) (s : State) : CountersSame s (raiseSimple src cls e d s) :=
  .of_trust ((raiseSimple_kept (m := 4587521) (Kept.refl _ s) rfl).same .trust rfl)

theorem flashFault_counters (s : State) : CountersSame s (flashFault s) :=
  .of_trust ((flashFault_kept (m := 5636097) (Kept.refl _ s) rfl).same .trust rfl)

theorem checkpointDue_counters (q : Nat) (s : State) : CountersSame s (checkpointDue q s) := by
  unfold checkpointDue
  split <;> exact ⟨rfl, rfl, rfl⟩

theorem auditLevels_counters (s : State) : CountersSame s (auditLevels s) := ⟨rfl, rfl, rfl⟩

theorem auditAppendRaw_counters (e : AuditEntry) (s : State) : CountersSame s (auditAppendRaw e s) := by
  have held (u : State) (c : Prop) [Decidable c] (f : State → State) (h : CountersSame s u) (hf : ∀ v, CountersSame v (f v)) :
      CountersSame s (if c then f u else u) := by
    split
    · exact h.trans (hf u)
    · exact h
  refine held (auditLevels _) _ (checkpointDue _) ?_ (checkpointDue_counters _)
  refine CountersSame.trans ?_ (auditLevels_counters _)
  split <;> exact ⟨rfl, rfl, rfl⟩

theorem auditAppend_counters (e : AuditEntry) (s : State) : CountersSame s (auditAppend e s) := by
  have raised (c : Bool) (cls d : Nat) {u : State} (h : CountersSame s u) : CountersSame s (doIf c (raiseSimple srcAudit cls false d) u) := by
    unfold doIf
    split
    · exact h.trans (raiseSimple_counters _ _ _ _ _)
    · exact h
  exact raised _ _ _ (raised _ _ _ (auditAppendRaw_counters e s))

/-! ### One counter written -/

theorem counter_putCounter_same (k : Nat) (c : Counter) (s : State) : counter k (putCounter k c s) = some c := by
  by_cases h0 : s.trust.copyLost = some 0
  · simp [counter, putCounter, h0, spFind_insert_same]
  · simp [counter, putCounter, h0, spFind_insert_same]

theorem counter_putCounter_other {j k : Nat} (c : Counter) (s : State) (h : j ≠ k) : counter j (putCounter k c s) = counter j s := by
  by_cases h0 : s.trust.copyLost = some 0
  · simp [counter, putCounter, h0, spFind_insert_other _ _ h]
  · simp [counter, putCounter, h0, spFind_insert_other _ _ h]

/-- From `s` to `t` the counter of a slot becomes `c`, and every other counter stays. -/
def CounterBecomes (k : Nat) (c : Counter) (s t : State) : Prop := counter k t = some c ∧ ∀ j, j ≠ k → counter j t = counter j s

theorem putCounter_becomes (k : Nat) (c : Counter) (s : State) : CounterBecomes k c s (putCounter k c s) :=
  ⟨counter_putCounter_same k c s, fun _ h => counter_putCounter_other c s h⟩

theorem CounterBecomes.after {k : Nat} {c : Counter} {s t u : State} (h : CounterBecomes k c t u) (g : ∀ j, j ≠ k → counter j t = counter j s) :
    CounterBecomes k c s u := ⟨h.1, fun j hj => (h.2 j hj).trans (g j hj)⟩

theorem CounterBecomes.before {k : Nat} {c : Counter} {s t u : State} (h : CounterBecomes k c s t) (g : CountersSame t u) :
    CounterBecomes k c s u := ⟨(g.counter k).trans h.1, fun j hj => (g.counter j).trans (h.2 j hj)⟩

/-- The two copies of a slot's counter differ. -/
theorem countersDiffer_iff {k : Nat} {x : Counter} {s : State} (h : counter k s = some x) :
    countersDiffer k s = true ↔ s.trust.copyLost = none ∧ spFind s.trust.mirror k ≠ some x := by
  rw [countersDiffer, Bool.and_eq_true, Option.isNone_iff_eq_none, decide_eq_true_iff]
  refine and_congr_right fun hn => ?_
  have hc : spFind s.trust.counters k = some x := by simpa [counter, hn] using h
  rw [hc]
  exact ne_comm

/-- What the comparison of a slot's copies leaves (R37, R39). -/
theorem compareCounter_becomes {k : Nat} {x : Counter} {s : State} (h : counter k s = some x) :
    CounterBecomes k (if countersDiffer k s then { x with state := .broken } else x) s (compareCounter k s) := by
  unfold compareCounter
  split
  · have h1 : CountersSame s (auditAppend { type := 5, slot := k } s) := auditAppend_counters _ s
    have hc : counter k (auditAppend { type := 5, slot := k } s) = some x := (h1.counter k).trans h
    rw [counterBreak, hc]
    exact ((putCounter_becomes k _ _).after fun j _ => h1.counter j).before (raiseSimple_counters _ _ _ _ _)
  · exact ⟨h, fun _ _ => rfl⟩

theorem journalWrite_counters (s : State) : CountersSame s (journalWrite s) := ⟨rfl, rfl, rfl⟩

/-! ### A counter fed (R136, R137) -/

/-- What feeding a slot leaves of its counter: the totals stay, and numbers are only assigned on. -/
def FedTo (c y : Counter) : Prop :=
  y.issued = c.issued ∧ y.reserved = c.reserved ∧ y.next = c.next ∧ y.printed = c.printed ∧ y.voided = c.voided ∧ c.assign ≤ y.assign

/-- From `s` to `t` only the counter of slot `k` may change, and only as feeding changes it. -/
structure Fed (k : Nat) (s t : State) : Prop where
  own : ∀ c, counter k s = some c → ∃ y, counter k t = some y ∧ FedTo c y
  others : ∀ j, j ≠ k → counter j t = counter j s

theorem FedTo.refl (c : Counter) : FedTo c c := ⟨rfl, rfl, rfl, rfl, rfl, le_refl _⟩

theorem FedTo.trans {a b c : Counter} (h : FedTo a b) (g : FedTo b c) : FedTo a c := by
  obtain ⟨h1, h2, h3, h4, h5, h6⟩ := h
  obtain ⟨g1, g2, g3, g4, g5, g6⟩ := g
  exact ⟨g1.trans h1, g2.trans h2, g3.trans h3, g4.trans h4, g5.trans h5, h6.trans g6⟩

theorem Fed.refl (k : Nat) (s : State) : Fed k s s := ⟨fun c h => ⟨c, h, .refl c⟩, fun _ _ => rfl⟩

theorem Fed.trans {k : Nat} {s t u : State} (h : Fed k s t) (g : Fed k t u) : Fed k s u where
  own c hc := by
    obtain ⟨y, hy, e⟩ := h.own c hc
    obtain ⟨z, hz, f⟩ := g.own y hy
    exact ⟨z, hz, e.trans f⟩
  others j hj := (g.others j hj).trans (h.others j hj)

theorem Fed.of_same {k : Nat} {s t : State} (h : CountersSame s t) : Fed k s t :=
  ⟨fun c hc => ⟨c, (h.counter k).trans hc, .refl c⟩, fun j _ => h.counter j⟩

theorem Fed.of_becomes {k : Nat} {c y : Counter} {s t : State} (hc : counter k s = some c) (h : CounterBecomes k y s t) (f : FedTo c y) : Fed k s t :=
  ⟨fun d hd => by cases hc.symm.trans hd; exact ⟨y, h.1, f⟩, h.2⟩

theorem setPreQueue_counters (sl : Nat) (l : List Nat) (s : State) : CountersSame s (setPreQueue sl l s) := ⟨rfl, rfl, rfl⟩

theorem refill_fed (k sl pre : Nat) (s : State) : Fed k s (refill k sl pre s) := by
  unfold refill
  split
  · exact .refl k s
  · next c hc =>
    dsimp only
    split
    · exact .refl k s
    · have h : Fed k s (putCounter k { c with assign := c.assign + min (pre - (preQueue sl s).length) (unassigned c) } s) :=
        .of_becomes hc (putCounter_becomes k _ s) ⟨rfl, rfl, rfl, rfl, rfl, Nat.le_add_right _ _⟩
      exact h.trans (.of_same (setPreQueue_counters sl _ _))

theorem reserveBlock_fed (k : Nat) (s : State) : Fed k s (reserveBlock k s) := by
  unfold reserveBlock
  split
  · exact .refl k s
  next c hc =>
  split
  · exact .refl k s
  split
  · split
    · exact .refl k s
    · exact .of_same ⟨rfl, rfl, rfl⟩
  · exact .of_becomes hc (putCounter_becomes k _ s) ⟨rfl, rfl, rfl, rfl, rfl, le_refl _⟩

theorem runState_fed (k : Nat) (s : State) : Fed k s (runState k s) := by
  unfold runState
  split
  · exact .refl k s
  next c hc =>
  have put (x : CState) : Fed k s (putCounter k { c with state := x } s) :=
    .of_becomes hc (putCounter_becomes k _ s) ⟨rfl, rfl, rfl, rfl, rfl, le_refl _⟩
  split
  · exact .refl k s
  split
  · exact put _
  split
  · exact (put _).trans (.of_same (flashFault_counters _))
  · exact .refl k s

theorem feedCounter_fed (k : Nat) (s : State) : Fed k s (feedCounter k s) := by
  unfold feedCounter
  split
  · exact .refl k s
  · next c _ =>
    have h : Fed k s (forAll (usersOf c.id s) (fun u => refill k u.1 u.2) s) :=
      forAll_inv (Fed k s) _ _ _ (.refl k s) fun _ _ _ ht => ht.trans (refill_fed _ _ _ _)
    exact (h.trans (reserveBlock_fed k _)).trans (runState_fed k _)

/-- The counter that a completed block leaves before its slot is fed. -/
def blockTaken (n : Nat) (c : Counter) : Counter :=
  { c with writing := none, next := c.next + n, issued := c.issued + n, reserved := c.reserved + n,
           state := if c.state = .dry then .normal else c.state }

/-- The two outcomes of a block's flash write, after the comparison of its copies. -/
theorem blockWriteDone_eq {k n : Nat} {c : Counter} {ok : Bool} {s : State} (hc : counter k (compareCounter k s) = some c) (hw : c.writing = some n) :
    blockWriteDone k ok s = if ok then feedCounter k (putCounter k (blockTaken n c) (journalWrite (compareCounter k s)))
      else flashFault (putCounter k { c with state := if c.state = .broken then .broken else .dry } (journalWrite (compareCounter k s))) := by
  rw [blockWriteDone]
  simp only [hc, hw]
  rfl

/-- Settles O29: the copies are compared, and the write's outcome is taken up in the counter that stands. -/
theorem blockReservation : Obligations.BlockReservation := by
  intro k n x s hs hx hwrite hstate differ
  have hdiff : countersDiffer k s = true ↔ differ := countersDiffer_iff hx
  obtain ⟨hown, hoth⟩ := compareCounter_becomes hx
  generalize hy : (if countersDiffer k s then { x with state := .broken } else x) = c at hown
  have hc : c = { x with state := c.state } := by rw [← hy]; split <;> rfl
  have hw : c.writing = some n := by rw [hc]; exact hwrite
  have journal (j : Nat) : counter j (journalWrite (compareCounter k s)) = counter j (compareCounter k s) := (journalWrite_counters _).counter j
  obtain ⟨t, ht, hpt, hot⟩ := everyCommandCompletes (.blockWriteDone k true) s
  obtain ⟨u, hu, hpu, hou⟩ := everyCommandCompletes (.blockWriteDone k false) s
  refine ⟨⟨t, ht, hpt, hot, ?_⟩, ⟨u, hu, hpu, hou, ?_⟩⟩
  · cases ht.symm.trans (congrArg Host.Outcome.next (blockWriteDone_eq (ok := true) hown hw))
    have hput := (putCounter_becomes k (blockTaken n c) (journalWrite (compareCounter k s))).after fun j hj => (journal j).trans (hoth j hj)
    have hfed := feedCounter_fed k (putCounter k (blockTaken n c) (journalWrite (compareCounter k s)))
    obtain ⟨y, hy, h1, h2, h3, h4, h5, h6⟩ := hfed.own _ hput.1
    rw [hc] at h1 h2 h3 h4 h5 h6
    exact ⟨y, hy, h1, h2, h3, h4, h5, h6, fun j hj => (hfed.others j hj).trans (hput.2 j hj)⟩
  · cases hu.symm.trans (congrArg Host.Outcome.next (blockWriteDone_eq (ok := false) hown hw))
    have hput := ((putCounter_becomes k { c with state := if c.state = .broken then .broken else .dry } (journalWrite (compareCounter k s))).after
      fun j hj => (journal j).trans (hoth j hj)).before (flashFault_counters _)
    refine ⟨hput.1.trans (congrArg some ?_), hput.2⟩
    rw [← hy]
    by_cases hd : differ
    · rw [if_pos (hdiff.mpr hd)]; simp [hd]
    · rw [if_neg (mt hdiff.mp hd)]; simp [hd, hstate]

/-! ### Time hints (R128) -/

/-- What a hint may leave: the disagreement shown, and the account of hints. -/
structure Hinted (s t : State) : Prop where
  time : getF fTRU_TIME_TIME t = getF fTRU_TIME_TIME s
  trusted : getF fTRU_TSTAT_TRUSTED t = getF fTRU_TSTAT_TRUSTED s
  regs : RegsBut [rTRU_TSTAT] s t
  causes : ∀ x ∈ s.trust.causes, x ∈ t.trust.causes
  trust : t.trust = { s.trust with hintD := t.trust.hintD, hintLast := t.trust.hintLast, utcLast := t.trust.utcLast, leapLast := t.trust.leapLast,
                                   leap := t.trust.leap, slew := t.trust.slew, hintRun := t.trust.hintRun, causes := t.trust.causes }

theorem Hinted.refl (s : State) : Hinted s s := ⟨rfl, rfl, regsBut_refl _ _, fun _ h => h, rfl⟩

/-- Beside the registers a step in the account of hints keeps what a hint keeps. -/
theorem Hinted.step {s t u : State} (h : Hinted s t) (hr : u.regs = t.regs) (hc : ∀ x ∈ t.trust.causes, x ∈ u.trust.causes)
    (ht : u.trust = { t.trust with slew := u.trust.slew, hintRun := u.trust.hintRun, causes := u.trust.causes }) : Hinted s u where
  time := (getF_reg _ _ _ (by rw [State.reg, hr]; rfl)).trans h.time
  trusted := (getF_reg _ _ _ (by rw [State.reg, hr]; rfl)).trans h.trusted
  regs := regsBut_trans h.regs (regsBut_of_regs hr)
  causes x hx := hc x (h.causes x hx)
  trust := by rw [ht, h.trust]

theorem addCause_hinted {c : TrustCause} {s t : State} (h : Hinted s t) : Hinted s (addCause c t) := by
  unfold addCause
  split
  · exact h
  · exact h.step rfl (fun x hx => List.mem_append_left _ hx) rfl

/-- The disagreement of a hint is shown and kept. -/
theorem hintShown {s : State} (hs : Sound s) (d : Int) (a : Option Nat) (b : Option Int) (p l : Int) : Hinted s (setI fTRU_TSTAT_HINT_D d { s with
    trust.hintD := d, trust.hintLast := a, trust.utcLast := b, trust.leapLast := p, trust.leap := l }) := by
  have h0 : Sound { s with trust.hintD := d, trust.hintLast := a, trust.utcLast := b, trust.leapLast := p, trust.leap := l } := hs.of_eq
  exact ⟨getF_setF_other h0 _ (by decide) (.inl (by decide)), getF_setF_other h0 _ (by decide) (.inr (.inl (by decide))),
    fun a ha => (regsBut_setF (f := fTRU_TSTAT_HINT_D) (regsBut_refl _ s) List.mem_cons_self : RegsBut [rTRU_TSTAT] s _) a ha, fun _ h => h, rfl⟩

/-- A disagreement within the tolerance is slewed away; eight in a row beyond it are a cause of mistrust. -/
def weighHint (d l : Int) (s : State) : State :=
  if (d - l).natAbs ≤ getF fTRU_TSTAT_TOL s then { s with trust.slew := d, trust.hintRun := 0 }
  else
    let s2 := { s with trust.slew := 0, trust.hintRun := s.trust.hintRun + 1 }
    if 8 ≤ s2.trust.hintRun then addCause .hint s2 else s2

theorem weighHint_hinted {d l : Int} {s t : State} (h : Hinted s t) : Hinted s (weighHint d l t) := by
  unfold weighHint
  split
  · exact h.step rfl (fun _ h => h) rfl
  dsimp only
  split
  · exact addCause_hinted (h.step rfl (fun _ h => h) rfl)
  · exact h.step rfl (fun _ h => h) rfl

theorem ptpHint_hinted (hint : Nat) (utc leap : Int) {s : State} (hs : Sound s) : Hinted s (ptpHint hint utc leap s) := by
  unfold ptpHint
  dsimp only
  split
  · exact .refl s
  · exact weighHint_hinted (hintShown hs _ _ _ _ _)

/-- Settles O30: every branch writes the disagreement, and the account of hints. -/
theorem hintNeverSteps : Obligations.HintNeverSteps := by
  intro hint utc leap s hs
  obtain ⟨htime, htrusted, hregs, hcauses, htrust⟩ := ptpHint_hinted hint utc leap hs
  exact gives_of_next rfl ⟨htime, htrusted, hregs, hcauses, htrust⟩

end Sys2Proof.Machine

/-! SUPPORT. The proofs of the statements about host images and fonts (R162, R180). -/

namespace Sys2Proof.Machine

/-! ### One bit of a field -/

theorem testBit_add_two_pow {x k : Nat} (h : x.testBit k = false) : (x + 2 ^ k).testBit k = true := by
  rw [Nat.add_comm, Nat.testBit_two_pow_add_eq, h]; rfl

theorem testBit_sub_two_pow {x k : Nat} (h : x.testBit k = true) : (x - 2 ^ k).testBit k = false := by
  have hle : 2 ^ k ≤ x := Nat.ge_two_pow_of_testBit h
  have e : x.testBit k = !(x - 2 ^ k).testBit k := by
    rw [← Nat.testBit_two_pow_add_eq, Nat.add_sub_cancel' hle]
  rw [h] at e
  simpa using e.symm

theorem setBit_testBit {s : State} (hs : Sound s) {f : Field} {k : Nat} (b : Bool) (hfit : f.lo + f.width ≤ 48) (hk : k < f.width) :
    (getF f (setBit f k b s)).testBit k = b := by
  have value : (if (getF f s).testBit k = b then getF f s else if b then getF f s + 2 ^ k else getF f s - 2 ^ k).testBit k = b := by
    split
    · assumption
    · next h =>
      cases b with
      | true => exact testBit_add_two_pow (by simpa using h)
      | false => exact testBit_sub_two_pow (by simpa using h)
  rw [setBit, getF_setF_same hs _ hfit, Nat.testBit_mod_two_pow, value]
  simp [hk]

theorem setBit_sound {s : State} (hs : Sound s) (f : Field) (k : Nat) (b : Bool) : Sound (setBit f k b s) := sound_setF hs _ _

theorem getF_setBit_other {s : State} (hs : Sound s) {f g : Field} (k : Nat) (b : Bool) (h : f.lo + f.width ≤ 48)
    (hd : g.reg ≠ f.reg ∨ g.lo + g.width ≤ f.lo ∨ f.lo + f.width ≤ g.lo) : getF g (setBit f k b s) = getF g s := getF_setF_other hs _ h hd

theorem regsBut_setBit {l : List Nat} {o s : State} {f : Field} {k : Nat} {b : Bool} (h : RegsBut l o s) (ha : f.reg ∈ l) :
    RegsBut l o (setBit f k b s) := regsBut_setF h ha

/-! ### Host images (R180) -/

/-- Freeing a slot's inactive buffer writes INUSE and WBUF alone. -/
structure BufferFreed (s t : State) : Prop where
  ren : t.ren = s.ren
  result : getF fREN_HIMG_STAT_RESULT t = getF fREN_HIMG_STAT_RESULT s
  valid : getF fREN_HIMG_STAT_VALID t = getF fREN_HIMG_STAT_VALID s
  regs : RegsBut [rREN_HIMG_STAT, rREN_HIMG_WBUF] s t

theorem himgBufferFree_frame {s : State} (hs : Sound s) (k : Nat) : BufferFreed s (himgBufferFree k s) := by
  have same : BufferFreed s s := ⟨rfl, rfl, rfl, regsBut_refl _ _⟩
  have unused {u : State} (h : BufferFreed s u) (hu : Sound u) : BufferFreed s (setBit fREN_HIMG_STAT_INUSE k false u) :=
    ⟨h.ren, (getF_setBit_other hu _ _ (by decide) (.inr (.inl (by decide)))).trans h.result,
      (getF_setBit_other hu _ _ (by decide) (.inr (.inl (by decide)))).trans h.valid, regsBut_setBit h.regs List.mem_cons_self⟩
  unfold himgBufferFree
  split
  · split
    · exact same
    · exact unused same hs
  · next m _ =>
    split
    · exact same
    · have h : BufferFreed s (setBit fREN_HIMG_WBUF_WBUF k (m.buf == 0) s) :=
        ⟨rfl, getF_setBit_other hs _ _ (by decide) (.inl (by decide)), getF_setBit_other hs _ _ (by decide) (.inl (by decide)),
          regsBut_setBit (regsBut_refl _ _) (by decide)⟩
      exact unused h (setBit_sound hs _ _ _)

/-- The slot's image as COMMIT leaves it, before its other buffer is freed. -/
def himgTaken (k : Nat) (m : HostImage) (s : State) : State :=
  setF fREN_HIMG_STAT_RESULT 0 (setBit fREN_HIMG_STAT_VALID k true (setBit fREN_HIMG_STAT_INUSE k true { s with ren.himg := s.ren.himg.set k (some m) }))

theorem himgTaken_shows {k : Nat} {m : HostImage} {s : State} (hs : Sound s) (hk : k < 16) : let t := himgTaken k m s
    Sound t ∧ getF fREN_HIMG_STAT_RESULT t = 0 ∧ (getF fREN_HIMG_STAT_VALID t).testBit k = true ∧ t.ren = { s.ren with himg := s.ren.himg.set k (some m) } ∧
      RegsBut [rREN_HIMG_STAT] s t := by
  have h0 : Sound { s with ren.himg := s.ren.himg.set k (some m) } := hs.of_eq
  have h1 := setBit_sound h0 fREN_HIMG_STAT_INUSE k true
  have h2 := setBit_sound h1 fREN_HIMG_STAT_VALID k true
  refine ⟨sound_setF h2 _ _, (getF_setF_same h2 0 (by decide)).trans rfl, ?_, rfl, ?_⟩
  · rw [himgTaken, getF_setF_other h2 0 (by decide) (.inr (.inr (by decide))), setBit_testBit h1 true (by decide) hk]
  · exact regsBut_setF (regsBut_setBit (regsBut_setBit (regsBut_of_regs rfl) List.mem_cons_self) List.mem_cons_self) List.mem_cons_self

/-- Settles O31: each answer is one branch of COMMIT; the write of the command itself changes no other register. -/
theorem hostImages : Obligations.HostImages := by
  intro v s hs hrun k w h busy large buf l refused
  have hk : k < 16 := Nat.mod_lt _ (by decide)
  have hu : Sound (plainWrite rREN_HIMG_CMD v s) := plainWrite_sound hs _ _
  have hren : (plainWrite rREN_HIMG_CMD v s).ren = s.ren := plainWrite_parts _ _ .ren (by decide) (by decide)
  have hr : RegsBut [rREN_HIMG_CMD] s (plainWrite rREN_HIMG_CMD v s) := plainWrite_regsBut (regsBut_refl _ _) List.mem_cons_self
  have hstat : rREN_HIMG_STAT ∉ [rREN_HIMG_CMD] := by decide
  have hinuse := hr.getF (f := fREN_HIMG_STAT_INUSE) hstat
  have hwbuf := hr.getF (f := fREN_HIMG_WBUF_WBUF) (by decide)
  have hvalid := hr.getF (f := fREN_HIMG_STAT_VALID) hstat
  have hbusy : (getF fREN_HIMG_STAT_INUSE (plainWrite rREN_HIMG_CMD v s)).testBit k = true ↔ busy := by rw [hinuse]
  have hlarge : 8192 < ceilDiv h 8 * w ↔ large := Iff.rfl
  have refuse (r : Nat) (hr4 : r < 4) (e : himgCommit v (plainWrite rREN_HIMG_CMD v s) = setF fREN_HIMG_STAT_RESULT r (plainWrite rREN_HIMG_CMD v s)) :
      refused r := by
    refine gives_of_access hrun rfl e ⟨(getF_setF_same hu r (by decide)).trans (Nat.mod_eq_of_lt hr4), hren, ?_, ?_, ?_⟩
    · exact (getF_setF_other hu r (by decide) (.inr (.inr (by decide)))).trans hvalid
    · exact (getF_setF_other hu r (by decide) (.inr (.inr (by decide)))).trans hinuse
    · exact fun a ha => (regsBut_setF (hr.mono (l := [rREN_HIMG_CMD, rREN_HIMG_STAT]) (by simp)) (by simp [fREN_HIMG_STAT_RESULT]) :
        RegsBut [rREN_HIMG_CMD, rREN_HIMG_STAT] s (setF fREN_HIMG_STAT_RESULT r _)) a ha
  refine ⟨fun hb => refuse 1 (by decide) (if_pos (hbusy.mpr hb)),
    fun hb hl => refuse 2 (by decide) ((if_neg (mt hbusy.mp hb)).trans (if_pos (hlarge.mpr hl))), fun hb hl => ?_, ?_⟩
  · have e : himgCommit v (plainWrite rREN_HIMG_CMD v s) =
        himgBufferFree k (himgTaken k { buf := buf, w := w, h := h } (plainWrite rREN_HIMG_CMD v s)) := by
      refine (if_neg (mt hbusy.mp hb)).trans ((if_neg (mt hlarge.mp hl)).trans ?_)
      rw [hwbuf]; rfl
    obtain ⟨ht, h0, hv, hset, hregs⟩ := himgTaken_shows (m := { buf := buf, w := w, h := h }) hu hk
    obtain ⟨hren2, hres2, hval2, hreg2⟩ := himgBufferFree_frame ht k
    refine gives_of_access hrun rfl e ⟨hres2.trans h0, ?_, ?_, ?_⟩
    · show (getF fREN_HIMG_STAT_VALID (himgBufferFree k _)).testBit k = true
      rw [hval2, hv]
    · exact hren2.trans (hset.trans (by rw [hren]))
    · exact fun a ha => ((hr.trans hregs).trans hreg2).mono (l := [rREN_HIMG_CMD, rREN_HIMG_STAT, rREN_HIMG_WBUF]) (by simp) a ha
  · have h0 : Sound { plainWrite rREN_HIMG_CMD v s with ren.himg := (plainWrite rREN_HIMG_CMD v s).ren.himg.set k none } := hu.of_eq
    refine gives_of_access hrun rfl rfl ⟨setBit_testBit h0 false (by decide) hk, ?_, ?_⟩
    · rw [← hren]; rfl
    · exact fun a ha => (regsBut_setBit (f := fREN_HIMG_STAT_VALID) (regsBut_trans (hr.mono (l := [rREN_HIMG_CMD, rREN_HIMG_STAT]) (by simp))
        (regsBut_of_regs rfl)) (by decide) : RegsBut [rREN_HIMG_CMD, rREN_HIMG_STAT] s (himgClear v (plainWrite rREN_HIMG_CMD v s))) a ha

/-! ### Fonts (R162) -/

/-- The slot of a font taken out, and what the store shows of it. -/
theorem fontTaken_shows {k : Nat} {s : State} (hs : Sound s) (x : Nat) :
    let t := setF fREN_FONT_STAT_RESULT 0 (showFonts (setF fREN_FONT_STAT_DAMAGED x { s with ren.fonts := s.ren.fonts.set k none }))
    getF fREN_FONT_STAT_RESULT t = 0 ∧ getF fREN_FONT_STAT_BUSY t = getF fREN_FONT_STAT_BUSY s ∧ t.ren = { s.ren with fonts := s.ren.fonts.set k none } ∧
      RegsBut [rREN_FONT_STAT] s t := by
  have h0 : Sound { s with ren.fonts := s.ren.fonts.set k none } := hs.of_eq
  have h1 := sound_setF h0 fREN_FONT_STAT_DAMAGED x
  refine ⟨?_, ?_, rfl, ?_⟩
  · exact (getF_setF_same (sound_setF (sound_setF h1 _ _) _ _) 0 (by decide)).trans rfl
  · refine (getF_setF_other (sound_setF (sound_setF h1 _ _) _ _) 0 (by decide) (.inr (.inr (by decide)))).trans ?_
    refine (getF_setF_other (sound_setF h1 _ _) _ (by decide) (.inr (.inl (by decide)))).trans ?_
    refine (getF_setF_other h1 _ (by decide) (.inr (.inl (by decide)))).trans ?_
    exact getF_setF_other h0 _ (by decide) (.inr (.inl (by decide)))
  · exact regsBut_setF (regsBut_setF (regsBut_setF (regsBut_setF (regsBut_of_regs rfl) List.mem_cons_self) List.mem_cons_self) List.mem_cons_self)
      List.mem_cons_self

/-- Settles O32: each outcome is one branch of LOAD or UNLOAD. -/
theorem fontStore : Obligations.FontStore := by
  intro s hs hrun id busy
  have hb : getB fREN_FONT_STAT_BUSY s = true ↔ busy := getB_iff _ _
  have run (g : State → State) (e : g s = s) : hostAccess g s = s := by rw [hostAccess_run _ hrun, e]
  refine ⟨fun h => ⟨congrArg Host.Outcome.next (run fontLoad (if_pos (hb.mpr h))), congrArg Host.Outcome.next (run fontUnload (if_pos (hb.mpr h)))⟩,
    fun h => congrArg Host.Outcome.next (hostAccess_mark hrun (if_neg (mt hb.mp h)) : hostAccess fontLoad s = _),
    fun h hn => congrArg Host.Outcome.next (hostAccess_field hrun ((if_neg (mt hb.mp h)).trans (if_pos hn)) : hostAccess fontUnload s = _),
    fun k h hn hk => ?_⟩
  obtain ⟨h1, h2, h3, h4⟩ := fontTaken_shows (k := k) hs (if (getF fREN_FONT_STAT_DAMAGED s).testBit k then getF fREN_FONT_STAT_DAMAGED s - 2 ^ k
    else getF fREN_FONT_STAT_DAMAGED s)
  have e : fontUnload s = setF fREN_FONT_STAT_RESULT 0 (showFonts (setF fREN_FONT_STAT_DAMAGED
      (if (getF fREN_FONT_STAT_DAMAGED s).testBit k then getF fREN_FONT_STAT_DAMAGED s - 2 ^ k else getF fREN_FONT_STAT_DAMAGED s)
      { s with ren.fonts := s.ren.fonts.set k none })) := by
    rw [fontUnload, if_neg (mt hb.mp h), if_neg (show ¬ fontNamed id s = true by rw [hn]; decide)]
    show (match fontSlot id s with | none => _ | some k => _) = _
    rw [hk]
  have h0 : getF fREN_FONT_STAT_BUSY s = 0 := by
    have := getF_lt_two (f := fREN_FONT_STAT_BUSY) rfl s
    have : ¬ getF fREN_FONT_STAT_BUSY s = 1 := h
    omega
  exact gives_of_access hrun rfl e ⟨h1, h2.trans h0, h3, h4⟩

end Sys2Proof.Machine

/-! SUPPORT. The windows, RUN, STOP and the doorbell of an engine: the proofs of the statements about R200, R217 and R223. -/

namespace Sys2Proof.Machine

/-! ### The common states of the engines -/

theorem coreOf_putCore_other {e f : Engine} (c : Core) (s : State) (h : f ≠ e) : coreOf f (putCore e c s) = coreOf f s := by
  cases e with
  | sq n => cases f with
    | sq k => exact congrArg Seq.core (seq_set_other' fun e => h (by rw [e]))
    | ce k => rfl
    | mv k => rfl
  | ce n => cases f with
    | sq k => rfl
    | ce k => exact congrArg Ctl.core (ctl_set_other' fun e => h (by rw [e]))
    | mv k => rfl
  | mv n => cases f with
    | sq k => rfl
    | ce k => rfl
    | mv k => exact congrArg Mover.core (mover_set_other' fun e => h (by rw [e]))

theorem CoreBecomes.other {e f : Engine} {c : Core} {s t : State} (k : CoreBecomes e c s t) (h : f ≠ e) : coreOf f t = coreOf f s := by
  rw [k.1, coreOf_regs, coreOf_putCore_other c s h]

theorem CoreBecomes.putRaised {e : Engine} {c : Core} {s t : State} (k : CoreBecomes e c s t) (r : List (Nat × Nat)) :
    CoreBecomes e c s { t with raised := r } := by
  obtain ⟨ht, hr, hst⟩ := k
  refine ⟨?_, fun a ha => hr a ha, hst⟩
  rw [ht]

theorem CoreBecomes.state {e : Engine} {c : Core} {s t : State} (k : CoreBecomes e c s t) : engState e t = engState e s := k.2.2

theorem CoreBecomes.regs {e : Engine} {c : Core} {s t : State} (k : CoreBecomes e c s t) : RegsBut [(stateField e).reg] s t := k.2.1

theorem coreOf_parts {s t : State} (e : Engine) (h1 : t.sqs = s.sqs) (h2 : t.ces = s.ces) (h3 : t.mvs = s.mvs) : coreOf e t = coreOf e s := by
  cases e <;> simp only [coreOf, seqOf, ctlOf, moverOf, h1, h2, h3]

/-- What a bank writes changes nothing of an engine. -/
theorem coreOf_writeWord (e : Engine) (w : Nat) (l : List (Option Byte)) (s : State) : coreOf e (writeWord w l s) = coreOf e s := by
  have k : Kept 208185834433 s (writeWord w l s) := writeWord_kept (Kept.refl _ s) rfl
  exact coreOf_parts e (k.same .sqs (by decide)) (k.same .ces (by decide)) (k.same .mvs (by decide))

/-! ### Windows (R188, R200) -/

theorem mem_allEngines {e : Engine} : e ∈ allEngines ↔ (∃ n, e = .sq n ∧ n < 16) ∨ (∃ n, e = .ce n ∧ n < 8) ∨ ∃ n, e = .mv n ∧ n < 8 := by
  simp only [allEngines, List.mem_append, List.mem_map, List.mem_range, or_assoc]
  constructor
  · rintro (⟨n, h, rfl⟩ | ⟨n, h, rfl⟩ | ⟨n, h, rfl⟩)
    · exact .inl ⟨n, rfl, h⟩
    · exact .inr (.inl ⟨n, rfl, h⟩)
    · exact .inr (.inr ⟨n, rfl, h⟩)
  · rintro (⟨n, rfl, h⟩ | ⟨n, rfl, h⟩ | ⟨n, rfl, h⟩)
    · exact .inl ⟨n, h, rfl⟩
    · exact .inr (.inl ⟨n, h, rfl⟩)
    · exact .inr (.inr ⟨n, h, rfl⟩)

theorem exists_of_mem_allEngines {e : Engine} (h : e ∈ allEngines) : e.exists_ = true := by
  obtain ⟨n, rfl, hn⟩ | ⟨n, rfl, hn⟩ | ⟨n, rfl, hn⟩ := mem_allEngines.mp h
  · exact decide_eq_true (by omega)
  · exact decide_eq_true hn
  · exact decide_eq_true hn

/-- No address lies in the program windows of two engines. -/
theorem progWindow_unique {e f : Engine} {a : Nat} (he : e ∈ allEngines) (hf : f ∈ allEngines) (h1 : progWindow e ≤ a)
    (h2 : a < progWindow e + 8 * progSize e) (g1 : progWindow f ≤ a) (g2 : a < progWindow f + 8 * progSize f) : f = e := by
  obtain ⟨n, rfl, hn⟩ | ⟨n, rfl, hn⟩ | ⟨n, rfl, hn⟩ := mem_allEngines.mp he <;>
    obtain ⟨k, rfl, hk⟩ | ⟨k, rfl, hk⟩ | ⟨k, rfl, hk⟩ := mem_allEngines.mp hf <;>
    simp only [progWindow, progSize, rSQ_CTL, rCE_CTL, rMV_CTL] at h1 h2 g1 g2 <;>
    simp only [Engine.sq.injEq, Engine.ce.injEq, Engine.mv.injEq, reduceCtorEq] <;> omega

/-- No address lies in the data windows of two engines. -/
theorem dataWindow_unique {e f : Engine} {a : Nat} (he : e ∈ allEngines) (hf : f ∈ allEngines) (h1 : dataWindow e ≤ a)
    (h2 : a < dataWindow e + 8 * dataSize e) (g1 : dataWindow f ≤ a) (g2 : a < dataWindow f + 8 * dataSize f) : f = e := by
  obtain ⟨n, rfl, hn⟩ | ⟨n, rfl, hn⟩ | ⟨n, rfl, hn⟩ := mem_allEngines.mp he <;>
    obtain ⟨k, rfl, hk⟩ | ⟨k, rfl, hk⟩ | ⟨k, rfl, hk⟩ := mem_allEngines.mp hf <;>
    simp only [dataWindow, dataSize, rSQ_CTL, rCE_CTL, rMV_CTL] at h1 h2 g1 g2 <;>
    simp only [Engine.sq.injEq, Engine.ce.injEq, Engine.mv.injEq, reduceCtorEq] <;> omega

theorem find?_of_unique {α : Type} {l : List α} {p : α → Bool} {x : α} (hx : x ∈ l) (hp : p x = true) (h : ∀ y ∈ l, p y = true → y = x) :
    l.find? p = some x := by
  cases hf : l.find? p with
  | none => exact absurd hp (by simpa using List.find?_eq_none.mp hf x hx)
  | some y => exact congrArg some (h y (List.mem_of_find?_eq_some hf) (List.find?_some hf))

theorem progSlot_window {e : Engine} {i : Nat} (he : e ∈ allEngines) (hi : i < progSize e) : progSlot (progWindow e + 8 * i) = some (e, i) := by
  rw [progSlot, find?_of_unique (x := e) he (by simp only [Bool.and_eq_true, decide_eq_true_eq]; omega) fun f hf h => by
    simp only [Bool.and_eq_true, decide_eq_true_eq] at h
    exact progWindow_unique he hf (by omega) (by omega) h.1 h.2]
  simp

theorem dataSlot_window {e : Engine} {i : Nat} (he : e ∈ allEngines) (hi : i < dataSize e) : dataSlot (dataWindow e + 8 * i) = some (e, i) := by
  rw [dataSlot, find?_of_unique (x := e) he (by simp only [Bool.and_eq_true, decide_eq_true_eq]; omega) fun f hf h => by
    simp only [Bool.and_eq_true, decide_eq_true_eq] at h
    exact dataWindow_unique he hf (by omega) (by omega) h.1 h.2]
  simp

theorem progWindow_aligned (e : Engine) (i : Nat) : (progWindow e + 8 * i) % 8 = 0 := by
  cases e <;> simp only [progWindow, rSQ_CTL, rCE_CTL, rMV_CTL] <;> omega

theorem dataWindow_aligned (e : Engine) (i : Nat) : (dataWindow e + 8 * i) % 8 = 0 := by
  cases e <;> simp only [dataWindow, rSQ_CTL, rCE_CTL, rMV_CTL] <;> omega

theorem exec_programWindowWrite {e : Engine} {i : Nat} (v : Nat) (s : State) (he : e ∈ allEngines) (hi : i < progSize e) :
    exec (.programWindowWrite (progWindow e + 8 * i) v) s = .next (hostAccess (progWrite e i v) s) := by
  show Host.Outcome.next (match progSlot (progWindow e + 8 * i) with | some (e, i) => _ | none => _) = _
  rw [progSlot_window he hi]
  exact congrArg _ (if_pos (progWindow_aligned e i))

theorem exec_dataWindowWrite {e : Engine} {i : Nat} (v : Nat) (s : State) (he : e ∈ allEngines) (hi : i < dataSize e) :
    exec (.dataWindowWrite (dataWindow e + 8 * i) v) s = .next (hostAccess (dataWrite e i v) s) := by
  show Host.Outcome.next (match dataSlot (dataWindow e + 8 * i) with | some (e, i) => _ | none => _) = _
  rw [dataSlot_window he hi]
  exact congrArg _ (if_pos (dataWindow_aligned e i))

/-- The mark of a refused write stands apart from the engine's state. -/
theorem getF_progRefused {e : Engine} {s : State} (hs : Sound s) :
    getF (progRefused e) (setF (progRefused e) 1 s) = 1 ∧ engState e (setF (progRefused e) 1 s) = engState e s := by
  cases e with
  | sq n => exact ⟨(getF_setF_same hs 1 (by simp [progRefused, fSQ_STAT_PROG_REFUSED])).trans rfl,
      getF_setF_other hs 1 (by simp [progRefused, fSQ_STAT_PROG_REFUSED]) (.inr (.inl (by simp [progRefused, stateField, fSQ_STAT_PROG_REFUSED, fSQ_STAT_STATE])))⟩
  | ce n => exact ⟨(getF_setF_same hs 1 (by simp [progRefused, fCE_STAT_PROG_REFUSED])).trans rfl,
      getF_setF_other hs 1 (by simp [progRefused, fCE_STAT_PROG_REFUSED]) (.inr (.inl (by simp [progRefused, stateField, fCE_STAT_PROG_REFUSED, fCE_STAT_STATE])))⟩
  | mv n => exact ⟨(getF_setF_same hs 1 (by simp [progRefused, fMV_STAT_PROG_REFUSED])).trans rfl,
      getF_setF_other hs 1 (by simp [progRefused, fMV_STAT_PROG_REFUSED]) (.inr (.inl (by simp [progRefused, stateField, fMV_STAT_PROG_REFUSED, fMV_STAT_STATE])))⟩

/-- Settles O33: the address names its engine and word; a stopped engine's word is written, another write only marked. -/
theorem engineWindows : Obligations.EngineWindows := by
  intro e i v s hs hrun he c becomes
  have hex := exists_of_mem_allEngines he
  refine ⟨fun hi => ⟨fun hst => ?_, fun hst => ?_⟩, fun hi => ?_⟩
  · have k : CoreBecomes e (progPut c i (BitVec.ofNat 32 v)) s (modCore e (fun c => progPut c i (BitVec.ofNat 32 v)) s) := modCore_becomes hs
    refine ⟨_, _, k, (exec_programWindowWrite v s he hi).trans (congrArg _ (hostAccess_run _ hrun)), ?_, ?_, fun f hf => ?_⟩
    · rw [progWrite, if_pos hst]
    · rw [progWrite, if_pos hst, coreOf_regs, coreOf_writeWord]
      exact k.core hs hex
    · rw [progWrite, if_pos hst, coreOf_regs, coreOf_writeWord]
      exact k.other hf
  · obtain ⟨h1, h2⟩ := getF_progRefused (e := e) hs
    refine gives_of_kept ((exec_programWindowWrite v s he hi).trans (congrArg _ (hostAccess_mark hrun (if_neg hst))))
      (setF_kept (m := 1) (Kept.refl _ s) rfl) rfl ⟨h1, h2, regsBut_setF (regsBut_refl _ _) List.mem_cons_self⟩
  · have k : CoreBecomes e (dataPut c i (BitVec.ofNat 48 v)) s (modCore e (fun c => dataPut c i (BitVec.ofNat 48 v)) s) := modCore_becomes hs
    refine ⟨_, _, k, (exec_dataWindowWrite v s he hi).trans (congrArg _ (hostAccess_run _ hrun)), rfl, ?_, fun f hf => ?_⟩
    · rw [dataWrite, coreOf_regs, coreOf_bankWrite]
      exact k.core hs hex
    · rw [dataWrite, coreOf_regs, coreOf_bankWrite]
      exact k.other hf

/-! ### RUN (R200) -/

/-- ENTRY and STATE stand in registers of their own. -/
theorem stateField_reg_ne_entryField_reg (e : Engine) : (stateField e).reg ≠ (entryField e).reg := by
  cases e <;> simp only [stateField, entryField, fSQ_STAT_STATE, fCE_STAT_STATE, fMV_STAT_STATE, fSQ_CTL_ENTRY, fCE_CTL_ENTRY, fMV_CTL_ENTRY,
    rSQ_STAT, rSQ_CTL, rCE_STAT, rCE_CTL, rMV_STAT, rMV_CTL] <;> omega

theorem stateField_fit (e : Engine) : (stateField e).lo + (stateField e).width ≤ 48 := by
  cases e <;> simp [stateField, fSQ_STAT_STATE, fCE_STAT_STATE, fMV_STAT_STATE]

theorem entryField_fit (e : Engine) : (entryField e).lo + (entryField e).width ≤ 48 := by
  cases e <;> simp [entryField, fSQ_CTL_ENTRY, fCE_CTL_ENTRY, fMV_CTL_ENTRY]

theorem engState_setEngState {e : Engine} {s : State} (hs : Sound s) {x : Nat} (hx : x < 4) : engState e (setEngState e x s) = x := by
  refine (getF_setF_same hs x (stateField_fit e)).trans (Nat.mod_eq_of_lt ?_)
  cases e <;> exact hx

/-- What an engine's start leaves: its ENTRY, its new state and its common state; no other register. -/
structure Started (e : Engine) (entry x : Nat) (c : Core) (s t : State) : Prop where
  state : engState e t = x
  entry : getF (entryField e) t = entry % 2 ^ (entryField e).width
  core : coreOf e t = c
  regs : RegsBut [(stateField e).reg, (entryField e).reg] s t
  rest : ∃ r q, t = { putCore e c s with regs := r, raised := q }

/-- The state, and what an engine's common state becomes, of one whose ENTRY has been written. -/
theorem started {e : Engine} {entry x : Nat} {f : Core → Core} {s : State} (hs : Sound s) (he : e.exists_ = true) (hx : x < 4) :
    Started e entry x (f (coreOf e s)) s (setEngState e x (modCore e f (setF (entryField e) entry s))) := by
  have h0 : Sound (setF (entryField e) entry s) := sound_setF hs _ _
  have k : CoreBecomes e (f (coreOf e s)) (setF (entryField e) entry s) (modCore e f (setF (entryField e) entry s)) := modCore_becomes h0
  have h1 : Sound (modCore e f (setF (entryField e) entry s)) := setCore_sound h0
  have hne := stateField_reg_ne_entryField_reg e
  refine ⟨engState_setEngState h1 hx, ?_, ?_, ?_, ?_⟩
  · refine (getF_setF_other h1 x (stateField_fit e) (.inl hne.symm)).trans ?_
    rw [k.regs.getF (by simpa using hne.symm), getF_setF_same hs _ (entryField_fit e)]
  · have hc : coreOf e (setEngState e x (modCore e f (setF (entryField e) entry s))) = coreOf e (modCore e f (setF (entryField e) entry s)) :=
      coreOf_parts e rfl rfl rfl
    exact hc.trans (k.core h0 he)
  · refine regsBut_setF (regsBut_trans (regsBut_setF (regsBut_refl _ s) (by simp)) (k.regs.mono (by simp))) (by simp)
  · have hrest : ∃ r q, modCore e f (setF (entryField e) entry s) = { putCore e (f (coreOf e s)) s with regs := r, raised := q } :=
      ⟨(modCore e f (setF (entryField e) entry s)).regs, (modCore e f (setF (entryField e) entry s)).raised, k.1.trans (by cases e <;> rfl)⟩
    obtain ⟨r, q, hu⟩ := hrest
    rw [hu]
    exact ⟨_, _, rfl⟩

theorem only_ces (s : State) (r : Sparse Word) (q : List (Nat × Nat)) (x : List Ctl) : Only [.regs, .ces] s { s with regs := r, raised := q, ces := x } := by
  intro p hp
  cases p <;> simp [Part.same] at hp ⊢

theorem only_mvs (s : State) (r : Sparse Word) (q : List (Nat × Nat)) (x : List Mover) : Only [.regs, .mvs] s { s with regs := r, raised := q, mvs := x } := by
  intro p hp
  cases p <;> simp [Part.same] at hp ⊢

/-- RUN of an engine that may start. -/
theorem engineRun_may {e : Engine} {s : State} (he : e.exists_ = true) (hst : engState e s = 0 ∨ engState e s = 3) :
    ¬ (e.exists_ = false ∨ (engState e s ≠ 0 ∧ engState e s ≠ 3)) := by
  rw [he]; simp; omega

theorem engState_setEntry {e : Engine} {entry : Nat} {s : State} : engState e (setF (entryField e) entry s) = engState e s :=
  getF_setReg_other _ _ (stateField_reg_ne_entryField_reg e)

/-- Settles O34: ENTRY is written, and an engine that is STOPPED or FAULTED starts. -/
theorem engineStarts : Obligations.EngineStarts := by
  intro e entry s hs hrun he stat ctl may
  have hexec : exec (.engineRun e entry) s = .next (hostAccess (fun t => engineRun e (setF (entryField e) entry t)) s) := congrArg _ (if_pos he)
  have skip (h : may) : ¬ (e.exists_ = false ∨ (engState e (setF (entryField e) entry s) ≠ 0 ∧ engState e (setF (entryField e) entry s) ≠ 3)) :=
    engineRun_may he (by rw [engState_setEntry]; exact h)
  refine ⟨fun h => ?_, fun n hn h => ?_, fun n hn h => ?_⟩
  · refine hexec.trans (congrArg _ (hostAccess_field hrun (if_pos (.inr ?_))))
    rw [engState_setEntry]
    exact not_or.mp h
  · subst hn
    have hn : n < 8 := of_decide_eq_true he
    obtain ⟨h1, h2, h3, h4, h5⟩ := started (e := .ce n) (entry := entry) (x := 1) (f := fun c => { c with wait := .none, stopReq := false }) hs he
      (by decide)
    generalize hu : setEngState (.ce n) 1 (modCore (.ce n) (fun c => { c with wait := .none, stopReq := false }) (setF (entryField (.ce n)) entry s)) = u
      at h1 h2 h3 h4 h5
    have hg : engineRun (.ce n) (setF (entryField (.ce n)) entry s) =
        setCtl n { ctlOf n u with first := true, events := 0, srcDue := 0, timerAt := now u } u := by
      rw [engineRun, if_neg (skip h), ← hu]
    obtain ⟨r, q, rfl⟩ := h5
    have hlen : n < (putCore (.ce n) { coreOf (.ce n) s with wait := .none, stopReq := false } s).ces.length := by
      simpa [putCore, setCtl, hs.ces_length] using hn
    refine ⟨_, hexec.trans (congrArg _ (hostAccess_run _ hrun)), ?_, ?_, ?_⟩
    · rw [hg]; rfl
    · rw [hg]; exact only_ces s _ _ _
    · rw [hg]
      exact ⟨h1, h2, (congrArg Ctl.core (ctl_set_same' hlen)).trans h3, h4, fun k hk => (ctl_set_other' hk).trans (ctl_set_other' hk)⟩
  · subst hn
    obtain ⟨h1, h2, h3, h4, h5⟩ := started (e := .mv n) (entry := entry) (x := 2) (f := fun c =>
      { c with pc := entry % 2 ^ (entryField (.mv n)).width, stack := [], wait := .none, stopReq := false, cyc := 0, cycSeen := 0,
               fl := { c.fl with z := false, n := false, c := false, v := false } }) hs he (by decide)
    have hg : engineRun (.mv n) (setF (entryField (.mv n)) entry s) = setEngState (.mv n) 2 (modCore (.mv n) (fun c =>
        { c with pc := entry % 2 ^ (entryField (.mv n)).width, stack := [], wait := .none, stopReq := false, cyc := 0, cycSeen := 0,
                 fl := { c.fl with z := false, n := false, c := false, v := false } }) (setF (entryField (.mv n)) entry s)) := by
      rw [← getF_setF_same hs entry (entryField_fit (.mv n))]
      exact if_neg (skip h)
    rw [← hg] at h1 h2 h3 h4 h5
    generalize hu : engineRun (.mv n) (setF (entryField (.mv n)) entry s) = u at h1 h2 h3 h4 h5
    obtain ⟨r, q, rfl⟩ := h5
    refine ⟨_, hexec.trans (congrArg _ (hostAccess_run _ hrun)), ?_, ?_, ?_⟩
    · rw [hu]; rfl
    · rw [hu]; exact only_mvs s _ _ _
    · rw [hu]; exact ⟨h1, h2, h3, h4, fun k hk => mover_set_other' hk⟩

/-! ### The doorbell and STOP (R200, R217, R223) -/

/-- What a host access answers while the start has not stopped: the events of the tick are those that stood (R11). -/
theorem next_access {g : State → State} {s : State} (h : startStopped s = false) :
    (.next (hostAccess g s) : Host.Outcome State Fault Refusal) = .next { g s with raised := s.raised } :=
  congrArg _ (hostAccess_run g h)

/-- A head that is tested again changes its state and its port's safe state, no other register. -/
theorem refreshHead_regsBut (h : Nat) (s : State) : RegsBut [rSCH_HEAD_STAT h, rHP_STAT h] s (refreshHead h s) := by
  have hstate (x : Nat) : RegsBut [rSCH_HEAD_STAT h, rHP_STAT h] s (setHeadState h x s) := regsBut_setF (regsBut_refl _ s) List.mem_cons_self
  unfold refreshHead
  split
  · exact hstate 0
  · split
    · exact regsBut_refl _ s
    · split
      · exact regsBut_setB (hstate 1) (List.mem_cons_of_mem _ List.mem_cons_self)
      · exact hstate 0

theorem setEvi_becomes {e : Engine} {s : State} (hs : Sound s) (he : e.exists_ = true) (bit : Nat) :
    CoreBecomes e { coreOf e s with evi := (coreOf e s).evi ||| 2 ^ bit } s (setEvi e bit s) := by
  rw [setEvi, if_pos he]
  exact modCore_becomes hs

theorem engineStop_mover {n : Nat} {s : State} (he : (Engine.mv n).exists_ = true) :
    engineStop (.mv n) s = if engState (.mv n) s = 2 ∧ (coreOf (.mv n) s).wait ≠ .none then modCore (.mv n) (fun c => { c with stopReq := true }) s
      else setEngState (.mv n) 0 s :=
  if_neg (by simp [he])

theorem engineStop_jobs {n : Nat} {s : State} (he : (Engine.sq n).exists_ = true) (hn : n < 16) (hh : headOf n s = some n)
    (hq : (path n s).cur.isSome ∨ (path n s).queue ≠ []) : engineStop (.sq n) s = refreshHead n (setB (fSQ_STAT_STOP_PEND n) true s) := by
  have hq' : (path n s).cur.isSome ∨ !(path n s).queue.isEmpty := hq.imp id (by simp)
  unfold engineStop
  rw [if_neg (by simp [he])]
  simp only [hh, if_neg (Nat.not_le.mpr hn), if_pos hq']

/-- A sequencer's STOP_PEND is set; its head is tested again in registers of its own. -/
theorem stopPend_set {n : Nat} {s : State} (hs : Sound s) :
    let t := refreshHead n (setB (fSQ_STAT_STOP_PEND n) true s)
    getF (fSQ_STAT_STOP_PEND n) t = 1 ∧ engState (.sq n) t = engState (.sq n) s ∧ RegsBut [rSQ_STAT n, rSCH_HEAD_STAT n, rHP_STAT n] s t := by
  have hr := refreshHead_regsBut n (setB (fSQ_STAT_STOP_PEND n) true s)
  have hout : rSQ_STAT n ∉ [rSCH_HEAD_STAT n, rHP_STAT n] := by
    simp only [List.mem_cons, List.not_mem_nil, or_false, rSQ_STAT, rSCH_HEAD_STAT, rHP_STAT]; omega
  refine ⟨?_, ?_, regsBut_trans (regsBut_setB (regsBut_refl _ s) List.mem_cons_self) (hr.mono fun a ha => List.mem_cons_of_mem _ ha)⟩
  · rw [hr.getF hout]
    exact getF_setB_same hs true (by simp [fSQ_STAT_STOP_PEND]) rfl
  · refine (hr.getF hout).trans (getF_setB_other hs true (by simp [fSQ_STAT_STOP_PEND]) ?_)
    exact .inr (.inl (by simp [stateField, fSQ_STAT_STOP_PEND, fSQ_STAT_STATE]))

/-- Settles O35: the doorbell is an event bit of the engine; STOP ends a mover, or is noted. -/
theorem engineStopsAndBells : Obligations.EngineStopsAndBells := by
  intro e s hs hrun he c
  refine ⟨⟨_, next_access hrun, (setEvi_becomes hs he 1).putRaised _⟩, fun n hn h => ?_, fun n hn h1 h2 => ?_,
    fun n hn hlt hh hq => ?_⟩
  · subst hn
    exact congrArg _ (hostAccess_field hrun ((engineStop_mover he).trans (if_neg h)))
  · subst hn
    have k : CoreBecomes (.mv n) { c with stopReq := true } s (engineStop (.mv n) s) := by
      rw [engineStop_mover he, if_pos ⟨h1, h2⟩]
      exact modCore_becomes hs
    exact ⟨_, next_access hrun, k.putRaised _⟩
  · subst hn
    have k : Kept 1 s (refreshHead n (setB (fSQ_STAT_STOP_PEND n) true s)) := refreshHead_kept (setB_kept (Kept.refl _ s) rfl) rfl
    refine gives_of_kept (m := 1) (next_access hrun) ?_ rfl ?_
    · rw [engineStop_jobs he hlt hh hq]
      exact k.putRaised rfl
    · rw [engineStop_jobs he hlt hh hq]
      exact stopPend_set hs

end Sys2Proof.Machine

/-! SUPPORT. The sequencers and the move channels: the proofs of the statements about profile F and M and a job's release (R202, R203, R209,
R215 to R217, R239, R242). -/

namespace Sys2Proof.Machine

/-! ### Instructions of a sequencer that runs a job (R203, R209) -/

section
variable {n h j : Nat} {s : State}

theorem exec_grpAdv (hr : runningJob n s = some (h, j)) (hi : nextInsn (.sq n) s = some .grpAdv) :
    exec (.grpAdv n) s = .next (setPhase n h ((path h (fetched (.sq n) s)).phase + 1 : Nat) (fetched (.sq n) s)) :=
  runInsn_next (g := fun t => setPhase n h ((path h t).phase + 1 : Nat) t) hi (by rw [hr])

theorem exec_grpSet {rs : Nat} (hr : runningJob n s = some (h, j)) (hi : nextInsn (.sq n) s = some (.grpSet rs)) :
    exec (.grpSet n) s = .next (setPhase n h (getW (.sq n) rs (fetched (.sq n) s)).toInt (fetched (.sq n) s)) :=
  runInsn_next (g := fun t => setPhase n h (getW (.sq n) rs t).toInt t) hi (by rw [hr])

theorem exec_grpGet {rd : Nat} (hr : runningJob n s = some (h, j)) (hi : nextInsn (.sq n) s = some (.grpGet rd)) :
    exec (.grpGet n) s = .next (loadReg (.sq n) rd (BitVec.ofNat 48 (path h (fetched (.sq n) s)).phase) (fetched (.sq n) s)) :=
  runInsn_next (g := fun t => loadReg (.sq n) rd (BitVec.ofNat 48 (path h t).phase) t) hi (by rw [hr])

/-- The waveform set in force: none on a laser, else the head's ink band (R242). -/
def inkBand (h : Nat) (s : State) : Word := if persOf h s = 4 then 0 else BitVec.ofNat 48 (getF (fHP_TEMP_BAND h) s)

/-- The path's next waveform set (R242), but on a laser. -/
def setWave (h x : Nat) (s : State) : State := if persOf h s = 4 then s else setPath h { path h s with wfNext := some (x % 8) } s

theorem exec_wfselGet {rd : Nat} (hr : runningJob n s = some (h, j)) (hi : nextInsn (.sq n) s = some (.wfselGet rd)) :
    exec (.wfselGet n) s = .next (loadReg (.sq n) rd (inkBand h (fetched (.sq n) s)) (fetched (.sq n) s)) :=
  runInsn_next (g := fun t => loadReg (.sq n) rd (inkBand h t) t) hi (by rw [hr]; rfl)

theorem exec_wfselSet {rs : Nat} (hr : runningJob n s = some (h, j)) (hi : nextInsn (.sq n) s = some (.wfselSet rs)) :
    exec (.wfselSet n) s = .next (advance (.sq n) (setWave h (getW (.sq n) rs (fetched (.sq n) s)).toNat (fetched (.sq n) s))) :=
  runInsn_next (g := fun t => advance (.sq n) (setWave h (getW (.sq n) rs t).toNat t)) hi (by rw [hr]; rfl)

theorem onStretch_job {k rd rs : Nat} {f : Nat → Nat → Nat → State → State} (hr : runningJob n s = some (h, j)) :
    onStretch n k f s (.stretch k rd rs) = some (f h rd rs) := by
  simp only [onStretch, hr, if_pos]

/-- STRETCH gives its register a value and Z its test. -/
theorem stretchPut_becomes {rd : Nat} {x : Word} (hs : Sound s) (he : (Engine.sq n).exists_ = true) :
    let c := coreOf (.sq n) s
    CoreBecomes (.sq n) { c with w := c.w.set rd x, fl := { c.fl with z := x == 0 }, pc := c.pc + 1 } s (stretchPut n rd x s) := by
  intro c
  have h1 : CoreBecomes (.sq n) { c with fl := { c.fl with z := x == 0 } } s (setZ n (x == 0) s) :=
    modCore_becomes (e := .sq n) (f := fun c => { c with fl := { c.fl with z := x == 0 } }) hs
  have hs1 : Sound (setZ n (x == 0) s) := setCore_sound (e := .sq n) hs
  have h2 := loadReg_becomes hs1 he rd x
  rw [h1.core hs he] at h2
  exact h1.trans h2

/-- A STRETCH of a running job gives its value on the fetched state. -/
theorem stretch_becomes {k rd rs : Nat} {f : Nat → Nat → Nat → State → State} {x : Word} (hs : Sound s) (hr : runningJob n s = some (h, j))
    (hi : nextInsn (.sq n) s = some (.stretch k rd rs)) (hx : f h rd rs (fetched (.sq n) s) = stretchPut n rd x (fetched (.sq n) s)) :
    let c := coreOf (.sq n) (fetched (.sq n) s)
    ∃ t, runInsn (.sq n) (onStretch n k f s) s = .next t ∧
      CoreBecomes (.sq n) { c with w := c.w.set rd x, fl := { c.fl with z := x == 0 }, pc := c.pc + 1 } (fetched (.sq n) s) t :=
  ⟨_, runInsn_next hi (onStretch_job hr), hx ▸ stretchPut_becomes (fetched_sound hs) (nextInsn_exists hi)⟩

end

/-- Settles O36: each instruction runs on the fetched state, with the job and the head that run. -/
theorem firingInstructions : Obligations.FiringInstructions := by
  intro n h j s hs hr e u c g phase laser loads loadsZ
  have hu : Sound u := fetched_sound hs
  refine ⟨fun hi => exec_grpAdv hr hi, fun rs hi => exec_grpSet hr hi,
    fun rd hi => ⟨_, exec_grpGet hr hi, loadReg_becomes hu (nextInsn_exists hi) rd _⟩,
    fun rd hi => ⟨_, exec_wfselGet hr hi, loadReg_becomes hu (nextInsn_exists hi) rd _⟩, fun rs hi => exec_wfselSet hr hi,
    fun rd rs hi => stretch_becomes hs hr hi rfl, fun rd rs hi => stretch_becomes hs hr hi ?_, fun rd rs hi => stretch_becomes hs hr hi rfl⟩
  simp only [posMax, atOrBeyond, decide_eq_true_eq]
  rfl

/-! ### WAIT and SIG of a move channel (R215 to R217) -/

/-- The common state of a channel whose WAIT has taken the events of `x` (R215). -/
def eventsTaken (rd x : Nat) (c : Core) : Core :=
  { c with w := c.w.set rd (BitVec.ofNat 48 x), evi := c.evi &&& (1023 - x), pc := c.pc + 1, wait := .none }

theorem takeEvents_becomes {n rd mask : Nat} {s : State} (hs : Sound s) (he : (Engine.mv n).exists_ = true)
    (hstop : (coreOf (.mv n) s).stopReq = false) :
    CoreBecomes (.mv n) (eventsTaken rd ((coreOf (.mv n) s).evi &&& mask) (coreOf (.mv n) s)) s (takeEvents n rd mask s) := by
  generalize hc : coreOf (.mv n) s = c at hstop
  let x := c.evi &&& mask
  let s1 := modCore (.mv n) (fun c => { c with evi := c.evi &&& (1023 - x) }) s
  let s2 := putW (.mv n) rd (BitVec.ofNat 48 x) s1
  let s3 := modCore (.mv n) (fun c => { c with wait := .none, stopReq := false }) s2
  have h1 : Sound s1 := setCore_sound hs
  have h2 : Sound s2 := setCore_sound (e := .mv n) h1
  have h3 : Sound s3 := setCore_sound h2
  have k1 : CoreBecomes (.mv n) { c with evi := c.evi &&& (1023 - x) } s s1 := hc ▸ modCore_becomes hs
  have k2 := k1.modCore hs h1 he (fun c => c.setW rd (BitVec.ofNat 48 x))
  have k3 := k2.modCore hs h2 he (fun c => { c with wait := .none, stopReq := false })
  have k4 := k3.modCore hs h3 he (fun c => { c with pc := c.pc + 1 })
  have hs2 : (coreOf (.mv n) s2).stopReq = false := (congrArg Core.stopReq (k2.core hs he)).trans hstop
  have ht : takeEvents n rd mask s = advance (.mv n) s3 := by
    show finishMover n (putW (.mv n) rd (BitVec.ofNat 48 ((coreOf (.mv n) s).evi &&& mask)) _) = _
    rw [hc]
    show doIf (coreOf (.mv n) s2).stopReq (setEngState (.mv n) 0) _ = _
    rw [hs2]
    rfl
  have hd : eventsTaken rd x c = { eventsTaken rd x c with stopReq := false } := by rw [← hstop]; rfl
  rw [ht, hd]
  exact k4

/-- A channel that comes to an instruction waits for nothing. -/
theorem wait_of_nextInsn {e : Engine} {s : State} {i : Insn} (h : nextInsn e s = some i) : (coreOf e s).wait = .none := by
  unfold nextInsn executing at h
  split at h
  · next hx => simp at hx; exact hx.2
  · cases h

theorem waitInsn_takes {n rd mask : Nat} {s : State} (h : (coreOf (.mv n) s).evi &&& mask ≠ 0) : waitInsn n rd mask s = takeEvents n rd mask s :=
  if_neg h

theorem waitInsn_waits {n rd mask : Nat} {s : State} (h : (coreOf (.mv n) s).evi &&& mask = 0) :
    waitInsn n rd mask s = modCore (.mv n) (fun c => { c with wait := .event rd mask }) s := if_pos h

/-- SIG changes its target and the program counter of its own channel. -/
theorem sigInsn_becomes {n kind signal idx : Nat} {s : State} (hs : Sound s) (he : (Engine.mv n).exists_ = true)
    (hx : (engineOf kind idx).exists_ = true) (hne : engineOf kind idx ≠ .mv n) :
    let f := engineOf kind idx
    Only [.regs, .sqs, .ces, .mvs] s (sigInsn n kind signal idx s) ∧
      coreOf f (sigInsn n kind signal idx s) = { coreOf f s with evi := (coreOf f s).evi ||| 2 ^ (2 + signal) } ∧
      coreOf (.mv n) (sigInsn n kind signal idx s) = { coreOf (.mv n) s with pc := (coreOf (.mv n) s).pc + 1 } := by
  intro f
  have k1 := setEvi_becomes hs hx (2 + signal)
  have h1 : Sound (setEvi f (2 + signal) s) := (setEvi_kept (m := 117440513) (Kept.refl _ s) rfl).sound hs
  have k2 : CoreBecomes (.mv n) _ _ (sigInsn n kind signal idx s) := modCore_becomes (e := .mv n) (f := fun c => { c with pc := c.pc + 1 }) h1
  refine ⟨only_of_kept (m := 117440513) (advance_kept (setEvi_kept (Kept.refl _ s) rfl) rfl) rfl, ?_, ?_⟩
  · rw [k2.other hne]; exact k1.core hs hx
  · rw [k2.core h1 he, k1.other hne.symm]

/-- Settles O38: WAIT and SIG on the fetched state; a WAIT that waits goes on from the state it has. -/
theorem moverEvents : Obligations.MoverEvents := by
  intro n s hs e u c
  have hu : Sound u := fetched_sound hs
  refine ⟨fun rd mask hi h0 => ?_, fun rd mask hi h1 hstop => ?_, fun rd mask hn hst hw h1 hstop => ?_, fun kind signal idx hi hx hne => ?_⟩
  · exact ⟨_, runInsn_next hi rfl, waitInsn_waits h0 ▸ modCore_becomes hu⟩
  · have hw : c.wait = .none := by
      show (coreOf e (fetched e s)).wait = _
      rw [coreOf_fetched hs (nextInsn_exists hi)]
      exact wait_of_nextInsn hi
    have k := takeEvents_becomes (rd := rd) (mask := mask) hu (nextInsn_exists hi) hstop
    rw [eventsTaken, ← hw] at k
    exact ⟨_, runInsn_next hi rfl, waitInsn_takes h1 ▸ k⟩
  · refine ⟨takeEvents n rd mask s, ?_, takeEvents_becomes hs (decide_eq_true hn) hstop⟩
    show Host.Outcome.next (match (coreOf (.mv n) s).wait with | .event rd mask => _ | _ => s) = _
    rw [hw]
    exact congrArg _ (if_pos ⟨hn, hst, h1⟩)
  · exact ⟨_, runInsn_next hi rfl, sigInsn_becomes hu (nextInsn_exists hi) hx hne⟩

end Sys2Proof.Machine

/-! SUPPORT. A job's release at a mark boundary: the proof of the statement about R202 and R221. -/

namespace Sys2Proof.Machine

/-! ### What the view and the path leave -/

theorem reg_usePending {a : Nat} (ha : ∀ k, a ≠ rHP_STAT k) (h : Nat) (s : State) : (usePending h s).reg a = s.reg a := by
  unfold usePending
  split
  · exact reg_setReg_other _ _ (ha h)
  · rfl

theorem reg_putPending {a : Nat} (ha : ∀ k, a ≠ rHP_STAT k) (w : Word) (h : Nat) (s : State) : (putPending w h s).reg a = s.reg a :=
  reg_setReg_other _ _ (ha h)

theorem reg_releaseView {a : Nat} (ha : ∀ k, a ≠ rHP_STAT k) (h : Nat) (s : State) : (releaseView h s).reg a = s.reg a := by
  have hone : ∀ l : List Nat, (forAll l (fun k t => modPort k (fun p => { p with viewSw := none }) (usePending k t)) s).reg a = s.reg a := fun l =>
    forAll_inv (fun t => t.reg a = s.reg a) l _ s rfl fun k _ t ht => (reg_usePending ha k t).trans ht
  unfold releaseView
  split
  · rfl
  · dsimp only
    split
    · rfl
    · split
      · exact forAll_inv (fun t => t.reg a = s.reg a) _ _ _ (hone _) fun k _ t ht => (reg_putPending ha _ k t).trans ht
      · exact hone _

theorem reg_takeView {a : Nat} (ha : ∀ k, a ≠ rHP_STAT k) (h j : Nat) (s : State) : (takeView h j s).reg a = s.reg a := by
  unfold takeView
  split
  · rfl
  · dsimp only [fixView]
    split
    · split
      · exact (reg_releaseView ha _ _).trans (forAll_inv (fun t => t.reg a = s.reg a) _ _ _ (reg_usePending ha _ _) fun _ _ _ ht => ht)
      · rfl
    · rfl

/-- While a job of the path runs, its registers alone follow it. -/
theorem showPath_running {h : Nat} {s : State} (hc : (path h s).cur.isSome) :
    RegsBut [rSQ_JOB h, rSQ_LB h] s (showPath h s) ∧ (showPath h s).paths = s.paths ∧ (showPath h s).sqs = s.sqs := by
  have he (t : State) (ht : t.paths = s.paths) : pathEmptied h t = t := by
    unfold pathEmptied
    exact if_pos (.inl (by rwa [path_of' _ _ _ ht]))
  unfold showPath
  dsimp only
  rw [he _ (by simp)]
  refine ⟨?_, rfl, rfl⟩
  exact regsBut_setF (regsBut_setF (regsBut_setF (regsBut_setB (regsBut_setF (regsBut_setB (regsBut_refl _ s) (by simp [fSQ_JOB_CUR_V]))
    (by simp [fSQ_JOB_CUR])) (by simp [fSQ_JOB_NEXT_V])) (by simp [fSQ_JOB_NEXT])) (by simp [fSQ_LB_BUFFERED])) (by simp [fSQ_LB_HALF])

/-! ### The release (R202, R221) -/

/-- A sequencer as a job's release leaves it (R202). -/
def takenSeq (x : Job) (j entry width : Nat) (tick : Word) (q : Seq) : Seq :=
  { q with core := releaseCore x j entry q.core.stk q.core, cr := List.replicate width 0, crIdx := none, crCol := none, crBad := false,
           t := x.start, lep := x.start - BitVec.ofNat 48 x.pitch, ranFrom := tick }

/-- What a release does once the sequencer has its job: the checkpoint, the view, the amplitude and the state. -/
def released (n h j : Nat) (c : Ckpt) (s : State) : State :=
  showPath h (setF (fSQ_LB_RDCOL h) 0 (setEngState (.sq n) 2 (modJob j (fun y => { y with sq := n })
    (latchAmp h (takeView h j (writeCkpt h c true s))))))

theorem paths_length {s : State} (hs : Sound s) : s.paths.length = 16 := by
  obtain ⟨_, _, _, _, _, _, _, h, _⟩ := hs.sizes
  exact h

/-- A release keeps the job of the path, its queue and the sequencers; ENTRY stays, and the sequencer is RUNNING. -/
theorem released_shows {n h j : Nat} {c : Ckpt} {s : State} (hs : Sound s) (hh : h < 16) (hc : (path h s).cur.isSome) :
    let t := released n h j c s
    engState (.sq n) t = 2 ∧ (path h t).cur = (path h s).cur ∧ (path h t).queue = (path h s).queue ∧ t.sqs = s.sqs ∧
      getF (fSQ_CTL_ENTRY h) t = getF (fSQ_CTL_ENTRY h) s := by
  have hlen : h < s.paths.length := paths_length hs ▸ hh
  let s1 := writeCkpt h c true s
  let s2 := modJob j (fun y => { y with sq := n }) (latchAmp h (takeView h j s1))
  let s3 := setF (fSQ_LB_RDCOL h) 0 (setEngState (.sq n) 2 s2)
  have kv : Kept 4294967297 s1 (takeView h j s1) := takeView_kept (Kept.refl _ s1) rfl
  have h2 : Sound s2 := (modJob_kept (m := 4429185601) (latchAmp_kept (takeView_kept (writeCkpt_kept (Kept.refl _ s) rfl) rfl) rfl) rfl).sound hs
  have hp3 : s3.paths = s1.paths := kv.same .paths (by decide)
  have hq3 : s3.sqs = s.sqs := kv.same .sqs (by decide)
  have hpath : path h s3 = { path h s with ckpts := (path h s).ckpts.set (1 - getF (fSQ_CKPT_SLOT h) s) c } :=
    (path_of' _ _ _ hp3).trans (path_set_same' hlen)
  have hcur : (path h s3).cur.isSome := by rw [hpath]; exact hc
  obtain ⟨hr, hp, hq⟩ := showPath_running hcur
  have hpt : path h (released n h j c s) = path h s3 := path_of' _ _ _ hp
  refine ⟨?_, ?_, ?_, hq.trans hq3, ?_⟩
  · have h1 : engState (.sq n) s3 = 2 := by
      refine (getF_setReg_other _ _ ?_).trans (engState_setEngState h2 (by decide))
      simp only [stateField, fSQ_STAT_STATE, fSQ_LB_RDCOL, rSQ_STAT, rSQ_LB]; omega
    refine Eq.trans (hr.getF ?_) h1
    simp only [stateField, fSQ_STAT_STATE, List.mem_cons, List.not_mem_nil, or_false, rSQ_STAT, rSQ_JOB, rSQ_LB]; omega
  · rw [hpt, hpath]
  · rw [hpt, hpath]
  · have hctl : (released n h j c s).reg (rSQ_CTL h) = s.reg (rSQ_CTL h) := by
      have h4 : s3.reg (rSQ_CTL h) = s2.reg (rSQ_CTL h) := by
        refine (reg_setReg_other _ _ ?_).trans (reg_setReg_other _ _ ?_)
        · simp only [fSQ_LB_RDCOL, rSQ_CTL, rSQ_LB]; omega
        · simp only [stateField, fSQ_STAT_STATE, rSQ_CTL, rSQ_STAT]; omega
      have h5 : s2.reg (rSQ_CTL h) = s1.reg (rSQ_CTL h) := reg_takeView (by intro k; simp only [rSQ_CTL, rHP_STAT]; omega) h j s1
      have h6 : s1.reg (rSQ_CTL h) = s.reg (rSQ_CTL h) := by
        have hne : rSQ_CTL h ≠ rSQ_CKPT h := by simp only [rSQ_CTL, rSQ_CKPT]; omega
        exact (reg_setReg_other _ _ hne).trans ((reg_setReg_other _ _ hne).trans (reg_setReg_other _ _ hne))
      refine (hr _ ?_).trans (h4.trans (h5.trans h6))
      simp only [List.mem_cons, List.not_mem_nil, or_false, rSQ_CTL, rSQ_JOB, rSQ_LB]; omega
    exact congrArg (fun w => wordGet w _ _) hctl

/-- A mark boundary that nothing keeps takes the earliest job of the path. -/
theorem markBoundary_takes {n h j : Nat} {rest : List Nat} {x : Job} {s : State} (hh : headOf n s = some h) (hst : engState (.sq n) s = 1)
    (hq : (path h s).queue = j :: rest) (hx : spFind s.sch.jobs j = some x) (hc : (path h s).cur = none) (ht : (path h s).takeover = none)
    (hg : (path h s).giving = false) (hcopy : (path h s).copying = false ∨ ((path h s).hoWait = false ∧ getF (fSQ_SHADOW_SEAL_SEAL h) s = 1)) :
    ∃ p c, p.cur = some j ∧ p.queue = rest ∧
      let s2 := setPath h p (handOver h s)
      markBoundary n s = released n h j c (setSeq n (takenSeq x j (getF (fSQ_CTL_ENTRY h) s2) (columnBytes h s2) (now s2) (seqOf n s2)) s2) := by
  have hj : job j s = some x := hx
  have hkeep : ¬ (engState (.sq n) s ≠ 1 ∨ (path h s).cur.isSome ∨ (path h s).takeover.isSome ∨ (path h s).giving ∨
      ((path h s).copying ∧ ((path h s).hoWait ∨ getB (fSQ_SHADOW_SEAL_SEAL h) s = false))) := by
    rw [hst, hc, ht, hg]
    obtain h0 | ⟨h1, h2⟩ := hcopy
    · simp [h0]
    · simp [h1, getB, h2]
  unfold markBoundary
  simp only [hh, hq, List.headD_cons, hj, if_neg hkeep]
  exact ⟨_, _, rfl, rfl, rfl⟩

/-- Settles O37: the sequencer is given its job before the checkpoint, the view and the path's registers, which leave it. -/
theorem jobRelease : Obligations.JobRelease := by
  intro n h j rest x s hs hn hh hlt hst hq hx hc ht hg hcopy c
  obtain ⟨p, ck, hcur, hqueue, hrun⟩ := markBoundary_takes hh hst hq hx hc ht hg hcopy
  dsimp only at hrun
  generalize hs2 : setPath h p (handOver h s) = s2 at hrun
  let q := takenSeq x j (getF (fSQ_CTL_ENTRY h) s2) (columnBytes h s2) (now s2) (seqOf n s2)
  have k : Kept 4442162017 s (handOver h s) := handOver_kept (Kept.refl _ s) rfl
  have h1 : Sound (handOver h s) := k.sound hs
  have h2 : Sound s2 := hs2 ▸ sound_setPath' h1
  have hsqs : s2.sqs = s.sqs := by rw [← hs2]; exact k.same .sqs (by decide)
  have hseq (m : Nat) : seqOf m s2 = seqOf m s := seq_of' _ _ m hsqs
  have hlen : n < s2.sqs.length := by rw [h2.sqs_length]; exact hn
  have hpath : path h (setSeq n q s2) = p := by
    rw [path_of' s2 (setSeq n q s2) h rfl, ← hs2]
    exact path_set_same' (by rw [paths_length h1]; exact hlt)
  obtain ⟨r1, r2, r3, r4, r5⟩ := released_shows (n := n) (j := j) (c := ck) (sound_setSeq' (n := n) (x := q) h2) hlt (by rw [hpath, hcur]; rfl)
  have hq' : seqOf n (released n h j ck (setSeq n q s2)) = q := (seq_of' _ _ n r4).trans (seq_set_same' hlen)
  have hcore : coreOf (.sq n) (released n h j ck (setSeq n q s2)) = q.core := congrArg Seq.core hq'
  have hold : (seqOf n s2).core = c := congrArg Seq.core (hseq n)
  refine gives_of_next (congrArg (Host.Outcome.next (φ := Fault) (ρ := Refusal)) hrun)
    ⟨r1, r2.trans (hpath ▸ hcur), r3.trans (hpath ▸ hqueue), ?_, ?_, ?_, ?_, ?_, ?_, ?_, ?_, ?_, fun m hm => ?_⟩
  · rw [hq']; rfl
  · rw [hq']; rfl
  · rw [hq']; exact fun b hb => List.eq_of_mem_replicate hb
  · rw [hcore, r5]; rfl
  · rw [hcore, ← hold]; rfl
  · rw [hcore, ← hold]; rfl
  · rw [hcore, ← hold]; rfl
  · rw [hcore]; rfl
  · rw [hcore, ← hold]; rfl
  · exact (seq_of' _ _ m r4).trans ((seq_set_other' hm).trans (hseq m))

end Sys2Proof.Machine

/-! SUPPORT. The head ports: the proofs of the statements about their settings, their alignment record, their replies and their test results
(R256, R262, R270, R275, R279). -/

namespace Sys2Proof.Machine

/-! ### Settings (R256, R262) -/

theorem persLegal_eq_false {h p : Nat} : persLegal h p = false ↔ 5 < p ∨ (p = 4 ∧ h < 12) := by
  simp only [persLegal, Bool.and_eq_false_iff, Bool.or_eq_false_iff, decide_eq_false_iff_not, not_le, not_not]

theorem exec_hpCfgWrite {h : Nat} (v : Nat) (s : State) (hh : h < 16) : exec (.hpCfgWrite h v) s = .next (hostAccess (hpCfgWrite h v) s) :=
  congrArg _ (if_pos hh)

theorem exec_wflenWrite {h b : Nat} (v : Nat) (s : State) (hh : h < 16) (hb : b < 8) :
    exec (.wflenWrite h b v) s = .next (hostAccess (wflenWrite h b v) s) :=
  congrArg _ (if_pos ⟨hh, hb⟩)

/-- Settles O39: the tests come before the write, and a test that fails sets its mark. -/
theorem headSettingsGuarded : Obligations.HeadSettingsGuarded := by
  intro h b v s hh hrun pers
  refine ⟨fun hbad => ?_, fun hb hsum => ?_⟩
  · have hbad' : engState (.sq h) s ≠ 0 ∨ persLegal h (fieldOf (fHP_CFG_PERS h) v) = false := hbad.imp id persLegal_eq_false.mpr
    exact (exec_hpCfgWrite v s hh).trans (congrArg _ (hostAccess_mark hrun (if_pos hbad')))
  · exact (exec_wflenWrite v s hh hb).trans (congrArg _ (hostAccess_mark hrun (if_pos hsum)))

/-! ### The alignment record (R275) -/

theorem getB_eq_false_iff_zero {f : Field} (hf : f.width = 1) (s : State) : getB f s = false ↔ getF f s = 0 := by
  have := getF_lt_two hf s
  rw [getB_eq_false_iff]
  omega

theorem ports_length {s : State} (hs : Sound s) : s.ports.length = 16 := by
  obtain ⟨_, _, _, _, _, _, _, _, h, _⟩ := hs.sizes
  exact h

theorem port_mod_same {h : Nat} {f : Port → Port} {s : State} (hs : Sound s) (hh : h < 16) : portOf h (modPort h f s) = f (portOf h s) :=
  port_set_same' (by rw [ports_length hs]; exact hh)

theorem port_mod_other {h k : Nat} {f : Port → Port} {s : State} (hk : k ≠ h) : portOf k (modPort h f s) = portOf k s := port_set_other' hk

theorem exec_alignStore {h : Nat} (s : State) (hh : h < 16) : exec (.alignStore h) s = .next (hostAccess (alignStore h) s) := congrArg _ (if_pos hh)

/-- The record that STORE writes: the serial that the port holds or reads, and the values of the shadow bank. -/
def alignRecord (h : Nat) (s : State) : AlignRec :=
  { serial := if getB (fHP_CFG_ID_REQ h) s then recordSerial h s else (portOf h s).serial.getD []
    x := getShadowF (fHP_ALIGN_ALIGN_X h) s, y := getShadowF (fHP_ALIGN_ALIGN_Y h) s }

theorem alignStore_busy {h : Nat} {s : State} (hb : (portOf h s).storing ≠ none) : alignStore h s = setF (fHP_ALIGN_CMD_RESULT h) 1 s :=
  if_pos (Option.isSome_iff_ne_none.mpr hb)

theorem alignStore_absent {h : Nat} {s : State} (hb : (portOf h s).storing = none) (hid : getB (fHP_CFG_ID_REQ h) s = true)
    (hp : getB (fHP_STAT_PRESENT h) s = false) : alignStore h s = setF (fHP_ALIGN_CMD_RESULT h) 3 s := by
  unfold alignStore
  rw [if_neg (by simp [hb]), if_pos ⟨hid, hp⟩]

theorem alignStore_stores {h : Nat} {s : State} (hb : (portOf h s).storing = none)
    (hid : ¬ (getB (fHP_CFG_ID_REQ h) s = true ∧ getB (fHP_STAT_PRESENT h) s = false)) :
    alignStore h s = setB (fHP_ALIGN_CMD_BUSY h) true (modPort h (fun p => { p with storing := some (signAlign h (alignRecord h s) s) }) s) := by
  unfold alignStore
  rw [if_neg (by simp [hb]), if_neg hid]
  rfl

/-- The record's own port and its result, after its write. -/
def stored (h result : Nat) (s : State) : State :=
  setB (fHP_ALIGN_CMD_BUSY h) false (setF (fHP_ALIGN_CMD_RESULT h) result (modPort h (fun p => { p with storing := none }) s))

theorem stored_shows {h result : Nat} {s : State} (hs : Sound s) (hh : h < 16) :
    let t := stored h result s
    Sound t ∧ getF (fHP_ALIGN_CMD_BUSY h) t = 0 ∧ getF (fHP_ALIGN_CMD_RESULT h) t = result % 4 ∧ RegsBut [rHP_ALIGN_CMD h] s t ∧
      portOf h t = { portOf h s with storing := none } ∧ ∀ k, k ≠ h → portOf k t = portOf k s := by
  have h0 : Sound (modPort h (fun p => { p with storing := none }) s) := sound_setPort' hs
  have h1 : Sound (setF (fHP_ALIGN_CMD_RESULT h) result (modPort h (fun p => { p with storing := none }) s)) := sound_setF h0 _ _
  refine ⟨sound_setB h1 _ _, getF_setB_same h1 false (by simp [fHP_ALIGN_CMD_BUSY]) rfl, ?_, ?_,
    port_mod_same (f := fun p => { p with storing := none }) hs hh, fun k hk => port_mod_other (f := fun p => { p with storing := none }) hk⟩
  · refine (getF_setB_other h1 false (by simp [fHP_ALIGN_CMD_BUSY]) (.inr (.inl (by simp [fHP_ALIGN_CMD_BUSY, fHP_ALIGN_CMD_RESULT])))).trans ?_
    exact getF_setF_same h0 _ (by simp [fHP_ALIGN_CMD_RESULT])
  · exact regsBut_setB (regsBut_setF (regsBut_refl _ s) List.mem_cons_self) List.mem_cons_self

/-- The port holds the record that was written, which is not stale. -/
def recordHeld (h : Nat) (r : AlignRec) (s : State) : State :=
  setB (fHP_STAT_ALIGN_STALE h) false (modPort h (fun p => { p with stored := some r, serial := some r.serial }) s)

theorem recordHeld_shows {h : Nat} {r : AlignRec} {s : State} (hs : Sound s) (hh : h < 16) :
    let t := recordHeld h r s
    Sound t ∧ getF (fHP_STAT_ALIGN_STALE h) t = 0 ∧ RegsBut [rHP_STAT h] s t ∧
      portOf h t = { portOf h s with stored := some r, serial := some r.serial } ∧ ∀ k, k ≠ h → portOf k t = portOf k s := by
  let f (p : Port) : Port := { p with stored := some r, serial := some r.serial }
  have h0 : Sound (modPort h f s) := sound_setPort' hs
  exact ⟨sound_setB h0 _ _, getF_setB_same h0 false (by simp [fHP_STAT_ALIGN_STALE]) rfl, regsBut_setB (regsBut_refl _ s) List.mem_cons_self,
    port_mod_same (f := f) hs hh, fun k hk => port_mod_other (f := f) hk⟩

theorem alignStoreDone_fails {h : Nat} {s : State} {r : AlignRec} (hr : (portOf h s).storing = some r) :
    alignStoreDone h false s = flashFault (stored h 2 s) := by
  unfold alignStoreDone
  rw [hr]
  rfl

theorem alignStoreDone_ends {h : Nat} {s : State} {r : AlignRec} (hr : (portOf h s).storing = some r) :
    alignStoreDone h true s = recordHeld h r (stored h 0 s) := by
  unfold alignStoreDone
  rw [hr]
  rfl

theorem exec_alignStoreDone {h : Nat} (ok : Bool) (s : State) (hh : h < 16) : exec (.alignStoreDone h ok) s = .next (alignStoreDone h ok s) :=
  congrArg _ (if_pos hh)

theorem flashFault_regsBut (s : State) : RegsBut faultRegs s (flashFault s) :=
  raiseSimple_regs (o := s) (s := (drawFree s).2) (fun _ _ => rfl) fun _ h => h

/-- Settles O40: the refusals in order, then the record that is taken; the write's end by its success. -/
theorem alignmentStoring : Obligations.AlignmentStoring := by
  intro h s hh hs idReq absent
  have hid : idReq ↔ getB (fHP_CFG_ID_REQ h) s = true := (getB_iff _ s).symm
  have hab : absent ↔ getB (fHP_STAT_PRESENT h) s = false := (getB_eq_false_iff_zero rfl s).symm
  refine ⟨fun hrun hb => ?_, fun hrun hb h1 h2 => ?_, fun hrun hb h1 => ?_, fun r hr => ?_, fun r hr => ?_⟩
  · exact (exec_alignStore s hh).trans (congrArg _ (hostAccess_field hrun (alignStore_busy hb)))
  · exact (exec_alignStore s hh).trans (congrArg _ (hostAccess_field hrun (alignStore_absent hb (hid.mp h1) (hab.mp h2))))
  · rw [hid, hab] at h1
    have h0 : Sound (modPort h (fun p => { p with storing := some (signAlign h (alignRecord h s) s) }) s) := sound_setPort' hs
    refine gives_of_access hrun (exec_alignStore s hh) (alignStore_stores hb h1) ⟨?_, ?_,
      fun k hk => port_mod_other (f := fun p => { p with storing := some (signAlign h (alignRecord h s) s) }) hk, ?_⟩
    · exact getF_setB_same h0 true (by simp [fHP_ALIGN_CMD_BUSY]) rfl
    · exact fun a ha => (regsBut_setB (regsBut_refl [rHP_ALIGN_CMD h] s) List.mem_cons_self : RegsBut _ s _) a ha
    · exact ⟨signAlign h (alignRecord h s) s,
        port_mod_same (f := fun p => { p with storing := some (signAlign h (alignRecord h s) s) }) hs hh, rfl, rfl, rfl⟩
  · obtain ⟨h1, hbusy, hres, -, hport, hother⟩ := stored_shows (result := 2) hs hh
    have k : Kept 5636097 (stored h 2 s) (flashFault (stored h 2 s)) := flashFault_kept (Kept.refl _ _) rfl
    have hr0 : ∀ i, i < 16 → rHP_ALIGN_CMD i ∉ faultRegs := by decide
    have hf := flashFault_regsBut (stored h 2 s)
    refine gives_of_next ((exec_alignStoreDone false s hh).trans (congrArg _ (alignStoreDone_fails hr))) ⟨?_, ?_, ?_, fun i hi => ?_⟩
    · exact (hf.getF (hr0 h hh)).trans hbusy
    · exact (hf.getF (hr0 h hh)).trans hres
    · exact (port_of' _ _ h (k.same .ports (by decide))).trans hport
    · exact (port_of' _ _ i (k.same .ports (by decide))).trans (hother i hi)
  · obtain ⟨h1, hbusy, hres, hregs, hport, hother⟩ := stored_shows (result := 0) hs hh
    obtain ⟨ht, hstale, hregs', hport', hother'⟩ := recordHeld_shows (r := r) h1 hh
    have hne : rHP_ALIGN_CMD h ∉ [rHP_STAT h] := by simp only [List.mem_singleton, rHP_ALIGN_CMD, rHP_STAT]; omega
    refine gives_of_next ((exec_alignStoreDone true s hh).trans (congrArg _ (alignStoreDone_ends hr)))
      ⟨?_, ?_, hstale, hport'.trans (by rw [hport]), ?_, fun i hi => (hother' i hi).trans (hother i hi)⟩
    · exact (hregs'.getF hne).trans hbusy
    · exact (hregs'.getF hne).trans hres
    · exact RegsBut.trans hregs hregs'

/-! ### Replies and test results (R270, R279) -/

theorem exec_tempPoll {h : Nat} (reply : List Byte) (s : State) (hh : h < 16) : exec (.tempPoll h reply) s = .next (tempPoll h reply s) :=
  congrArg _ (if_pos hh)

theorem replyGood_eq_false {h : Nat} {l : List Byte} {s : State} (hl : l.length ≠ 5 ∨ leAt l 4 1 ≠ crc8 (l.take 4)) : replyGood h l s = false := by
  unfold replyGood
  obtain h1 | h1 := hl <;> simp [h1]

theorem tempPoll_unpolled {h : Nat} {reply : List Byte} {s : State} (hp : getB (fHP_STAT_PRESENT h) s = false ∨ getB (fHP_CFG_ID_REQ h) s = false) :
    tempPoll h reply s = s := if_pos hp

theorem tempPoll_fails {h : Nat} {reply : List Byte} {s : State} (hp : ¬ (getB (fHP_STAT_PRESENT h) s = false ∨ getB (fHP_CFG_ID_REQ h) s = false))
    (hl : reply.length ≠ 5 ∨ leAt reply 4 1 ≠ crc8 (reply.take 4)) (hf : getF (fHP_STAT_FAILS h) s < 2) :
    tempPoll h reply s = setF (fHP_STAT_FAILS h) (getF (fHP_STAT_FAILS h) s + 1) { s with sent := s.sent ++ [.spi h [0x0A#8]] } := by
  unfold tempPoll
  dsimp only
  rw [if_neg hp, replyGood_eq_false hl, if_neg (by simp), if_neg (by exact Nat.not_le.mpr hf)]
  rfl

/-- TESTRES shows the oldest result and the count. -/
theorem showResults_shows {h : Nat} {s : State} {y : Nat × Nat × Nat} {l : List (Nat × Nat × Nat)} (hs : Sound s) (hq : (portOf h s).testQ = y :: l) :
    let t := showResults h s
    getF (fHP_TESTRES_DEPTH h) t = (l.length + 1) % 32 ∧ getF (fHP_TESTRES_ELEMENT h) t = y.1 % 4096 ∧
      getF (fHP_TESTRES_RESULT h) t = y.2.1 % 4 ∧ getF (fHP_TESTRES_T_A h) t = y.2.2 % 4096 ∧ RegsBut [rHP_TESTRES h] s t ∧ t.ports = s.ports := by
  let s1 := setF (fHP_TESTRES_T_A h) y.2.2 s
  let s2 := setF (fHP_TESTRES_RESULT h) y.2.1 s1
  let s3 := setF (fHP_TESTRES_ELEMENT h) y.1 s2
  have h1 : Sound s1 := sound_setF hs _ _
  have h2 : Sound s2 := sound_setF h1 _ _
  have h3 : Sound s3 := sound_setF h2 _ _
  have ht : showResults h s = setF (fHP_TESTRES_DEPTH h) (l.length + 1) s3 := by
    unfold showResults
    dsimp only
    rw [hq]
    rfl
  dsimp only
  rw [ht]
  refine ⟨getF_setF_same h3 _ (by simp [fHP_TESTRES_DEPTH]), ?_, ?_, ?_, ?_, rfl⟩
  · refine (getF_setF_other h3 _ (by simp [fHP_TESTRES_DEPTH]) (.inr (.inl (by simp [fHP_TESTRES_DEPTH, fHP_TESTRES_ELEMENT])))).trans ?_
    exact getF_setF_same h2 _ (by simp [fHP_TESTRES_ELEMENT])
  · refine (getF_setF_other h3 _ (by simp [fHP_TESTRES_DEPTH]) (.inr (.inl (by simp [fHP_TESTRES_DEPTH, fHP_TESTRES_RESULT])))).trans ?_
    refine (getF_setF_other h2 _ (by simp [fHP_TESTRES_ELEMENT]) (.inr (.inr (by simp [fHP_TESTRES_ELEMENT, fHP_TESTRES_RESULT])))).trans ?_
    exact getF_setF_same h1 _ (by simp [fHP_TESTRES_RESULT])
  · refine (getF_setF_other h3 _ (by simp [fHP_TESTRES_DEPTH]) (.inr (.inl (by simp [fHP_TESTRES_DEPTH, fHP_TESTRES_T_A])))).trans ?_
    refine (getF_setF_other h2 _ (by simp [fHP_TESTRES_ELEMENT]) (.inr (.inr (by simp [fHP_TESTRES_ELEMENT, fHP_TESTRES_T_A])))).trans ?_
    refine (getF_setF_other h1 _ (by simp [fHP_TESTRES_RESULT]) (.inr (.inr (by simp [fHP_TESTRES_RESULT, fHP_TESTRES_T_A])))).trans ?_
    exact getF_setF_same hs _ (by simp [fHP_TESTRES_T_A])
  · exact regsBut_setF (regsBut_setF (regsBut_setF (regsBut_setF (regsBut_refl _ s) List.mem_cons_self) List.mem_cons_self) List.mem_cons_self)
      List.mem_cons_self

theorem testresWrite_pops (h : Nat) (s : State) :
    testresWrite h (2 ^ 32) s = showResults h (modPort h (fun p => { p with testQ := p.testQ.drop 1 }) (plainWrite (rHP_TESTRES h) (2 ^ 32) s)) :=
  if_pos (by norm_num [fieldOf, fHP_TESTRES_POP])

theorem exec_testresPop {h : Nat} (s : State) (hh : h < 16) : exec (.testresPop h) s = .next (testresWrite h (2 ^ 32) s) := congrArg _ (if_pos hh)

/-- Settles O41: a head that is not polled, a reply that fails, and the queue without its first result. -/
theorem headReplies : Obligations.HeadReplies := by
  intro h reply s hh hs polled
  have hpoll : polled ↔ ¬ (getB (fHP_STAT_PRESENT h) s = false ∨ getB (fHP_CFG_ID_REQ h) s = false) := by
    rw [not_or, Bool.not_eq_false, Bool.not_eq_false, getB_iff, getB_iff]
  refine ⟨fun hp => ?_, fun hp hl hf => ?_, fun x y l hq hl => ?_⟩
  · rw [hpoll, not_not] at hp
    exact (exec_tempPoll reply s hh).trans (congrArg _ (tempPoll_unpolled hp))
  · exact (exec_tempPoll reply s hh).trans (congrArg _ (tempPoll_fails (hpoll.mp hp) hl hf))
  · let s0 := plainWrite (rHP_TESTRES h) (2 ^ 32) s
    let s1 := modPort h (fun p => { p with testQ := p.testQ.drop 1 }) s0
    have h0 : Sound s0 := plainWrite_sound hs _ _
    have hp0 : s0.ports = s.ports := plainWrite_parts _ _ .ports (by decide) (by decide)
    have hport : portOf h s1 = { portOf h s with testQ := y :: l } := by
      rw [port_mod_same h0 hh, port_of' _ _ h hp0, hq]
      rfl
    obtain ⟨hd, he, hres, ht, hr, hp⟩ := showResults_shows (h := h) (s := s1) (y := y) (l := l) (sound_setPort' h0) (by rw [hport])
    refine gives_of_next ((exec_testresPop s hh).trans (congrArg _ (testresWrite_pops h s)))
      ⟨(port_of' _ _ h hp).trans hport, fun k hk => ?_, ?_, he, hres, ht, ?_⟩
    · exact (port_of' _ _ k hp).trans ((port_mod_other hk).trans (port_of' _ _ k hp0))
    · rw [hd]; omega
    · exact regsBut_trans (plainWrite_regsBut (regsBut_refl _ s) List.mem_cons_self) fun a ha => hr a ha

end Sys2Proof.Machine

/-! SUPPORT. The raster lasers: the proof of the statement about the index edge and the edges that change nothing (R292, R296, R299). -/

namespace Sys2Proof.Machine

/-! ### What follows a channel's state -/

/-- The fields of the channel's status but ENABLE and GATE. -/
def BesideGate (h : Nat) (f : Field) : Prop := f.reg = rHP_LSR_STAT h ∧ (f.lo + f.width ≤ 2 ∨ 4 ≤ f.lo)

/-- A port with ENABLE and GATE as given, and the time since which laser enable stands. -/
def gated (h : Nat) (a b : Bool) (x : Option Word) (s : State) : State :=
  let s1 := setB (fHP_LSR_STAT_GATE h) a (setB (fHP_LSR_STAT_ENABLE h) b s)
  setPort h { portOf h s1 with laser := { (portOf h s1).laser with enSince := x } } s1

theorem showGate_cases (h : Nat) (s : State) : ∃ a b x, showGate h s = gated h a b x s ∨ ∃ p, showGate h s = setPath h p (gated h a b x s) := by
  unfold showGate
  dsimp only
  split
  · exact ⟨_, _, _, .inl rfl⟩
  · exact ⟨_, _, _, .inr ⟨_, rfl⟩⟩

theorem getF_gated {h : Nat} {a b : Bool} {x : Option Word} {f : Field} {s : State} (hs : Sound s) (hf : BesideGate h f) :
    getF f (gated h a b x s) = getF f s := by
  obtain ⟨-, hf⟩ := hf
  unfold gated
  dsimp only
  rw [getF_setPort']
  refine (getF_setB_other (sound_setB hs _ _) a (by simp [fHP_LSR_STAT_GATE]) ?_).trans
    (getF_setB_other hs b (by simp [fHP_LSR_STAT_ENABLE]) ?_)
  · simp only [fHP_LSR_STAT_GATE]; omega
  · simp only [fHP_LSR_STAT_ENABLE]; omega

theorem getF_showGate {h : Nat} {f : Field} {s : State} (hs : Sound s) (hf : BesideGate h f) : getF f (showGate h s) = getF f s := by
  obtain ⟨a, b, x, he | ⟨p, he⟩⟩ := showGate_cases h s
  · rw [he, getF_gated hs hf]
  · rw [he, getF_setPath', getF_gated hs hf]

theorem gated_laser {h : Nat} {a b : Bool} {x : Option Word} {s : State} (hs : Sound s) (hh : h < 16) :
    (portOf h (gated h a b x s)).laser = { (portOf h s).laser with enSince := x } := by
  have hlen : h < (setB (fHP_LSR_STAT_GATE h) a (setB (fHP_LSR_STAT_ENABLE h) b s)).ports.length := by
    show h < s.ports.length
    rw [ports_length hs]; exact hh
  unfold gated
  dsimp only
  rw [port_set_same' hlen]
  rfl

theorem showGate_laser {h : Nat} {s : State} (hs : Sound s) (hh : h < 16) :
    ∃ x, (portOf h (showGate h s)).laser = { (portOf h s).laser with enSince := x } := by
  obtain ⟨a, b, x, he | ⟨p, he⟩⟩ := showGate_cases h s
  · exact ⟨x, by rw [he, gated_laser hs hh]⟩
  · exact ⟨x, by rw [he, port_of' (gated h a b x s) (setPath h p (gated h a b x s)) h rfl, gated_laser hs hh]⟩

theorem getF_showLaser {h : Nat} {f : Field} {s : State} (hs : Sound s) (hf : BesideGate h f) : getF f (showLaser h s) = getF f s := by
  have hreg := hf.1
  refine Eq.trans ?_ (getF_showGate hs hf)
  refine (getF_setReg_other _ _ ?_).trans ((refreshHead_regsBut h _).getF ?_)
  · rw [hreg]; simp only [fSCH_HEAD_STAT_F_LIM, rHP_LSR_STAT, rSCH_HEAD_STAT]; omega
  · rw [hreg]; simp only [List.mem_cons, List.not_mem_nil, or_false, rHP_LSR_STAT, rSCH_HEAD_STAT, rHP_STAT]; omega

theorem showLaser_laser {h : Nat} {s : State} (hs : Sound s) (hh : h < 16) :
    ∃ x, (portOf h (showLaser h s)).laser = { (portOf h s).laser with enSince := x } := by
  obtain ⟨x, hx⟩ := showGate_laser hs hh
  have k : Kept 1 (showGate h s) (showLaser h s) := showLimit_kept (refreshHead_kept (Kept.refl _ _) rfl) rfl
  exact ⟨x, by rw [port_of' _ _ h (k.same .ports (by decide)), hx]⟩

/-! ### A loss and the acquisition that follows (R296, R299) -/

theorem startAcquisition_shows {h : Nat} {s : State} (hs : Sound s) (hh : h < 16) :
    let t := startAcquisition h s
    getF (fHP_LSR_STAT_STATE h) t = 1 ∧ getF (fHP_LSR_STAT_ACQ_FACETS h) t = 0 ∧
      (∀ f, f.reg = rHP_LSR_STAT h → 4 ≤ f.lo → f.lo + f.width ≤ 15 → getF f t = getF f s) ∧
      (portOf h t).laser.edges = 0 ∧ (portOf h t).laser.pend = (portOf h s).laser.pend := by
  let f (l : Laser) : Laser := { l with edges := 0, sum := 0, cnt := 0, steady := true, taps := 0, idxSeen := false, lastBd := none, winFail := false }
  let s1 := modLaser h f s
  let s2 := setF (fHP_LSR_STAT_STATE h) 1 s1
  let s3 := setF (fHP_LSR_STAT_ACQ_FACETS h) 0 s2
  let s4 := incSat (fHP_LSR_CNT_ACQUISITIONS h) s3
  have h1 : Sound s1 := sound_setPort' hs
  have h2 : Sound s2 := sound_setF h1 _ _
  have h3 : Sound s3 := sound_setF h2 _ _
  have h4 : Sound s4 := sound_incSat h3 _
  have hcnt (g : Field) (hg : g.reg = rHP_LSR_STAT h) : getF g s4 = getF g s3 := by
    refine getF_setReg_other _ _ ?_
    rw [hg]; simp only [fHP_LSR_CNT_ACQUISITIONS, rHP_LSR_STAT, rHP_LSR_CNT]; omega
  have hp : (portOf h s4).laser = f (portOf h s).laser := congrArg Port.laser (port_mod_same (f := fun p => { p with laser := f p.laser }) hs hh)
  obtain ⟨x, hx⟩ := showLaser_laser h4 hh
  have ht : startAcquisition h s = showLaser h s4 := rfl
  dsimp only
  rw [ht]
  refine ⟨?_, ?_, fun g hg hlo hhi => ?_, ?_, ?_⟩
  · rw [getF_showLaser h4 ⟨rfl, .inl (by simp [fHP_LSR_STAT_STATE])⟩, hcnt _ rfl]
    refine (getF_setF_other h2 0 (by simp [fHP_LSR_STAT_ACQ_FACETS]) (.inr (.inl (by simp [fHP_LSR_STAT_ACQ_FACETS, fHP_LSR_STAT_STATE])))).trans ?_
    exact getF_setF_same h1 1 (by simp [fHP_LSR_STAT_STATE])
  · rw [getF_showLaser h4 ⟨rfl, .inr (by simp [fHP_LSR_STAT_ACQ_FACETS])⟩, hcnt _ rfl]
    exact getF_setF_same h2 0 (by simp [fHP_LSR_STAT_ACQ_FACETS])
  · rw [getF_showLaser h4 ⟨hg, .inr hlo⟩, hcnt _ hg]
    refine (getF_setF_other h2 0 (by simp [fHP_LSR_STAT_ACQ_FACETS]) (.inr (.inl ?_))).trans
      (getF_setF_other h1 1 (by simp [fHP_LSR_STAT_STATE]) (.inr (.inr ?_)))
    · simpa [fHP_LSR_STAT_ACQ_FACETS] using hhi
    · simp only [fHP_LSR_STAT_STATE]; omega
  · rw [hx, hp]
  · rw [hx, hp]

/-- The lines in hand are dropped: none is left in PENDING. -/
theorem dropLines_pend {h : Nat} {s : State} (hs : Sound s) (hh : h < 16) : (portOf h (dropLines h s)).laser.pend = none := by
  let f (p : Port) : Port := { p with laser := { p.laser with pend := none, writing := none } }
  have hp : (portOf h (modPort h f s)).laser.pend = none := by rw [port_mod_same hs hh]
  have k : Kept 8389185 (modPort h f s) (dropLines h s) := cutLine_kept (dropLine_kept (dropLine_kept (Kept.refl _ _) rfl) rfl) rfl
  rw [port_of' _ _ h (k.same .ports (by decide)), hp]

/-- A loss at an index edge: its two bits are set and no line is left. -/
theorem laserLoss_shows {h : Nat} {s : State} (hs : Sound s) (hh : h < 16) :
    let t := laserLoss h [fHP_LSR_STAT_IDX_ERR h, fHP_LSR_STAT_BD_LOSS h] s
    Sound t ∧ getF (fHP_LSR_STAT_IDX_ERR h) t = 1 ∧ getF (fHP_LSR_STAT_BD_LOSS h) t = 1 ∧ (portOf h t).laser.pend = none := by
  let s0 := dropLines h s
  let s1 := setB (fHP_LSR_STAT_IDX_ERR h) true s0
  let s2 := setB (fHP_LSR_STAT_BD_LOSS h) true s1
  have h0 : Sound s0 := (dropLines_kept (m := 4303356481) (Kept.refl _ s) rfl).sound hs
  have h1 : Sound s1 := sound_setB h0 _ _
  have h2 : Sound s2 := sound_setB h1 _ _
  have ht : ∃ cls, laserLoss h [fHP_LSR_STAT_IDX_ERR h, fHP_LSR_STAT_BD_LOSS h] s = raiseSimple srcHeadPort cls false h s2 := ⟨_, rfl⟩
  obtain ⟨cls, ht⟩ := ht
  have hout : ∀ i, i < 16 → rHP_LSR_STAT i ∉ faultRegs := by decide
  have hr : RegsBut faultRegs s2 (raiseSimple srcHeadPort cls false h s2) := raiseSimple_regs (regsBut_refl _ _) fun _ h => h
  have k : Kept 4587521 s2 (raiseSimple srcHeadPort cls false h s2) := raiseSimple_kept (Kept.refl _ s2) rfl
  dsimp only
  rw [ht]
  refine ⟨k.sound h2, ?_, ?_, ?_⟩
  · refine (hr.getF (hout h hh)).trans ((getF_setB_other h1 true (by simp [fHP_LSR_STAT_BD_LOSS]) (.inr (.inr ?_))).trans ?_)
    · simp [fHP_LSR_STAT_BD_LOSS, fHP_LSR_STAT_IDX_ERR]
    · exact getF_setB_same h0 true (by simp [fHP_LSR_STAT_IDX_ERR]) rfl
  · exact (hr.getF (hout h hh)).trans (getF_setB_same h1 true (by simp [fHP_LSR_STAT_BD_LOSS]) rfl)
  · rw [port_of' _ _ h (k.same .ports (by decide))]
    exact dropLines_pend hs hh

/-! ### The edges -/

theorem isLaser_iff {h : Nat} {s : State} : isLaser h s = true ↔ 12 ≤ h ∧ h < 16 ∧ getF (fHP_CFG_PERS h) s = 4 := by
  simp only [isLaser, Bool.and_eq_true, decide_eq_true_eq, and_assoc]
  rfl

/-- An index edge away from facet 0 on a LOCKED channel (R299). -/
def wrongIndex (h : Nat) (s : State) : Bool :=
  decide (laserState h s = 2) && getB (fHP_DLL_CFG_IDX_EN h) s &&
    decide ((getF (fHP_LSR_STAT_FACET h) s + 1) % max 1 (getF (fHP_DLL_CFG_NFACET h) s) ≠ 0)

/-- The channel has seen its index edge. -/
def markIndex (h : Nat) (s : State) : State := modLaser h (fun l => { l with idxSeen := true, idxNow := true }) s

theorem idxEdge_laser {h : Nat} {s : State} (hl : isLaser h s = true) :
    idxEdge h s = markIndex h (if wrongIndex h s then loseLock h [fHP_LSR_STAT_IDX_ERR h, fHP_LSR_STAT_BD_LOSS h] s else s) :=
  if_neg (by simp [hl])

theorem enWaitElapsed_noLaser {h : Nat} {s : State} (hl : isLaser h s = false) : execEnWaitElapsed h s = .next s := by
  unfold execEnWaitElapsed
  split
  · rw [if_neg (by simp [hl])]
  · rfl

/-- Settles O42: the edge marks the index, after the loss where it comes at another facet. -/
theorem laserIndex : Obligations.LaserIndex := by
  intro h phase tap s hs laser wrong
  have hlaser : laser ↔ isLaser h s = true := isLaser_iff.symm
  have hwrong : wrong ↔ wrongIndex h s = true := by
    simp only [wrongIndex, Bool.and_eq_true, decide_eq_true_eq, getB_iff, and_assoc]
    rfl
  refine ⟨fun hl => ?_, fun hl hw => ?_, fun hl hw => ?_, fun ht => congrArg _ (if_pos (.inr ht))⟩
  · rw [hlaser, Bool.not_eq_true] at hl
    exact ⟨congrArg _ (if_pos hl), congrArg _ (if_pos (.inl hl)), congrArg _ (if_neg (by simp [hl])), enWaitElapsed_noLaser hl⟩
  · rw [hwrong] at hw
    have he : exec (.idxEdge h) s = .next (markIndex h s) := congrArg _ ((idxEdge_laser (hlaser.mp hl)).trans (by rw [if_neg hw]))
    exact gives_of_next he ⟨regsBut_refl _ _, fun k hk => port_mod_other hk, port_mod_same hs hl.2.1⟩
  · have hh : h < 16 := hl.2.1
    have he : exec (.idxEdge h) s = .next (markIndex h (loseLock h [fHP_LSR_STAT_IDX_ERR h, fHP_LSR_STAT_BD_LOSS h] s)) :=
      congrArg _ ((idxEdge_laser (hlaser.mp hl)).trans (by rw [if_pos (hwrong.mp hw)]))
    obtain ⟨h1, hidx, hbd, hpend⟩ := laserLoss_shows hs hh
    obtain ⟨hstate, hacq, hkeep, hedges, hpend'⟩ := startAcquisition_shows h1 hh
    have h2 : Sound (loseLock h [fHP_LSR_STAT_IDX_ERR h, fHP_LSR_STAT_BD_LOSS h] s) := (startAcquisition_kept (m := 4429185025) (Kept.refl _ _) rfl).sound h1
    generalize hu : loseLock h [fHP_LSR_STAT_IDX_ERR h, fHP_LSR_STAT_BD_LOSS h] s = u at h2 he
    unfold loseLock at hu
    rw [hu] at hstate hacq hkeep hedges hpend'
    have hmark : (portOf h (markIndex h u)).laser = { (portOf h u).laser with idxSeen := true, idxNow := true } :=
      congrArg Port.laser (port_mod_same (f := fun p => { p with laser := { p.laser with idxSeen := true, idxNow := true } }) h2 hh)
    refine gives_of_next he ⟨hstate, (hkeep _ rfl ?_ ?_).trans hidx, (hkeep _ rfl ?_ ?_).trans hbd, hacq, ?_, ?_, ?_⟩
    · simp [fHP_LSR_STAT_IDX_ERR]
    · simp [fHP_LSR_STAT_IDX_ERR]
    · simp [fHP_LSR_STAT_BD_LOSS]
    · simp [fHP_LSR_STAT_BD_LOSS]
    · rw [hmark]; exact hedges
    · rw [hmark]
    · rw [hmark]; exact hpend'.trans hpend

end Sys2Proof.Machine

/-! SUPPORT. The control engines: the proofs of the statements about their safety, their budget, their generators' commands and their settings
(R211, R308, R309, R314 to R316, R321). -/

namespace Sys2Proof.Machine

/-! ### What a command answers -/

theorem next_congr {s t : State} (h : s = t) : (.next s : Host.Outcome State Fault Refusal) = .next t := congrArg _ h

theorem Gives.mono {c : Instr} {s : State} {l m : List Part} {Q : State → Prop} (h : Gives c s l Q) (hl : ∀ p ∈ l, p ∈ m) : Gives c s m Q := by
  obtain ⟨t, ht, hp, ho, hq⟩ := h
  exact ⟨t, ht, hp, fun p hpm => ho p (fun hpl => hpm (hl p hpl)), hq⟩

/-! ### The state of one control engine -/

theorem ctl_mod_same {n : Nat} {f : Ctl → Ctl} {s : State} (hs : Sound s) (hn : n < 8) : ctlOf n (modCtl n f s) = f (ctlOf n s) :=
  ctl_set_same' (by rw [hs.ces_length]; exact hn)

theorem ctl_mod_other {n k : Nat} {f : Ctl → Ctl} {s : State} (hk : k ≠ n) : ctlOf k (modCtl n f s) = ctlOf k s := ctl_set_other' hk

theorem CoreBecomes.ctl {n : Nat} {c : Core} {s t : State} (k : CoreBecomes (.ce n) c s t) (hs : Sound s) (hn : n < 8) :
    ctlOf n t = { ctlOf n s with core := c } := by
  rw [k.1]
  exact ctl_set_same' (by rw [hs.ces_length]; exact hn)

/-! ### FORCE_SAFE and CLEAR_SAFE (R315, R316) -/

theorem mem_fbInputs {n i : Nat} {s : State} : i ∈ fbInputs n s ↔ i < 8 ∧ getF (fCE_XCFG_FB n i) s = 1 := by
  simp [fbInputs, getB_iff]

theorem causePersists_iff {n : Nat} {s : State} : causePersists n s = true ↔
    (getF (fCE_STAT_SAFE_CAUSE n) s = 1 ∧ ∃ i, i < 8 ∧ getF (fCE_XCFG_FB n i) s = 1 ∧ (getF (fCE_FB_ACTIVE n) s).testBit i = true) ∨
      (getF (fCE_STAT_SAFE_CAUSE n) s = 2 ∧ (ctlOf n s).overran = true) ∨ (getF (fCE_STAT_SAFE_CAUSE n) s = 3 ∧ engState (.ce n) s = 3) := by
  unfold causePersists
  split
  · next h => simp [h, mem_fbInputs, and_assoc]
  · next h => simp [h]
  · next h => simp [h]
  · next h1 h2 h3 =>
    refine iff_of_false (by decide) ?_
    rintro (⟨h, -⟩ | ⟨h, -⟩ | ⟨h, -⟩)
    · exact h1 h
    · exact h2 h
    · exact h3 h

theorem forceSafe_safe {n : Nat} {s : State} (hn : n < 8) (h : getF (fCE_STAT_MODE n) s = 2) :
    forceSafe n s = incSat (fCE_CNT_CAUSES_IN_SAFE n) s := by
  rw [forceSafe, if_pos hn, safeCause, if_pos h]

theorem forceSafe_due {n : Nat} {s : State} (hn : n < 8) (h : getF (fCE_STAT_MODE n) s ≠ 2) :
    forceSafe n s = modCtl n (fun x => if x.safeDue = 0 ∨ 4 < x.safeDue then { x with safeDue := 4 } else x) s := by
  rw [forceSafe, if_pos hn, safeCause, if_neg h]

theorem dueCause_eq (x : Ctl) : (if x.safeDue = 0 ∨ 4 < x.safeDue then { x with safeDue := 4 } else x : Ctl) =
    { x with safeDue := if x.safeDue = 0 then 4 else min 4 x.safeDue } := by
  by_cases h0 : x.safeDue = 0
  · rw [if_pos (.inl h0), if_pos h0]
  · by_cases h4 : 4 < x.safeDue
    · rw [if_pos (.inr h4), if_neg h0, Nat.min_eq_left (by omega)]
    · rw [if_neg (by omega), if_neg h0, Nat.min_eq_right (by omega)]

/-- Settles O43: the cause is counted or due, and SAFE ends at the next trigger unless its cause persists. -/
theorem loopSafety : Obligations.LoopSafety := by
  intro n s hn hs x safe cause persists becomes
  have hper : persists ↔ causePersists n s = true := causePersists_iff.symm
  have hdue (f : Ctl → Ctl) {c : Instr} (he : exec c s = .next (modCtl n f s)) (hl : ∀ p ∈ touches c, p ∈ [.regs, .ces]) : becomes c (f x) :=
    (gives_of_next he ⟨regsBut_refl _ _, ctl_mod_same hs hn, fun k hk => ctl_mod_other hk⟩ rfl).mono hl
  refine ⟨fun h => ?_, fun h => ?_, fun h => ?_, fun h hp => ?_⟩
  · exact dueCause_eq x ▸ hdue (fun x => if x.safeDue = 0 ∨ 4 < x.safeDue then { x with safeDue := 4 } else x) (next_congr (forceSafe_due hn h)) (by simp [touches])
  · refine gives_of_next (next_congr (forceSafe_safe hn h)) ⟨rfl, regsBut_incSat (regsBut_refl _ _) List.mem_cons_self, ?_⟩
    exact getF_incSat_same hs (by simp [fCE_CNT_CAUSES_IN_SAFE])
  · refine congrArg _ (if_neg ?_)
    rintro ⟨-, h1, h2⟩
    obtain h | h := h
    · exact h h1
    · rw [hper.mp h] at h2; exact absurd h2 (by decide)
  · rw [hper, Bool.not_eq_true] at hp
    exact hdue (fun x => { x with clearDue := true }) (next_congr (if_pos ⟨hn, h, hp⟩)) (by simp [touches])

/-! ### A cycle over its budget (R211) -/

/-- An engine's cause or source event is noted: its own registers but one count stay, and its state but for what is due. -/
structure NotedOnly (n : Nat) (s t : State) : Prop where
  regs : RegsBut [rCE_CNT n] s t
  counts : ∀ f, f.reg = rCE_CNT n → f.lo + f.width ≤ 40 → getF f t = getF f s
  ctl : ∃ d q, ctlOf n t = { ctlOf n s with safeDue := d, srcDue := q }

theorem safeCause_noted {n cause : Nat} {s : State} (hs : Sound s) (hn : n < 8) : NotedOnly n s (safeCause n cause s) := by
  unfold safeCause
  split
  · refine ⟨regsBut_incSat (regsBut_refl _ _) List.mem_cons_self, fun f hf hhi => ?_, _, _, rfl⟩
    exact getF_incSat_other hs (by simp [fCE_CNT_CAUSES_IN_SAFE]) (.inr (.inl (by simpa [fCE_CNT_CAUSES_IN_SAFE] using hhi)))
  · refine ⟨regsBut_refl _ _, fun f _ _ => rfl, ?_⟩
    rw [ctl_mod_same hs hn]
    split
    · exact ⟨_, _, rfl⟩
    · exact ⟨_, _, rfl⟩

theorem ctl_mod_srcDue (n m : Nat) (s : State) : ∃ q, ctlOf n (modCtl m (fun x => { x with srcDue := x.srcDue + 1 }) s) = { ctlOf n s with srcDue := q } := by
  by_cases hk : n = m
  · subst hk
    by_cases hl : n < s.ces.length
    · exact ⟨_, ctl_set_same' hl⟩
    · exact ⟨(ctlOf n s).srcDue, by simp [ctlOf, modCtl, setCtl, hl]⟩
  · exact ⟨(ctlOf n s).srcDue, ctl_mod_other hk⟩

theorem sourceEvent_noted (n src idx : Nat) (s : State) : (sourceEvent src idx s).regs = s.regs ∧
    ∃ q, ctlOf n (sourceEvent src idx s) = { ctlOf n s with srcDue := q } := by
  refine forAll_inv (fun t => t.regs = s.regs ∧ ∃ q, ctlOf n t = { ctlOf n s with srcDue := q }) _ _ _ ⟨rfl, _, rfl⟩ ?_
  rintro m - t ⟨hr, q, hq⟩
  dsimp only
  split
  · obtain ⟨q', hq'⟩ := ctl_mod_srcDue n m t
    exact ⟨hr, q', by rw [hq', hq]⟩
  · exact ⟨hr, q, hq⟩

theorem NotedOnly.sourceEvent {n src idx : Nat} {s t : State} (k : NotedOnly n s t) : NotedOnly n s (sourceEvent src idx t) := by
  obtain ⟨hr, q, hq⟩ := sourceEvent_noted n src idx t
  obtain ⟨d, q', hc⟩ := k.ctl
  have hreg (a : Nat) : (Machine.sourceEvent src idx t).reg a = t.reg a := by unfold State.reg; rw [hr]
  refine ⟨fun a ha => (hreg a).trans (k.regs a ha), fun f hf hhi => ?_, d, q, ?_⟩
  · exact (getF_reg _ _ _ (hreg _)).trans (k.counts f hf hhi)
  · rw [hq, hc]

/-- The engine after the abort of its cycle, before its cause and its source event. -/
def aborted (n : Nat) (s : State) : State :=
  let s1 := noteOverrun (.ce n) (modCore (.ce n) (fun c => { c with fl := { c.fl with o := true }, wait := .none, stopReq := false }) s)
  let s2 := modCtl n (fun x => { x with yPend := [], overran := true, fbCut := false }) s1
  setEngState (.ce n) 1 (incSat (fCE_CNT_CONSEC n) (incSat (fCE_CNT_OVERRUNS n) s2))

theorem overrun_noted {n : Nat} {s : State} (ha : Sound (aborted n s)) (hn : n < 8) : NotedOnly n (aborted n s) (overrun n s) := by
  have he : overrun n s = sourceEvent 3 n (if max 1 (getF (fCE_MODE_N_OVR n) (aborted n s)) ≤ getF (fCE_CNT_CONSEC n) (aborted n s) then
    safeCause n 2 (aborted n s) else aborted n s) := rfl
  rw [he]
  refine NotedOnly.sourceEvent ?_
  split
  · exact safeCause_noted ha hn
  · exact ⟨regsBut_refl _ _, fun _ _ _ => rfl, _, _, rfl⟩

theorem aborted_shows {n : Nat} {s : State} (hs : Sound s) (hn : n < 8) :
    let t := aborted n s
    Sound t ∧ engState (.ce n) t = 1 ∧ getF (fCE_CNT_OVERRUNS n) t = min (getF (fCE_CNT_OVERRUNS n) s + 1) 65535 ∧
      getF (fCE_CNT_CONSEC n) t = min (getF (fCE_CNT_CONSEC n) s + 1) 15 ∧ RegsBut [rCE_STAT n, rCE_CNT n] s t ∧
      ctlOf n t = { ctlOf n s with
        core := { coreOf (.ce n) s with fl := { (coreOf (.ce n) s).fl with o := true }, wait := .none, stopReq := false }
        yPend := [], overran := true, fbCut := false } := by
  let f (c : Core) : Core := { c with fl := { c.fl with o := true }, wait := .none, stopReq := false }
  let g (x : Ctl) : Ctl := { x with yPend := [], overran := true, fbCut := false }
  let s1 := noteOverrun (.ce n) (modCore (.ce n) f s)
  let s2 := modCtl n g s1
  let s3 := incSat (fCE_CNT_OVERRUNS n) s2
  let s4 := incSat (fCE_CNT_CONSEC n) s3
  have k : CoreBecomes (.ce n) (f (coreOf (.ce n) s)) s (modCore (.ce n) f s) := modCore_becomes hs
  have h1 : Sound s1 := (setCore_sound (e := .ce n) (c := f (coreOf (.ce n) s)) hs).of_eq
  have h2 : Sound s2 := sound_modCtl' h1
  have h3 : Sound s3 := sound_incSat h2 _
  have h4 : Sound s4 := sound_incSat h3 _
  have hne : rCE_CNT n ≠ rCE_STAT n := by simp only [rCE_CNT, rCE_STAT]; omega
  have hcnt (a : Field) (ha : a.reg = rCE_CNT n) : getF a s2 = getF a s := by
    rw [getF_modCtl']
    exact k.regs.getF (by rw [ha]; exact List.mem_singleton.not.mpr hne)
  refine ⟨sound_setF h4 _ _, engState_setEngState h4 (by decide), ?_, ?_, ?_, ?_⟩
  · refine (getF_setReg_other _ _ hne).trans ((getF_incSat_other h3 (by simp [fCE_CNT_CONSEC]) (.inr (.inl (by simp [fCE_CNT_CONSEC, fCE_CNT_OVERRUNS])))).trans ?_)
    exact (getF_incSat_same h2 (by simp [fCE_CNT_OVERRUNS])).trans (by rw [hcnt _ rfl]; rfl)
  · refine (getF_setReg_other _ _ hne).trans ((getF_incSat_same h3 (by simp [fCE_CNT_CONSEC])).trans ?_)
    rw [getF_incSat_other h2 (by simp [fCE_CNT_OVERRUNS]) (.inr (.inr (by simp [fCE_CNT_CONSEC, fCE_CNT_OVERRUNS]))), hcnt _ rfl]
    rfl
  · refine regsBut_setF (regsBut_incSat (regsBut_incSat (fun a ha => k.regs a ?_) (by simp [fCE_CNT_OVERRUNS])) (by simp [fCE_CNT_CONSEC])) List.mem_cons_self
    exact fun h => ha (List.mem_cons.mpr (.inl (List.mem_singleton.mp h)))
  · have hc : ctlOf n s1 = { ctlOf n s with core := f (coreOf (.ce n) s) } := k.ctl hs hn
    exact (ctl_mod_same h1 hn).trans (congrArg g hc)

/-- Settles O44: the abort, and then only what is due at the next trigger. -/
theorem overrunAborts : Obligations.OverrunAborts := by
  intro n s hn hs exceeds
  have hex : exceeds ↔ (n < 8 ∧ engState (.ce n) s = 2 ∧ budgetEnds n s) := by
    simp only [budgetEnds, decide_eq_true_eq, hn, true_and]
    rfl
  refine ⟨fun h => congrArg _ (if_neg (hex.not.mp h)), fun h => ?_⟩
  obtain ⟨ha, hstate, hover, hconsec, hregs, hctl⟩ := aborted_shows hs hn
  obtain ⟨nregs, ncounts, d, q, nctl⟩ := overrun_noted ha hn
  have hne : rCE_STAT n ∉ [rCE_CNT n] := by simp only [List.mem_singleton, rCE_CNT, rCE_STAT]; omega
  rw [hctl] at nctl
  have hcore : coreOf (.ce n) (overrun n s) = _ := congrArg Ctl.core nctl
  refine gives_of_next (next_congr (if_pos (hex.mp h))) ⟨(nregs.getF hne).trans hstate, ?_, ?_, ?_, ?_, ?_, ?_, ?_, ?_, ?_, ?_⟩
  · rw [nctl]
  · rw [nctl]
  · rw [hcore]
  · rw [hcore]
  · rw [hcore]
  · rw [hcore]
  · rw [nctl]
  · exact (ncounts _ rfl (by simp [fCE_CNT_OVERRUNS])).trans hover
  · exact (ncounts _ rfl (by simp [fCE_CNT_CONSEC])).trans hconsec
  · exact regsBut_trans hregs (nregs.mono (by simp))

/-! ### Writes of a register that is one value -/

/-- A register that is one field of 48 bits. -/
def wholeWord (a : Nat) : Bool := (regSpecAt a).any fun r => decide (r.fields = [⟨0, 48, .rw, 0, 281474976710655, false⟩])

theorem wordPut_whole (w : Word) (x : Nat) : wordPut w 0 48 x = BitVec.ofNat 48 x := by
  apply BitVec.eq_of_getLsbD_eq
  intro i hi
  rw [wordPut_getLsbD w x i (by decide), if_pos ⟨Nat.zero_le i, by omega⟩, BitVec.getLsbD_ofNat]
  simp [hi]

theorem plainWrite_whole {a : Nat} (h : wholeWord a = true) (v : Nat) (s : State) : plainWrite a v s = s.setReg a (BitVec.ofNat 48 v) := by
  cases hr : regSpecAt a with
  | none => simp [wholeWord, hr] at h
  | some r =>
    have hf : r.fields = [⟨0, 48, .rw, 0, 281474976710655, false⟩] := by simpa [wholeWord, hr] using h
    have hx : v % 2 ^ 48 ≤ 281474976710655 := by omega
    have hw : plainWrite a v s = writeField a v ⟨0, 48, .rw, 0, 281474976710655, false⟩ s := by
      rw [plainWrite, hr]
      exact congrArg (fun l => forAll l (writeField a v) s) hf
    have hc : clampField ⟨0, 48, .rw, 0, 281474976710655, false⟩ (v / 2 ^ 0 % 2 ^ 48) = v % 2 ^ 48 := by
      simp only [clampField, pow_zero, Nat.div_one]
      rw [if_neg (Nat.not_lt.mpr hx), if_neg (Nat.not_lt_zero _)]
    rw [hw]
    show s.setReg a (wordPut (s.reg a) 0 48 (clampField _ (v / 2 ^ 0 % 2 ^ 48))) = _
    rw [hc, wordPut_whole, ← BitVec.toNat_ofNat, BitVec.ofNat_toNat, BitVec.setWidth_eq]

/-! ### The generator's commands (R321) -/

section
variable {n cmd : Nat} {s w : State}

theorem pgCommand_refuses (hn : n < 8) (h0 : cmd ≠ 0) (h5 : cmd ≤ 5) (h : getB (fCE_PG_STAT_MC_OWNED n) w = true ∨ (cmd = 5 ∧ pgMoves n w = true)) :
    pgCommand n cmd w = setB (fCE_PG_STAT_REFUSED n) true w := by
  rw [pgCommand, if_neg (by omega), if_pos h]

theorem pgCommand_waits (hn : n < 8) (h0 : cmd ≠ 0) (h5 : cmd ≤ 5) (h : ¬ (getB (fCE_PG_STAT_MC_OWNED n) w = true ∨ (cmd = 5 ∧ pgMoves n w = true))) :
    pgCommand n cmd w = pgIssue n cmd (w.reg (rCE_PG_TGT n)) w := by
  rw [pgCommand, if_neg (by omega), if_neg h]

theorem pg_tgt_ne_stat (n : Nat) : rCE_PG_TGT n ≠ rCE_PG_STAT n := by simp only [rCE_PG_TGT, rCE_PG_STAT]; omega

/-- A command that finds its target written, or as it stood. -/
structure Targeted (n : Nat) (s w : State) : Prop where
  sound : Sound w
  regs : RegsBut [rCE_PG_TGT n] s w
  ces : w.ces = s.ces

theorem Targeted.owned (k : Targeted n s w) : getB (fCE_PG_STAT_MC_OWNED n) w = getB (fCE_PG_STAT_MC_OWNED n) s :=
  k.regs.getB (List.mem_singleton.not.mpr (pg_tgt_ne_stat n).symm)

theorem Targeted.moves (k : Targeted n s w) : pgMoves n w = pgMoves n s := by
  have h1 : w.reg (rCE_PG_VEL n) = s.reg (rCE_PG_VEL n) := k.regs _ (by simp only [List.mem_singleton, rCE_PG_VEL, rCE_PG_TGT]; omega)
  have h2 : w.reg (rCE_PG_ACC n) = s.reg (rCE_PG_ACC n) := k.regs _ (by simp only [List.mem_singleton, rCE_PG_ACC, rCE_PG_TGT]; omega)
  rw [pgMoves, h1, h2, pgMoves]

/-- What a refused command leaves. -/
theorem Targeted.refused (k : Targeted n s w) :
    let t := setB (fCE_PG_STAT_REFUSED n) true w
    t.reg (rCE_PG_TGT n) = w.reg (rCE_PG_TGT n) ∧ t.ces = s.ces ∧ getF (fCE_PG_STAT_REFUSED n) t = 1 ∧ RegsBut [rCE_PG_TGT n, rCE_PG_STAT n] s t :=
  ⟨reg_setReg_other _ _ (pg_tgt_ne_stat n), k.ces, getF_setB_same k.sound true (by simp [fCE_PG_STAT_REFUSED]) rfl,
    regsBut_setB (k.regs.mono (by simp)) (by simp [fCE_PG_STAT_REFUSED])⟩

/-- What a command that waits leaves. -/
theorem Targeted.issued (k : Targeted n s w) (hn : n < 8) (h5 : cmd ≤ 5) :
    let t := pgIssue n cmd (w.reg (rCE_PG_TGT n)) w
    t.reg (rCE_PG_TGT n) = w.reg (rCE_PG_TGT n) ∧ RegsBut [rCE_PG_TGT n, rCE_PG_STAT n] s t ∧ getF (fCE_PG_STAT_MODE n) t = cmd ∧
      ctlOf n t = { ctlOf n s with pgCmd := some (cmd, t.reg (rCE_PG_TGT n)) } ∧ ∀ j, j ≠ n → ctlOf j t = ctlOf j s := by
  let x : Ctl := { ctlOf n w with pgCmd := some (cmd, w.reg (rCE_PG_TGT n)) }
  have ht : (pgIssue n cmd (w.reg (rCE_PG_TGT n)) w).reg (rCE_PG_TGT n) = w.reg (rCE_PG_TGT n) := reg_setReg_other _ _ (pg_tgt_ne_stat n)
  refine ⟨ht, ?_, ?_, ?_, fun j hj => ?_⟩
  · exact fun a ha => regsBut_setF (k.regs.mono (by simp)) (f := fCE_PG_STAT_MODE n) (by simp [fCE_PG_STAT_MODE]) a ha
  · refine (getF_setF_same (sound_setCtl' k.sound) cmd (by simp [fCE_PG_STAT_MODE])).trans (Nat.mod_eq_of_lt ?_)
    show cmd < 2 ^ 3
    omega
  · rw [ht, ← ctl_of' s w n k.ces]
    exact ctl_set_same' (x := x) (by rw [k.sound.ces_length]; exact hn)
  · exact (ctl_set_other' (x := x) hj).trans (ctl_of' s w j k.ces)

end

theorem wholeWord_pgTgt : ∀ n, n < 8 → wholeWord (rCE_PG_TGT n) = true := by decide

theorem pgGo_eq {n cmd target : Nat} {s : State} (hn : n < 8) :
    pgGo n cmd target s = pgCommand n cmd (s.setReg (rCE_PG_TGT n) (BitVec.ofNat 48 target)) := by
  rw [pgGo, if_neg (Nat.not_le.mpr hn), plainWrite_whole (wholeWord_pgTgt n hn)]

theorem pgMoves_iff {n : Nat} {s : State} : pgMoves n s = true ↔ ¬ (s.reg (rCE_PG_VEL n) = 0 ∧ s.reg (rCE_PG_ACC n) = 0) := by
  simp only [pgMoves, Bool.or_eq_true, bne_iff_ne, not_and_or]

/-- Settles O45: the target is written first, and the command is refused or waits. -/
theorem profileCommands : Obligations.ProfileCommands := by
  intro n target s hn hs hrun owned moves l written refused waits
  have hown : owned ↔ getB (fCE_PG_STAT_MC_OWNED n) s = true := (getB_iff _ s).symm
  have hmov : moves ↔ pgMoves n s = true := pgMoves_iff.symm
  have k0 : Targeted n s s := ⟨hs, regsBut_refl _ _, rfl⟩
  have k1 : Targeted n s (s.setReg (rCE_PG_TGT n) (BitVec.ofNat 48 target)) := ⟨sound_setReg hs _ _, regsBut_setReg (regsBut_refl _ _) (by simp), rfl⟩
  have hw : (s.setReg (rCE_PG_TGT n) (BitVec.ofNat 48 target)).reg (rCE_PG_TGT n) = BitVec.ofNat 48 target := reg_setReg_same hs _ _
  have goRefused {c : Instr} {cmd : Nat} (he : exec c s = .next (hostAccess (pgGo n cmd target) s)) (h0 : cmd ≠ 0) (h5 : cmd ≤ 5)
      (hl : touches c = l) (h : owned ∨ (cmd = 5 ∧ moves)) : refused c written := by
    obtain ⟨h1, h2, h3, h4⟩ := k1.refused
    have hr := pgCommand_refuses (w := s.setReg (rCE_PG_TGT n) (BitVec.ofNat 48 target)) hn h0 h5 (by rwa [k1.owned, k1.moves, ← hown, ← hmov])
    exact gives_of_access hrun he ((pgGo_eq hn).trans hr) ⟨h1.trans hw, h2, h3, h4⟩ hl
  have goWaits {c : Instr} {cmd : Nat} (he : exec c s = .next (hostAccess (pgGo n cmd target) s)) (h0 : cmd ≠ 0) (h5 : cmd ≤ 5)
      (hl : touches c = l) (h : ¬ (owned ∨ (cmd = 5 ∧ moves))) : waits c cmd written := by
    obtain ⟨h1, h2, h3, h4, h6⟩ := k1.issued (cmd := cmd) hn h5
    have hr := pgCommand_waits (w := s.setReg (rCE_PG_TGT n) (BitVec.ofNat 48 target)) hn h0 h5 (by rwa [k1.owned, k1.moves, ← hown, ← hmov])
    exact gives_of_access hrun he ((pgGo_eq hn).trans hr) ⟨h1.trans hw, h2, h3, h4, h6⟩ hl
  have hstop : exec (.pgStop n) s = .next (hostAccess (pgCommand n 4) s) := congrArg _ (if_pos hn)
  refine ⟨fun h => ⟨goRefused rfl (by decide) (by decide) rfl (.inl h), goRefused rfl (by decide) (by decide) rfl (.inl h),
      goRefused rfl (by decide) (by decide) rfl (.inl h), ?_⟩, fun h => ⟨goWaits rfl (by decide) (by decide) rfl (by simpa using h),
      goWaits rfl (by decide) (by decide) rfl (by simpa using h), goWaits rfl (by decide) (by decide) rfl (by simpa using h), ?_⟩,
    fun h => goRefused rfl (by decide) (by decide) rfl (h.imp id fun h => ⟨rfl, h⟩),
    fun h => goWaits rfl (by decide) (by decide) rfl (by rintro (h' | ⟨-, h'⟩); exacts [h.1 h', h.2 h'])⟩
  · obtain ⟨-, h2, h3, h4⟩ := k0.refused
    exact (gives_of_access hrun hstop (pgCommand_refuses hn (by decide) (by decide) (.inl (hown.mp h))) ⟨trivial, h2, h3, h4⟩ rfl).mono (by simp [touches, l])
  · obtain ⟨-, h2, h3, h4, h6⟩ := k0.issued (cmd := 4) hn (by decide)
    have hr := pgCommand_waits (cmd := 4) (w := s) hn (by decide) (by decide) (by rw [← hown]; simpa using h)
    exact (gives_of_access hrun hstop hr ⟨trivial, h2, h3, h4, h6⟩ rfl).mono (by simp [touches, l])

/-! ### Settings (R308, R309, R314) -/

theorem trig_slot : ∀ n, n < 8 → (List.range 8).find? (fun m => decide (rCE_TRIG m = rCE_TRIG n)) = some n := by decide

theorem xcfg_noTrig : ∀ n, n < 8 → ∀ i, i < 8 → (List.range 8).find? (fun m => decide (rCE_TRIG m = rCE_XCFG n i)) = none := by decide

theorem xcfg_slot : ∀ n, n < 8 → ∀ i, i < 8 → ceSlot rCE_XCFG 8 (rCE_XCFG n i) = some (n, i) := by decide

theorem ceConfigWrite_trig {n : Nat} (hn : n < 8) (v : Nat) (s : State) : ceConfigWrite (rCE_TRIG n) v s = trigWrite n v s := by
  unfold ceConfigWrite
  rw [trig_slot n hn]

theorem ceConfigWrite_xcfg {n i : Nat} (hn : n < 8) (hi : i < 8) (v : Nat) (s : State) : ceConfigWrite (rCE_XCFG n i) v s = xcfgWrite n i v s := by
  unfold ceConfigWrite
  rw [xcfg_noTrig n hn i hi, xcfg_slot n hn i hi]

theorem wholeWord_hostx : ∀ n, n < 8 → ∀ i, i < 8 → wholeWord (rCE_HOSTX n i) = true := by decide

/-- The engine's input is delivered where it is one of the host's (R309). -/
def hostxDelivered (n i : Nat) (w : State) : State :=
  if getF (fCE_XCFG_CLASS n i) w = 7 then modCtl n (fun x => { x with fresh := x.fresh.set i true }) w else w

theorem hostxWrite_eq {n i : Nat} (hn : n < 8) (hi : i < 8) (v : Nat) (s : State) :
    hostxWrite n i v s = hostxDelivered n i (s.setReg (rCE_HOSTX n i) (BitVec.ofNat 48 v)) := by
  rw [hostxWrite, if_neg (by omega), plainWrite_whole (wholeWord_hostx n hn i hi)]
  rfl

theorem hostxDelivered_shows {n i : Nat} {w : State} (hw : Sound w) (hn : n < 8) :
    let t := hostxDelivered n i w
    RegsBut [] w t ∧ (∀ k, k ≠ n → ctlOf k t = ctlOf k w) ∧
      ctlOf n t = if getF (fCE_XCFG_CLASS n i) w = 7 then { ctlOf n w with fresh := (ctlOf n w).fresh.set i true } else ctlOf n w := by
  dsimp only [hostxDelivered]
  split
  · exact ⟨regsBut_refl _ _, fun k hk => ctl_mod_other hk, ctl_mod_same hw hn⟩
  · exact ⟨regsBut_refl _ _, fun k _ => rfl, rfl⟩

/-- Settles O46: what is refused sets its mark; HOSTX is one value; MODE asks for the next trigger's mode. -/
theorem loopSettings : Obligations.LoopSettings := by
  intro n i v s hn hi hs hrun
  refine ⟨fun hst => ⟨?_, ?_⟩, ?_, ?_⟩
  · exact next_congr (hostAccess_mark hrun ((ceConfigWrite_trig hn v s).trans (if_pos (.inl hst))))
  · exact next_congr (hostAccess_mark hrun ((ceConfigWrite_xcfg hn hi v s).trans (if_pos (.inl hst))))
  · let w := s.setReg (rCE_HOSTX n i) (BitVec.ofNat 48 v)
    have hw : Sound w := sound_setReg hs _ _
    obtain ⟨hr, hother, hctl⟩ := hostxDelivered_shows (i := i) hw hn
    have hclass : getF (fCE_XCFG_CLASS n i) w = getF (fCE_XCFG_CLASS n i) s := by
      refine getF_setReg_other _ _ ?_
      simp only [fCE_XCFG_CLASS, rCE_XCFG, rCE_HOSTX]; omega
    rw [hclass] at hctl
    refine gives_of_access hrun rfl (hostxWrite_eq hn hi v s) ⟨?_, fun a ha => ?_, hother, hctl⟩
    · exact (hr _ (by simp)).trans (reg_setReg_same hs _ _)
    · exact (hr a (by simp)).trans (reg_setReg_other _ _ (List.mem_singleton.not.mp ha))
  · have hw : Sound (plainWrite (rCE_MODE n) v s) := plainWrite_sound hs _ _
    have hces : (plainWrite (rCE_MODE n) v s).ces = s.ces := plainWrite_parts _ _ .ces (by decide) (by decide)
    refine gives_of_access hrun rfl (if_neg (Nat.not_le.mpr hn)) ⟨fun a ha => ?_, ?_, fun k hk => ?_⟩
    · exact (plainWrite_regsBut (regsBut_refl [rCE_MODE n] s) List.mem_cons_self) a ha
    · exact (ctl_mod_same (f := fun x => { x with modeReq := some (v % 2) }) hw hn).trans (by rw [ctl_of' s _ n hces])
    · exact (ctl_mod_other (f := fun x => { x with modeReq := some (v % 2) }) hk).trans (ctl_of' s _ k hces)

end Sys2Proof.Machine

/-! SUPPORT. The motor channels: the proof of the statement about START, and STOP and CLEAR that change nothing (R337 to R339, R344). -/

namespace Sys2Proof.Machine

theorem hostAccess_same {g : State → State} {s : State} (e : g s = s) : hostAccess g s = s := by
  cases h : startStopped s with
  | true => exact hostAccess_stopped g h
  | false => rw [hostAccess_run g h, e]

theorem motors_length {s : State} (hs : Sound s) : s.motors.length = 6 := by
  obtain ⟨_, _, _, _, _, _, _, _, _, _, h, _⟩ := hs.sizes
  exact h

/-- Every condition of a start (R337). -/
def mayStart (c : Nat) (s : State) : Prop :=
  getF (fMC_STAT_STATE c) s = 0 ∧ getF (fMC_CFG_EN c) s = 1 ∧ (motorOf c s).fltLow = false ∧ getF (fBUS_STAT_VALID (getF (fMC_CFG_BUS c) s)) s = 1

theorem mayStart_iff {c : Nat} {s : State} : mayStart c s ↔
    ¬ (mcState c s ≠ 0 ∨ getB (fMC_CFG_EN c) s = false ∨ (motorOf c s).fltLow ∨ getB (fBUS_STAT_VALID (busIdx c s)) s = false) := by
  rw [not_or, not_or, not_or, not_not, Bool.not_eq_false, Bool.not_eq_false, getB_iff, getB_iff, Bool.not_eq_true]
  rfl

theorem mcStart_refused {c : Nat} {s : State} (h : ¬ mayStart c s) : mcStart c s = setB (fMC_STAT_START_REFUSED c) true s := by
  rw [mayStart_iff, not_not] at h
  exact if_pos h

/-- A channel that catches its rotor first. -/
def enterCatch (c : Nat) (s : State) : State := setF (fMC_STAT_STATE c) 1 (modMotor c (fun x => { x with since := now s }) s)

theorem mcStart_catches {c : Nat} {s : State} (h : mayStart c s) (hsrc : getF (fMC_CFG_ANG_SRC c) s = 1 ∨ getF (fMC_CFG_ANG_SRC c) s = 3) :
    mcStart c s = enterCatch c s := by
  unfold mcStart
  rw [if_neg (mayStart_iff.mp h)]
  obtain hsrc | hsrc := hsrc
  · rw [hsrc]; rfl
  · rw [hsrc]; rfl

theorem mcStart_runs {c : Nat} {s : State} (h : mayStart c s)
    (hsrc : getF (fMC_CFG_ANG_SRC c) s = 2 ∨ (getF (fMC_CFG_ANG_SRC c) s = 0 ∧ mcF c (fMC_ENC_CPR c) s ≠ 0)) : mcStart c s = enterRun c s := by
  unfold mcStart
  rw [if_neg (mayStart_iff.mp h)]
  obtain hsrc | ⟨hsrc, hcpr⟩ := hsrc
  · rw [hsrc]; rfl
  · rw [hsrc]; exact if_neg hcpr

section
variable {c : Nat} {s : State}

theorem enterCatch_shows (hs : Sound s) (hc : c < 6) :
    let t := enterCatch c s
    getF (fMC_STAT_STATE c) t = 1 ∧ RegsBut [rMC_STAT c] s t ∧ motorOf c t = { motorOf c s with since := now s } ∧
      ∀ k, k ≠ c → motorOf k t = motorOf k s := by
  let f (x : Motor) : Motor := { x with since := now s }
  have h1 : Sound (modMotor c f s) := sound_modMotor' hs
  refine ⟨?_, ?_, ?_, fun k hk => motor_mod_other' (f := f) hk⟩
  · exact (getF_setF_same h1 1 (by simp [fMC_STAT_STATE])).trans rfl
  · exact fun a ha => regsBut_setF (regsBut_refl [rMC_STAT c] (modMotor c f s)) (f := fMC_STAT_STATE c) List.mem_cons_self a ha
  · exact motor_mod_same' (f := f) (by rw [motors_length hs]; exact hc)

theorem enterRun_shows (hs : Sound s) (hc : c < 6) :
    let t := enterRun c s
    getF (fMC_STAT_STATE c) t = 3 ∧ (getF (fMC_STAT_REV_DEFERRED c) t = 1 ↔ reversed c (motorOf c s).omega s = true) ∧ RegsBut [rMC_STAT c] s t ∧
      (motorOf c t).intD = 0 ∧ (motorOf c t).intQ = 0 ∧ ∀ k, k ≠ c → motorOf k t = motorOf k s := by
  let f (x : Motor) : Motor := { x with intD := 0, intQ := 0, phase := 0, skips := 0 }
  have h1 : Sound (modMotor c f s) := sound_modMotor' hs
  have h2 : Sound (setF (fMC_STAT_STATE c) 3 (modMotor c f s)) := sound_setF h1 _ _
  have hm : motorOf c (enterRun c s) = f (motorOf c s) := motor_mod_same' (f := f) (by rw [motors_length hs]; exact hc)
  refine ⟨?_, ?_, ?_, by rw [hm], by rw [hm], fun k hk => motor_mod_other' (f := f) hk⟩
  · refine (getF_setB_other h2 _ (by simp [fMC_STAT_REV_DEFERRED]) (.inr (.inl (by simp [fMC_STAT_REV_DEFERRED, fMC_STAT_STATE])))).trans ?_
    exact (getF_setF_same h1 3 (by simp [fMC_STAT_STATE])).trans rfl
  · rw [enterRun, getF_setB_same h2 _ (by simp [fMC_STAT_REV_DEFERRED]) rfl]
    cases reversed c (motorOf c s).omega s <;> decide
  · exact fun a ha => regsBut_setB (regsBut_setF (regsBut_refl [rMC_STAT c] (modMotor c f s)) (f := fMC_STAT_STATE c) List.mem_cons_self)
      (f := fMC_STAT_REV_DEFERRED c) List.mem_cons_self a ha

theorem mcStop_idle (h : mcState c s = 0 ∨ mcState c s = 4) : mcStop c s = s := if_neg (by omega)

end

/-- Settles O47: the tests in one condition, and then the way that the source of the angle asks for. -/
theorem motorStarts : Obligations.MotorStarts := by
  intro c s hc hs state may src
  have hexec : exec (.mcStart c) s = .next (hostAccess (mcStart c) s) := next_congr (if_pos hc)
  refine ⟨fun hrun hm => ?_, fun hrun hm hsrc => ?_, fun hrun hm hsrc => ?_, fun h => ?_, fun h => ?_⟩
  · exact hexec.trans (next_congr (hostAccess_mark hrun (mcStart_refused hm)))
  · obtain ⟨h1, h2, h3, h4⟩ := enterCatch_shows hs hc
    exact gives_of_access hrun hexec (mcStart_catches hm hsrc) ⟨h1, h2, h3, h4⟩
  · obtain ⟨h1, h2, h3, h4, h5, h6⟩ := enterRun_shows hs hc
    exact gives_of_access hrun hexec (mcStart_runs hm hsrc) ⟨h1, h2, h3, h4, h5, h6⟩
  · exact next_congr ((if_pos hc).trans (hostAccess_same (mcStop_idle h)))
  · exact next_congr ((if_pos hc).trans (if_neg fun h' => h h'.1))

end Sys2Proof.Machine

/-! SUPPORT. The host port: the proofs of the statements about bad addresses and about the rings (R25, R351, R354, R357, R385). -/

namespace Sys2Proof.Machine

/-! ### Accesses that a stopped start does not answer (R385) -/

section
variable {s : State} (h : startStopped s = true)
include h

theorem stopped_next (g : State → State) : (.next (hostAccess g s) : Host.Outcome State Fault Refusal) = .next s := next_congr (hostAccess_stopped g h)

theorem stopped_if (p : Prop) [Decidable p] (g : State → State) : (.next (if p then hostAccess g s else s) : Host.Outcome State Fault Refusal) = .next s := by
  rw [hostAccess_stopped g h, ite_self]

theorem stopped_programWindow (a v : Nat) : execProgramWindowWrite a v s = .next s := by
  unfold execProgramWindowWrite
  split
  · exact stopped_if h _ _
  · rfl

theorem stopped_dataWindow (a v : Nat) : execDataWindowWrite a v s = .next s := by
  unfold execDataWindowWrite
  split
  · exact stopped_if h _ _
  · rfl

theorem stopped_mask (a v : Nat) : execMaskWrite a v s = .next s := by
  unfold execMaskWrite
  split
  · exact stopped_if h _ _
  · rfl

theorem stopped_virtSpeed (n v : Nat) : execVirtSpeedWrite n v s = .next s := by
  unfold execVirtSpeedWrite
  rw [hostAccess_stopped _ h, ite_self]

/-- Every command that is an access of the host leaves a device whose start has stopped as it is. -/
theorem stopped_access {c : Instr} (hc : hostAccesses c = true) : exec c s = .next s := by
  cases c
  case registerWrite | lineCtlWrite | linePreset | pdCfgWrite | petInsert | bindLoad | bindUnload | bindRegWrite | settingRetestWrite | vmaxWrite |
      schLineCtlWrite | lineSafeExit | snapReq | fontLoad | fontUnload | himgCommit | himgClear | engineStop | engineDoorbell | restore |
      wfSettingWrite | dllCfgWrite | laserEnWrite | ceConfigWrite | ceModeWrite | ceHostxWrite | pgVel | pgPos | pgRel | pgSet | mcConfigWrite |
      ringDoorbell | ringConsumerWrite | queuePairReset | eventRingReset | memInject | fltStatusClear | holdWrite | histPop | hostSnapshot |
      snapPop | replan | ampRef | calGo => exact stopped_next h _
  case badAddressAccess | imageStoreWrite | engineRun | shadowSealWrite | giveback | hpCfgWrite | wfSampleWrite | wflenWrite | alignStore |
      nzDataAccess | ceKWrite | pgStop | mcStart | mcStop => exact stopped_if h _ _
  case programWindowWrite => exact stopped_programWindow h _ _
  case dataWindowWrite => exact stopped_dataWindow h _ _
  case maskWrite => exact stopped_mask h _ _
  case virtSpeedWrite => exact stopped_virtSpeed h _ _
  all_goals exact absurd hc Bool.false_ne_true

end

/-! ### The record of bad addresses (R25) -/

theorem badAccess_iff {w : Bool} {a size : Nat} : badAccess w a size = true ↔ ∃ i, i < size ∧ nothingAt w (a + i) = true := by
  simp [badAccess]

/-- The first bad access, recorded, before the vector. -/
def recordedBad (w : Bool) (a : Nat) (s : State) : State :=
  setB fHST_BADADDR_VALID true (setB fHST_BADADDR_WRITE w (setF fHST_BADADDR_ADDR a (incSat fHST_BADADDR_COUNT s)))

theorem getF_valid_incSat {s : State} (hs : Sound s) : getF fHST_BADADDR_VALID (incSat fHST_BADADDR_COUNT s) = getF fHST_BADADDR_VALID s :=
  getF_incSat_other hs (by decide) (.inr (.inl (by decide)))

theorem recordBad_held {w : Bool} {a : Nat} {s : State} (hs : Sound s) (h : getF fHST_BADADDR_VALID s = 1) :
    recordBad w a s = incSat fHST_BADADDR_COUNT s :=
  if_pos ((getB_iff _ _).mpr ((getF_valid_incSat hs).trans h))

theorem recordBad_first {w : Bool} {a : Nat} {s : State} (hs : Sound s) (h : getF fHST_BADADDR_VALID s = 0) :
    recordBad w a s = signalVector 7 (recordedBad w a s) :=
  if_neg (by rw [getB_iff, getF_valid_incSat hs, h]; decide)

theorem recordedBad_shows {w : Bool} {a : Nat} {s : State} (hs : Sound s) (ha : a < 2 ^ 26) :
    let t := recordedBad w a s
    getF fHST_BADADDR_VALID t = 1 ∧ getF fHST_BADADDR_ADDR t = a ∧ (getF fHST_BADADDR_WRITE t = 1 ↔ w = true) ∧
      getF fHST_BADADDR_COUNT t = min (getF fHST_BADADDR_COUNT s + 1) (2 ^ fHST_BADADDR_COUNT.width - 1) ∧ RegsBut [rHST_BADADDR] s t := by
  let s1 := incSat fHST_BADADDR_COUNT s
  let s2 := setF fHST_BADADDR_ADDR a s1
  let s3 := setB fHST_BADADDR_WRITE w s2
  have h1 : Sound s1 := sound_incSat hs _
  have h2 : Sound s2 := sound_setF h1 _ _
  have h3 : Sound s3 := sound_setB h2 _ _
  refine ⟨getF_setB_same h3 true (by decide) rfl, ?_, ?_, ?_, ?_⟩
  · refine (getF_setB_other h3 true (by decide) (.inr (.inl (by decide)))).trans
      ((getF_setB_other h2 w (by decide) (.inr (.inl (by decide)))).trans ?_)
    exact (getF_setF_same h1 a (by decide)).trans (Nat.mod_eq_of_lt ha)
  · rw [recordedBad, getF_setB_other h3 true (by decide) (.inr (.inl (by decide))), getF_setB_same h2 w (by decide) rfl]
    cases w <;> decide
  · refine (getF_setB_other h3 true (by decide) (.inr (.inr (by decide)))).trans
      ((getF_setB_other h2 w (by decide) (.inr (.inr (by decide)))).trans ?_)
    exact (getF_setF_other h1 a (by decide) (.inr (.inr (by decide)))).trans (getF_incSat_same hs (by decide))
  · exact regsBut_setB (regsBut_setB (regsBut_setF (regsBut_incSat (regsBut_refl _ s) List.mem_cons_self) List.mem_cons_self) List.mem_cons_self)
      List.mem_cons_self

theorem signalVector_host (v : Nat) (s : State) : (signalVector v s).host =
    if s.host.msixMask.testBit v = true then { s.host with msixPend := s.host.msixPend ||| 2 ^ v }
    else { s.host with msi := s.host.msi ++ [(v, s.host.msixTable.getD v (0, 0))] } := by
  unfold signalVector
  split
  · rfl
  · rfl

/-- Settles O48: an access is bad where a byte of it is; the first is recorded and signalled. -/
theorem badAddressesRecorded : Obligations.BadAddressesRecorded := by
  intro w a size s hs h0 h8 hend bad
  have hbad : bad ↔ badAccess w a size = true := badAccess_iff.symm
  have hexec (hb : bad) : exec (.badAddressAccess w a size) s = .next (hostAccess (recordBad w a) s) :=
    next_congr (if_pos ⟨h0, h8, hend, hbad.mp hb⟩)
  refine ⟨fun hb => ?_, fun c hrun hc => stopped_access hrun hc, fun hrun hb hv => ?_, fun hrun hb hv => ?_⟩
  · exact next_congr (if_neg fun h => hb (hbad.mpr h.2.2.2))
  · exact (hexec hb).trans (next_congr (hostAccess_field hrun (recordBad_held hs hv)))
  · obtain ⟨h1, h2, h3, h4, h5⟩ := recordedBad_shows (w := w) (a := a) hs (by omega)
    have hg (f : Field) : getF f (signalVector 7 (recordedBad w a s)) = getF f (recordedBad w a s) := signalVector_getF 7 _ f
    refine gives_of_access hrun (hexec hb) (recordBad_first hs hv) ⟨(hg _).trans h1, (hg _).trans h2, ?_, (hg _).trans h4, ?_, fun b hb => ?_⟩
    · exact (iff_of_eq (congrArg (· = 1) (hg fHST_BADADDR_WRITE))).trans h3
    · exact signalVector_host 7 (recordedBad w a s)
    · exact (signalVector_reg 7 _ _).trans (h5 b hb)

/-! ### Rings (R354, R357) -/

/-- The event ring with its events dropped, before its indices and EN are cleared. -/
def eventsDropped (s : State) : State :=
  addSat fHST_EVQ_STAT_LOST_OTHER s.host.events.length
    { s with host.events := [], host.lossDue := s.host.lossDue || decide (0 < s.host.events.length) }

theorem eventsDropped_shows {s : State} (hs : Sound s) : let t := eventsDropped s
    Sound t ∧ t.host.events = [] ∧ RegsBut [rHST_EVQ_STAT] s t ∧
      getF fHST_EVQ_STAT_LOST_OTHER t = min (getF fHST_EVQ_STAT_LOST_OTHER s + s.host.events.length) (2 ^ fHST_EVQ_STAT_LOST_OTHER.width - 1) := by
  let s0 : State := { s with host.events := [], host.lossDue := s.host.lossDue || decide (0 < s.host.events.length) }
  have h0 : Sound s0 := hs.of_eq
  refine ⟨sound_setF h0 _ _, rfl, fun a ha => regsBut_setF (regsBut_refl [rHST_EVQ_STAT] s0) (f := fHST_EVQ_STAT_LOST_OTHER) List.mem_cons_self a ha, ?_⟩
  refine (getF_setF_same h0 _ (by decide)).trans (Nat.mod_eq_of_lt ?_)
  exact Nat.lt_of_le_of_lt (Nat.min_le_right _ _) (by decide)

theorem eventRingReset_shows {s : State} (hs : Sound s) : let t := eventRingReset s
    t.host.events = [] ∧ getF fHST_EVQ_CFG_EN t = 0 ∧ getF fHST_EVQ_PI_INDEX t = 0 ∧ getF fHST_EVQ_CI_INDEX t = 0 ∧
      RegsBut [rHST_EVQ_STAT, rHST_EVQ_PI, rHST_EVQ_CI, rHST_EVQ_CFG] s t ∧
      getF fHST_EVQ_STAT_LOST_OTHER t = min (getF fHST_EVQ_STAT_LOST_OTHER s + s.host.events.length) (2 ^ fHST_EVQ_STAT_LOST_OTHER.width - 1) := by
  obtain ⟨h1, he, hr, hl⟩ := eventsDropped_shows hs
  let s1 := eventsDropped s
  let s2 := setB fHST_EVQ_CFG_EN false s1
  let s3 := setF fHST_EVQ_CI_INDEX 0 s2
  have h2 : Sound s2 := sound_setB h1 _ _
  have h3 : Sound s3 := sound_setF h2 _ _
  refine ⟨he, ?_, (getF_setF_same h3 0 (by decide)).trans rfl, ?_, ?_, ?_⟩
  · refine (getF_setF_other h3 0 (by decide) (.inl (by decide))).trans ((getF_setF_other h2 0 (by decide) (.inl (by decide))).trans ?_)
    exact getF_setB_same h1 false (by decide) rfl
  · refine (getF_setF_other h3 0 (by decide) (.inl (by decide))).trans ?_
    exact (getF_setF_same h2 0 (by decide)).trans rfl
  · exact regsBut_setF (regsBut_setF (regsBut_setB (hr.mono (by simp)) (by decide)) (by decide)) (by decide)
  · refine (getF_setF_other h3 0 (by decide) (.inl (by decide))).trans ((getF_setF_other h2 0 (by decide) (.inl (by decide))).trans ?_)
    exact (getF_setB_other h1 false (by decide) (.inl (by decide))).trans hl

/-- Settles O49: a negative credit is the one test; the reset of the event ring counts what waited. -/
theorem hostRings : Obligations.HostRings := by
  intro q v s hq hs hrun n filled unread
  have hq4 : ¬ 4 ≤ q := by omega
  refine ⟨fun h => ?_, fun h => ?_, fun h => ?_, fun h => ?_, ?_⟩
  · exact next_congr (hostAccess_mark hrun ((if_neg hq4).trans (if_pos h)))
  · exact next_congr (hostAccess_field hrun ((if_neg hq4).trans (if_neg (Nat.not_lt.mpr h))))
  · exact next_congr (hostAccess_mark hrun ((if_neg (by omega)).trans ((if_neg hq4).trans (if_pos h))))
  · exact next_congr (hostAccess_field hrun ((if_neg (by omega)).trans ((if_neg hq4).trans (if_neg (Nat.not_lt.mpr h)))))
  · obtain ⟨h1, h2, h3, h4, h5, h6⟩ := eventRingReset_shows hs
    exact gives_of_access hrun rfl rfl ⟨h1, h2, h3, h4, h5, h6⟩

end Sys2Proof.Machine

/-! SUPPORT. The image store and its merge buffers: the proofs of the statements about host writes into the store and about draining an entry
(R26, R171, R380). -/

namespace Sys2Proof.Machine

/-! ### Bytes over bytes -/

/-- The bytes of a word written over the byte at an address of it. -/
def overWord (l : List (Option Byte)) (a : Nat) (x : Byte) : Byte := (l.getD (a % 8) none).getD x

/-- One byte of a merge entry written into its word. -/
def putOver (w : Nat) (c : List Host.Cell) (x : Option Byte × Nat) : List Host.Cell := match x.1 with
  | some b => cellPut c (8 * w + x.2) b
  | none => c

theorem mergeInto_eq (c : List Host.Cell) (w : Nat) (l : List (Option Byte)) : mergeInto c w l = l.zipIdx.foldl (putOver w) c := rfl

theorem putOver_wf {w : Nat} {c : List Host.Cell} (x : Option Byte × Nat) (h : Memory.wf c = true) : Memory.wf (putOver w c x) = true := by
  unfold putOver
  split
  · exact cellPut_wf _ _ h
  · exact h

theorem cellGet_putOver {w a : Nat} {c : List Host.Cell} (x : Option Byte × Nat) (h : Memory.wf c = true) :
    cellGet (putOver w c x) a = if a = 8 * w + x.2 then x.1.getD (cellGet c a) else cellGet c a := by
  obtain ⟨o, i⟩ := x
  cases o with
  | none => exact (ite_self _).symm
  | some b => exact cellGet_put h

/-- A word's bytes written from its byte `k` on. -/
theorem cellGet_putOvers {w a : Nat} (l : List (Option Byte)) (k : Nat) {c : List Host.Cell} (h : Memory.wf c = true) :
    cellGet ((l.zipIdx k).foldl (putOver w) c) a = (if 8 * w + k ≤ a then l.getD (a - (8 * w + k)) none else none).getD (cellGet c a) := by
  induction l generalizing k c with
  | nil => simp
  | cons x t ih =>
    rw [List.zipIdx_cons, List.foldl_cons, ih (k + 1) (putOver_wf _ h), cellGet_putOver _ h]
    rcases Nat.lt_trichotomy a (8 * w + k) with hlt | heq | hgt
    · rw [if_neg (by omega), if_neg (by omega), if_neg (by omega)]
    · rw [if_neg (by omega), if_pos heq, if_pos (by omega), show a - (8 * w + k) = 0 by omega]
      rfl
    · rw [if_pos (by omega), if_neg (by omega), if_pos (by omega), show a - (8 * w + k) = a - (8 * w + (k + 1)) + 1 by omega, List.getD_cons_succ]

theorem cellGet_mergeInto {c : List Host.Cell} {w a : Nat} {l : List (Option Byte)} (h : Memory.wf c = true) (hl : l.length = 8) :
    cellGet (mergeInto c w l) a = if a / 8 = w then overWord l a (cellGet c a) else cellGet c a := by
  rw [mergeInto_eq, cellGet_putOvers l 0 h, Nat.add_zero]
  by_cases hw : a / 8 = w
  · rw [if_pos hw, if_pos (by omega), overWord, show a - 8 * w = a % 8 by omega]
  · rw [if_neg hw]
    split
    · rw [List.getD_eq_default _ _ (by omega)]; rfl
    · rfl

/-! ### The store's parts -/

/-- The merge buffers and the stored bytes stay. -/
def StoreSame (s t : State) : Prop := t.mem.merges = s.mem.merges ∧ t.mem.image = s.mem.image

theorem StoreSame.refl (s : State) : StoreSame s s := ⟨rfl, rfl⟩

theorem StoreSame.trans {s t u : State} (h : StoreSame s t) (k : StoreSame t u) : StoreSame s u := ⟨k.1.trans h.1, k.2.trans h.2⟩

theorem StoreSame.of_mem {s t : State} (h : t.mem = s.mem) : StoreSame s t := ⟨congrArg Mem.merges h, congrArg Mem.image h⟩

theorem StoreSame.byte {s t : State} (h : StoreSame s t) (a : Nat) : imgByte a t = imgByte a s := by unfold imgByte; rw [h.1, h.2]

theorem StoreSame.mergesOk {s t : State} (h : StoreSame s t) (k : MergesOk s) : MergesOk t := by unfold MergesOk; rw [h.1]; exact k

theorem logFlaw_store (f : Flaw) (agent : Nat) (s : State) : StoreSame s (logFlaw f agent s) :=
  .of_mem ((logFlaw_kept (m := 1048577) (Kept.refl _ s) rfl).same .mem (by decide))

theorem raiseUe_store (bank : Nat) (s : State) : StoreSame s (raiseUe bank s) :=
  .of_mem ((raiseUe_kept (m := 2026355649) (Kept.refl _ s) rfl).same .mem (by decide))

theorem raiseSimple_store (src cls : Nat) (e : Bool) (d : Nat) (s : State) : StoreSame s (raiseSimple src cls e d s) :=
  .of_mem ((raiseSimple_kept (m := 4587521) (Kept.refl _ s) rfl).same .mem (by decide))

theorem incSat_store (f : Field) (s : State) : StoreSame s (incSat f s) := ⟨rfl, rfl⟩

theorem countHit_store (w : Nat) (s : State) : StoreSame s (countHit w s) := by
  have h1 : StoreSame s { s with mem.hits := spInsert s.mem.hits w ((spFind s.mem.hits w).getD 0 + 1) } := ⟨rfl, rfl⟩
  unfold countHit
  dsimp only
  split
  · exact (h1.trans (incSat_store _ _)).trans (raiseSimple_store _ _ _ _ _)
  · exact h1

theorem readWord_store (w agent : Nat) (s : State) : StoreSame s (readWord w agent s) := by
  unfold readWord
  split
  · exact .refl s
  · next f _ =>
    split
    · refine StoreSame.trans (logFlaw_store f agent s) (StoreSame.trans ?_ (raiseUe_store _ _))
      unfold doIf
      split
      · exact incSat_store _ _
      · exact .refl _
    · have h1 : StoreSame s (clearFlaw w s) := ⟨rfl, rfl⟩
      have h2 := h1.trans (logFlaw_store f agent _)
      exact (h2.trans (incSat_store _ _)).trans (countHit_store _ _)

theorem doIf_readWord_store (c : Bool) (w agent : Nat) (s : State) : StoreSame s (doIf c (readWord w agent) s) := by
  unfold doIf
  split
  · exact readWord_store w agent s
  · exact .refl s

theorem bankWrite_store (w : Nat) (s : State) : StoreSame s (bankWrite w s) := by
  unfold bankWrite strike
  split
  · split
    · exact ⟨rfl, rfl⟩
    · exact ⟨rfl, rfl⟩
  · exact ⟨rfl, rfl⟩

theorem setFlaw_store (f : Flaw) (s : State) : StoreSame s (setFlaw f s) := ⟨rfl, rfl⟩

/-! ### Entries -/

theorem find?_merge_of_mem {l : List Merge} {m : Merge} (hn : (l.map (·.word)).Nodup) (hm : m ∈ l) :
    l.find? (fun x => decide (x.word = m.word)) = some m :=
  find?_of_unique hm (decide_eq_true rfl) fun _ hy hw => List.inj_on_of_nodup_map hn hy hm (of_decide_eq_true hw)

theorem word_of_find? {l : List Merge} {m : Merge} {w : Nat} (h : l.find? (fun x => decide (x.word = w)) = some m) : m.word = w := by
  have := List.find?_some h
  exact of_decide_eq_true this

theorem find?_merge_filter (l : List Merge) (w v : Nat) :
    (l.filter fun x => decide (x.word ≠ w)).find? (fun x => decide (x.word = v)) = if v = w then none else l.find? (fun x => decide (x.word = v)) := by
  rw [List.find?_filter]
  split
  · next h =>
    subst h
    rw [List.find?_eq_none]
    intro x _
    simp
  · next h =>
    congr 1
    funext x
    by_cases hx : x.word = v <;> simp [hx, h]

/-- A byte of the store: an entry's, or the stored one. -/
theorem imgByte_eq (a : Nat) (s : State) :
    imgByte a s = ((s.mem.merges.find? fun m => decide (m.word = a / 8)).bind fun m => m.bytes.getD (a % 8) none).getD (cellGet s.mem.image a) := by
  unfold imgByte
  split
  · next h => rw [h]; rfl
  · next h => rw [h]; rfl

theorem takeEntry_image {m : Merge} {s : State} (hs : Sound s) (hl : m.bytes.length = 8) {a : Nat} (ha : a < 0x2000000) :
    cellGet (takeEntry m s).mem.image a = if a / 8 = m.word then overWord m.bytes a (cellGet s.mem.image a) else cellGet s.mem.image a := by
  unfold takeEntry storeBytes
  split
  · exact cellGet_mergeInto hs.image hl
  · next h =>
    rw [if_neg ?_]
    unfold imageWords at h
    omega

theorem takeEntry_merges (m : Merge) (s : State) : (takeEntry m s).mem.merges = s.mem.merges.filter fun x => decide (x.word ≠ m.word) := rfl

/-- An entry that is taken leaves its bytes over the stored word; nothing else of the store changes. -/
theorem imgByte_takeEntry {m : Merge} {s : State} (hs : Sound s) (hl : m.bytes.length = 8) {a : Nat} (ha : a < 0x2000000) :
    imgByte a (takeEntry m s) = if a / 8 = m.word then overWord m.bytes a (cellGet s.mem.image a) else imgByte a s := by
  rw [imgByte_eq, takeEntry_merges, find?_merge_filter, takeEntry_image hs hl ha]
  split
  · rfl
  · rw [imgByte_eq]

theorem MergesOk.filter {s t : State} (h : MergesOk s) {p : Merge → Bool} (ht : t.mem.merges = s.mem.merges.filter p) : MergesOk t := by
  obtain ⟨hn, hl⟩ := h
  rw [MergesOk, ht]
  exact ⟨hn.sublist (List.Sublist.map _ List.filter_sublist), fun m hm => hl m (List.mem_of_mem_filter hm)⟩

/-- What draining an entry leaves: the store without the entry, its bytes in the word. -/
theorem drain_store (m : Merge) (s : State) : ∃ u, StoreSame s u ∧ (Sound s → Sound u) ∧ StoreSame (takeEntry m u) (drain m s) := by
  unfold drain
  dsimp only
  split
  · exact ⟨readWord m.word 5 s, readWord_store _ _ _, (readWord_kept (m := 70746880961) (Kept.refl _ s) rfl).sound, setFlaw_store _ _⟩
  · exact ⟨_, doIf_readWord_store _ _ _ _, (Kept.doIf (m := 70746880961) (Kept.refl _ s) fun t => readWord_kept (Kept.refl _ t) rfl).sound, bankWrite_store _ _⟩

/-- An entry of the buffers stands for the bytes of its word. -/
theorem imgByte_of_find {m : Merge} {a : Nat} {s : State} (h : s.mem.merges.find? (fun x => decide (x.word = a / 8)) = some m) :
    imgByte a s = overWord m.bytes a (cellGet s.mem.image a) := by
  rw [imgByte_eq, h]; rfl

theorem imgByte_of_noFind {a : Nat} {s : State} (h : s.mem.merges.find? (fun x => decide (x.word = a / 8)) = none) :
    imgByte a s = cellGet s.mem.image a := by
  rw [imgByte_eq, h]; rfl

/-- The store's invariant, and what a byte of it reads as. -/
structure StoreBytes (s t : State) (f : Nat → Byte) : Prop where
  sound : Sound t
  ok : MergesOk t
  byte : ∀ a, a < 0x2000000 → imgByte a t = f a

theorem StoreBytes.same {s t u : State} {f : Nat → Byte} (h : StoreBytes s t f) (k : StoreSame t u) (hu : Sound u) : StoreBytes s u f :=
  ⟨hu, k.mergesOk h.ok, fun a ha => (k.byte a).trans (h.byte a ha)⟩

theorem drain_merges (m : Merge) (s : State) : (drain m s).mem.merges = s.mem.merges.filter fun x => decide (x.word ≠ m.word) := by
  obtain ⟨u, hu, -, ht⟩ := drain_store m s
  rw [ht.1, takeEntry_merges, hu.1]

theorem drain_sound {m : Merge} {s : State} (hs : Sound s) : Sound (drain m s) := (drain_kept (msk := 208185834433) (Kept.refl _ s) rfl).sound hs

/-- Draining an entry of the buffers changes no byte that a read gives. -/
theorem drain_bytes {m : Merge} {s : State} (hs : Sound s) (ok : MergesOk s) (hm : m ∈ s.mem.merges) : StoreBytes s (drain m s) (fun a => imgByte a s) := by
  refine ⟨drain_sound hs, ok.filter (drain_merges m s), fun a ha => ?_⟩
  obtain ⟨u, hu, hsound, ht⟩ := drain_store m s
  rw [ht.byte, imgByte_takeEntry (hsound hs) (ok.2 m hm) ha, hu.byte, hu.2]
  split
  · next hw => exact (imgByte_of_find (by rw [hw]; exact find?_merge_of_mem ok.1 hm)).symm
  · rfl

/-! ### Writes of one word (R380) -/

/-- The bytes of the store with a word's bytes written. -/
def wordWritten (w : Nat) (l : List (Option Byte)) (s : State) (a : Nat) : Byte := if a / 8 = w then overWord l a (imgByte a s) else imgByte a s

theorem overWord_full {l : List (Option Byte)} (hf : l.all (·.isSome) = true) (hl : l.length = 8) (a : Nat) (x y : Byte) :
    overWord l a x = overWord l a y := by
  have hlt : a % 8 < l.length := by omega
  have hsome : (l.getD (a % 8) none).isSome = true := by
    rw [List.getD_eq_getElem _ _ hlt]
    exact List.all_eq_true.mp hf _ (List.getElem_mem hlt)
  obtain ⟨b, hb⟩ := Option.isSome_iff_exists.mp hsome
  rw [overWord, overWord, hb]; rfl

theorem writeWord_full {w : Nat} {l : List (Option Byte)} {s : State} (hs : Sound s) (ok : MergesOk s) (hl : l.length = 8)
    (hf : l.all (·.isSome) = true) : StoreBytes s (bankWrite w (takeEntry { word := w, bytes := l } s)) (wordWritten w l s) := by
  have ht : Sound (takeEntry { word := w, bytes := l } s) := (takeEntry_kept (msk := 206158430208) (Kept.refl _ s) rfl).sound hs
  refine StoreBytes.same ⟨ht, ok.filter (takeEntry_merges _ s), fun a ha => ?_⟩ (bankWrite_store _ _)
    ((bankWrite_kept (m := 68719476736) (Kept.refl _ _) rfl).sound ht)
  rw [imgByte_takeEntry hs hl ha, wordWritten]
  split
  · exact overWord_full hf hl a _ _
  · rfl

/-- A narrower write over the bytes that an entry holds. -/
def joined (l k : List (Option Byte)) : List (Option Byte) := (l.zip k).map fun x => x.1.orElse fun _ => x.2

theorem joined_length {l k : List (Option Byte)} (hl : l.length = 8) (hk : k.length = 8) : (joined l k).length = 8 := by
  simp [joined, hl, hk]

theorem overWord_joined {l k : List (Option Byte)} (hl : l.length = 8) (hk : k.length = 8) (a : Nat) (x : Byte) :
    overWord (joined l k) a x = overWord l a (overWord k a x) := by
  have h1 : a % 8 < l.length := by omega
  have h2 : a % 8 < k.length := by omega
  have h3 : a % 8 < (joined l k).length := by rw [joined_length hl hk]; omega
  rw [overWord, overWord, overWord, List.getD_eq_getElem _ _ h1, List.getD_eq_getElem _ _ h2, List.getD_eq_getElem _ _ h3]
  simp only [joined, List.getElem_map, List.getElem_zip]
  cases l[a % 8] <;> rfl

/-- The entry of a word replaced. -/
def withEntry (m : Merge) (s : State) : State := { s with mem.merges := s.mem.merges.map fun x => if x.word = m.word then m else x }

theorem withEntry_words (m : Merge) (s : State) : (withEntry m s).mem.merges.map (·.word) = s.mem.merges.map (·.word) := by
  show (s.mem.merges.map fun x => if x.word = m.word then m else x).map (·.word) = _
  rw [List.map_map]
  refine List.map_congr_left fun x _ => ?_
  simp only [Function.comp]
  split
  · next h => exact h.symm
  · rfl

theorem find?_withEntry (l : List Merge) (m : Merge) (v : Nat) : (l.map fun x => if x.word = m.word then m else x).find? (fun x => decide (x.word = v)) =
    if v = m.word then (l.find? fun x => decide (x.word = v)).map fun _ => m else l.find? fun x => decide (x.word = v) := by
  have hp : ∀ x : Merge, (if x.word = m.word then m else x).word = x.word := fun x => by
    split
    · next h => exact h.symm
    · rfl
  rw [List.find?_map]
  have hc : ((fun x : Merge => decide (x.word = v)) ∘ fun x => if x.word = m.word then m else x) = fun x => decide (x.word = v) := by
    funext x
    simp only [Function.comp, hp]
  rw [hc]
  cases hf : l.find? fun x => decide (x.word = v) with
  | none => simp
  | some y =>
    have hy : y.word = v := word_of_find? hf
    simp only [Option.map_some, hy]
    by_cases hv : v = m.word <;> simp [hv]

theorem withEntry_bytes {m k : Merge} {l : List (Option Byte)} {s : State} (hs : Sound s) (ok : MergesOk s) (hl : l.length = 8)
    (hk : s.mem.merges.find? (fun x => decide (x.word = m.word)) = some k) (hm : m.bytes = joined l k.bytes) :
    StoreBytes s (withEntry m s) (wordWritten m.word l s) ∧ m ∈ (withEntry m s).mem.merges := by
  have hkm : k ∈ s.mem.merges := List.mem_of_find?_eq_some hk
  have hkw : k.word = m.word := word_of_find? hk
  have hk8 := ok.2 k hkm
  refine ⟨⟨hs.of_eq, ⟨?_, fun x hx => ?_⟩, fun a _ => ?_⟩, ?_⟩
  · rw [withEntry_words]; exact ok.1
  · obtain ⟨y, hy, rfl⟩ := List.mem_map.mp hx
    split
    · rw [hm]; exact joined_length hl hk8
    · exact ok.2 y hy
  · rw [wordWritten]
    have hf := find?_withEntry s.mem.merges m (a / 8)
    by_cases ha : a / 8 = m.word
    · have hmine : (withEntry m s).mem.merges.find? (fun x => decide (x.word = a / 8)) = some m := by
        refine hf.trans ?_
        rw [if_pos ha, ha, hk]; rfl
      rw [if_pos ha, imgByte_of_find hmine, hm, overWord_joined hl hk8, imgByte_of_find (m := k) (by rw [ha]; exact hk)]
      rfl
    · rw [if_neg ha] at hf
      rw [if_neg ha, imgByte_eq, imgByte_eq]
      exact congrArg (fun o => (Option.bind o fun m : Merge => m.bytes.getD (a % 8) none).getD (cellGet s.mem.image a)) hf
  · exact List.mem_map.mpr ⟨k, hkm, if_pos hkw⟩

/-- A new entry. -/
def addEntry (m : Merge) (s : State) : State := { s with mem.merges := s.mem.merges ++ [m] }

theorem addEntry_bytes {m : Merge} {s : State} (hs : Sound s) (ok : MergesOk s) (hl : m.bytes.length = 8)
    (hnone : s.mem.merges.find? (fun x => decide (x.word = m.word)) = none) : StoreBytes s (addEntry m s) (wordWritten m.word m.bytes s) := by
  have hmerges : (addEntry m s).mem.merges = s.mem.merges ++ [m] := rfl
  refine ⟨hs.of_eq, ⟨?_, fun x hx => ?_⟩, fun a _ => ?_⟩
  · rw [hmerges, List.map_append, List.nodup_append]
    refine ⟨ok.1, List.nodup_singleton _, fun x hx y hy hxy => ?_⟩
    obtain ⟨z, hz, rfl⟩ := List.mem_map.mp hx
    have hzm : z.word ≠ m.word := by simpa using List.find?_eq_none.mp hnone z hz
    exact hzm (hxy.trans (List.mem_singleton.mp hy))
  · rw [hmerges, List.mem_append, List.mem_singleton] at hx
    obtain hx | rfl := hx
    · exact ok.2 x hx
    · exact hl
  · rw [wordWritten]
    by_cases ha : a / 8 = m.word
    · rw [if_pos ha, imgByte_of_noFind (s := s) (by rw [ha]; exact hnone)]
      refine imgByte_of_find (m := m) (s := addEntry m s) ?_
      rw [hmerges, List.find?_append, ha, hnone]
      simp
    · rw [if_neg ha, imgByte_eq, imgByte_eq, hmerges, List.find?_append]
      rw [show [m].find? (fun x => decide (x.word = a / 8)) = none by simpa using Ne.symm ha, Option.or_none]
      rfl

theorem StoreBytes.trans_wordWritten {w : Nat} {l : List (Option Byte)} {s t u : State} (h : StoreBytes s t fun a => imgByte a s)
    (k : StoreBytes t u (wordWritten w l t)) : StoreBytes s u (wordWritten w l s) :=
  ⟨k.sound, k.ok, fun a ha => (k.byte a ha).trans (by rw [wordWritten, wordWritten, h.byte a ha])⟩

/-- The buffers of a bank with a place: the oldest entry has given way where all eight are taken. -/
theorem placed_bytes {w : Nat} {s : State} (hs : Sound s) (ok : MergesOk s) (hnone : s.mem.merges.find? (fun x => decide (x.word = w)) = none)
    {m : Merge} (hm : m ∈ s.mem.merges) :
    StoreBytes s (drain m s) (fun a => imgByte a s) ∧ (drain m s).mem.merges.find? (fun x => decide (x.word = w)) = none := by
  refine ⟨drain_bytes hs ok hm, ?_⟩
  rw [drain_merges, find?_merge_filter, hnone, ite_self]

/-- A write of a word: its bytes stand in the store or in a merge buffer, and every other byte reads as before. -/
theorem writeWord_bytes {w : Nat} {l : List (Option Byte)} {s : State} (hs : Sound s) (ok : MergesOk s) (hl : l.length = 8) :
    StoreBytes s (writeWord w l s) (wordWritten w l s) := by
  have self : StoreBytes s s fun a => imgByte a s := ⟨hs, ok, fun _ _ => rfl⟩
  have add {u : State} (h : StoreBytes s u fun a => imgByte a s) (hn : u.mem.merges.find? (fun x => decide (x.word = w)) = none) :
      StoreBytes s (addEntry { word := w, bytes := l } u) (wordWritten w l s) :=
    h.trans_wordWritten (addEntry_bytes (m := { word := w, bytes := l }) h.sound h.ok hl hn)
  unfold writeWord
  split
  · next hf => exact writeWord_full hs ok hl hf
  · split
    · next k hk =>
      have hkw : k.word = w := word_of_find? hk
      subst hkw
      obtain ⟨h1, hm⟩ := withEntry_bytes (m := { k with bytes := joined l k.bytes }) hs ok hl hk rfl
      dsimp only
      split
      · have h2 := drain_bytes h1.sound h1.ok hm
        exact ⟨h2.sound, h2.ok, fun a ha => (h2.byte a ha).trans (h1.byte a ha)⟩
      · exact h1
    · next hnone =>
      dsimp only
      split
      · next m rest hmine =>
        have hm : m ∈ s.mem.merges := List.mem_of_mem_filter (hmine ▸ List.mem_cons_self)
        split
        · obtain ⟨h1, h2⟩ := placed_bytes hs ok hnone hm
          exact add h1 h2
        · exact add self hnone
      · exact add self hnone

end Sys2Proof.Machine

/-! SUPPORT. Writes of the host into the image store, and the drain of an entry: the proofs of the two statements (R26, R171, R380). -/

namespace Sys2Proof.Machine

/-! ### Writes of many bytes -/

/-- The byte that a write from an address puts at another. -/
def writtenByte (a : Nat) (l : List Byte) (b : Nat) : Option Byte := if a ≤ b then l[b - a]? else none

theorem wordPart_length (a : Nat) (l : List Byte) (w : Nat) : (wordPart a l w).length = 8 := by simp [wordPart]

theorem overWord_wordPart (a : Nat) (l : List Byte) (b : Nat) (x : Byte) : overWord (wordPart a l (b / 8)) b x = (writtenByte a l b).getD x := by
  have h : b % 8 < (wordPart a l (b / 8)).length := by rw [wordPart_length]; omega
  rw [overWord, List.getD_eq_getElem _ _ h]
  simp only [wordPart, List.getElem_map, List.getElem_range, writtenByte]
  rw [show 8 * (b / 8) + b % 8 = b by omega]

/-- The bytes of the store with some words of a write done. -/
def wordsWritten (a : Nat) (l : List Byte) (ws : List Nat) (s : State) (b : Nat) : Byte :=
  if b / 8 ∈ ws then (writtenByte a l b).getD (imgByte b s) else imgByte b s

theorem writeWords_bytes {a : Nat} {l : List Byte} (ws : List Nat) {s : State} (hs : Sound s) (ok : MergesOk s) :
    StoreBytes s (forAll ws (fun w => writeWord w (wordPart a l w)) s) (wordsWritten a l ws s) := by
  induction ws generalizing s with
  | nil => exact ⟨hs, ok, fun b _ => (if_neg List.not_mem_nil).symm⟩
  | cons w ws ih =>
    have k := writeWord_bytes (w := w) hs ok (wordPart_length a l w)
    obtain ⟨hs', ok', hb⟩ := ih k.sound k.ok
    refine ⟨hs', ok', fun b hlt => (hb b hlt).trans ?_⟩
    rw [wordsWritten, k.byte b hlt, wordWritten, wordsWritten]
    by_cases hw : b / 8 = w
    · subst hw
      rw [if_pos rfl, if_pos List.mem_cons_self, overWord_wordPart]
      split
      · cases writtenByte a l b <;> rfl
      · rfl
    · rw [if_neg hw]
      simp only [List.mem_cons, hw, false_or]

theorem writtenByte_outside {a b : Nat} {l : List Byte} (h : b < a ∨ a + l.length ≤ b) : writtenByte a l b = none := by
  unfold writtenByte
  split
  · exact List.getElem?_eq_none (by omega)
  · rfl

theorem imgWrite_bytes {a : Nat} {l : List Byte} {s : State} (hs : Sound s) (ok : MergesOk s) :
    StoreBytes s (imgWrite a l s) (fun b => (writtenByte a l b).getD (imgByte b s)) := by
  unfold imgWrite
  split
  · next h =>
    rw [List.isEmpty_iff] at h
    subst h
    exact ⟨hs, ok, fun b _ => by rw [writtenByte_outside (by simp; omega)]; rfl⟩
  · next h =>
    have hpos : 0 < l.length := List.length_pos_iff.mpr (by simpa using h)
    obtain ⟨h1, h2, h3⟩ := writeWords_bytes (a := a) (l := l) ((List.range ((a + l.length - 1) / 8 + 1 - a / 8)).map (· + a / 8)) hs ok
    refine ⟨h1, h2, fun b hb => (h3 b hb).trans ?_⟩
    rw [wordsWritten]
    split
    · rfl
    · next hw =>
      rw [writtenByte_outside ?_]
      · rfl
      · by_contra hin
        refine hw (List.mem_map.mpr ⟨b / 8 - a / 8, List.mem_range.mpr ?_, ?_⟩)
        · omega
        · omega

theorem getElem?_leBytes {k i : Nat} (h : i < k) (x : Nat) : (leBytes k x)[i]? = some (BitVec.ofNat 8 (x / 256 ^ i)) := by
  induction k generalizing i x with
  | zero => omega
  | succ k ih =>
    cases i with
    | zero => simp [leBytes]
    | succ i =>
      rw [leBytes, List.getElem?_cons_succ, ih (by omega), Nat.div_div_eq_div_mul, ← pow_succ']

theorem writtenByte_leBytes {a i k : Nat} (h : i < k) (x : Nat) : writtenByte a (leBytes k x) (a + i) = some (BitVec.ofNat 8 (x / 256 ^ i)) := by
  rw [writtenByte, if_pos (by omega), Nat.add_sub_cancel_left, getElem?_leBytes h]

/-! ### Writes of the host (R26, R171) -/

theorem recordBad_regsBut (w : Bool) (a : Nat) (s : State) : RegsBut [rHST_BADADDR] s (recordBad w a s) ∧ (recordBad w a s).mem = s.mem := by
  have k : Kept 4587521 s (recordBad w a s) := recordBad_kept (Kept.refl _ s) rfl
  refine ⟨?_, k.same .mem (by decide)⟩
  have h1 : RegsBut [rHST_BADADDR] s (incSat fHST_BADADDR_COUNT s) := regsBut_incSat (regsBut_refl _ s) List.mem_cons_self
  unfold recordBad
  dsimp only
  split
  · exact h1
  · exact fun b hb => (signalVector_reg 7 _ _).trans
      (regsBut_setB (regsBut_setB (regsBut_setF h1 List.mem_cons_self) List.mem_cons_self) List.mem_cons_self b hb)

/-- Every byte of a write may be writtenByte. -/
def mayWrite (a size : Nat) (s : State) : Prop := ∀ i, i < size → imgWritable (a + i) s = true

theorem mayWrite_iff {a size : Nat} {s : State} : mayWrite a size s ↔ ((List.range size).all fun i => imgWritable (a + i) s) = true := by
  simp [mayWrite]

theorem imageWindowWrite_may {a size v : Nat} {s : State} (h : mayWrite a size s) :
    imageWindowWrite (0x1000000 + a) size v s = imgWrite a (leBytes size v) s := by
  unfold imageWindowWrite
  rw [show 0x1000000 + a - imageBase = a by unfold imageBase; omega]
  exact if_pos (mayWrite_iff.mp h)

theorem imageWindowWrite_mayNot {a size v : Nat} {s : State} (h : ¬ mayWrite a size s) :
    imageWindowWrite (0x1000000 + a) size v s = recordBad true (0x1000000 + a) s := by
  unfold imageWindowWrite
  rw [show 0x1000000 + a - imageBase = a by unfold imageBase; omega]
  exact if_neg (mayWrite_iff.not.mp h)

theorem imgWritable_staging {a : Nat} (s : State) (h1 : 0x1FA0000 ≤ a) (h2 : a < 0x1FC0000) : imgWritable a s = true := if_pos ⟨h1, h2⟩

theorem imgWritable_below {a : Nat} (s : State) (h : a < 0x1FA0000) : imgWritable a s = false :=
  (if_neg (by omega)).trans (if_neg (by omega))

/-- Settles O50: a write that may be made puts its bytes word by word; another is recorded. -/
theorem imageStoreWrites : Obligations.ImageStoreWrites := by
  intro a size v s hs ok hrun h0 h8 hend c may
  have hexec : exec c s = .next (hostAccess (imageWindowWrite (0x1000000 + a) size v) s) :=
    next_congr (if_pos ⟨by unfold imageBase; omega, by unfold imageBase imageSize; omega, h0, h8⟩)
  refine ⟨fun hm => ?_, fun hm => ?_, fun ha hm => ?_, fun ha1 ha2 i hi => imgWritable_staging s (by omega) (by omega)⟩
  · have k := imgWrite_bytes (a := a) (l := leBytes size v) hs ok
    refine gives_of_access hrun hexec (imageWindowWrite_may hm) ⟨k.ok, fun i hi => ?_, fun b hb hout => ?_⟩
    · exact (k.byte (a + i) (by omega)).trans (by rw [writtenByte_leBytes hi]; rfl)
    · exact (k.byte b hb).trans (by rw [writtenByte_outside (by rw [length_leBytes]; exact hout)]; rfl)
  · obtain ⟨hr, hmem⟩ := recordBad_regsBut true (0x1000000 + a) s
    refine ⟨_, hexec.trans (next_access hrun), ?_, fun b hb => ?_⟩
    · rw [imageWindowWrite_mayNot hm]; exact hmem
    · rw [imageWindowWrite_mayNot hm]; exact hr b hb
  · have := hm 0 h0
    rw [imgWritable_below s (by omega)] at this
    exact absurd this (by decide)

/-! ### The drain of an entry (R380) -/

theorem exec_mergeDrain {m : Merge} {s : State} (h : s.mem.merges.find? (fun x => decide (x.word = m.word)) = some m) :
    exec (.mergeDrain m.word) s = .next (drain m s) := by
  show Host.Outcome.next (match s.mem.merges.find? fun x => decide (x.word = m.word) with | some m => drain m s | none => s) = _
  rw [h]

theorem exec_mergeDrain_none {w : Nat} {s : State} (h : ∀ x ∈ s.mem.merges, x.word ≠ w) : exec (.mergeDrain w) s = .next s := by
  have hf : s.mem.merges.find? (fun x => decide (x.word = w)) = none := List.find?_eq_none.mpr fun x hx => by simpa using h x hx
  show Host.Outcome.next (match s.mem.merges.find? fun x => decide (x.word = w) with | some m => drain m s | none => s) = _
  rw [hf]

/-- A word that a partial entry finds uncorrectable takes POISON. -/
theorem wordBad_drain {m : Merge} {s : State} (hn : none ∈ m.bytes) (hb : wordBad m.word s = true) : wordBad m.word (drain m s) = true := by
  have hfull : (m.bytes.all (·.isSome)) = false := List.all_eq_false.mpr ⟨none, hn, by simp⟩
  unfold drain
  dsimp only
  rw [hfull, if_pos (by simp [hb])]
  simp [wordBad, flawAt, setFlaw, FlawKind.isUe]

/-- Settles O51: the entry of the word, where there is one, is drained. -/
theorem mergeDrainKeepsBytes : Obligations.MergeDrainKeepsBytes := by
  intro word s hs ok
  refine ⟨?_, fun h => exec_mergeDrain_none h⟩
  by_cases h : ∀ x ∈ s.mem.merges, x.word ≠ word
  · refine gives_of_next (exec_mergeDrain_none h) ⟨ok, fun _ _ => rfl, ?_, fun m hm hw => absurd hw (h m hm)⟩
    exact (List.filter_eq_self.mpr fun x hx => decide_eq_true (h x hx)).symm
  · simp only [not_forall, ne_eq, not_not] at h
    obtain ⟨m, hm, rfl⟩ := h
    have k := drain_bytes hs ok hm
    refine gives_of_next (exec_mergeDrain (find?_merge_of_mem ok.1 hm)) ⟨k.ok, k.byte, drain_merges m s, fun x hx hw hn hb => ?_⟩
    have hxm : x = m := List.inj_on_of_nodup_map ok.1 hx hm hw
    subst hxm
    exact wordBad_drain hn hb

end Sys2Proof.Machine

/-! SUPPORT. The fault collector: a fault latched and recorded, its registers cleared by the host, and the history's POP (R11, R342, R431,
R432, R439). -/

namespace Sys2Proof.Machine

/-! ### Faults that are recorded -/

/-- A fault raised on a state that differs from `s` beside the collector's registers only is latched, and joins the history of `s`. -/
theorem raiseSimple_recorded {s t : State} (ht : Sound t) {src cls detail : Nat} {e : Bool} (hsrc : src < 48)
    (htick : t.reg rTRK_TICK = s.reg rTRK_TICK) (hflt : t.flt = s.flt) :
    (getF fFLT_STATUS_STATUS (raiseSimple src cls e detail t)).testBit src = true ∧
    ∃ x, (raiseSimple src cls e detail t).flt.hist = (if s.flt.hist.length < 32 then s.flt.hist else s.flt.hist.drop 1) ++ [x] ∧
      x.source = src ∧ x.cls = cls ∧ x.detail = detail ∧ x.tick = s.reg rTRK_TICK := by
  obtain ⟨x, hsource, hclass, hdetail, hat, hhist⟩ := raiseSimple_hist src cls detail e t
  refine ⟨?_, x, by rw [hhist, hflt], hsource, hclass, hdetail, hat.trans htick⟩
  rw [raiseSimple_status ht hsrc, Nat.testBit_or, Nat.testBit_two_pow_self, Bool.or_true]

/-- The clocks' status after PLL `p` has gone to its duplicate. -/
def lostLock (p : Nat) (s : State) : State :=
  setF fCLK_STAT_DUP (getF fCLK_STAT_DUP s + 2 ^ p)
    (setF fCLK_STAT_LOCK (if (getF fCLK_STAT_LOCK s).testBit p then getF fCLK_STAT_LOCK s - 2 ^ p else getF fCLK_STAT_LOCK s) s)

theorem lostLock_shows {s : State} (hs : Sound s) {p : Nat} (hp : p < 6) (hdup : (getF fCLK_STAT_DUP s).testBit p = false) :
    (getF fCLK_STAT_DUP (lostLock p s)).testBit p = true ∧ (getF fCLK_STAT_LOCK (lostLock p s)).testBit p = false := by
  unfold lostLock
  rw [getF_setF_same (sound_setF hs _ _) _ (by decide), getF_setF_other (sound_setF hs _ _) _ (by decide) (.inr (.inl (by decide))),
    getF_setF_same hs _ (by decide), Nat.testBit_mod_two_pow, Nat.testBit_mod_two_pow, testBit_add_two_pow hdup]
  refine ⟨by simp [fCLK_STAT_DUP, hp], ?_⟩
  split
  next hlock => rw [testBit_sub_two_pow hlock, Bool.and_false]
  next hlock => rw [Bool.eq_false_iff.mpr hlock, Bool.and_false]

theorem exec_pllLockLoss {s : State} {p : Nat} (hp : p < 6) (hdup : (getF fCLK_STAT_DUP s).testBit p = false) :
    exec (.pllLockLoss p) s = .next (raiseSimple srcClock clsNote false 1 (lostLock p s)) := by
  have h : ¬ (6 ≤ p ∨ (getF fCLK_STAT_DUP s).testBit p = true) := by simp [hdup]; omega
  exact congrArg _ (if_neg h)

/-- A bus whose chopper has not followed its command. -/
def chopperFault (m : Nat) (s : State) : State :=
  setB (fBUS_STAT_CHOP_FAULT m) true (setB (fBUS_STAT_FB m) (!getB (fBUS_STAT_CHOP m) s) s)

theorem exec_chopFbMismatch {s : State} {m : Nat} (hm : m < 2) :
    exec (.chopFbMismatch m) s = .next (raiseSimple srcBusChop clsNote false m (chopperFault m s)) :=
  congrArg _ (if_pos hm)

theorem busStat_not_faultReg : ∀ m, m < 2 → rBUS_STAT m ∉ faultRegs := by decide

/-- Settles O53: each fault is `raiseSimple` after its own mark, which lies outside the collector's registers. -/
theorem faultsAreRecorded : Obligations.FaultsAreRecorded := by
  unfold Obligations.FaultsAreRecorded
  intro s hs
  dsimp only
  refine ⟨fun p hp hdup => ?_, fun m hm => ?_⟩
  · obtain ⟨hdup', hlock⟩ := lostLock_shows hs hp hdup
    have hbeside : RegsBut faultRegs (lostLock p s) (raiseSimple srcClock clsNote false 1 (lostLock p s)) :=
      raiseSimple_regs (regsBut_refl _ _) fun _ h => h
    have hregs : RegsBut [rCLK_STAT] s (lostLock p s) :=
      regsBut_setF (regsBut_setF (regsBut_refl _ s) List.mem_cons_self) List.mem_cons_self
    refine gives_of_next (exec_pllLockLoss hp hdup)
      ⟨⟨?_, ?_⟩, raiseSimple_recorded (sound_setF (sound_setF hs _ _) _ _) (by decide) (hregs.reg (by decide)) rfl⟩
    · rw [hbeside.getF (by decide), hdup']
    · rw [hbeside.getF (by decide), hlock]
  · have hbeside : RegsBut faultRegs (chopperFault m s) (raiseSimple srcBusChop clsNote false m (chopperFault m s)) :=
      raiseSimple_regs (regsBut_refl _ _) fun _ h => h
    have hregs : RegsBut [rBUS_STAT m] s (chopperFault m s) :=
      regsBut_setB (regsBut_setB (regsBut_refl _ s) List.mem_cons_self) List.mem_cons_self
    have htick : rTRK_TICK ∉ [rBUS_STAT m] := by simp only [List.mem_singleton, rTRK_TICK, rBUS_STAT]; omega
    refine gives_of_next (exec_chopFbMismatch hm)
      ⟨?_, raiseSimple_recorded (sound_setB (sound_setB hs _ _) _ _) (by decide) (hregs.reg htick) rfl⟩
    rw [hbeside.getF (busStat_not_faultReg m hm)]
    exact getF_setB_same (sound_setB hs _ _) true (by simp [fBUS_STAT_CHOP_FAULT]) rfl

/-! ### FLT_STATUS cleared by the host (R11, R431) -/

/-- A mask of all bits of a field but one. -/
theorem testBit_and_allBut {w j k : Nat} (y : Nat) (hj : j < w) (hk : k < w) :
    (y &&& (2 ^ w - 1 - 2 ^ j)).testBit k = (y.testBit k && decide (k ≠ j)) := by
  have e : 2 ^ w - 1 - 2 ^ j = 2 ^ w - (2 ^ j + 1) := by omega
  rw [Nat.testBit_and, e, Nat.testBit_two_pow_sub_succ (Nat.pow_lt_pow_right (by decide) hj), Nat.testBit_two_pow]
  simp [hk, eq_comm]

/-- The bits that the events of a list have set leave a value. -/
theorem testBit_forAll_allBut {w lo : Nat} (l : List (Nat × Nat)) (hl : ∀ p ∈ l, lo ≤ p.2 ∧ p.2 < lo + w) {k : Nat} (hk : k < w) (x : Nat) :
    (forAll l (fun p y => y &&& (2 ^ w - 1 - 2 ^ (p.2 - lo))) x).testBit k = (x.testBit k && decide (∀ p ∈ l, p.2 ≠ lo + k)) := by
  induction l generalizing x with
  | nil => simp [forAll]
  | cons p l ih =>
    obtain ⟨hlo, hhi⟩ := hl p List.mem_cons_self
    have ih' := ih (fun q hq => hl q (List.mem_cons_of_mem _ hq)) (x &&& (2 ^ w - 1 - 2 ^ (p.2 - lo)))
    simp only [forAll, List.foldl_cons] at ih' ⊢
    rw [ih', testBit_and_allBut x (by omega) hk, Bool.and_assoc, ← Bool.decide_and]
    have e : (k ≠ p.2 - lo) ↔ p.2 ≠ lo + k := by omega
    simp only [e, List.forall_mem_cons]

/-- A bit of what the host asks to clear stands unless an event of this tick has set it. -/
theorem testBit_clearable {g : Field} (s : State) (x : Nat) {k : Nat} (hk : k < g.width) :
    (clearable g s x).testBit k = (x.testBit k && !s.raised.contains (g.reg, g.lo + k)) := by
  unfold clearable
  rw [testBit_forAll_allBut (lo := g.lo) _ (fun p hp => by simp at hp; omega) hk]
  congr 1
  rw [Bool.eq_iff_iff]
  simp only [List.mem_filter, Bool.and_eq_true, decide_eq_true_eq, Bool.not_eq_true', List.contains_eq_mem, decide_eq_false_iff_not]
  constructor
  · intro h hm
    exact h (g.reg, g.lo + k) ⟨hm, ⟨rfl, by omega⟩, by dsimp only; omega⟩ rfl
  · rintro h ⟨a, b⟩ ⟨hm, ⟨rfl, _⟩, _⟩ rfl
    exact h hm

/-- The sum of the powers of two that a test keeps holds exactly the bits that it keeps. -/
theorem testBit_sum_kept (c : Nat → Bool) (n k : Nat) :
    ((List.range n).foldl (fun a i => if c i then a else a + 2 ^ i) 0).testBit k = (decide (k < n) && !c k) ∧
    (List.range n).foldl (fun a i => if c i then a else a + 2 ^ i) 0 < 2 ^ n := by
  induction n with
  | zero => simp
  | succ n ih =>
    obtain ⟨hbit, hlt⟩ := ih
    rw [List.range_succ, List.foldl_append]
    simp only [List.foldl_cons, List.foldl_nil]
    generalize (List.range n).foldl (fun a i => if c i then a else a + 2 ^ i) 0 = a at *
    have hpow : 2 ^ (n + 1) = 2 ^ n + 2 ^ n := by omega
    split
    next hc =>
      refine ⟨?_, by omega⟩
      rcases eq_or_ne k n with rfl | hkn
      · simp [hbit, hc]
      · rw [hbit]; congr 1; simp; omega
    next hc =>
      refine ⟨?_, by omega⟩
      rcases lt_trichotomy k n with hkn | rfl | hkn
      · rw [Nat.add_comm, Nat.testBit_two_pow_add_gt hkn, hbit]; congr 1; simp; omega
      · rw [testBit_add_two_pow (by simp [hbit])]; simp [hc]
      · rw [Nat.testBit_lt_two_pow (lt_of_lt_of_le (show a + 2 ^ n < 2 ^ (n + 1) by omega) (Nat.pow_le_pow_right (by decide) hkn))]
        simp; omega

theorem testBit_statusClear {s : State} (hs : Sound s) (v : Nat) {k : Nat} (hk : k < 48) :
    (getF fFLT_STATUS_STATUS (statusClear v s)).testBit k =
    ((getF fFLT_STATUS_STATUS s).testBit k && !(v.testBit k && !sourceActive k s && !s.raised.contains (rFLT_STATUS, k))) := by
  unfold statusClear
  dsimp only
  rw [getF_setF_same hs _ (by decide), Nat.testBit_mod_two_pow, Nat.testBit_and, (testBit_sum_kept _ 48 k).1,
    testBit_clearable s v (show k < fFLT_STATUS_STATUS.width from hk)]
  have hw : k < fFLT_STATUS_STATUS.width := hk
  have e : fFLT_STATUS_STATUS.lo + k = k := Nat.zero_add k
  rw [e]
  simp only [hk, hw, decide_true, Bool.true_and]
  show _ = (_ && !(v.testBit k && !sourceActive k s && !s.raised.contains (fFLT_STATUS_STATUS.reg, k)))
  rw [Bool.and_right_comm]

/-! ### POP of the history (R439) -/

theorem showHist_regsBut (s : State) :
    RegsBut [rFLT_HIST_STAT, rFLT_HIST0, rFLT_HIST1, rFLT_HIST2, rFLT_HIST3] s (showHist s) := by
  unfold showHist
  dsimp only
  split <;> repeat' refine regsBut_setReg ?_ (by decide)
  all_goals exact regsBut_refl _ _

/-- The registers of the history's oldest record `x`, above the depth. -/
def histFields (x : Hist) (s : State) : State :=
  setF fFLT_HIST0_SOURCE x.source (setF fFLT_HIST0_CLASS x.cls (setF fFLT_HIST0_ESCALATED (if x.escalated then 1 else 0)
    (setF fFLT_HIST0_DETAIL x.detail (setF fFLT_HIST0_SEQ x.seq s))))

theorem histFields_regsBut (x : Hist) (s : State) : RegsBut [rFLT_HIST0] s (histFields x s) := by
  unfold histFields
  repeat' refine regsBut_setF ?_ (by decide)
  exact regsBut_refl _ _

theorem histFields_shows {s : State} (hs : Sound s) (x : Hist) : getF fFLT_HIST0_SOURCE (histFields x s) = x.source % 64 ∧
    getF fFLT_HIST0_CLASS (histFields x s) = x.cls % 8 ∧ getF fFLT_HIST0_DETAIL (histFields x s) = x.detail % 256 := by
  have h1 := sound_setF hs fFLT_HIST0_SEQ x.seq
  have h2 := sound_setF h1 fFLT_HIST0_DETAIL x.detail
  have h3 := sound_setF h2 fFLT_HIST0_ESCALATED (if x.escalated then 1 else 0)
  have h4 := sound_setF h3 fFLT_HIST0_CLASS x.cls
  unfold histFields
  refine ⟨getF_setF_same h4 _ (by decide), ?_, ?_⟩
  · rw [getF_setF_other h4 _ (by decide) (.inr (.inr (by decide))), getF_setF_same h3 _ (by decide)]; rfl
  · rw [getF_setF_other h4 _ (by decide) (.inr (.inr (by decide))), getF_setF_other h3 _ (by decide) (.inr (.inr (by decide))),
      getF_setF_other h2 _ (by decide) (.inr (.inr (by decide))), getF_setF_same h1 _ (by decide)]
    rfl

theorem showHist_cons {s : State} {x : Hist} {l : List Hist} (h : s.flt.hist = x :: l) : showHist s =
    (((histFields x (setF fFLT_HIST_STAT_DEPTH (l.length + 1) s)).setReg rFLT_HIST1 x.time).setReg rFLT_HIST2 x.pos).setReg rFLT_HIST3 x.tick := by
  unfold showHist histFields
  simp only [h, List.length_cons]

theorem showHist_shows {s : State} (hs : Sound s) {x : Hist} {l : List Hist} (h : s.flt.hist = x :: l) (hl : l.length < 31) :
    getF fFLT_HIST_STAT_DEPTH (showHist s) = l.length + 1 ∧ getF fFLT_HIST0_SOURCE (showHist s) = x.source % 64 ∧
    getF fFLT_HIST0_CLASS (showHist s) = x.cls % 8 ∧ getF fFLT_HIST0_DETAIL (showHist s) = x.detail % 256 ∧
    (showHist s).reg rFLT_HIST1 = x.time ∧ (showHist s).reg rFLT_HIST2 = x.pos ∧ (showHist s).reg rFLT_HIST3 = x.tick := by
  have hd := sound_setF hs fFLT_HIST_STAT_DEPTH (l.length + 1)
  obtain ⟨hsource, hclass, hdetail⟩ := histFields_shows hd x
  have hf := histFields_regsBut x (setF fFLT_HIST_STAT_DEPTH (l.length + 1) s)
  have hsize : Sound (histFields x (setF fFLT_HIST_STAT_DEPTH (l.length + 1) s)) :=
    sound_setF (sound_setF (sound_setF (sound_setF (sound_setF hd _ _) _ _) _ _) _ _) _ _
  rw [showHist_cons h]
  generalize histFields x (setF fFLT_HIST_STAT_DEPTH (l.length + 1) s) = t at *
  have hrest : RegsBut [rFLT_HIST1, rFLT_HIST2, rFLT_HIST3] t
      (((t.setReg rFLT_HIST1 x.time).setReg rFLT_HIST2 x.pos).setReg rFLT_HIST3 x.tick) :=
    regsBut_setReg (regsBut_setReg (regsBut_setReg (regsBut_refl _ t) (by decide)) (by decide)) (by decide)
  refine ⟨?_, (hrest.getF (by decide)).trans hsource, (hrest.getF (by decide)).trans hclass, (hrest.getF (by decide)).trans hdetail, ?_, ?_, ?_⟩
  · rw [hrest.getF (by decide), hf.getF (by decide), getF_setF_same hs _ (by decide)]
    exact Nat.mod_eq_of_lt (show l.length + 1 < 2 ^ 6 by omega)
  · rw [reg_setReg_other _ _ (by decide), reg_setReg_other _ _ (by decide), reg_setReg_same hsize]
  · rw [reg_setReg_other _ _ (by decide), reg_setReg_same (sound_setReg hsize _ _)]
  · rw [reg_setReg_same (sound_setReg (sound_setReg hsize _ _) _ _)]

/-- POP takes the oldest record off the history, and the registers show the next. -/
theorem histPop_shows {s : State} (hs : Sound s) {x y : Hist} {l : List Hist} (h : s.flt.hist = x :: y :: l) (hl : l.length < 31) :
    (histPop s).flt = { s.flt with hist := y :: l } ∧ getF fFLT_HIST_STAT_DEPTH (histPop s) = l.length + 1 ∧
    getF fFLT_HIST0_SOURCE (histPop s) = y.source % 64 ∧ getF fFLT_HIST0_CLASS (histPop s) = y.cls % 8 ∧
    getF fFLT_HIST0_DETAIL (histPop s) = y.detail % 256 ∧ (histPop s).reg rFLT_HIST1 = y.time ∧ (histPop s).reg rFLT_HIST2 = y.pos ∧
    (histPop s).reg rFLT_HIST3 = y.tick ∧ RegsBut [rFLT_HIST_STAT, rFLT_HIST0, rFLT_HIST1, rFLT_HIST2, rFLT_HIST3] s (histPop s) := by
  have hdrop : s.flt.hist.drop 1 = y :: l := by rw [h]; rfl
  have hpop : histPop s = showHist { s with flt.hist := y :: l } := by unfold histPop; rw [hdrop]
  obtain ⟨hdepth, hsource, hclass, hdetail, htime, hpos, htick⟩ := showHist_shows (s := { s with flt.hist := y :: l }) hs.of_eq rfl hl
  rw [hpop]
  exact ⟨showHist_flt _, hdepth, hsource, hclass, hdetail, htime, hpos, htick, fun a ha => showHist_regsBut _ a ha⟩

/-- Settles O54: `testBit_statusClear` for the clearing, `histPop_shows` for POP. -/
theorem historyAndStatus : Obligations.HistoryAndStatus := by
  unfold Obligations.HistoryAndStatus
  intro v s hs
  refine ⟨fun hrun => ?_, fun hrun x y l h hl => ?_⟩
  · have hregs : RegsBut [rFLT_STATUS] s (statusClear v s) := regsBut_setF (regsBut_refl _ s) List.mem_cons_self
    have hbits := fun k hk => testBit_statusClear hs v (k := k) hk
    generalize ht : statusClear v s = t at hregs hbits
    exact gives_of_access hrun rfl ht ⟨hregs, hbits⟩
  · have hshown := histPop_shows hs h hl
    generalize ht : histPop s = t at hshown
    exact gives_of_access hrun rfl ht hshown

end Sys2Proof.Machine

/-! SUPPORT. Rail plans and snapshots of the power island, and the ageing records (R448, R453, R464 to R473). -/

namespace Sys2Proof.Machine

/-! ### Rail plans in fuses (R448) -/

/-- Where the burn is refused. -/
theorem planBurn_refused {ok : Bool} {s : State}
    (h : ¬ ((s.lc.state = .blank ∨ s.lc.state = .provisioned) ∧ wordGet ((s.pwr.fused.getD (getF fPWR_CMD_INDEX s) []).getD 0 0) 45 1 ≠ 1)) :
    planBurn ok s = setF fPWR_STAT_BURN_RESULT 3 s := by
  have hc : (s.lc.state ≠ .blank ∧ s.lc.state ≠ .provisioned) ∨
      wordGet ((s.pwr.fused.getD (getF fPWR_CMD_INDEX s) []).getD 0 0) 45 1 = 1 := by
    by_contra hn
    simp only [not_or, not_and_or, ne_eq, not_not] at hn h
    rcases h with h | h
    · exact hn.1.elim h.1 h.2
    · exact hn.2 h
  exact if_pos hc

/-- Where the burn is performed. -/
theorem planBurn_performed {ok : Bool} {s : State}
    (h : (s.lc.state = .blank ∨ s.lc.state = .provisioned) ∧ wordGet ((s.pwr.fused.getD (getF fPWR_CMD_INDEX s) []).getD 0 0) 45 1 ≠ 1) :
    planBurn ok s =
      let k := getF fPWR_CMD_INDEX s
      let buf := (List.range 13).map fun w => s.reg (rPWR_PLANBUF w)
      let new := (buf.zip (s.pwr.fused.getD k [])).map fun x => x.1 ||| x.2
      if ok ∧ new = buf then setF fPWR_STAT_BURN_RESULT 1 (modPwr (fun p => { p with fused := p.fused.set k new }) s)
      else setF fPWR_STAT_BURN_RESULT 2 s := by
  have hc : ¬ ((s.lc.state ≠ .blank ∧ s.lc.state ≠ .provisioned) ∨
      wordGet ((s.pwr.fused.getD (getF fPWR_CMD_INDEX s) []).getD 0 0) 45 1 = 1) := by
    rintro (⟨hb, hp⟩ | hv)
    · exact h.1.elim hb hp
    · exact h.2 hv
  exact if_neg hc

theorem planBuf_setIndex (k : Nat) (s : State) :
    ((List.range 13).map fun w => (setF fPWR_CMD_INDEX k s).reg (rPWR_PLANBUF w)) = (List.range 13).map fun w => s.reg (rPWR_PLANBUF w) :=
  List.map_congr_left fun w _ => reg_setF_other s _ (by simp only [fPWR_CMD_INDEX, rPWR_CMD, rPWR_PLANBUF]; omega)

/-! ### POP of a snapshot (R453) -/

/-- What the SNAP registers show. -/
def snapShown (w : List Word) : List (Nat × Word) := (List.range 32).map fun k => (rPWR_SNAP k, w.getD k 0)

theorem snapShown_addresses (w : List Word) : (snapShown w).map (·.1) = (List.range 32).map rPWR_SNAP := by
  simp [snapShown, Function.comp_def]

theorem showSnaps_cons {s : State} {x : Snap} {l : List Snap} (h : s.pwr.snaps = x :: l) :
    showSnaps s = setF fPWR_SNAP_STAT_DEPTH (l.length + 1) (writeRegs (snapShown x.words) s) := by
  simp [showSnaps, h, writeRegs, snapShown, forAll, List.foldl_map]

theorem showSnaps_shows {s : State} (hs : Sound s) {x : Snap} {l : List Snap} (h : s.pwr.snaps = x :: l) (hl : l.length < 7) :
    getF fPWR_SNAP_STAT_DEPTH (showSnaps s) = l.length + 1 ∧ (∀ w, w < 32 → (showSnaps s).reg (rPWR_SNAP w) = x.words.getD w 0) ∧
    RegsBut (rPWR_SNAP_STAT :: (List.range 32).map rPWR_SNAP) s (showSnaps s) := by
  rw [showSnaps_cons h]
  refine ⟨?_, fun w hw => ?_, regsBut_setF ?_ List.mem_cons_self⟩
  · rw [getF_setF_same (writeRegs_sound hs) _ (by decide)]
    exact Nat.mod_eq_of_lt (show l.length + 1 < 2 ^ 3 by omega)
  · have hne : rPWR_SNAP w ≠ rPWR_SNAP_STAT := by simp only [rPWR_SNAP, rPWR_SNAP_STAT]; omega
    have hmem : (rPWR_SNAP w, x.words.getD w 0) ∈ snapShown x.words := List.mem_map_of_mem (List.mem_range.mpr hw)
    rw [reg_setF_other _ _ hne]
    exact writeRegs_reads hs (by rw [snapShown_addresses]; decide) hmem
  · exact (writeRegs_regsBut _ s).mono fun a ha => List.mem_cons_of_mem _ (by rwa [snapShown_addresses] at ha)

/-- Settles O55: `planBurn_refused` and `planBurn_performed` after the index is written, `showSnaps_shows` for POP. -/
theorem plansAndSnapshots : Obligations.PlansAndSnapshots := by
  unfold Obligations.PlansAndSnapshots
  intro k took s hs hk
  have hindex : getF fPWR_CMD_INDEX (setF fPWR_CMD_INDEX k s) = k := (getF_setF_same hs k (by decide)).trans (Nat.mod_eq_of_lt hk)
  have hbuf := planBuf_setIndex k s
  have hsk := sound_setF hs fPWR_CMD_INDEX k
  refine ⟨fun h => ?_, fun h htook hfits => ?_, fun h htook => ?_, fun hrun x y l h hl => ?_⟩
  · exact next_congr (planBurn_refused (by rw [hindex]; exact h))
  · have e := planBurn_performed (ok := took) (s := setF fPWR_CMD_INDEX k s) (by rw [hindex]; exact h)
    simp only [hindex, hbuf, setF_pwr] at e
    rw [if_pos ⟨htook, hfits⟩, hfits] at e
    exact gives_of_next (next_congr e) ⟨getF_setF_same hsk.of_eq _ (by decide), rfl⟩
  · have e := planBurn_performed (ok := took) (s := setF fPWR_CMD_INDEX k s) (by rw [hindex]; exact h)
    rw [if_neg (by simp [htook])] at e
    exact gives_of_next (next_congr e) ⟨getF_setF_same hsk _ (by decide), rfl⟩
  · have hdrop : s.pwr.snaps.drop 1 = y :: l := by rw [h]; rfl
    have hpop : snapPop s = showSnaps { s with pwr.snaps := y :: l } := by unfold snapPop modPwr; dsimp only; rw [hdrop]
    have hpwr : (showSnaps { s with pwr.snaps := y :: l }).pwr = { s.pwr with snaps := y :: l } :=
      (showSnaps_kept (m := 1) (Kept.refl _ _) rfl).same .pwr (by decide)
    exact gives_of_access hrun rfl hpop ⟨hpwr, showSnaps_shows (s := { s with pwr.snaps := y :: l }) hs.of_eq rfl hl⟩

/-! ### Ageing records -/

theorem mem_releasedJobs {s : State} {j : Nat} :
    j ∈ releasedJobs s ↔ ∃ x ∈ s.sch.jobs, x.2.seq = j ∧ (x.2.state = .released ∨ x.2.state = .started) := by
  simp only [releasedJobs, List.mem_map, List.mem_filter, Bool.or_eq_true, decide_eq_true_eq]
  constructor
  · rintro ⟨x, ⟨hx, hstate⟩, rfl⟩; exact ⟨x, hx, rfl, hstate⟩
  · rintro ⟨x, hx, rfl, hstate⟩; exact ⟨x, ⟨hx, hstate⟩, rfl⟩

/-- The jobs that a switch waits for hold it back while one of them is released. -/
theorem any_releasedJobs {s : State} {l : List Nat} : (l.any fun j => (releasedJobs s).contains j) = true ↔
    ∃ j ∈ l, ∃ x ∈ s.sch.jobs, x.2.seq = j ∧ (x.2.state = .released ∨ x.2.state = .started) := by
  simp only [List.any_eq_true, List.contains_eq_mem, decide_eq_true_eq, mem_releasedJobs]

theorem clockSwitch_none {s : State} (h : s.age.switch = none) : clockSwitch s = s := by simp only [clockSwitch, h]

theorem clockSwitch_some {s : State} {l : List Nat} (h : s.age.switch = some l) : clockSwitch s =
    if l.any fun j => (releasedJobs s).contains j then s
    else setF fCLK_DERATE_K (derate s) { s with age.switch := none, age.kAge := getF fCLK_DERATE_K_AGE s } := by
  simp only [clockSwitch, h]

theorem driftBaseline_eq {n : Nat} (hn : n < 8) (s : State) : driftBaseline n s = match frictionTable n s with
    | some l => modAge (fun a => { a with base := a.base.set n (some l) }) s
    | none => setB fAGE_STAT_BAD_TABLE true s := if_neg (Nat.not_le.mpr hn)

/-- AMP_REF changes the port that it is written to, and no other; the events of the tick are beside the ports. -/
theorem takesReference_port {h : Nat} {s : State} (hs : Sound s) (hh : h < 16) {x : List (Nat × Nat)} :
    let t : State := { modPort h (fun p => { p with refDue := true, refCnt := 0 }) s with raised := x }
    portOf h t = { portOf h s with refDue := true, refCnt := 0 } ∧ ∀ m, m ≠ h → portOf m t = portOf m s :=
  ⟨port_mod_same (f := fun p => { p with refDue := true, refCnt := 0 }) hs hh,
    fun _ hm => port_mod_other (f := fun p => { p with refDue := true, refCnt := 0 }) hm⟩

/-- Settles O56, command by command. -/
theorem ageingRecords : Obligations.AgeingRecords := by
  unfold Obligations.AgeingRecords
  intro n h s hs hh hn
  refine ⟨fun htable => ?_, fun l htable => ?_, fun hrun => ?_, fun hswitch => ?_, fun l hswitch hwaits => ?_, fun l hswitch hdone => ?_⟩
  · exact next_congr (by rw [driftBaseline_eq hn, htable]; rfl)
  · exact next_congr (by rw [driftBaseline_eq hn, htable]; rfl)
  · exact gives_of_access hrun rfl (if_pos hh) (takesReference_port hs hh)
  · exact next_congr (clockSwitch_none hswitch)
  · exact next_congr (by rw [clockSwitch_some hswitch, if_pos (any_releasedJobs.mpr hwaits)])
  · have e : clockSwitch s = setF fCLK_DERATE_K (derate s) { s with age.switch := none, age.kAge := getF fCLK_DERATE_K_AGE s } := by
      rw [clockSwitch_some hswitch, if_neg fun hc => hdone (any_releasedJobs.mp hc)]
    refine gives_of_next (next_congr e) ⟨rfl, ?_, regsBut_setF (regsBut_of_regs rfl) List.mem_cons_self⟩
    rw [getF_setF_same hs.of_eq _ (by decide)]
    exact Nat.mod_eq_of_lt (lt_of_le_of_lt (Nat.min_le_right _ 8) (by decide))

end Sys2Proof.Machine

/-! SUPPORT. Ways back: a line out of LINE_SAFE, RESTORE of a head, and GIVEBACK of a Chamois (R108, R250, R252, R434). -/

namespace Sys2Proof.Machine

/-! ### LINE_SAFE (R108, R434) -/

/-- Reject outputs do not hold what sent a line into LINE_SAFE. -/
theorem trackRejs_safeSrc (s : State) : (trackRejs s).sch.safeSrc = s.sch.safeSrc :=
  forAll_inv (fun t => t.sch.safeSrc = s.sch.safeSrc) _ trackRej s rfl fun _ _ _ h => h

theorem lineStateChanged_safeSrc (n old : Nat) (s : State) : (lineStateChanged n old s).sch.safeSrc = s.sch.safeSrc :=
  congrArg Sched.safeSrc ((lineStateChanged_kept (m := 545521665) (Kept.refl _ s) rfl).same .sch (by decide))

/-- What keeps line `n` in LINE_SAFE. -/
def HeldSafe (n : Nat) (s : State) : Prop :=
  getF fFLT_REC_DEVICE_SAFE s = 1 ∨ ∃ k ∈ s.sch.safeSrc.getD n [], (getF fFLT_STATUS_STATUS s).testBit k = true

theorem lineSafeExit_guard {n : Nat} (hn : n < 4) (s : State) : (4 ≤ n ∨ !getB (fSCH_LINE_STAT_LINE_SAFE n) s ∨ getB fFLT_REC_DEVICE_SAFE s ∨
    (s.sch.safeSrc.getD n []).any fun k => (getF fFLT_STATUS_STATUS s).testBit k) ↔
    getF (fSCH_LINE_STAT_LINE_SAFE n) s ≠ 1 ∨ HeldSafe n s := by
  simp only [HeldSafe, List.any_eq_true, Bool.not_eq_true', getB_iff, ← Bool.not_eq_true, ne_eq, Nat.not_le.mpr hn, false_or]

theorem lineSafeExit_held {n : Nat} {s : State} (hn : n < 4) (h : getF (fSCH_LINE_STAT_LINE_SAFE n) s ≠ 1 ∨ HeldSafe n s) :
    lineSafeExit n s = s := by
  unfold lineSafeExit
  rw [if_pos ((lineSafeExit_guard hn s).mpr h)]

theorem lineSafeExit_leaves {n : Nat} {s : State} (hn : n < 4) (h : ¬ (getF (fSCH_LINE_STAT_LINE_SAFE n) s ≠ 1 ∨ HeldSafe n s)) :
    (lineSafeExit n s).sch.safeSrc = s.sch.safeSrc.set n [] := by
  unfold lineSafeExit
  rw [if_neg (mt (lineSafeExit_guard hn s).mp h)]
  dsimp only
  rw [showArming, setB_sch, trackRejs_safeSrc, lineStateChanged_safeSrc, setF_sch, setB_sch]

/-! ### RESTORE (R252) -/

theorem restoreHead_ignored {h : Nat} {s : State} (hk : headState h s ≠ 3 ∨ engState (.sq h) s ≠ 1) : restoreHead h s = s :=
  if_neg fun ⟨_, hlost, hidle⟩ => hk.elim (fun e => e hlost) (fun e => e hidle)

/-! ### GIVEBACK (R250) -/

theorem exec_giveback {c : Nat} (s : State) (hc : c < 20) : exec (.giveback c) s = .next (hostAccess (giveback c) s) := congrArg _ (if_pos hc)

theorem driver_of_headOf {c h : Nat} {s : State} (hc : 16 ≤ c) (e : headOf c s = some h) : driver h s = c := by
  unfold headOf at e
  rw [if_neg (Nat.not_lt.mpr hc)] at e
  dsimp only at e
  split at e
  next hd => cases e; exact hd.2
  next => cases e

/-- The request noted on the path of head `h`. -/
def givebackNoted (h : Nat) (s : State) : State := setPath h { path h s with giveback := true } s

theorem giveback_notes {c h : Nat} {s : State} (hc : 16 ≤ c) (e : headOf c s = some h) (hidle : engState (.sq h) s = 1) :
    giveback c s = pathEmptied h (givebackNoted h s) := by
  unfold giveback
  rw [if_pos hc, e]
  exact if_pos hidle

theorem giveback_ignored {c h : Nat} {s : State} (hk : c < 16 ∨ headOf c s = none ∨ engState (.sq h) s ≠ 1)
    (e : headOf c s = none ∨ headOf c s = some h) : giveback c s = s := by
  unfold giveback
  split
  next g hg =>
    have hc : 16 ≤ c := by by_contra hn; rw [if_neg hn] at hg; cases hg
    rw [if_pos hc] at hg
    have hgh : g = h := by rcases e with e | e <;> cases hg.symm.trans e; rfl
    subst hgh
    exact if_neg ((hk.resolve_left (Nat.not_lt.mpr hc)).resolve_left (by simp [hg]))
  next => rfl

theorem givebackNoted_path {h : Nat} {s : State} (hs : Sound s) (hh : h < 16) : path h (givebackNoted h s) = { path h s with giveback := true } :=
  path_set_same' (by rw [paths_length hs]; exact hh)

theorem givebackNoted_other {h m : Nat} {s : State} (hm : m ≠ h) : path m (givebackNoted h s) = path m s := path_set_other' hm

/-- A path that holds jobs does not come to its end. -/
theorem pathEmptied_busy {h : Nat} {s : State} (hb : (path h s).cur.isSome = true ∨ (path h s).queue ≠ []) : pathEmptied h s = s :=
  if_pos (by simpa using hb)

/-- A give-back begins on an empty path whose home sequencer is IDLE and has no STOP pending. -/
theorem pathEmptied_gives {h : Nat} {s : State} (hb : ¬ ((path h s).cur.isSome = true ∨ (path h s).queue ≠ []))
    (hasked : (path h s).giveback = true) (htake : (path h s).takeover = none) (hstop : getF (fSQ_STAT_STOP_PEND h) s = 0)
    (haway : driver h s ≠ h) (hidle : sqState h s = 1) : pathEmptied h s = setPath h { path h s with giving := true } s := by
  have hstop' : ¬ getB (fSQ_STAT_STOP_PEND h) s = true := by rw [getB_iff, hstop]; decide
  unfold pathEmptied
  dsimp only
  rw [if_neg (by simpa using hb), if_neg hstop', if_pos ⟨hasked, by simp [htake], haway, hidle⟩]

/-- Settles O57: `lineSafeExit_held` and `lineSafeExit_leaves`, `restoreHead_ignored`, and `giveback_notes` followed by the end of the path's
jobs. -/
theorem waysBack : Obligations.WaysBack := by
  unfold Obligations.WaysBack
  intro n h s hn hh hs hrun
  refine ⟨fun hk => ?_, fun hsafe hk => ?_, fun hk => ?_, fun c hlo hhi hc hidle => ?_, fun c hc hk e => ?_⟩
  · exact next_congr (hostAccess_same (lineSafeExit_held hn hk))
  · exact gives_of_access hrun rfl rfl (lineSafeExit_leaves hn (by rintro (hx | hx); exacts [hx hsafe, hk hx]))
  · exact next_congr (hostAccess_same (restoreHead_ignored hk))
  · have hpath := givebackNoted_path hs hh
    have hnote := giveback_notes hlo hc hidle
    have hregs : RegsBut [] s (givebackNoted h s) := regsBut_of_regs rfl
    generalize ht : givebackNoted h s = t at *
    have hother (m : Nat) (hm : m ≠ h) : path m t = path m s := ht ▸ givebackNoted_other hm
    refine ⟨fun hbusy => ?_, fun hfree htake hstop => ?_⟩
    · rw [pathEmptied_busy (by rw [hpath]; exact hbusy)] at hnote
      exact gives_of_access hrun (exec_giveback s hhi) hnote ⟨hregs, hpath, hother⟩
    · have haway : driver h t ≠ h := by
        rw [driver, hregs.getF List.not_mem_nil, ← driver, driver_of_headOf hlo hc]; omega
      have hidle' : sqState h t = 1 := (hregs.getF List.not_mem_nil).trans hidle
      have hstop' : getF (fSQ_STAT_STOP_PEND h) t = 0 := (hregs.getF List.not_mem_nil).trans hstop
      rw [pathEmptied_gives (by rw [hpath]; exact hfree) (by rw [hpath]) (by rw [hpath]; exact htake) hstop' haway hidle', hpath] at hnote
      have hlen : h < t.paths.length := by rw [← ht, givebackNoted, paths_length (sound_setPath' hs)]; exact hh
      exact gives_of_access hrun (exec_giveback s hhi) hnote
        ⟨hregs, path_set_same' hlen, fun m hm => (path_set_other' hm).trans (hother m hm)⟩
  · exact (exec_giveback s hc).trans (next_congr (hostAccess_same (giveback_ignored hk e)))

end Sys2Proof.Machine

/-! SUPPORT. The line ports: frames that are discarded, messages that are refused, answers to ARP, and the PTP slave's offset (R362 to R365). -/

namespace Sys2Proof.Machine

/-! ### Frames that arrive at a line port (R362) -/

/-- A frame that the port discards and counts. -/
def Discarded (x : RxFrame) : Prop := x.frag = true ∨ 1 < x.tags ∨ 1522 < x.len

theorem lineArrival_off {p : Nat} {x : RxFrame} {f : State → State} {s : State} (hon : ¬ getF (fLNP_CFG_EN p) s = 1) : lineArrival p x f s = s := by
  refine if_pos (.inr ?_)
  rw [← getB_iff] at hon
  simp [hon]

theorem lineArrival_on {p : Nat} {x : RxFrame} {f : State → State} {s : State} (hp : p < 2) (hon : getF (fLNP_CFG_EN p) s = 1) :
    lineArrival p x f s = if x.frag ∨ 1 < x.tags ∨ 1522 < x.len then incSat (fLNP_CNT_RX_DROP p) s else f s := by
  refine if_neg ?_
  rw [← getB_iff] at hon
  simp [hon, hp]

theorem lineArrival_discarded {p : Nat} {x : RxFrame} {f : State → State} {s : State} (hp : p < 2) (hon : getF (fLNP_CFG_EN p) s = 1)
    (hx : Discarded x) : lineArrival p x f s = incSat (fLNP_CNT_RX_DROP p) s := (lineArrival_on hp hon).trans (if_pos hx)

theorem lineArrival_taken {p : Nat} {x : RxFrame} {f : State → State} {s : State} (hp : p < 2) (hon : getF (fLNP_CFG_EN p) s = 1)
    (hx : ¬ Discarded x) : lineArrival p x f s = f s := (lineArrival_on hp hon).trans (if_neg hx)

/-! ### SPEED (R365) -/

theorem seqFollows_iff (last : Option Nat) (n : Nat) : seqFollows last n = true ↔
    ∀ l, last = some l → 1 ≤ (n + 2 ^ 32 - l) % 2 ^ 32 ∧ (n + 2 ^ 32 - l) % 2 ^ 32 ≤ 2 ^ 31 - 1 := by
  cases last with
  | none => simp [seqFollows]
  | some l =>
    simp only [seqFollows, Bool.and_eq_true, decide_eq_true_eq, Option.some.injEq, forall_eq']
    omega

/-- What R365 asks of a SPEED message from the address `src`. -/
def SpeedFits (p src : Nat) (m : List Byte) (s : State) : Prop :=
  let n := leAt m 6 1
  let seq := leAt m 8 4
  n < 4 ∧ (getF fLNP_SPD_EN s).testBit n = true ∧ ((getF fLNP_SPD_PORT s).testBit n = true ↔ p = 1) ∧
    src ≠ 0 ∧ getF (fLNP_PEER_PEER_IP p) s = src ∧ getF (fTRK_LINE_CTL_SRC n) s = 2 ∧
    ∀ l, s.lnp.rxSeq.getD n none = some l → 1 ≤ (seq + 2 ^ 32 - l) % 2 ^ 32 ∧ (seq + 2 ^ 32 - l) % 2 ^ 32 ≤ 2 ^ 31 - 1

/-- The test of R365 as the port makes it. -/
theorem speedTest_iff (p src : Nat) (m : List Byte) (s : State) :
    (let n := leAt m 6 1
    let bound := decide (n < 4) && (getF fLNP_SPD_EN s).testBit n && decide ((getF fLNP_SPD_PORT s).testBit n = decide (p = 1))
    let peer := decide (src ≠ 0) && decide (getF (fLNP_PEER_PEER_IP p) s = src)
    bound && peer && decide (getF (fTRK_LINE_CTL_SRC n) s = 2) && seqFollows (s.lnp.rxSeq.getD n none) (leAt m 8 4)) = true ↔
    SpeedFits p src m s := by
  have hport (b : Bool) : b = decide (p = 1) ↔ (b = true ↔ p = 1) := by rw [Bool.eq_iff_iff, decide_eq_true_eq]
  simp only [SpeedFits, Bool.and_eq_true, decide_eq_true_eq, seqFollows_iff, hport, and_assoc]

theorem lineSpeedMessage_refused {p src : Nat} {m : List Byte} {s : State} (hm : isSpeed m = true) (h : ¬ SpeedFits p src m s) :
    lineSpeedMessage p src m s = incSat (fLNP_CNT_SPD_REJ p) s := by
  unfold lineSpeedMessage
  rw [if_neg (by simp [hm])]
  exact if_neg (mt (speedTest_iff p src m s).mp h)

/-! ### ARP (R362) -/

@[simp] theorem length_beBytes (k x : Nat) : (beBytes k x).length = k := by simp [beBytes]

@[simp] theorem length_padTo (k : Nat) (l : List Byte) : (padTo k l).length = k := by simp [padTo]

theorem length_vlanTag (p : Nat) (s : State) : (vlanTag p s).length = if getF (fLNP_CFG_VLAN_EN p) s = 1 then 4 else 0 := by
  unfold vlanTag
  simp only [getB_iff]
  split <;> simp

/-- A frame of a short payload has the least length that Ethernet has, and four bytes more with a tag. -/
theorem length_ethernetFrame {p dst type : Nat} {body : List Byte} {s : State} (h : body.length ≤ 46) :
    (ethernetFrame p dst type body s).length = if getF (fLNP_CFG_VLAN_EN p) s = 1 then 68 else 64 := by
  unfold ethernetFrame
  simp only [List.length_append, length_beBytes, length_padTo, length_leBytes, length_vlanTag, Nat.max_eq_left h]
  split <;> rfl

theorem take_ethernetFrame (p dst type : Nat) (body : List Byte) (s : State) :
    (ethernetFrame p dst type body s).take 12 = beBytes 6 dst ++ beBytes 6 (getF (fLNP_MAC_MAC p) s) := by
  unfold ethernetFrame
  simp only [List.append_assoc]
  rw [← List.append_assoc]
  exact List.take_left' (by simp)

/-! ### PTP (R363) -/

/-- The port, the domain and the transport on which the slave takes PTP messages. -/
def PtpMine (p : Nat) (y : PtpMsg) (s : State) : Prop :=
  getF fLNP_PTP_EN s = 1 ∧ getF fLNP_PTP_PORT s = p ∧ getF fLNP_PTP_DOMAIN s = y.domain ∧ (getF fLNP_PTP_TRANSPORT s = 1 ↔ y.ethernet = true)

theorem ptpMessage_guard (p : Nat) (y : PtpMsg) (s : State) : (getB fLNP_PTP_EN s = false ∨ getF fLNP_PTP_PORT s ≠ p ∨
    getF fLNP_PTP_DOMAIN s ≠ y.domain ∨ getB fLNP_PTP_TRANSPORT s ≠ y.ethernet) ↔ ¬ PtpMine p y s := by
  simp only [PtpMine, not_and_or, ← getB_iff, ← Bool.eq_iff_iff, Bool.not_eq_true, ne_eq]

theorem ptpMessage_foreign {p : Nat} {y : PtpMsg} {lock : Bool} {s : State} (h : ¬ PtpMine p y s) : ptpMessage p y lock s = s :=
  if_pos ((ptpMessage_guard p y s).mpr h)

theorem ptpMessage_sync {p : Nat} {y : PtpMsg} {lock : Bool} {s : State} {d : Int} (h : PtpMine p y s) (hkind : y.kind = .sync false)
    (htx : y.tx = none) (hd : s.lnp.ptp.delay = some d) : ptpMessage p y lock s =
    ptpOffset (5 * y.rx - y.time - d) lock (modPtp (fun x => { x with waiting := none, sync := some (y.time, 5 * y.rx) }) s) := by
  unfold ptpMessage
  rw [if_neg (not_not_intro h ∘ (ptpMessage_guard p y s).mp), hkind, htx]
  simp only [ptpRequest, ptpSync, hd]

theorem codeOf_lt (w : Nat) (x : Int) : codeOf w x < 2 ^ w := by
  have hpos : (0 : Int) < (2 ^ w : Nat) := Int.natCast_pos.mpr (Nat.two_pow_pos w)
  exact (Int.toNat_lt (Int.emod_nonneg x hpos.ne')).mpr (Int.emod_lt_of_pos x hpos)

theorem ptpOffset_shows {s : State} (hs : Sound s) (o : Int) (lock : Bool) : (getF fLNP_PTP_LOCK (ptpOffset o lock s) = 1 ↔ lock = true) ∧
    getF fLNP_PTP_OFFSET (ptpOffset o lock s) = codeOf 32 o ∧ RegsBut [rLNP_PTP] s (ptpOffset o lock s) := by
  unfold ptpOffset setI
  have hso := sound_setF hs fLNP_PTP_OFFSET (codeOf fLNP_PTP_OFFSET.width o)
  refine ⟨?_, ?_, regsBut_setB (regsBut_setF (regsBut_refl _ s) List.mem_cons_self) List.mem_cons_self⟩
  · rw [getF_setB_same hso lock (by decide) rfl]
    cases lock <;> decide
  · rw [getF_setB_other hso lock (by decide) (.inr (.inr (by decide))), getF_setF_same hs _ (by decide)]
    exact Nat.mod_eq_of_lt (codeOf_lt 32 o)

theorem notDiscarded_ptp : ¬ Discarded { frag := false, tags := 0, len := 0 } := by simp [Discarded]

/-- Settles O58: `lineArrival_off`, `lineArrival_discarded` and `lineArrival_taken`, then the protocol's own lemma. -/
theorem linePortMessages : Obligations.LinePortMessages := by
  unfold Obligations.LinePortMessages
  intro p dst mac ip target route x m y delay lock s hp
  refine ⟨fun hon => ⟨?_, ?_, ?_, ?_⟩, fun hon hx => ⟨?_, ?_, ?_⟩, fun hon hx hmine => ?_, fun hon hx hmine hm hfits => ?_,
    fun hon hx htarget => ?_, fun hon hx htarget => ?_, fun hon hx hlen hdst => ?_, fun hon hmine => ?_,
    fun hon hs hmine hkind htx hd => ?_⟩
  · exact next_congr (lineArrival_off hon)
  · exact next_congr (lineArrival_off hon)
  · exact next_congr (lineArrival_off hon)
  · exact next_congr (lineArrival_off hon)
  · exact next_congr (lineArrival_discarded hp hon hx)
  · exact next_congr (lineArrival_discarded hp hon hx)
  · exact next_congr (lineArrival_discarded hp hon hx)
  · exact next_congr ((lineArrival_taken hp hon hx).trans (if_neg hmine))
  · exact next_congr ((lineArrival_taken hp hon hx).trans ((if_pos hmine).trans (lineSpeedMessage_refused hm hfits)))
  · exact ⟨_, length_ethernetFrame (by simp), take_ethernetFrame _ _ _ _ _, next_congr ((lineArrival_taken hp hon hx).trans (if_pos htarget))⟩
  · exact next_congr ((lineArrival_taken hp hon hx).trans (if_neg htarget))
  · exact next_congr ((lineArrival_taken hp hon hx).trans ((if_neg (Nat.not_lt.mpr hlen)).trans (if_neg fun h => hdst h.1)))
  · exact next_congr ((lineArrival_taken hp hon notDiscarded_ptp).trans (ptpMessage_foreign hmine))
  · obtain ⟨hlock, hoffset, hregs⟩ := ptpOffset_shows
      (s := modPtp (fun x => { x with waiting := none, sync := some (y.time, 5 * y.rx) }) s) hs.of_eq (5 * y.rx - y.time - delay) lock
    exact gives_of_next (next_congr ((lineArrival_taken hp hon notDiscarded_ptp).trans (ptpMessage_sync hmine hkind htx hd)))
      ⟨rfl, rfl, hlock, hoffset, hregs⟩

end Sys2Proof.Machine

/-! SUPPORT. The peer ports: symbol lock, frames that are discarded, and a line's broadcasts (R366 to R370). -/

namespace Sys2Proof.Machine

/-! ### Frames that leave (R366, R368) -/

/-- The body of a frame of this unit. -/
def frameBodyOf (type src dst lseq : Nat) (payload : List Byte) : List Byte :=
  leBytes 1 type ++ leBytes 1 src ++ leBytes 1 dst ++ leBytes 1 lseq ++ payload

/-- A frame on the wire, its type first. -/
def wireFrame (type src dst lseq : Nat) (payload : List Byte) : List Byte :=
  frameBodyOf type src dst lseq payload ++ leBytes 4 (crc32c (frameBodyOf type src dst lseq payload))

theorem leAt_wireFrame {type : Nat} (h : type < 256) (src dst lseq : Nat) (payload : List Byte) :
    leAt (wireFrame type src dst lseq payload) 0 1 = type := by
  simp only [wireFrame, frameBodyOf, List.append_assoc]
  exact (leAt_front 1 type _).trans (Nat.mod_eq_of_lt h)

/-- A port that is DOWN sends nothing. -/
theorem sendOcing_down {p type dst : Nat} {payload : List Byte} {s : State} (h : oclState p s = 0) : sendOcing p type dst payload s = s := by
  unfold sendOcing sendFrom
  rw [if_neg (by simp [h])]

/-- An unreliable frame leaves on an ACTIVE port and nothing else changes. -/
theorem sendOcing_active {p type dst : Nat} {payload : List Byte} {s : State} (h : oclState p s = 3) (hu : oclReliable type = false) :
    sendOcing p type dst payload s = send (.ocing p (wireFrame type (getF fOCL_CFG_UNIT_ID s) dst 0 payload)) s := by
  unfold sendOcing sendFrom sendBody wireFrame frameBodyOf
  rw [if_pos (.inl h)]
  simp [hu]

/-- An unreliable frame changes what has been sent at most. -/
theorem sendOcing_unreliable {p type dst : Nat} {payload : List Byte} {s : State} (hu : oclReliable type = false) :
    ∃ l, sendOcing p type dst payload s = { s with sent := s.sent ++ l } := by
  unfold sendOcing sendFrom
  simp only [hu]
  split
  · exact ⟨_, rfl⟩
  · exact ⟨[], by simp⟩

/-- A reliable frame of the link itself leaves a port in TRAINING. -/
theorem sendOcing_training {p type dst : Nat} {payload : List Byte} {s : State} (h : oclState p s = 1) (ht : type ≤ 3)
    (hr : oclReliable type = true) : ∃ n, (sendOcing p type dst payload s).sent =
      s.sent ++ [.ocing p (wireFrame type (getF fOCL_CFG_UNIT_ID s) dst n payload)] := by
  unfold sendOcing sendFrom sendBody wireFrame frameBodyOf
  rw [if_pos (.inr ⟨h, ht⟩)]
  simp only [hr]
  exact ⟨_, rfl⟩

theorem sendOcing_regs (p type dst : Nat) (payload : List Byte) (s : State) : (sendOcing p type dst payload s).regs = s.regs := by
  unfold sendOcing sendFrom
  split
  · dsimp only
    split <;> rfl
  · rfl

/-! ### Symbol lock (R368) -/

theorem oclStateField_fit (p : Nat) : (oclStateField p).lo + (oclStateField p).width ≤ 48 ∧ (oclStateField p).width = 2 := by
  unfold oclStateField; split <;> decide

theorem oclState_set {s : State} (hs : Sound s) (p : Nat) {x : Nat} (hx : x < 4) : oclState p (setF (oclStateField p) x s) = x := by
  obtain ⟨hfit, hw⟩ := oclStateField_fit p
  rw [oclState, getF_setF_same hs x hfit, hw]
  exact Nat.mod_eq_of_lt hx

theorem symbolLock_ignored {p : Nat} {s : State} (h : getF (oclStateField p) s ≠ 0 ∨ ¬ getF fOCL_CFG_EN s = 1) : symbolLock p s = s := by
  refine if_pos (.inr ?_)
  rcases h with h | h
  · exact .inr h
  · rw [← getB_iff] at h; exact .inl (by simp [h])

theorem symbolLock_trains {p : Nat} {s : State} (hs : Sound s) (hp : p < 2) (h : getF (oclStateField p) s = 0) (hon : getF fOCL_CFG_EN s = 1) :
    getF (oclStateField p) (symbolLock p s) = 1 ∧ RegsBut [(oclStateField p).reg] s (symbolLock p s) ∧
    ∃ f, (symbolLock p s).sent = s.sent ++ [.ocing p f] ∧ leAt f 0 1 = 2 := by
  rw [← getB_iff] at hon
  have hst : oclState p s = 0 := h
  have htrain := oclState_set hs p (x := 1) (by decide)
  unfold symbolLock
  rw [if_neg (by simp [hp, hon, hst])]
  have hregs := sendOcing_regs p 0x02 0xFF (leBytes 1 (unitId s) ++ deviceId s ++ leBytes 4 (fwSlot (runningSlot s) s).version)
    (setF (oclStateField p) 1 s)
  obtain ⟨n, hsent⟩ := sendOcing_training (dst := 0xFF)
    (payload := leBytes 1 (unitId s) ++ deviceId s ++ leBytes 4 (fwSlot (runningSlot s) s).version) htrain (type := 0x02) (by decide) (by decide)
  exact ⟨((regsBut_of_regs hregs).getF (l := []) List.not_mem_nil).trans htrain,
    regsBut_trans (regsBut_setF (regsBut_refl _ s) List.mem_cons_self) (regsBut_of_regs hregs), _, hsent, leAt_wireFrame (by decide) _ _ _ _⟩

/-! ### POS frames that come in (R366) -/

theorem receiveFrame_down {p type : Nat} {b : List Byte} {fwd : List Byte → State → List Byte} {act : List Byte → State → State} {s : State}
    (h : oclState p s = 0) : receiveFrame p type b fwd act s = s := if_pos (.inr h)

theorem receiveFrame_bad {p type : Nat} {b : List Byte} {fwd : List Byte → State → List Byte} {act : List Byte → State → State} {s : State}
    (hp : p < 2) (h : oclState p s ≠ 0) (hb : frameGood b = false) : receiveFrame p type b fwd act s = incSat fOCL_ERR_CRC_ERR s := by
  unfold receiveFrame
  rw [if_neg (by simp [hp, h]), if_pos hb]

theorem receiveFrame_inactive {p type : Nat} {b : List Byte} {fwd : List Byte → State → List Byte} {act : List Byte → State → State} {s : State}
    (h : oclState p s ≠ 3) (ht : 3 < type) (hb : frameGood b = true) : receiveFrame p type b fwd act s = s := by
  unfold receiveFrame
  split
  · rfl
  · rw [if_neg (by simp [hb]), if_pos (.inr (by simp [h, ht]))]

/-! ### Broadcasts (R369, R370) -/

/-- The payload of a POS frame of line `n`. -/
def posPayload (n : Nat) (s : State) : List Byte :=
  leBytes 1 (n + 4 * lineState n s) ++ leBytes 1 (s.ocl.posSeq.getD n 0) ++ leBytes 6 (pM n s).toNat ++ leBytes 6 (codeOf 48 (velocity n s)) ++
    leBytes 2 0

/-- The sequence number of line `n`'s broadcasts counted on. -/
def posCounted (n : Nat) (s : State) : State := { s with ocl.posSeq := s.ocl.posSeq.set n ((s.ocl.posSeq.getD n 0 + 1) % 256) }

theorem posBroadcast_ignored {n : Nat} {s : State} (h : 4 ≤ n ∨ ¬ getF fOCL_CFG_EN s = 1 ∨ (getF fOCL_BCAST_EN s).testBit n = false) :
    posBroadcast n s = s := by
  rw [← getB_iff] at h
  exact if_pos (by simpa using h)

theorem posBroadcast_leaves {n : Nat} {s : State} (hn : n < 4) (hon : getF fOCL_CFG_EN s = 1) (hb : (getF fOCL_BCAST_EN s).testBit n = true) :
    posBroadcast n s = sendOcing 1 0x10 0xFF (posPayload n s) (sendOcing 0 0x10 0xFF (posPayload n s) (posCounted n s)) := by
  rw [← getB_iff] at hon
  exact if_neg (by simp [hn, hon, hb])

/-- Settles O59: an unreliable frame leaves by `sendOcing_active` and not by `sendOcing_down`, and HELLO by `symbolLock_trains`. -/
theorem peerPorts : Obligations.PeerPorts := by
  unfold Obligations.PeerPorts
  intro p n body resid s hs hp
  refine ⟨fun h hon => ?_, fun h => ?_, fun h => ?_, fun h hb => ?_, fun h => ?_, fun h => ?_, fun hn hon hb => ?_⟩
  · exact gives_of_next rfl (symbolLock_trains hs hp h hon)
  · exact next_congr (symbolLock_ignored h)
  · exact next_congr (if_neg fun hk => hk.2 h)
  · exact next_congr (receiveFrame_bad hp h hb)
  · rcases h with h | ⟨h, hb⟩
    · exact next_congr (receiveFrame_down h)
    · exact next_congr (receiveFrame_inactive h (by decide) hb)
  · exact next_congr (posBroadcast_ignored h)
  · have hu : oclReliable 0x10 = false := by decide
    obtain ⟨l, hl⟩ := sendOcing_unreliable (p := 0) (dst := 0xFF) (payload := posPayload n s) (s := posCounted n s) hu
    obtain ⟨k, hk⟩ := sendOcing_unreliable (p := 1) (dst := 0xFF) (payload := posPayload n s)
      (s := sendOcing 0 0x10 0xFF (posPayload n s) (posCounted n s)) hu
    refine gives_of_next (next_congr (posBroadcast_leaves hn hon hb)) ⟨by rw [hk, hl]; rfl, fun h0 h1 => ?_, fun h0 h1 => ?_⟩
    · rw [sendOcing_active (p := 0) (s := posCounted n s) h0 hu, sendOcing_active (p := 1) (s := send _ (posCounted n s)) h1 hu]
      exact ⟨_, List.append_assoc _ _ _⟩
    · rw [sendOcing_down (p := 0) (s := posCounted n s) h0, sendOcing_down (p := 1) (s := posCounted n s) h1]
      rfl

end Sys2Proof.Machine

/-! SUPPORT. A trial's confirmation, the end of an update session, and the copies that are rebuilt (R37, R417, R426, R427). -/

namespace Sys2Proof.Machine

/-! ### Firmware slots -/

theorem fwSlot_setSlot_same {k : Nat} (x : FwSlot) {s : State} (hk : k < s.primer.slots.length) : fwSlot k (setSlot k x s) = x := by
  simp [fwSlot, setSlot, modPrimer, hk]

theorem fwSlot_setSlot_other {j k : Nat} (x : FwSlot) (s : State) (hj : j ≠ k) : fwSlot j (setSlot k x s) = fwSlot j s := by
  simp [fwSlot, setSlot, modPrimer, hj.symm]

theorem slots_setSlot (k : Nat) (x : FwSlot) (s : State) : (setSlot k x s).primer.slots.length = s.primer.slots.length := by
  simp [setSlot, modPrimer]

/-- A slot of the state's firmware is the same where the slots are. -/
theorem fwSlot_of_slots {s t : State} (h : t.primer.slots = s.primer.slots) (k : Nat) : fwSlot k t = fwSlot k s := by rw [fwSlot, h, fwSlot]

/-! ### Confirmation of a trial (R427) -/

theorem inTrial_iff (s : State) : inTrial s = true ↔ ∃ x ∈ s.primer.slots, x.state = 4 :=
  List.any_eq_true.trans (exists_congr fun _ => and_congr_right fun _ => decide_eq_true_iff)

/-- What makes a trial's confirmation due. -/
def ConfirmDue (s : State) : Prop :=
  (∃ x ∈ s.primer.slots, x.state = 4) ∧ s.primer.switch = .none ∧ s.primer.confirmMin ≠ 0 ∧
    s.primer.confirmMin * 60 * 200000000 ≤ (s.reg rTRK_TICK - s.primer.trialFrom).toNat

theorem confirmTimer_guard (s : State) :
    (inTrial s ∧ s.primer.switch = .none ∧ s.primer.confirmMin ≠ 0 ∧ confirmTicks s ≤ trialTicks s) ↔ ConfirmDue s := by
  rw [inTrial_iff]; rfl

theorem exec_confirmTimer_early {s : State} (h : ¬ ConfirmDue s) : exec .confirmTimer s = .next s :=
  next_congr (if_neg (mt (confirmTimer_guard s).mp h))

theorem exec_confirmTimer_due {s : State} (h : ConfirmDue s) : exec .confirmTimer s = .next (confirmTrial s) :=
  next_congr (if_pos ((confirmTimer_guard s).mpr h))

/-- The slots after a confirmation: the trial's slot is ACTIVE, the other PREVIOUS. -/
theorem confirmTrial_slots {s : State} (hslots : s.primer.slots.length = 2) (hactive : s.primer.active < 2) :
    fwSlot (1 - s.primer.active) (confirmTrial s) = { fwSlot (1 - s.primer.active) s with state := slotActive } ∧
    (fwSlot s.primer.active (confirmTrial s)).state = slotPrevious := by
  have hne : 1 - s.primer.active ≠ s.primer.active := by omega
  have hset : (confirmTrial s).primer.slots =
      (setSlotState s.primer.active slotPrevious (setSlotState (1 - s.primer.active) slotActive s)).primer.slots := rfl
  rw [fwSlot_of_slots hset, fwSlot_of_slots hset]
  refine ⟨(fwSlot_setSlot_other _ _ hne).trans (fwSlot_setSlot_same _ (by omega)), ?_⟩
  have hlen : s.primer.active < (setSlotState (1 - s.primer.active) slotActive s).primer.slots.length := by
    rw [setSlotState, slots_setSlot]; omega
  rw [setSlotState, fwSlot_setSlot_same _ hlen]

/-! ### The end of a session (R417) -/

theorem exec_updateSessionTimeout_early {s : State}
    (h : ∀ x, s.primer.session = some x → (s.reg rTRK_TICK - x.last).toNat < 2000000000) : exec .updateSessionTimeout s = .next s := by
  refine next_congr ?_
  split
  next x hx => exact if_neg (Nat.not_le.mpr (h x hx))
  next => rfl

theorem exec_updateSessionTimeout_late {s : State} {x : Session} (hx : s.primer.session = some x)
    (h : 2000000000 ≤ (s.reg rTRK_TICK - x.last).toNat) :
    exec .updateSessionTimeout s = .next (setSlot (sessionSlot s) {} (endSession slotEmpty s)) := by
  refine next_congr ?_
  rw [hx]
  exact if_pos h

/-- The session's slot is EMPTY after its end, and the active one stands. -/
theorem endSession_slots {s : State} (hslots : s.primer.slots.length = 2) (hactive : s.primer.active < 2) :
    fwSlot (1 - s.primer.active) (setSlot (sessionSlot s) {} (endSession slotEmpty s)) = {} ∧
    fwSlot s.primer.active (setSlot (sessionSlot s) {} (endSession slotEmpty s)) = fwSlot s.primer.active s := by
  have hne : s.primer.active ≠ sessionSlot s := by unfold sessionSlot; omega
  have hlen : sessionSlot s < (endSession slotEmpty s).primer.slots.length := by
    rw [endSession, setSlotState, slots_setSlot]; unfold sessionSlot modPrimer; dsimp only; omega
  refine ⟨fwSlot_setSlot_same _ hlen, ?_⟩
  rw [fwSlot_setSlot_other _ _ hne]
  exact (fwSlot_setSlot_other _ _ hne).trans (fwSlot_of_slots rfl _)

/-! ### Copies that are rebuilt (R37) -/

theorem copyRebuilt_ledger {n : Nat} (s : State) (hn : n < 4) : ledger n (copyRebuilt s) = ledger n s := by
  have h : ledger n (copyRebuilt s) = ((List.range 4).map fun m => ledger m s).getD n {} := rfl
  rw [h]
  simp [List.getD_eq_getElem?_getD, hn]

theorem copyRebuilt_counter (k : Nat) (s : State) : counter k (copyRebuilt s) = counter k s := rfl

/-- REBUILD is cleared; the copies lie beside the registers. -/
theorem copyRebuilt_rebuild {s : State} (hs : Sound s) : getF fFLT_REC_REBUILD (copyRebuilt s) = 0 :=
  (getF_reg fFLT_REC_REBUILD (setB fFLT_REC_REBUILD false s) (copyRebuilt s) rfl).trans (getF_setB_same hs false (by decide) rfl)

/-- Settles O60, command by command. -/
theorem trialsSessionsCopies : Obligations.TrialsSessionsCopies := by
  unfold Obligations.TrialsSessionsCopies
  intro s hs hslots hactive
  refine ⟨exec_confirmTimer_early, fun hdue => ?_, exec_updateSessionTimeout_early, fun x hx hlate => ?_, ?_⟩
  · obtain ⟨hnew, hold⟩ := confirmTrial_slots hslots hactive
    exact gives_of_next (exec_confirmTimer_due hdue) ⟨rfl, by rw [hnew]; rfl, hold, rfl, rfl, by rw [hnew]⟩
  · exact gives_of_next (exec_updateSessionTimeout_late hx hlate) ⟨rfl, endSession_slots hslots hactive⟩
  · exact gives_of_next rfl ⟨rfl, rfl, fun n hn => copyRebuilt_ledger s hn, fun k => copyRebuilt_counter k s, copyRebuilt_rebuild hs,
      regsBut_setB (regsBut_of_regs rfl) List.mem_cons_self⟩

end Sys2Proof.Machine
